-- ==== Sys2Proof/Word.lean ====
section
/-! DEFINITION. The plainest types of the module's interfaces: a byte, a 64-bit register word and the stamp.
Numbers that the manual only counts, compares or indexes with are `Nat`; a `BitVec` is used where the
manual treats a value as bits. -/
namespace Sys2Proof

/-- One byte of memory. -/
abbrev Byte := BitVec 8

/-- A 64-bit register of the BAR0 space. -/
abbrev Word := BitVec 64

/-- An 80-bit stamp (R5, R24): bits [79:16] count nanoseconds of TAI, bits [15:0] are the logical count. -/
structure Stamp where
  ns : Nat
  lc : Nat
  deriving DecidableEq, Repr, Inhabited

/-- A field of a response, record or message: `bytes` bytes holding `val`, little-endian (R4). -/
structure Fld where
  bytes : Nat
  val : Nat
  deriving DecidableEq, Repr, Inhabited

end Sys2Proof
end

