-- ==== Sys2Proof/Syntax/Core.lean ====
section
/-! DEFINITION. Operand types shared by the commands of several families: the header of a mailbox command, and the
kinds of register write that are ignored and counted. -/
namespace Sys2Proof

/-- What comes with every mailbox command (R74) and how it reached the module.
`dt` is the time since the previous command of the queue, in nanoseconds of T (log entry 2).
`mb` is the mailbox; for a sideband message (25–28) it is the number the endpoint is, or will be, served at.
`lenOk` says that `entries` and `param_len` match the opcode's form; `rsvdOk` that every reserved field is zero.
`endpoint` is the sending MCTP endpoint and `entries` the bytes of the command entries that its message brings (sideband only, R63);
`ideT` is the T bit of the carrying IDE stream. -/
structure Hdr where
  dt : Nat
  mb : Nat
  tag : Nat
  fence : Bool
  lenOk : Bool
  rsvdOk : Bool
  endpoint : Nat
  ideT : Bool
  entries : List Byte := []
  deriving DecidableEq, Repr, Inhabited

/-- The register blocks in which a write to a read-only register is ignored and counted, each in the counter of
its own block: the mailbox pages count a violation (R96), PF0's other registers count in `SQ_RO_WRITES` (R62),
and the other blocks have a counter register of their own. -/
inductive RoBlock where
  | pf0
  | mailbox (m : Nat)
  | bench (b : Nat)
  | yard (g : Nat)
  | channelGroup (g : Nat)
  | serving (c : Nat)
  | xlt
  | video
  | power
  | security
  | gauges
  | recorder
  deriving DecidableEq, Repr, Inhabited

/-- How a query that copies records delivers them: to a host bus address, or inline (sideband and remote). -/
inductive Dest where
  | host (addr : Nat)
  | inline
  | lotAddr (addr : Nat)
  deriving DecidableEq, Repr, Inhabited

/-- R78: the role of a bound remote mailbox. -/
inductive Role where
  | admin
  | context (c : Nat)
  deriving DecidableEq, Repr, Inhabited

/-- R78: the binding of a remote mailbox. -/
structure Binding where
  peer : Nat
  role : Role
  deriving DecidableEq, Repr, Inhabited

end Sys2Proof
end

