-- ==== Sys2Proof/Syntax/Bench.lean ====
section
/-! DEFINITION. Operands of the mesh's events (chapter 05). -/
namespace Sys2Proof

/-- R180: the traffic class that a mesh event names. -/
inductive MeshLink where
  | control | request | response | bulk
  deriving DecidableEq, Repr, Inhabited

/-- R140: who asks for a bank of a bench store in an event. -/
inductive BankUser where
  | inbound | matrix | vector
  | streamer (unit : Nat)
  | square
  deriving DecidableEq, Repr, Inhabited

end Sys2Proof
end

