-- ==== Sys2Proof/Syntax/Boot.lean ====
section
/-! DEFINITION. Operands of start-up, the boot journal and the firmware slots (chapter 04). -/
namespace Sys2Proof

/-- R124: a component of a firmware set: version a.b.c as one number (8, 8 and 16 bits), epoch, SM3 hash, name, and where it stands in the
slot. -/
structure Component where
  version : Nat
  epoch : Nat
  hash : Nat
  name : List Byte := []
  offset : Nat := 0
  length : Nat := 0
  deriving DecidableEq, Repr, Inhabited

/-- R124: an allowed pair of component epochs (component X at its new epoch, component Y at its old one). -/
structure EpochPair where
  x : Nat
  xEpoch : Nat
  y : Nat
  yEpoch : Nat
  deriving DecidableEq, Repr, Inhabited

/-- R124: a manifest, with Fisujor's signature; components in the order of R126: BOARDFW, MEMTRAIN, SERDESFW, VIDFW, JIGLIB, SQFW. -/
structure Manifest where
  setVersion : Nat := 0
  secVersion : Nat := 0
  comps : List Component := List.replicate 6 { version := 0, epoch := 0, hash := 0 }
  pairs : List EpochPair := []
  signature : Nat := 0
  deriving DecidableEq, Repr, Inhabited

/-- What the end of an attempt of a start-up step reports (R101). `ok` is the outcome; the other fields carry what
the step found, each used by the steps named: `cores` the cores that pass (SQ_SELFTEST), straps and tests of the board
controller (RAILS), and what fails its check in flash (FLASH): the sequence numbers of journal records (R117) and of LOCAL records
(R119), and the FACTORY records of the security-version floor and of the calibration. -/
structure BootEnd where
  step : Nat
  item : Nat
  ok : Bool
  durationUs : Nat := 0
  detail : Nat := 0
  code : Nat := 0
  cores : Nat := 7
  slotId : Nat := 0
  cabId : Nat := 0
  bankLow : Bool := false
  leakOpen : Bool := false
  badJournal : List Nat := []
  badLocals : List Nat := []
  badFloor : Bool := false
  badFactoryCal : Bool := false
  deriving DecidableEq, Repr, Inhabited

/-- What BOOT_CLEAR_HISTORY names: one item of one step, or all. -/
inductive HistoryItems where
  | all
  | items (l : List (Nat × Nat))
  deriving DecidableEq, Repr, Inhabited

end Sys2Proof
end

