-- ==== Sys2Proof/Syntax/Memory.lean ====
section
/-! DEFINITION. Operands of the memory commands and events (chapter 07). -/
namespace Sys2Proof

/-- R239: what the check of a jig store line finds: the worst of its words' outcomes. -/
inductive LineOutcome where
  | clean | corrected | detected | poison
  deriving DecidableEq, Repr, Inhabited

/-- R264: the line that a SRAM scrubber checks: a bench store line, a yard line (cached or slab) by its local address,
or a line of a jig store, with what is found there. -/
inductive ScrubLine where
  | bench (addr : Nat)
  | yard (addr : Nat)
  | jig (bench slot : Nat) (found : LineOutcome)
  deriving DecidableEq, Repr, Inhabited

/-- The four traffic classes (R181). -/
inductive TrafficClass where
  | control | request | response | bulk
  deriving DecidableEq, Repr, Inhabited

end Sys2Proof
end

