-- ==== Sys2Proof/Syntax/Net.lean ====
section
/-! DEFINITION. Operands of the network commands, and XLT messages as they arrive (chapter 11). -/
namespace Sys2Proof

/-- A received XLT message (R446, R447, R449). `port` is the port it arrives on, `ce` its congestion mark; `chks` says, for
each 16-byte word of the data, how its check bits differ from those the code gives; it is empty without CHECK. -/
structure XMsg where
  port : Nat
  srcM : Nat
  srcC : Nat
  dstC : Nat
  lane : Nat
  seq : Nat
  hasAck : Bool
  ack : Nat
  credit : Nat
  tag : Nat
  ecnEcho : Bool
  ce : Bool
  retransmit : Bool
  bulk : Bool
  check : Bool
  ackNow : Bool
  modlane : Bool
  stamp : Stamp
  op : Nat
  length : Nat
  addr : Nat
  operand : Nat
  data : List Byte
  chks : List Nat
  deriving DecidableEq, Repr, Inhabited

/-- R451: what a HELLO says of its sender: serial number, XLT epoch, max_data, the addresses of its ports, and the address it
came from. -/
structure HelloPar where
  serial : Nat
  epoch : Nat
  maxData : Nat
  addrs : List Nat
  from_ : Nat
  deriving DecidableEq, Repr, Inhabited

/-- R478: the settings of NET_SET_PORT. Addresses are numbers; 0 means none. -/
structure PortCfg where
  ip4 : Nat
  len4 : Nat
  gw4 : Nat
  ip6 : Nat
  len6 : Nat
  gw6 : Nat
  vlan : Option Nat
  mtu : Nat
  maxData : Nat
  dscpCtl : Nat
  dscpData : Nat
  deriving DecidableEq, Repr, Inhabited

/-- R469: the payload of a shipment's ANNOUNCE. -/
structure ShipPar where
  pages : Nat
  promptLen : Nat
  d : Nat
  hb : Nat
  fmt : Nat
  layers : Nat
  tag : Nat
  token : Nat
  tokenStamp : Stamp
  deriving DecidableEq, Repr, Inhabited

/-- R476, R443: what a frame that no rule of its port accepts was. -/
inductive FrameKind where
  | other | pause | badFcs | badChecksum | fragment | wrongAddress
  deriving DecidableEq, Repr, Inhabited

end Sys2Proof
end

