-- ==== Sys2Proof/Syntax/Opr.lean ====
section
/-! DEFINITION. Operands of the operator commands (chapter 08). -/
namespace Sys2Proof

/-- What the planner chooses for one plan (R290, R307–R309; log entry 7): the extents of its tiles along the output's height and
width, the bytes it writes at the plan address, and its bound of events per bench. -/
structure PlanShape where
  hExt : List Nat
  wExt : List Nat
  code : List Byte
  events : Nat
  deriving DecidableEq, Repr, Inhabited

/-- R296: what OPR_RUN with a trigger names besides its chain. -/
structure TriggerPar where
  session : Nat
  ring : Nat
  records : Nat
  vector : Option Nat
  deriving DecidableEq, Repr, Inhabited

end Sys2Proof
end

