-- ==== Sys2Proof/Syntax/Power.lean ====
section
/-! DEFINITION. Operands of the power, pace and thermal commands and events (chapter 13). -/
namespace Sys2Proof

/-- R566: the settings of PACE_GROUP_SET; `lend` is the policy, the interval is in milliseconds. -/
structure PaceCfg where
  id : Nat
  lend : Bool
  interval : Nat
  members : List Nat
  deriving DecidableEq, Repr, Inhabited

/-- One sample of the input (R537): voltage in mV, current in mA, and the voltage of the hold-up bank in mV (R593); what the sensors
of the fabric, memory, PHY, SerDes and auxiliary rails show, each in mV and mA (R17); and whether the sample reaches the Square (R746). -/
structure InputRead where
  mv : Nat
  ma : Nat
  bank : Nat
  rails : List (Nat × Nat) := []
  reaches : Bool := true
  deriving DecidableEq, Repr, Inhabited

/-- What the coolant sensors show at a flow tick (R581–R591): differential pressure in 0.1 kPa with the least 100 µs average and
the greatest value since the last tick, T_in and T_out in 0.1 °C, and the leak sensor. -/
structure CoolRead where
  dp : Nat
  dpLeast : Nat
  dpMost : Nat
  tin : Nat
  tout : Nat
  moist : Bool
  deriving DecidableEq, Repr, Inhabited

/-- One sample of a block's sensors A and B in 0.25 °C, with the block's share of P_est in mW (R574, R575; log entry 7). -/
structure HeatRead where
  block : Nat
  a : Nat
  b : Nat
  share : Nat
  deriving DecidableEq, Repr, Inhabited

/-- R599, R601: a context's share of a period's estimated energy, by the kinds STEP, RUN, VIDEO, NET and IDLE. -/
structure EnergyShare where
  ctx : Nat
  parts : List Nat
  deriving DecidableEq, Repr, Inhabited

end Sys2Proof
end

