-- ==== Sys2Proof/Syntax/Serve.lean ====
section
/-! DEFINITION. Operands of the serving commands and events (chapters 09 and 10). -/
namespace Sys2Proof

/-- R367: the parameters of KV_POOL_SET; the lots are named by their bases. -/
structure PoolCfg where
  lots : List Nat
  evict : Bool
  split : Nat
  scaleLot : Nat
  slabLot : Nat
  maskLot : Nat
  quarters : Nat
  deriving DecidableEq, Repr, Inhabited

/-- R370: a model record. -/
structure ModelRec where
  model : Nat
  role : Nat
  draft : Nat
  layers : Nat
  vocab : Nat
  maxLen : Nat
  attAddr : Nat
  planAddr : Nat
  weights : Nat
  rho : Nat
  rsvd : Bool
  deriving DecidableEq, Repr, Inhabited

/-- R383: the parameters of REQ_ADMIT. -/
structure AdmitPar where
  model : Nat
  priority : Nat
  noRecompute : Bool
  shipOut : Bool
  waitKv : Bool
  resume : Bool
  kInit : Nat
  sampler : Nat
  stopSet : Nat
  ring : Nat
  veneer : Nat
  deadline : Stamp
  seed : Nat
  tag : Nat
  promptLen : Nat
  maxNew : Nat
  histAddr : Nat
  resumed : Nat
  shipModule : Nat
  shipId : Nat
  deriving DecidableEq, Repr, Inhabited

/-- R395: a sampler parameter set; FP32 fields are bit patterns. -/
structure SamplerPar where
  mode : Nat
  topK : Nat
  temperature : Nat
  topP : Nat
  minP : Nat
  repPenalty : Nat
  repWindow : Nat
  biasCount : Nat
  biasAddr : Nat
  deriving DecidableEq, Repr, Inhabited

/-- R403: the parameters of REQ_RING_SET. -/
structure RingPar where
  ring : Nat
  kind : Nat
  irqEvery : Nat
  vector : Nat
  addr : Nat
  mirror : Nat
  consWord : Nat
  deriving DecidableEq, Repr, Inhabited

/-- What VEN_LOAD, VEN_REPLACE and VEN_TRAIN_BEGIN name: the model and the package at an address; its header says the rest
(R631). -/
structure VenPar where
  model : Nat
  addr : Nat
  len : Nat
  deriving DecidableEq, Repr, Inhabited

/-- R656: the parameters of RED_SET_PROTECT. -/
structure ProtectPar where
  mode : Nat := 0
  role : Nat := 0
  swapH : Nat := 24
  pairId : Nat := 0
  mirrorLot : Nat := 0
  journal : Nat := 0
  histLot : Nat := 0
  deriving DecidableEq, Repr, Inhabited

/-- What the model's last runs give for one position: FP32 logits of the whole vocabulary. -/
abbrev Logits := List Nat

/-- What one request gets of a step: the logits of the positions that the main model sampled, in position order, and of
those that the draft proposed. -/
structure StepOut where
  request : Nat
  main : List Logits
  draft : List Logits
  deriving DecidableEq, Repr, Inhabited

/-- R349: a query row of an attention run: the request in whose pages its keys stand, and its position. -/
structure AttQuery where
  req : Nat
  pos : Nat
  deriving DecidableEq, Repr, Inhabited

/-- R364: the addresses of the tensors of a backward run besides its forward run's: dO, and where dQ, dK and dV go. -/
structure AttBack where
  dO : Nat
  dQ : Nat
  dK : Nat
  dV : Nat
  deriving DecidableEq, Repr, Inhabited

/-- An attention run of a step, over one layer of the step's model or of its draft: its query rows in batch order, the addresses of the
tensors Q and O and O's format, the tensors K and V where the keys stand in no page (a training batch), the statistics tensor that it
names (R359), and the gradients' tensors where it is a backward run. The jig of the run knows them from its parameters. -/
structure AttRun where
  draft : Bool
  layer : Nat
  rows : List AttQuery
  q : Nat
  kv : Option (Nat × Nat)
  o : Nat
  fmt : Nat
  stats : Option Nat
  back : Option AttBack
  deriving DecidableEq, Repr, Inhabited

/-- What the runs of a step did besides the logits: its attention runs in order, and, for a training step, the new bytes of the slot's
A and B and of its master copies and optimiser state. -/
structure StepWork where
  att : List AttRun := []
  update : Option (List Byte × List Byte) := none
  deriving DecidableEq, Repr, Inhabited

/-- How the run of a step ended (R391): normally, or FAULTED with the run's code and the fault's source address. -/
inductive StepFate where
  | ok
  | faulted (code addr : Nat)
  deriving DecidableEq, Repr, Inhabited

end Sys2Proof
end

