-- ==== Sys2Proof/Config.lean ====
section
/-! DEFINITION. The free values: what the manual leaves open, as constants without a body. A theorem about them holds
whatever they are (log entry 6). -/
namespace Sys2Proof

/-- A fresh value that the manual leaves open, for each use in turn: `State.free` counts the uses. -/
opaque Config.freeValue : Nat → Nat

/-- The result of a transcendental vector operation on FP32 bits, inside the bound the manual states (R219):
operation code and operand. -/
opaque Config.transcendental : Nat → Nat → Nat

/-- The 64-bit digest that the manual leaves to a secret key or an unnamed hash: a tag and the bytes. -/
opaque Config.digest : Nat → List Byte → Nat

/-- The serial number of the module (R81); its low 32 bits stand in the I3C provisional ID (R741). -/
opaque Config.serial : Nat

/-- The PCI vendor ID that the module reports. -/
opaque Config.vendorId : Nat

/-- The I3C characteristics registers (BCR, DCR, GETMXDS), which the manual names and does not number (R741). -/
opaque Config.i3cRegister : Nat → Nat

/-- R640: the memory keys that the module's random generator gives, by generation. -/
opaque Config.memoryKey : Nat → Nat

/-- R258: a yard's measured fill latency in ns, at a time. -/
opaque Config.fillLatency : Nat → Nat → Nat

/-- The container bytes of a JIGLIB jig by library version and jig_id; empty when the library does not hold it. -/
opaque Config.library : Nat → Nat → List Byte

/-- R512: the largest header bytes of a coded picture and the bytes of a skip row, by codec, depth, width and height. -/
opaque Config.headerBytes : Nat → Nat → Nat → Nat → Nat
opaque Config.skipBytes : Nat → Nat → Nat → Nat → Nat

/-- The jig_id of the library's operator jig for a path (R290, R311). -/
opaque Config.operatorJig : Nat → Nat

/-- R538, R574, R581: the training and calibration store: the static term S in W and the dynamic scale k (0: of the store, 1: of the factory, 2: the
conservative defaults, R120), a block's thermal resistance in K/W, the flow in mL/min at a differential pressure (0.1 kPa) and T_in (0.1 °C), and the power
in W that R562 predicts at a level for a mask of blocks at full activity. -/
opaque Config.staticTerm : Nat → Rat
opaque Config.dynamicScale : Nat → Rat
opaque Config.thermalResistance : Nat → Rat
opaque Config.flowCurve : Nat → Nat → Nat
opaque Config.fullPower : Nat → Nat → Rat

/-- R574: the first-order lag of 10 ms: what it gives from its previous value and its input after a number of nanoseconds. -/
opaque Config.thermalLag : Rat → Rat → Nat → Rat

/-- R169: the epochs of the op encoding that a SQFW version accepts. -/
opaque Config.epochAccepted : Nat → Nat → Bool

/-- The SM3-256 hash (R627, R629), which the manual takes from its standard. -/
opaque Config.sm3 : List Byte → Nat

/-- Fisujor's public key, under which library jigs are signed (R158, R169). -/
opaque Config.fisujorKey : Nat

/-- R433: the first of the block of 64 MAC addresses in the identity region. -/
opaque Config.macBase : Nat

/-- R118: the device secret that PUF reconstructs; what is derived from it by purpose (0 the identity key, 1 the record key, 2 the journal
key, 3 the key-wrapping key); and the public key of a private one. -/
opaque Config.deviceSecret : Nat
opaque Config.deriveKey : Nat → Nat → Nat
opaque Config.publicKey : Nat → Nat

/-- R627, R628: a SM2 signature by a private key over bytes, with the count that chooses its nonce. -/
opaque Config.signature : Nat → Nat → List Byte → Nat

/-- R628: the bytes of the slot-0 certificate chain; R629: the bytes of the Square boot ROM. -/
opaque Config.certChain : List Byte
opaque Config.bootRom : List Byte

/-- R633: a byte of the GCM key stream by cipher, key, IV and position. -/
opaque Config.keyStream : Nat → Nat → Nat → Nat → Byte

/-- R627: what the responder says of its version and capabilities. -/
opaque Config.spdmInfo : Nat → Nat

/-- R420: what a layer of a model (its output projection after the last) asks of a step: the bytes of its weights as the benches receive them,
over their codec ratios; and M_l / c_fmt, the events of one bench for its multiply-accumulates, by the rows of a pass and the keys that they
look at. No rule gives either as numbers. -/
opaque Config.layerBytes : ModelRec → Nat → Nat
opaque Config.layerEvents : ModelRec → Nat → Nat → Nat → Nat

end Sys2Proof
end

