-- ==== Sys2Proof/Machine/Base.lean ====
section
/-! DEFINITION. Tables, counters and list helpers on which the whole machine rests. -/
namespace Sys2Proof.Machine

/-- A sparse table: key and value pairs, keys strictly rising. A key that is not listed reads as a default. -/
abbrev Tab (α : Type) := List (Nat × α)

/-- Look a key up; `d` is what an unlisted key reads as. -/
def tget {α : Type} : Tab α → Nat → α → α
  | [], _, d => d
  | (j, w) :: r, k, d => if j = k then w else tget r k d

/-- Write a key, keeping the keys rising. -/
def tset {α : Type} : Tab α → Nat → α → Tab α
  | [], k, v => [(k, v)]
  | (j, w) :: r, k, v =>
    if k < j then (k, v) :: (j, w) :: r
    else if k = j then (k, v) :: r
    else (j, w) :: tset r k v

/-- Remove a key: it reads as the default again. -/
def tdel {α : Type} : Tab α → Nat → Tab α
  | [], _ => []
  | (j, w) :: r, k => if j = k then tdel r k else (j, w) :: tdel r k

/-- Change the value of a key with a function. -/
def tmod {α : Type} (t : Tab α) (k : Nat) (d : α) (f : α → α) : Tab α := tset t k (f (tget t k d))

/-- A counter of `w` bits that stays at its largest value. -/
def satAdd (w n k : Nat) : Nat := min (n + k) (2 ^ w - 1)

/-- A counter of `w` bits that wraps. -/
def wrapAdd (w n k : Nat) : Nat := (n + k) % 2 ^ w

/-- Bits [hi:lo] of a number. -/
def bitsOf (n hi lo : Nat) : Nat := n / 2 ^ lo % 2 ^ (hi + 1 - lo)

/-- One bit of a number. -/
def bitOf (n i : Nat) : Bool := n / 2 ^ i % 2 = 1

/-- A bit as a number. -/
def bit (b : Bool) : Nat := if b then 1 else 0

/-- The numbers whose bits are set in a mask, below `n`. -/
def maskBits (mask n : Nat) : List Nat := (List.range n).filter (bitOf mask)

/-- Set a bit of a mask. -/
def maskSet (mask i : Nat) : Nat := if bitOf mask i then mask else mask + 2 ^ i

/-- Clear a bit of a mask. -/
def maskClear (mask i : Nat) : Nat := if bitOf mask i then mask - 2 ^ i else mask

/-- Both masks have a bit in common. -/
def maskMeets (a b n : Nat) : Bool := (List.range n).any fun i => bitOf a i && bitOf b i

/-- Every bit of `a` is a bit of `b`. -/
def maskWithin (a b n : Nat) : Bool := (List.range n).all fun i => !bitOf a i || bitOf b i

/-- The number of bits set below `n`. -/
def popCount (mask n : Nat) : Nat := (maskBits mask n).length

/-- Insert into a list ordered by `le`, after the elements equal to it. -/
def insertBy {α : Type} (le : α → α → Bool) (x : α) : List α → List α
  | [] => [x]
  | y :: r => if le y x then y :: insertBy le x r else x :: y :: r

/-- A stable sort by insertion (structural, so that the kernel can run it). -/
def sortBy {α : Type} (le : α → α → Bool) (l : List α) : List α := l.foldl (fun acc x => insertBy le x acc) []

/-- Change the elements that satisfy a test. -/
def mapIf {α : Type} (p : α → Bool) (f : α → α) (l : List α) : List α := l.map fun x => if p x then f x else x

/-- The first element that satisfies a test, with the list without it. -/
def takeFirst {α : Type} (p : α → Bool) : List α → Option (α × List α)
  | [] => none
  | x :: r => if p x then some (x, r) else (takeFirst p r).map fun q => (q.1, x :: q.2)

/-- The position of the first element that satisfies a test. -/
def findIdx {α : Type} (p : α → Bool) : List α → Nat → Option Nat
  | [], _ => none
  | x :: r, i => if p x then some i else findIdx p r (i + 1)

/-- Fold over the numbers 0 to n − 1. -/
def foldN {β : Type} (n : Nat) (f : Nat → β → β) (b : β) : β := (List.range n).foldl (fun acc i => f i acc) b

/-- A quotient rounded up. -/
def ceilDiv (a b : Nat) : Nat := (a + b - 1) / b

/-- The least number `e` with n ≤ 2^e. -/
def ceilLog2 (n : Nat) : Nat := (List.range 65).foldl (fun acc e => if n ≤ 2 ^ acc then acc else e + 1) 0

/-- The bytes of a number, least significant first (R4). -/
def leBytes : Nat → Nat → List Byte
  | 0, _ => []
  | k + 1, v => BitVec.ofNat 8 v :: leBytes k (v / 256)

/-- The number that bytes spell, least significant first. -/
def leNat : List Byte → Nat
  | [] => 0
  | b :: r => b.toNat + 256 * leNat r

/-- A field of bytes [lo, lo + n) as a number. -/
def fieldAt (b : List Byte) (lo n : Nat) : Nat := leNat ((b.drop lo).take n)

/-- A sequence of fields as bytes. -/
def fieldBytes (l : List Fld) : List Byte := l.flatMap fun f => leBytes f.bytes f.val

/-- The number of bytes of a sequence of fields. -/
def fieldLen (l : List Fld) : Nat := (l.map Fld.bytes).foldl (· + ·) 0

/-- R5: stamp order. -/
def stampLt (a b : Stamp) : Bool := a.ns < b.ns || (a.ns = b.ns && a.lc < b.lc)

/-- R5. -/
def stampLe (a b : Stamp) : Bool := !stampLt b a

/-- A stamp as its 80-bit number. -/
def stampNat (s : Stamp) : Nat := s.ns * 65536 + s.lc

/-- The later of two stamps. -/
def stampMax (a b : Stamp) : Stamp := if stampLt a b then b else a

/-- A two's complement number of `w` bits. -/
def ofSigned (w : Nat) (i : Int) : Nat := (i % (2 ^ w : Int)).toNat

/-- Fold a state change over a list. -/
def foldS {α β : Type} (l : List α) (f : α → β → β) (b : β) : β := l.foldl (fun acc x => f x acc) b

end Sys2Proof.Machine
end

