-- ==== Sys2Proof/Syntax/Time.lean ====
section
/-! DEFINITION. Operands of the time commands (chapter 02) and of PTP (R443). -/
namespace Sys2Proof

/-- The servo's mode on the PTP port: an ordinary or a boundary clock (R28, R444). -/
inductive PtpMode where
  | ordinary | boundary
  deriving DecidableEq, Repr, Inhabited

/-- R443: how PTP messages are carried. -/
inductive PtpTransport where
  | ethernet | udp4 | udp6
  deriving DecidableEq, Repr, Inhabited

/-- The settings of `TIM_PTP_CONFIG` (R443, R767). -/
structure PtpConfig where
  port : Nat
  mode : PtpMode
  domain : Nat
  transport : PtpTransport
  pps : Bool
  deriving DecidableEq, Repr, Inhabited

/-- A PTP Sync as the port's servo sees it: `offset` is grandmaster time − T measured with the current path delay,
`interval` its sync interval in ns (logSyncInterval −4 to 1); a two-step Sync carries no time of its own. -/
structure PtpSync where
  port : Nat
  domain : Nat
  twoStep : Bool
  interval : Nat
  offset : Int
  deriving DecidableEq, Repr, Inhabited

end Sys2Proof
end

