-- ==== Sys2Proof/Machine/StCore.lean ====
section
/-! DEFINITION. The state of the stamp unit and time base, of the Square with its mailboxes and functions, and of
the event recorder (chapters 02, 03 and 16). -/
namespace Sys2Proof.Machine

/-- R35: the `sync` field. -/
inductive Sync where
  | unsynced | locking | locked | holdover
  deriving DecidableEq, Repr, Inhabited

/-- The stamp unit and the time base (R24–R35). `up` is the model's own count of nanoseconds since reset: every
timer of the manual runs on it (log entry 2), because T may step. `freq` is the servo's frequency correction and `slew` what it adds to
remove a phase offset (R33), in parts per 10^9; `frac` holds the 10^-9 parts of a nanosecond that T has not yet counted. `listenAt` is when the
servo began to listen to its port, and `stampNs` and `stampLc` hold what each function's last read of `TIM_STAMP_NS` returned and latched. -/
structure TimeSt where
  t : Nat := 0
  up : Nat := 0
  last : Option Stamp := none
  skewLimit : Nat := 1000000
  skewDrops : Nat := 0
  breaks : Nat := 0
  sync : Sync := .unsynced
  ptp : PtpConfig := ⟨0, .ordinary, 0, .ethernet, false⟩
  ppsIn : Bool := false
  ppsPhase : Int := 0
  gmBehind : Bool := false
  freeRun : Bool := false
  stepped : Bool := false
  firstLock : Bool := false
  slewing : Bool := false
  offset : Int := 0
  lastSync : Option Nat := none
  interval : Nat := 125000000
  goodSyncs : Nat := 0
  awaitFollowUp : Bool := false
  parentGm : Nat := 0
  lastAnnounce : Option Nat := none
  pathDelay : Int := 0
  masterSyncs : Nat := 0
  delayResps : Nat := 0
  ptmOffset : Int := 0
  ptmT : Nat := 0
  ptmAt : Option Nat := none
  stampLc : Tab Nat := []
  stampNs : Tab Nat := []
  freq : Int := 0
  slew : Int := 0
  frac : Nat := 0
  listenAt : Nat := 0
  deriving DecidableEq, Repr, Inhabited

/-- R61: the state of a control core. -/
inductive CoreState where
  | voting | fenced | resync | fencedHard
  deriving DecidableEq, Repr, Inhabited

/-- R61: the mode of the Square. -/
inductive SqMode where
  | triple | pair | restarting | halted
  deriving DecidableEq, Repr, Inhabited

/-- R80: the mailbox status codes. -/
inductive Status where
  | ok | accepted | badOpcode | badLength | badArg | badState | denied | confidential
  | noResource | busy | timeout | incompatible | faulted
  deriving DecidableEq, Repr, Inhabited

/-- The first 16 bytes of a command's first entry (R74). -/
structure CmdHead where
  opcode : Nat
  entries : Nat
  fence : Bool
  paramLen : Nat
  tag : Nat
  rsvd : Bool
  deriving DecidableEq, Repr, Inhabited

/-- A command that a doorbell has exposed and stamped and that is not dispatched yet (R72): its stamp, the entries it takes in the ring,
the head of its first entry, and whether a restart delays it (R58). -/
structure Exposed where
  stamp : Stamp
  entries : Nat
  head : CmdHead
  late : Bool
  deriving DecidableEq, Repr, Inhabited

/-- A notification (R81): class bit number, recorder code and source block. -/
structure Notif where
  cls : Nat
  code : Nat
  source : Nat
  deriving DecidableEq, Repr, Inhabited

/-- A response entry of R75. -/
structure Response where
  opcode : Nat
  status : Status
  tag : Nat
  final : Bool
  async : Bool
  restartDelayed : Bool
  notifyLost : Bool
  cmdStamp : Stamp
  rspStamp : Stamp
  data : List Fld
  deriving DecidableEq, Repr, Inhabited

/-- One mailbox (R63–R78, R96–R98). `ring` holds the bytes of the command ring by their offset in the page (R66); `rsps` holds the
responses written since the last reset of the mailbox, newest first; `waiting` holds responses that wait for a free position, oldest first, and `held` the notifications. -/
structure Mailbox where
  cmdTail : Nat := 0
  cmdHead : Nat := 0
  rspTail : Nat := 0
  rspHead : Nat := 0
  irqEn : Bool := false
  vector : Nat := 0
  violations : Nat := 0
  violTimes : List Nat := []
  notifyLost : Nat := 0
  lostFlag : Bool := false
  mask : Nat := 0
  held : List Notif := []
  waiting : List Response := []
  exposed : List Exposed := []
  partialEntries : Nat := 0
  quarantineEnd : Option Nat := none
  resetEnd : Nat := 0
  binding : Option Binding := none
  endpoint : Option Nat := none
  lastMsg : Nat := 0
  ring : Tab Byte := []
  rsps : List Response := []
  deriving DecidableEq, Repr, Inhabited

/-- R85: the state of a function. -/
inductive FuncState where
  | running | stopping | stopped | starting | startFailed
  deriving DecidableEq, Repr, Inhabited

/-- R91: why a function is reverted without its holder's command. -/
inductive RevertCause where
  | reset | quarantine | unbound | holdExpired | forced | tdiError
  deriving DecidableEq, Repr, Inhabited

end Sys2Proof.Machine
end

