-- ==== Sys2Proof/Machine/StRec.lean ====
section
/-! DEFINITION. The state of the event recorder (chapter 16) and of start-up, the boot journal and the firmware
slots (chapter 04), with what the module keeps across power cycles. -/
namespace Sys2Proof.Machine

/-- An event record of R717. `isOpen` marks a record that occurrences may still join (R718). -/
structure EvRec where
  stamp : Stamp
  seq : Nat
  opSeconds : Nat
  powerCycle : Nat
  code : Nat
  rep : Nat
  source : Nat
  sev : Nat
  zeroed : Bool
  saturated : Bool
  ctx : Option Nat
  module : Nat
  last : Stamp
  payload : List Fld
  isOpen : Bool
  deriving DecidableEq, Repr, Inhabited

/-- A freeze of the flash log (R722): the holder and the end of its period. `started` turns true when the flush
that precedes the freeze has ended. -/
structure Freeze where
  holder : Nat
  until_ : Nat
  period : Nat
  started : Bool
  deriving DecidableEq, Repr, Inhabited

/-- R724, R730: the cursor of the recorder window. -/
structure RecCursor where
  slot : Nat := 0
  ram : Bool := false
  auto : Bool := false
  deriving DecidableEq, Repr, Inhabited

/-- The recorder in RAM. `clearing` holds, while REC_CLEAR erases the log, how many records it erased and whether it
ended a freeze. `flushing` is the number of records at the head of `ram` that the running flush writes. -/
structure RecSt where
  ram : List EvRec := []
  nextSeq : Nat := 0
  lost : List Nat := [0, 0, 0, 0]
  lostNew : List Nat := [0, 0, 0, 0]
  freeze : Option Freeze := none
  flushing : Option Nat := none
  lastFlush : Nat := 0
  flashFail : Bool := false
  clearing : Option (Nat × Bool) := none
  cursor : RecCursor := {}
  roWrites : Nat := 0
  deriving DecidableEq, Repr, Inhabited

/-- R123: the phase in `BOOT_STATE.state`. -/
inductive BootPhase where
  | booting | ready | service | activating
  deriving DecidableEq, Repr, Inhabited

/-- R136: the state of a firmware slot. -/
inductive SlotState where
  | empty | writing | valid | trial | confirmed | failed
  deriving DecidableEq, Repr, Inhabited

/-- A firmware slot. `image` holds the bytes written by FW_WRITE, by offset; `trialBoots` counts boots in trial. -/
structure Slot where
  state : SlotState := .empty
  manifest : Manifest := {}
  image : Tab Byte := []
  trialBoots : Nat := 0
  deriving DecidableEq, Repr, Inhabited

/-- A boot journal record of R115. `authed` is false where auth was written as zero (R117), `bad` true once a boot has found that the record
does not check. -/
structure JRec where
  step : Nat
  result : Nat
  attempt : Nat
  rung : Nat
  itemClass : Nat
  item : Nat
  powerCycle : Nat
  opSeconds : Nat
  stamp : Stamp
  code : Nat
  duration : Nat
  detail : Nat
  seq : Nat
  authed : Bool
  bad : Bool := false
  deriving DecidableEq, Repr, Inhabited

/-- R118: the settings that outlive a power cycle, each a type of LOCAL record. -/
inductive Setting where
  | moduleNumber | manager | localCap | loneCap | ceiling | bootSlot | lastActivated | trialNext | secFloor
  | slotState (slot : Nat)
  | scrub (group : Nat)
  deriving DecidableEq, Repr, Inhabited

/-- R118, R119: a LOCAL record; `bad` once a boot has found that it fails its check. -/
structure LocalRec where
  key : Setting
  seq : Nat
  value : Nat
  bad : Bool := false
  deriving DecidableEq, Repr, Inhabited

/-- R118: the secrets that a boot has derived: the device secret and the identity key (PUF), and the record, journal and key-wrapping keys
(SECURITY_INIT). -/
structure Keys where
  device : Option Nat := none
  identity : Option Nat := none
  record : Option Nat := none
  journal : Option Nat := none
  wrap : Option Nat := none
  deriving DecidableEq, Repr, Inhabited

/-- R106: what one `BOOT_CLEAR_HISTORY` names, an item by step × 1024 + item or (none) all, and the power cycle in which it was served. -/
structure Cleared where
  item : Option Nat
  cycle : Nat
  deriving DecidableEq, Repr, Inhabited

/-- R3: the fields of the ordering code that take more than one value: f (coated) and s (slot B empty as shipped). -/
structure OrderingCode where
  coated : Bool := false
  slotBEmpty : Bool := false
  deriving DecidableEq, Repr, Inhabited

/-- R3: the ordering code as text, `XRN-4100-1T-D-f-s`. -/
def OrderingCode.text (c : OrderingCode) : List Byte :=
  [88, 82, 78, 45, 52, 49, 48, 48, 45, 49, 84, 45, 68, 45, if c.coated then 77 else 78, 45, if c.slotBEmpty then 90 else 65]

/-- R3: the firmware slots as a module with this ordering code is shipped. -/
def OrderingCode.slots (c : OrderingCode) : List Slot :=
  [{ state := .confirmed }, { state := if c.slotBEmpty then .empty else .valid }]

/-- What survives a power cycle: the flash regions and the signed records (R118–R119). `locals` holds the LOCAL records, newest first;
the settings beside it hold the values in use. `macBase` is the first MAC address of the identity region (R433). Of the FACTORY records, `identityKey` is the public key in the identity certificate,
`factoryFloor` the initial security-version floor (none where that record fails its check) and `factoryCal` that the factory calibration is
valid. `cleared` holds the histories set aside from the next boot on (R106). `params` and `params6400` give the MEMTRAIN epoch of each group's stored training parameters at 8,533 and 6,400 MT/s. -/
structure NvSt where
  ordering : OrderingCode := {}
  flash : List EvRec := []
  savedLost : List Nat := [0, 0, 0, 0]
  savedOpSeconds : Nat := 0
  savedStamp : Stamp := ⟨0, 0⟩
  powerCycle : Nat := 0
  journal : List JRec := []
  journalSeq : Nat := 0
  cleared : List Cleared := []
  locals : List LocalRec := []
  localSeq : Nat := 0
  identityKey : Nat := Config.publicKey (Config.deriveKey 0 Config.deviceSecret)
  macBase : Nat := Config.macBase
  factoryFloor : Option Nat := some 0
  factoryCal : Bool := true
  slots : List Slot := ordering.slots
  bootSlot : Nat := 0
  lastActivated : Nat := 0
  trialNext : Option Nat := none
  secFloor : Nat := 0
  moduleNumber : Option Nat := none
  manager : Option Nat := none
  localCap : Option Nat := none
  loneCap : Option Nat := none
  scrubHours : Tab Nat := []
  nextBoot : Tab Nat := []
  params : Tab (Option Nat) := []
  params6400 : Tab (Option Nat) := []
  ceiling : Option Nat := none
  calValid : Bool := true
  lastRails : Option Nat := none
  deriving DecidableEq, Repr, Inhabited

/-- Where one item of a step stands within this boot. `passed` when it passed at its rung, `detail` what its last failed attempt
reported. -/
structure ItemProgress where
  rung : Nat := 0
  attempts : Nat := 0
  settled : Bool := false
  passed : Bool := false
  excluded : Bool := false
  detail : Nat := 0
  retrained : Bool := false
  level : Nat := 30
  deriving DecidableEq, Repr, Inhabited

/-- A walk of FW_ACTIVATE (R126): the components still to activate and those already activated, newest first, and of the first
component the ports, pipes or contexts that it has still to take effect on (R128). -/
structure Walk where
  todo : List Nat
  done : List Nat
  slot : Nat
  units : List Nat := []
  deriving DecidableEq, Repr, Inhabited

/-- Start-up (R99–R137). Items are keyed by step × 1024 + item. `sisterFw` is the SERDESFW that the sister port still runs until the next boot (R130). -/
structure BootSt where
  phase : BootPhase := .booting
  running : Bool := false
  step : Nat := 0
  started : List Nat := []
  ended : List Nat := []
  items : Tab ItemProgress := []
  attempts : Nat := 0
  restartAsked : Bool := false
  keys : Keys := {}
  sisterFw : Option Component := none
  failedStep : Nat := 0
  serviceCause : Nat := 0
  boardOnly : Bool := false
  history : Bool := false
  runSlot : Nat := 0
  running_ : List Component := List.replicate 6 { version := 0, epoch := 0, hash := 0 }
  trialEnd : Option Nat := none
  journalHeld : List JRec := []
  capBlocks : Nat := 0
  capGroups : Nat := 0
  groups6400 : Nat := 0
  laneGroups : Nat := 0
  lane53 : Nat := 0
  pcieRung : Nat := 0
  decPipes : Nat := 0
  encPipes : Nat := 0
  yards : Nat := 0
  meshCap : Nat := 31
  walk : Option Walk := none
  opBase : Nat := 0
  poweredAt : Nat := 0
  deriving DecidableEq, Repr, Inhabited

/-- A write that the module makes to a host bus address (R50), in the order of the log. -/
structure HostWrite where
  addr : Nat
  data : List Fld
  deriving DecidableEq, Repr, Inhabited

end Sys2Proof.Machine
end

