-- ==== Sys2Proof/Machine/StFunc.lean ====
section
/-! DEFINITION. The state of the functions with their staged sets (R83–R92), of accepted work that still owes a final
response, of the Square as a whole, and of the tray connector (chapter 17). -/
namespace Sys2Proof.Machine

/-- A setting held in a function's staged set (R86); each constructor is one staged command. -/
inductive Staged where
  | timPtp (cfg : PtpConfig)
  | ctxBlocks (mask saveLot : Nat)
  | ctxGroups (mask : Nat)
  | ctxSlice (base count quota : Nat)
  | modelSet (r : ModelRec)
  | kvPool (p : PoolCfg)
  | attBuckets (cuts : List Nat)
  | redProtect (p : ProtectPar)
  | netMode (mode : Nat)
  | netPort (port : Nat) (p : PortCfg)
  | netPlan (v4 v6 : Nat)
  | netUdp (port : Nat)
  | netAssign (port : Nat) (exclusive : Bool) (contexts : Nat)
  | netSister (module : Nat)
  | pwrDroop (margin : Nat)
  | pwrConf (levels : List Nat)
  | paceGroup (cfg : PaceCfg)
  deriving DecidableEq, Repr, Inhabited

/-- A function (R83–R92): state, holder, the end of its hold_ms, its staged set in command order, and a revert
that waits for it to quiesce (`revert`), or for its start to end. -/
structure Func where
  state : FuncState := .running
  holder : Option Nat := none
  deadline : Option Nat := none
  staged : List Staged := []
  revert : Option RevertCause := none
  reverting : Bool := false
  deriving DecidableEq, Repr, Inhabited

/-- The kinds of work whose command answered ACCEPTED (R75). -/
inductive WorkKind where
  | funcStop | funcStart | funcRevert
  | slotErase | slotVerify | activate
  | recFreeze | recFlush | recClear
  | snapshot
  | jigLoad | jigRun | jigAbort | oprPlan | oprRun | venLoad | venTrain
  | vidClose
  | unseal | redSwap | redRelease | trayDrain | ctxDestroy | spdm | lotDrain
  deriving DecidableEq, Repr, Inhabited

/-- Work that owes a response: the mailbox, tag, stamp and opcode of its command and what identifies it. `discard` is set by a
mailbox reset, which lets the work run and discards its response (R76); `first` marks a command that has not answered ACCEPTED, whose
single response is withheld until the work ends (R45, R84). -/
structure Work where
  mb : Nat
  tag : Nat
  opcode : Nat
  stamp : Stamp
  kind : WorkKind
  id : Nat
  late : Bool := false
  discard : Bool := false
  first : Bool := false
  deriving DecidableEq, Repr, Inhabited

/-- R56: the kinds of input that the cores take: a doorbell with the tail it wrote, a command of a control or sideband message at its
mailbox, a control message of the network by its sender, and a hardware event by the recorder code that the Square gives it. -/
inductive SqInput where
  | doorbell (m tail : Nat)
  | message (m : Nat)
  | network (module : Nat)
  | event (code : Nat)
  deriving DecidableEq, Repr, Inhabited

/-- R56: a checkpoint: T when it was taken, the state of every mailbox and function, and the numbers of inputs that the cores had taken and of
words that the port had released, which name the cores' architectural state and the Square SRAM (log entry 27). -/
structure SqCheckpoint where
  at_ : Nat
  taken : Nat
  released : Nat
  mbx : Tab Mailbox
  funcs : Tab Func
  deriving DecidableEq, Repr, Inhabited

/-- R52, R56, R57: the output port: the last checkpoint, the inputs taken and the sequence numbers of the words released since then, in
order, with the counts of both; the number of a word that it withholds for good (R60); and when the restart in progress ends (R58). -/
structure VoteSt where
  checkpoint : SqCheckpoint := ⟨0, 0, 0, [], []⟩
  inputs : List SqInput := []
  outputs : List Nat := []
  taken : Nat := 0
  released : Nat := 0
  withheld : Option Nat := none
  restartEnd : Nat := 0
  deriving DecidableEq, Repr, Inhabited

/-- The Square (R52–R62): cores, checkpoints, restarts, mailboxes and functions. Functions are keyed by their
32-bit identifier. `msix` logs the MSI-X messages sent, newest first, as (function, table entry). -/
structure SquareSt where
  cores : Tab CoreState := []
  resyncFail : Tab Nat := []
  mode : SqMode := .triple
  restarts : Nat := 0
  restartTimes : List Nat := []
  lastRestart : Nat := 0
  checkpoints : Nat := 0
  roWrites : Nat := 0
  mbx : Tab Mailbox := []
  funcs : Tab Func := []
  work : List Work := []
  nextId : Nat := 0
  msix : List (Nat × Nat) := []
  mctpErrors : List Nat := []
  vote : VoteSt := {}
  deriving DecidableEq, Repr, Inhabited

/-- The conditions for which the manual asserts ALERT_N. -/
inductive Alert where
  | squareFatal | service | thermTrip | flowCritical | coolantStop | leak | supplyHalt | flashFail | measurement
  deriving DecidableEq, Repr, Inhabited

/-- The tray connector: pins and straps of R734–R739, the PCIe side-band of R748 and the I3C target of R741. -/
structure TraySt where
  keepAlive : Bool := true
  pwrEn : Bool := false
  latch : Bool := false
  inputGood : Bool := false
  pwrGood : Bool := false
  thermTrip : Bool := false
  drainOk : Bool := false
  alerts : List Alert := []
  slotId : Nat := 0
  cabId : Nat := 0
  perst : Bool := true
  linkUp : Bool := false
  sriov : Bool := false
  lastConfig : Nat := 0
  ppsPulse : Nat := 0
  i3cAddr : Option Nat := none
  ibiEnabled : Bool := false
  ibis : Nat := 0
  rstAction : Nat := 0
  eid : Option Nat := none
  bankLow : Bool := false
  sideAnswers : List (Nat × List Fld) := []
  deriving DecidableEq, Repr, Inhabited

end Sys2Proof.Machine
end

