-- ==== Sys2Proof/Syntax/Sec.lean ====
section
/-! DEFINITION. Operands of the SPDM, TDISP and IDE messages (R621–R636). -/
namespace Sys2Proof

/-- R626: the path on which a SPDM message reaches the module: PF0's DOE, the sideband, or `SEC_SPDM` of a context. -/
inductive SpdmPath where
  | doe
  | sideband
  | context (c : Nat)
  deriving DecidableEq, Repr, Inhabited

/-- R634: what KEY_DELIVER carries. The key's 32 bytes are one number. -/
structure KeyDelivery where
  packageId : Nat
  cipher : Nat
  key : Nat
  sessionBound : Bool
  deriving DecidableEq, Repr, Inhabited

end Sys2Proof
end

