-- ==== Sys2Proof/Machine/StSec.lean ====
section
/-! DEFINITION. The state of contexts, tenants and confidential operation (chapter 14). -/
namespace Sys2Proof.Machine

/-- R612. -/
inductive CtxState where
  | undefined | defined | resident | switching | halted | destroying
  deriving DecidableEq, Repr, Inhabited

/-- R622: the TDISP state of a confidential context's TDI. -/
inductive Tdi where
  | unlocked | locked | run | error
  deriving DecidableEq, Repr, Inhabited

/-- A content key entry (R634–R636). The key's 32 bytes are one number. -/
structure ContentKey where
  packageId : Nat
  cipher : Nat
  key : Nat
  sessionBound : Bool
  session : Nat
  deriving DecidableEq, Repr, Inhabited

/-- One context (R611–R646). Lot entries are the 64-bit words of R40. `keyCur` and `keyOld` name the memory keys
in its two key slots by their generation number (the module never reveals a key); 0 means an empty slot.
`oldPages` lists the page ranges [lo, hi) of its encrypted lots that are still under the old epoch, `unsealed` the bases of
the lots that a successful WGT_UNSEAL wrote (R638), `turnEnd` when its quantum ends (R618). -/
structure CtxSt where
  state : CtxState := .undefined
  confidential : Bool := false
  cipher : Nat := 0
  timeShare : Bool := false
  plainNet : Bool := false
  tdi : Tdi := .unlocked
  lockSession : Option Nat := none
  ideStream : Option Nat := none
  blocks : Nat := 0
  groups : Nat := 0
  sliceBase : Nat := 0
  sliceCount : Nat := 0
  quota : Nat := 0
  saveLot : Nat := 0
  quantum : Nat := 100
  quantumDue : Bool := false
  turnEnd : Nat := 0
  lots : Tab Word := []
  unsealed : List Nat := []
  keyCur : Nat := 0
  keyOld : Nat := 0
  epoch : Bool := false
  sweepRate : Nat := 0
  oldPages : List (Nat × Nat) := []
  contentKeys : Tab (Option ContentKey) := []
  jigKeys : List Nat := []
  pkgKeys : List Nat := []
  switches : Nat := 0
  deriving DecidableEq, Repr, Inhabited

/-- A SPDM session (R627). -/
structure Session where
  path : SpdmPath
  finished : Bool
  lastTraffic : Nat
  keyGen : Nat
  deriving DecidableEq, Repr, Inhabited

/-- An answer of the SPDM responder: the request's name code and its result, newest first in `answers`. -/
structure SpdmAnswer where
  path : SpdmPath
  error : Bool
  data : List Fld
  deriving DecidableEq, Repr, Inhabited

/-- R637: a package being unsealed: source, destination, and whether its signature is valid under its key. -/
structure Unseal where
  id : Nat
  ctx : Nat
  src : Nat
  len : Nat
  dst : Nat
  sigOk : Bool
  deriving DecidableEq, Repr, Inhabited

/-- The security block as a whole. `releasing` names the channel groups that leave a context, with that context (R615). `negotiated` holds the paths that completed NEGOTIATE_ALGORITHMS after
GET_VERSION and GET_CAPABILITIES, with how far each has come. -/
structure SecSt where
  ctxs : Tab CtxSt := []
  sessions : Tab (Option Session) := []
  nextSession : Nat := 1
  connection : List (SpdmPath × Nat) := []
  linkStream : Bool := false
  selective : List Nat := []
  ideDrops : Nat := 0
  roWrites : Nat := 0
  keyGen : Nat := 1
  releasing : Tab Nat := []
  unseals : List Unseal := []
  answers : List SpdmAnswer := []
  deriving DecidableEq, Repr, Inhabited

end Sys2Proof.Machine
end

