-- ==== Sys2Proof/Machine/StMem.lean ====
section
/-! DEFINITION. The state of the memory levels (chapter 07) and of the gauges (chapter 16). -/
namespace Sys2Proof.Machine

/-- A CORRECTED or DETECTED event of a channel group (R275, R280). -/
structure ErrEvent where
  addr : Nat
  symbol : Nat
  syndrome : Nat
  detected : Bool
  stamp : Stamp
  deriving DecidableEq, Repr, Inhabited

/-- A memory controller (R262–R281). `ceTimes` and `dueTimes` hold the times of recent events for R265. -/
structure GroupSt where
  ceCount : Nat := 0
  dueCount : Nat := 0
  poisonWrites : Nat := 0
  cePos : List Nat := List.replicate 9 0
  events : List ErrEvent := []
  ceTimes : List Nat := []
  dueTimes : List Nat := []
  scrubPos : Nat := 0
  passes : Nat := 0
  roWrites : Nat := 0
  deriving DecidableEq, Repr, Inhabited

/-- A yard line (R250): which way and set hold which tag; `due` is the due stamp of a pinned line (R259). The bytes of
a line are those of its address in `MemSt.bytes`. -/
structure Line where
  way : Nat
  set_ : Nat
  tag : Nat
  dirty : Bool
  due : Option Nat
  deriving DecidableEq, Repr, Inhabited

/-- A prefetch that a yard has accepted and not filled yet (R258). -/
structure Prefetch where
  addr : Nat
  due : Nat
  deriving DecidableEq, Repr, Inhabited

/-- A yard (R250–R259, R282–R283). `tags` counts the reserved tags that prefetches hold, `ports` those that each of its five ports
holds: its four mesh links, then its edge port (R151). -/
structure YardSt where
  slab : Nat := 0
  lines : List Line := []
  prefetches : List Prefetch := []
  prefetchDrops : Nat := 0
  sramCe : Nat := 0
  sramDue : Nat := 0
  codecErrors : Nat := 0
  roWrites : Nat := 0
  tags : Nat := 0
  ports : List Nat := [0, 0, 0, 0, 0]
  tagsHigh : Nat := 0
  pinnedHigh : Nat := 0
  deriving DecidableEq, Repr, Inhabited

/-- An injection that struck a memory word while its yard held a copy of the line. -/
structure Hidden where
  word : Nat
  dataMask : Nat
  chkMask : Nat
  deriving DecidableEq, Repr, Inhabited

/-- A completion of a BAR4 read (R44, R242): its data, the EP bit, or Unsupported Request. -/
structure Completion where
  vf : Nat
  data : List Byte
  ep : Bool
  ur : Bool
  deriving DecidableEq, Repr, Inhabited

/-- The memory of the module (R39): bytes of LPDDR5X, yard slab and bench stores by local address, in canonical
form. `chk` holds, by 16-byte word, how the stored check bits differ from those that R238 computes (0 when unlisted);
`bkey` holds, by 256-byte burst of LPDDR5X, the generation of the memory key the burst is stored under (0: plain).
`mr4` holds the last MR4 report of each package (R261), `completions` the answers
to BAR4 reads, newest first. -/
structure MemSt where
  bytes : List Host.Cell := []
  chk : Tab Nat := []
  bkey : Tab Nat := []
  hidden : List Hidden := []
  groups : Tab GroupSt := []
  yards : Tab YardSt := []
  benchErr : Tab (Nat × Nat) := []
  mr4 : Tab Nat := []
  completions : List Completion := []
  aer : Nat := 0
  hostViolations : Tab Nat := []
  deriving DecidableEq, Repr, Inhabited

/-- The gauges of a bench (R696–R701). -/
structure BenchGau where
  codes : List Nat := List.replicate 8 0
  counts : List Nat := List.replicate 8 0
  retired : Nat := 0
  wasted : Nat := 0
  front : Nat := 0
  back : Nat := 0
  slots : Nat := 0
  nanZero : Nat := 0
  samples : Nat := 0
  deriving DecidableEq, Repr, Inhabited

/-- A snapshot (R706–R710): the latch stamp asked for, the class mask, the destination, and, once latched, the image
that is written to it. -/
structure Snapshot where
  id : Nat
  at_ : Stamp
  mask : Nat
  dest : Dest
  mb : Nat
  ctx : Option Nat
  late : Bool
  image : Option (List Fld)
  deriving DecidableEq, Repr, Inhabited

/-- The sampling of a context (R711–R715). `runs` holds, for each bench, the ops issued in the run of 2^n ops in progress and which of them is
sampled. -/
structure Sampling where
  enabled : Bool := false
  n : Nat := 8
  logRecords : Nat := 10
  watermark : Nat := 1
  vector : Nat := 0
  addr : Nat := 0
  prodAddr : Nat := 0
  prod : Nat := 0
  cons : Nat := 0
  lost : Nat := 0
  overflow : Bool := false
  lostBefore : Bool := false
  runs : Tab (Nat × Nat) := []
  deriving DecidableEq, Repr, Inhabited

/-- R729: the gauges and the counter reader. `cnt` holds the fixed gauges of yards, channel groups and video pipes, by
unit × 32 + register index. -/
structure GauSt where
  cnt : Tab Nat := []
  bench : Tab BenchGau := []
  snaps : List Snapshot := []
  lastLate : Bool := false
  lastSnap : Nat := 0
  roWrites : Nat := 0
  sampling : Tab Sampling := []
  sampleTimes : List Nat := []
  deriving DecidableEq, Repr, Inhabited

end Sys2Proof.Machine
end

