-- ==== Sys2Proof/Machine/StBench.lean ====
section
/-! DEFINITION. The state of the benches, their jigs and runs, and of the mesh (chapter 05). -/
namespace Sys2Proof.Machine

/-- R167: a tensor descriptor. -/
structure Desc where
  offset : Nat
  fmt : Nat
  kind : Nat
  slot : Nat
  dim0 : Nat
  dim1 : Nat
  stride : Nat
  rsvd : Bool := true
  deriving DecidableEq, Repr, Inhabited

/-- R165: a jig op. -/
structure Op where
  cls : Nat
  variant : Nat
  stage : Nat
  dst : Nat
  a : Nat
  b : Nat
  c : Nat
  count : Nat
  flags : Nat
  imm : Nat
  deriving DecidableEq, Repr, Inhabited

/-- R160: one input of a stage: its source stage, or an external token counter, with depth (or counter) and initial tokens. -/
structure StageIn where
  source : Nat
  depth : Nat
  init : Nat
  deriving DecidableEq, Repr, Inhabited

/-- R160: a stage wiring entry. `rsvd` says that its reserved bytes are zero. -/
structure Stage where
  num : Nat
  unit : Nat
  inputs : List StageIn
  inCount : Nat
  rsvd : Bool
  deriving DecidableEq, Repr, Inhabited

/-- R156–R158: a jig container as it is read. `rsvd` says that the header's and trailer's reserved bytes are zero. -/
structure Jig where
  magic : Nat
  format : Nat
  flags : Nat
  jigId : Nat
  opCount : Nat
  stageCount : Nat
  constBytes : Nat
  epoch : Nat
  tagsS0 : Nat
  tagsS1 : Nat
  lead : Nat
  bankMask : Nat
  bound : Nat
  formats : Nat
  keyId : Nat
  rsvd : Bool
  stages : List Stage
  consts : List Byte
  ops : List Op
  deriving DecidableEq, Repr, Inhabited

/-- Where a unit stands in its ops (R161): the loops it is in, innermost first, each with its first op, the op after its
body, and the passes left. -/
structure UnitSt where
  pc : Nat := 0
  loops : List (Nat × Nat × Nat) := []
  ended : Bool := false
  deriving DecidableEq, Repr, Inhabited

/-- R180: what a packet carries. A write brings `data` for `addr`; a read asks for `len` bytes from `addr`; `codec` asks for one
256-byte answer of a segment of a codec tensor (R229), `codecFetch` for a segment's compressed lines; a `list` reads a block of a page
list of which `left` pages are still to come, `done_` before it; `kvRow` brings the BF16 values of a row for the KV tail (R145).
`data`, `listed` and `ack` are answers, `launch` a run's launch from the Square; `jig` brings a piece of a container that is being loaded, `tail`
an entry of a tail table, `latch` the counter reader's command, `halo` a piece of a halo block of an operator's run (R310). `carry` is a packet of an access whose effect stands with its event: an edge
unit's, the Square's own or a page move; `back` says where its answer leaves the mesh (none for the answer itself). -/
inductive MeshOp where
  | write
  | read
  | atomic (op operand : Nat)
  | prefetch (after : Nat)
  | codec (table segment part : Nat)
  | codecFetch (table segment after : Nat)
  | list (left done_ : Nat)
  | kvRow (fmt t width page slot col : Nat) (isV : Bool)
  | data
  | listed (left done_ : Nat)
  | ack
  | launch (run : Nat)
  | jig (load : Nat)
  | tail (index entry : Nat)
  | latch
  | halo (run : Nat)
  | carry (back : Option (Nat × Nat))
  deriving DecidableEq, Repr, Inhabited

/-- What a packet delivers: its operation, the address it is for, the bytes it brings with the check differences of their words, the
bytes it asks for, the external counter that a SEND names, the op (bench, unit, index) that waits for its answer, and where the answer
lands: from position `pos` of the window `dst`. `bulk` is its bulk flag, `bad` an atomic's poisoned answer, `module` the module of a
remote access and `bounds` the addresses that GATHER's lot bounds allow; `serial` numbers the accesses, and an answer keeps its
access's. -/
structure Payload where
  op : MeshOp := .write
  addr : Nat := 0
  data : List Byte := []
  chks : List Nat := []
  len : Nat := 0
  counter : Option Nat := none
  from_ : Nat × Nat × Nat := (0, 0, 0)
  dst : Desc := default
  pos : Nat := 0
  bulk : Bool := false
  bad : Bool := false
  module : Option Nat := none
  bounds : Option (Nat × Nat) := none
  serial : Nat := 0
  deriving DecidableEq, Repr, Inhabited

/-- An op issued and not complete: its unit, its index in the op array, the descriptors as they stood at issue, the packets it has
still to send, and how many of those sent are not answered, each of which holds a tag (R147). `formed` is false for a direct ACC_OUT
that has not read its tile, `code` the fault that it has met. The last fields serve its sampling record (R712): issue stamp and time,
the wait before it and that wait's main cause. -/
structure InFlight where
  unit : Nat
  idx : Nat
  op : Op
  d : Desc
  a : Desc
  b : Desc
  c : Desc
  todo : List Payload := []
  waits : Nat := 0
  formed : Bool := true
  code : Option Nat := none
  sampled : Bool := false
  issued : Stamp := ⟨0, 0⟩
  issuedAt : Nat := 0
  waited : Nat := 0
  cause : Nat := 0
  deriving DecidableEq, Repr, Inhabited

/-- The run that a bench is in (R172–R176), with its jig as it stood at the start. `stalls` counts, by unit × 8 + cause, since the
unit's last issue. `stopping` after a fault or an abort: nothing more is issued. -/
structure BenchRun where
  run : Nat
  slot : Nat
  jig : Jig
  units : List UnitSt
  chans : Tab Nat
  params : Tab Nat
  offsets : Tab Nat
  inflight : List InFlight
  events : Nat := 0
  maxTags : Nat := 0
  stopping : Bool := false
  retired : Nat := 0
  lastIssue : List Nat := [0, 0, 0, 0]
  stalls : Tab Nat := []
  deriving DecidableEq, Repr, Inhabited

/-- A bench (R138, R192–R196). `pace` is the issue-rate limit in force with the events since it began and the issues of each unit in
them (R155); `mxOpen` and `vxOpen` are when a gate began its last release (R553, R588); `bankWait` holds the banks that a unit waits for, `bankIn` the event in which an inbound write last took a bank (R141), `scrubIn` the one in which the scrubber last had it (R264).
`acc` holds the accumulator cells by tile × 4096 + row × 64 + column, `v` the bytes of V0–V63,
`tail` the tail-table entries as 128-bit numbers, `badLines` the slots with an uncorrectable jig store line. -/
structure BenchSt where
  slots : List (Option Jig) := [none, none, none, none]
  badLines : List Nat := []
  queue : List Nat := []
  cur : Option BenchRun := none
  acc : Tab Nat := []
  v : Tab Nat := []
  xtok : List Nat := List.replicate 16 0
  tail : Tab Nat := []
  events : Nat := 0
  faultCode : Nat := 0
  faultUnit : Nat := 0
  faultSlot : Nat := 0
  faultOp : Nat := 0
  faultNs : Nat := 0
  faulted : Bool := false
  maxTags : Nat := 0
  claims : Nat × Nat := (0, 0)
  conflicts : Nat := 0
  roWrites : Nat := 0
  mxGate : Bool := false
  vxGate : Bool := false
  mxOpen : Option Nat := none
  vxOpen : Option Nat := none
  pace : Nat × Nat × List Nat := (100, 0, [0, 0, 0, 0])
  bankWait : List Nat := []
  bankIn : Tab Nat := []
  scrubIn : Tab Nat := []
  deriving DecidableEq, Repr, Inhabited

/-- R196: a bench as it stands anew, with the last fault of another. -/
def lastFault (old x : BenchSt) : BenchSt :=
  { x with
    faultCode := old.faultCode, faultUnit := old.faultUnit, faultSlot := old.faultSlot, faultOp := old.faultOp, faultNs := old.faultNs }

/-- A run (R172–R178): its context, slot, blocks and parameters, the benches that have not started it and that have
not ended it, its first fault, whether it stops before its end, and the slots each bench retired in it. -/
structure Run where
  id : Nat
  ctx : Nat
  slot : Nat
  blocks : List Nat
  params : List Nat
  waiting : List Nat
  live : List Nat
  fault : Option (Nat × Nat × Nat) := none
  stopped : Bool := false
  retired : Tab Nat := []
  deriving DecidableEq, Repr, Inhabited

/-- A jig load whose final response is still to come (R171), with the outcome its verification gave. -/
structure JigLoad where
  id : Nat
  ctx : Nat
  slot : Nat
  blocks : List Nat
  jig : Jig
  refusal : Option (Nat × Nat × Nat)
  deriving DecidableEq, Repr, Inhabited

/-- R180: the traffic classes of the mesh. -/
inductive MeshClass where
  | control | request | response | bulk
  deriving DecidableEq, Repr, Inhabited

/-- A packet on a link (R180): the link it is on (crossing × 16 + output), its class, its last crossing and the output
by which it leaves there. -/
structure Packet where
  id : Nat
  link : Nat
  cls : MeshClass
  dest : Nat
  exit : Nat
  payload : Payload
  deriving DecidableEq, Repr, Inhabited

/-- R181: one link in one class: the sender's credits, packets in flight, and slots freed whose credits are under way. -/
structure LinkSt where
  credits : Nat
  inflight : Nat
  freed : Nat
  deriving DecidableEq, Repr, Inhabited

/-- R45: a `LOT_SET` whose response waits for the accesses admitted under the old entry: their serials on the mesh, and the operations
on lanes by tag and lane. -/
structure LotDrain where
  id : Nat
  ctx : Nat
  serials : List Nat
  ops : List (Nat × Nat)
  deriving DecidableEq, Repr, Inhabited

/-- The benches and the mesh as a whole. `limits` holds the issue-rate limit of a block in percent (100 unlisted). `packets` holds the
packets on links, `outbox` those that wait at a bench, at the Square or in a yard for their first link, each in the order in which they
came; `turns` the class that an output link served last among request, response and bulk (R182). `leftBy`
names the context that a block in `scrubbing` has left. `saved` holds, by context and
bench, what a context that is not resident has in its benches (R619): jigs, launch queue and registers; the store's bytes are
in its save lot. -/
structure BenchesSt where
  benches : Tab BenchSt := []
  runs : List Run := []
  ended : List (Nat × Nat) := []
  loads : List JigLoad := []
  nextRun : Nat := 1
  scrubbing : List Nat := []
  leftBy : Tab Nat := []
  links : Tab LinkSt := []
  packets : List Packet := []
  nextPacket : Nat := 0
  outbox : List Packet := []
  turns : Tab Nat := []
  drains : List LotDrain := []
  limits : Tab Nat := []
  saved : Tab (Tab BenchSt) := []
  deriving DecidableEq, Repr, Inhabited

end Sys2Proof.Machine
end

