-- ==== Sys2Proof/Machine/StServe.lean ====
section
/-! DEFINITION. The state of the serving units: requests, page pools, models, samplers, rings and veneers (chapters 09 and
10), and of operator chains and triggers (chapter 08). -/
namespace Sys2Proof.Machine

/-- R377. -/
inductive ReqState where
  | free | admitted | prefill | waitKv | decode | parked | done | cancelled
  deriving DecidableEq, Repr, Inhabited

/-- R402, R401: a token record. -/
structure TokenRec where
  token : Nat
  position : Nat
  stamp : Stamp
  flags : Nat
  deriving DecidableEq, Repr, Inhabited

/-- What a token record waits for before it is written to its ring: nothing, the acknowledgement of a boundary's commit
(R665), or that of a journal write (R685). -/
inductive Gate where
  | open_
  | boundary (n : Nat)
  | journal (req count : Nat)
  deriving DecidableEq, Repr, Inhabited

/-- A record that has its place in a ring and is not written yet. -/
structure PendRec where
  req : Nat
  ring : Nat
  idx : Nat
  data : TokenRec
  final : Bool
  gate : Gate
  deriving DecidableEq, Repr, Inhabited

/-- R386, R387: an ending: its status and its stamp. -/
structure Ending where
  status : Nat
  stamp : Stamp
  deriving DecidableEq, Repr, Inhabited

/-- An entry of the request table (R375, R376). `list` holds the page-list entries and `blocks` the addresses of the
page-list blocks (R331); `out` the tokens emitted and not yet published, `parkedFrom` the state to return to, `verified` the draft length of the step that has ended and how many of its tokens were accepted,
until the boundary; `switchDue` that its SWITCHED record waits for a place. -/
structure Request where
  state : ReqState := .free
  ctx : Nat := 0
  priority : Nat := 0
  status : Nat := 0
  cancel : Option Stamp := none
  recompute : Bool := false
  noRecompute : Bool := false
  starved : Bool := false
  shipOut : Bool := false
  waitKv : Bool := false
  resume : Bool := false
  ringHold : Bool := false
  switched : Bool := false
  seed : Nat := 0
  tag : Nat := 0
  promptLen : Nat := 0
  maxNew : Nat := 0
  generated : Nat := 0
  kept : Nat := 0
  list : List Nat := []
  blocks : List Nat := []
  deadline : Option Stamp := none
  admitStamp : Stamp := ⟨0, 0⟩
  model : Nat := 0
  stopSet : Nat := 0
  sampler : Nat := 0
  ring : Option Nat := none
  veneer : Option (Nat × Nat) := none
  k : Nat := 0
  kInit : Nat := 0
  probeIn : Nat := 31
  zeroStreak : Nat := 0
  fullStreak : Nat := 0
  evictions : Nat := 0
  histAddr : Nat := 0
  shipModule : Nat := 0xFFFF
  shipId : Nat := 0
  expected : Nat := 0
  arrived : Nat := 0
  lastStamp : Stamp := ⟨0, 0⟩
  parkedFrom : ReqState := .decode
  joined : Bool := false
  ending : Option Ending := none
  out : List TokenRec := []
  draftLag : Nat := 0
  verified : Option (Nat × Nat) := none
  switchDue : Bool := false
  newPriority : Option Nat := none
  newDeadline : Option (Option Stamp) := none
  entry : Option AdmitPar := none
  deriving DecidableEq, Repr, Inhabited

/-- R321: an attention record. -/
structure AttRec where
  d : Nat := 0
  hq : Nat := 0
  hkv : Nat := 0
  hb : Nat := 1
  fmt : Nat := 0
  layers : Nat := 0
  mask : Nat := 0
  headMap : Nat := 0
  window : Nat := 0
  sinks : Nat := 0
  scale : Nat := 0
  chunk : Nat := 1
  mapAddr : Nat := 0
  scaleInit : Nat := 0
  rsvd : Bool := true
  deriving DecidableEq, Repr, Inhabited

/-- R371, R372: a step plan's header, and its run entries as (slot, phase, kinds, parameter block). -/
structure StepPlan where
  blocks : Nat := 0
  attBenches : Nat := 0
  bMax : Nat := 1
  runs : List (Nat × Nat × Nat × Nat) := []
  rsvd : Bool := true
  deriving DecidableEq, Repr, Inhabited

/-- A model in service: its record with the attention record and step plan that FUNC_START read. -/
structure Model where
  rec_ : ModelRec
  att : AttRec
  plan : StepPlan
  faulted : Bool := false
  faultRun : Nat := 0
  deriving DecidableEq, Repr, Inhabited

/-- A sampler parameter set with its copy of the bias list (token, FP32). -/
structure SamplerSet where
  par : SamplerPar
  bias : List (Nat × Nat)
  deriving DecidableEq, Repr, Inhabited

/-- R396. -/
structure StopSet where
  tokens : List Nat
  seqs : List (List Nat)
  deriving DecidableEq, Repr, Inhabited

/-- A token ring (R403–R408). `sinceIrq` counts the records since the last message, and `seen` is
the word last read of a REMOTE ring's consumer index. -/
structure Ring where
  par : RingPar
  prod : Nat := 0
  cons : Nat := 0
  sinceIrq : Nat := 0
  seen : Nat := 0
  deriving DecidableEq, Repr, Inhabited

/-- R380: the kinds of step. -/
inductive StepKind where
  | decode | prefill | training
  deriving DecidableEq, Repr, Inhabited

/-- R362: a work item: a request's rows over a range of its keys. -/
structure WorkItem where
  req : Nat
  rows : Nat
  keys : Nat
  bucket : Nat
  deriving DecidableEq, Repr, Inhabited

/-- R373: a run that a step launches: its pass (a draft pass by number, none for the main phases), slot and parameters. -/
structure Launch where
  pass : Option Nat
  slot : Nat
  params : List Nat
  deriving DecidableEq, Repr, Inhabited

/-- R351: a request's mask entry: its prefix length and its exclusion ranges in use, each as [first, after). -/
structure MaskEntry where
  prefix_ : Nat := 0
  ranges : List (Nat × Nat) := []
  deriving DecidableEq, Repr, Inhabited

/-- A step in progress: the requests in it, each with its draft length (decode) or chunk length (prefill); the runs still to
launch, the run in progress with its pass, the slots that ended runs retired by bench (R699), the code of a run that
ended FAULTED or of a structure that could not be read, with its address, by bench rank the attention work of R362 for the main model and for the draft, and the mask entries of its requests (R351). -/
structure Step where
  kind : StepKind
  model : Nat
  items : List (Nat × Nat)
  startNs : Nat
  todo : List Launch := []
  run : Option (Nat × Option Nat) := none
  done : List (Option Nat × Tab Nat) := []
  fault : Option Nat := none
  faultAddr : Nat := 0
  assigned : Tab (List WorkItem) := []
  draftWork : Tab (List WorkItem) := []
  masks : Tab MaskEntry := []
  deriving DecidableEq, Repr, Inhabited

/-- A block page (R332): its page number and which of its 256 blocks are taken. -/
structure BlockPage where
  page : Nat
  used : Nat
  deriving DecidableEq, Repr, Inhabited

/-- R410, R380: the policy values of REQ_SET_POLICY. -/
structure Policy where
  decodePerPrefill : Nat := 1
  kMax : Nat := 4
  grow : Nat := 8
  deriving DecidableEq, Repr, Inhabited

/-- The serving units of one context. `ranges` holds the pool's pages as (first page,
count) in pool order, `free` the free list by channel group (R333, R765), `lastGroup` the group of the
last page taken. `halted` is the halt of R335, and `training` holds the queued
training steps as (work, slot). `pend` holds the records that have a place in a ring and are not written yet, oldest first, and `boundaryDue`
that a step has ended and its boundary has not come; `waste` is what that boundary moves to wasted slots (R699). -/
structure ServeCtx where
  pool : PoolCfg := ⟨[], false, 131072, 0, 0, 0, 0⟩
  poolSize : Nat := 0
  ranges : List (Nat × Nat) := []
  free : Tab (List Nat) := []
  lastGroup : Option Nat := none
  allocated : Nat := 0
  inTransit : Nat := 0
  blockPages : List BlockPage := []
  evictions : Nat := 0
  lookMisses : Nat := 0
  saturations : Nat := 0
  nanRows : Nat := 0
  evict : Bool := false
  newEvict : Option Bool := none
  cuts : List Nat := [512, 2048, 8192, 32768, 131072, 524288, 1048576]
  models : Tab (Option Model) := []
  policy : Policy := {}
  newPolicy : Option Policy := none
  samplers : Tab (Option SamplerSet) := []
  newSamplers : Tab (Option SamplerSet) := []
  stops : Tab (Option StopSet) := []
  rings : Tab (Option Ring) := []
  halted : Bool := false
  step : Option Step := none
  decodeSince : Nat := 0
  lastKind : Nat := 0
  batch : Nat := 0
  steps : Nat := 0
  tokens : Nat := 0
  drafted : Nat := 0
  accepted : Nat := 0
  ringHolds : Nat := 0
  stepNs : Nat := 0
  boundaryNs : Nat := 0
  lastBoundary : Nat := 0
  changed : Bool := false
  training : List (Nat × Nat) := []
  pend : List PendRec := []
  boundaryDue : Bool := false
  endedAt : Stamp := ⟨0, 0⟩
  waste : Tab Nat := []
  deriving DecidableEq, Repr, Inhabited

/-- R412. -/
inductive VenState where
  | free | loading | live | retiring | training
  deriving DecidableEq, Repr, Inhabited

/-- A veneer slot (R412–R415, R431). `replaces` marks a load by VEN_REPLACE, `trains` one by VEN_TRAIN_BEGIN that is still being filled;
descriptor and state lot of a training slot are kept, and `factors` holds A and B. -/
structure Veneer where
  state : VenState := .free
  owner : Nat := 0
  name : Nat := 0
  version : Nat := 0
  model : Nat := 0
  rank : Nat := 0
  addr : Nat := 0
  len : Nat := 0
  replaces : Bool := false
  trains : Bool := false
  descAddr : Nat := 0
  stateLot : Nat := 0
  factors : List Byte := []
  deriving DecidableEq, Repr, Inhabited

/-- The serving units as a whole. -/
structure ServeSt where
  reqs : Tab Request := []
  ctxs : Tab ServeCtx := []
  veneers : Tab Veneer := []
  badWrites : Nat := 0
  deriving DecidableEq, Repr, Inhabited

/-- R285–R287: a tensor reference. -/
structure Tensor where
  addr : Nat
  fmt : Nat
  layout : Nat
  n : Nat
  h : Nat
  w : Nat
  c : Nat
  strides : List Nat
  rsvd : Bool
  deriving DecidableEq, Repr, Inhabited

/-- R285: an operator record. -/
structure OprRec where
  kind : Nat
  mode : Nat
  padMode : Nat
  flags : Nat
  padValue : Nat
  k : Nat × Nat
  stride : Nat × Nat
  dil : Nat × Nat
  padV : Nat × Nat
  padH : Nat × Nat
  groups : Nat
  src : Tensor
  dst : Tensor
  aux : Tensor
  biasAddr : Nat
  flagsAddr : Nat
  params : List Byte
  rsvd : Bool
  deriving DecidableEq, Repr, Inhabited

/-- A plan (R290, R291): the record, its path, its weights packed at planning time as element patterns in the order C_out, row,
column, C_in / groups, and per output channel the FP32 sum of the weights off the centre tap (R306), as a pattern; the
extents of its tiles along height and width (R306–R309); the blocks and jig slot; the JIGLIB epoch it was made under; and the
bytes it has in memory, which the Square finds it by. Plans are kept by their address. -/
structure Plan where
  ctx : Nat
  rec_ : OprRec
  blocks : List Nat
  slot : Nat
  path : Nat
  weights : List Nat
  offSums : List Nat
  hExt : List Nat
  wExt : List Nat
  epoch : Nat
  empty : Bool
  code : List Byte
  deriving DecidableEq, Repr, Inhabited

/-- What a stage of a chain ended with (R293, R294). -/
structure StageEnd where
  outcome : Nat
  flagged : Nat
  dropped : Nat
  emptyWindows : Nat
  deriving DecidableEq, Repr, Inhabited

/-- A chain in progress: its plans, the stages that have ended, the run of the stage in progress, and, for a triggered
one, its trigger, the session and buffer of the picture that it holds, and the picture's stamp; `boxes` is the box count that the run in progress
read as it started (R317). -/
structure Chain where
  id : Nat
  ctx : Nat
  plans : List Plan
  ends : List StageEnd
  run : Nat
  trigger : Option Nat
  session : Nat
  buffer : Nat
  picture : Stamp
  boxes : Nat
  deriving DecidableEq, Repr, Inhabited

/-- An armed trigger (R296–R299). `ending` is set by OPR_UNTRIGGER while its chain still runs. -/
structure Trigger where
  id : Nat
  ctx : Nat
  session : Nat
  plans : List Plan
  ring : Nat
  records : Nat
  vector : Option Nat
  seq : Nat := 0
  skipped : Nat := 0
  newSkips : Nat := 0
  completed : Nat := 0
  ending : Bool := false
  deriving DecidableEq, Repr, Inhabited

/-- A planning in progress (R290): where the plan goes, the plan or the refusal, and the answer it will give; `viol` says that the refusal is
for a reserved field (R96). -/
structure Planning where
  id : Nat
  ctx : Nat
  addr : Nat
  plan : Option Plan
  refusal : Option (Status × Nat)
  answer : List Fld
  viol : Bool
  deriving DecidableEq, Repr, Inhabited

/-- The operators as a whole. -/
structure OprSt where
  plans : Tab (Option Plan) := []
  planning : List Planning := []
  chains : List Chain := []
  triggers : List Trigger := []
  deriving DecidableEq, Repr, Inhabited

end Sys2Proof.Machine
end

