-- ==== Sys2Proof/Syntax/Red.lean ====
section
/-! DEFINITION. Operands of the redundancy and tray commands and of DOWEL messages (chapter 15). -/
namespace Sys2Proof

/-- R667: a DOWEL message as it arrives: its port and stamp, the sending module, the pair's context, pair_id, epoch and the field
in operand bits [63:32]. -/
structure DowelMsg where
  port : Nat
  srcM : Nat
  ctx : Nat
  stamp : Stamp
  pairId : Nat
  epoch : Nat
  field : Nat
  rsvd : Bool
  deriving DecidableEq, Repr, Inhabited

/-- R661, R662: what the delta records of the mirror lot say, as the standby reads them (log entry 7): the request entries changed, the rings,
sampler sets, stop sets and veneer slots changed, and the pending token records. -/
structure Delta where
  reqs : List (Nat × Machine.Request)
  rings : List (Nat × Option Machine.Ring)
  samplers : List (Nat × Option Machine.SamplerSet)
  stops : List (Nat × Option Machine.StopSet)
  veneers : List (Nat × Machine.Veneer)
  records : List Machine.PendRec
  deriving DecidableEq, Repr, Inhabited

end Sys2Proof
end

