-- ==== Sys2Proof/Syntax/Video.lean ====
section
/-! DEFINITION. Operands of the video commands and events (chapter 12). -/
namespace Sys2Proof

/-- R494: the parameters of VID_DEC_OPEN. Byte 9 is split into its flags; `rsvd` says that its reserved bits are zero. -/
structure DecPar where
  session : Nat
  ctx : Nat
  pipe : Nat
  codec : Nat
  maxW : Nat
  maxH : Nat
  maxDepth : Nat
  display : Bool
  wait : Bool
  grain : Bool
  rsvd : Bool
  rate : Nat
  inLog : Nat
  outCount : Nat
  recLog : Nat
  vector : Nat
  inRing : Nat
  inWords : Nat
  refBase : Nat
  outBase : Nat
  recRing : Nat
  recWords : Nat
  deriving DecidableEq, Repr, Inhabited

/-- R515: what VID_ENC_SET_RC changes. -/
structure RateCtl where
  qIntra : Nat
  qInter : Nat
  qMax : Nat
  window : Nat
  cap : Nat
  deriving DecidableEq, Repr, Inhabited

/-- R510: the parameters of VID_ENC_OPEN. -/
structure EncPar where
  session : Nat
  ctx : Nat
  pipe : Nat
  codec : Nat
  depth : Nat
  inKind : Nat
  rotation : Nat
  refresh : Nat
  width : Nat
  height : Nat
  inW : Nat
  inH : Nat
  rc : RateCtl
  refreshN : Nat
  keyInterval : Nat
  rate : Nat
  refs : Nat
  inLog : Nat
  slotLog : Nat
  inRing : Nat
  inWords : Nat
  refBase : Nat
  bsBase : Nat
  slotBytes : Nat
  recRing : Nat
  recWords : Nat
  vector : Nat
  deriving DecidableEq, Repr, Inhabited

/-- Samples of a 4:2:0 picture, each plane row by row. -/
structure Picture where
  w : Nat
  h : Nat
  depth : Nat
  y : List Nat
  cb : List Nat
  cr : List Nat
  deriving DecidableEq, Repr, Inhabited

/-- What the decode of one picture gives (log entry 7): its decoded samples and, where film grain is synthesised, the
samples with grain; what the bitstream says of it, and whether it is monochrome; the 16 × 16 luma units whose slice ended before it decoded them, whether slice or tile
data was in error, and the block decodes spent (R505); the reference buffers it refers to (none for one that no buffer holds); what the reconstruction puts into its own frame buffer, from its start; the marks
that the codec's marking process gives other buffers and this one; and which held pictures the output process releases,
as positions among those held. -/
structure Decoded where
  pic : Picture
  grained : Option Picture
  shown : Bool
  order : Nat
  key : Bool
  reference : Bool
  matrix : Option Nat
  fullRange : Bool
  mono : Bool := false
  damaged : List (Nat × Nat)
  sliceError : Bool
  work : Nat
  refs : List (Option Nat)
  frame : List Byte
  marks : List (Nat × Nat)
  mark : Nat
  release : List Nat
  deriving DecidableEq, Repr, Inhabited

/-- R508: what became of an access unit. `picture` may come several times for one access unit, the last with `last`. -/
inductive AuResult where
  | picture (d : Decoded) (last : Bool)
  | noParamSet
  | syntaxError
  | unsupported
  | badReference
  deriving DecidableEq, Repr, Inhabited

/-- R513: one row as the encoder would code it at q_intra or q_inter, at q_max, and as a skip row; and what each coding leaves in the
picture's frame buffer (R496: the layout is internal). -/
structure EncRow where
  normal : List Byte
  atMax : List Byte
  skip : List Byte
  normalFrame : List Byte := []
  maxFrame : List Byte := []
  skipFrame : List Byte := []
  deriving DecidableEq, Repr, Inhabited

end Sys2Proof
end

