-- ==== Sys2Proof/Syntax.lean ====
section
/-! DEFINITION. The commands of the block: one constructor for each row of the opcode table, in its order, with the
row's operands. A mailbox command carries its header; an event carries `dt`, the time since the previous command. -/
namespace Sys2Proof

/-- The commands (R81 and the tables of each family) and events of the module. -/
inductive Instr where
  /-- NOP (R81). -/
  | nop (h : Hdr)
  /-- GET_INFO (R81). -/
  | getInfo (h : Hdr)
  /-- GET_SQ_STATUS (R81). -/
  | getSqStatus (h : Hdr)
  /-- MBX_GET_STATE (R81). -/
  | mbxGetState (h : Hdr)
  /-- MBX_NOTIFY_MASK (R81). -/
  | mbxNotifyMask (h : Hdr) (mask : Nat)
  /-- MBX_BIND (R78). -/
  | mbxBind (h : Hdr) (m : Nat) (b : Option Binding)
  /-- MBX_UNQUARANTINE (R81). -/
  | mbxUnquarantine (h : Hdr) (m : Nat)
  /-- SET_MODULE_NUMBER (R82). -/
  | setModuleNumber (h : Hdr) (n : Nat)
  /-- FUNC_STOP (R87). -/
  | funcStop (h : Hdr) (fid hold : Nat)
  /-- FUNC_START (R88). -/
  | funcStart (h : Hdr) (fid peerDigest : Nat) (peerActive : Bool)
  /-- FUNC_REVERT (R90). -/
  | funcRevert (h : Hdr) (fid : Nat) (force : Bool)
  /-- FUNC_STATUS (R84). -/
  | funcStatus (h : Hdr) (fid : Nat)
  /-- FUNCTION_QUIESCED (R83). -/
  | functionQuiesced (dt fid : Nat)
  /-- FUNCTION_START_DONE (R88). -/
  | functionStartDone (dt fid : Nat)
  /-- HOLD_MS_EXPIRY (R91). -/
  | holdMsExpiry (dt fid : Nat)
  /-- TIM_GET (R36). -/
  | timGet (h : Hdr)
  /-- TIM_SET_SKEW_LIMIT (R27). -/
  | timSetSkewLimit (h : Hdr) (limitNs : Nat)
  /-- TIM_PTP_CONFIG (R767). -/
  | timPtpConfig (h : Hdr) (cfg : PtpConfig)
  /-- TIM_ACCEPT_GM (R31). -/
  | timAcceptGm (h : Hdr)
  /-- TIM_STAMP_NS_READ (R34). -/
  | timStampNsRead (dt fn : Nat)
  /-- BOOT_GET_STATE (R136). -/
  | bootGetState (h : Hdr)
  /-- BOOT_GET_CAPACITY (R136). -/
  | bootGetCapacity (h : Hdr)
  /-- BOOT_READ_JOURNAL (R136). -/
  | bootReadJournal (h : Hdr) (seq n : Nat) (d : Dest)
  /-- BOOT_CLEAR_HISTORY (R106). -/
  | bootClearHistory (h : Hdr) (w : HistoryItems)
  /-- BOOT_RESTART (R100). -/
  | bootRestart (h : Hdr)
  /-- FW_GET_SLOTS (R136). -/
  | fwGetSlots (h : Hdr)
  /-- FW_WRITE_BEGIN (R137). -/
  | fwWriteBegin (h : Hdr) (slot : Nat)
  /-- FW_WRITE (R137). -/
  | fwWrite (h : Hdr) (slot offset : Nat) (fromHost : Bool) (data : List Byte)
  /-- FW_VERIFY_SLOT (R136). -/
  | fwVerifySlot (h : Hdr) (slot : Nat)
  /-- FW_ACTIVATE (R126). -/
  | fwActivate (h : Hdr)
  /-- COMPONENT_ACTIVATED (R128). -/
  | componentActivated (dt : Nat) (good : Bool)
  /-- FW_CONFIRM (R133). -/
  | fwConfirm (h : Hdr)
  /-- FW_SELECT_BOOT (R761). -/
  | fwSelectBoot (h : Hdr) (slot : Nat)
  /-- TRIAL_EXPIRY (R133). -/
  | trialExpiry (dt : Nat)
  /-- SQUARE_WATCHDOG (R132). -/
  | squareWatchdog (dt : Nat)
  /-- CTX_CREATE (R613). -/
  | ctxCreate (h : Hdr) (c : Nat) (flags : Nat)
  /-- CTX_DESTROY (R616). -/
  | ctxDestroy (h : Hdr) (c : Nat)
  /-- CTX_SET_BLOCKS (R648). -/
  | ctxSetBlocks (h : Hdr) (c : Nat) (mask : Nat) (saveLot : Nat)
  /-- CTX_SET_GROUPS (R648). -/
  | ctxSetGroups (h : Hdr) (c : Nat) (mask : Nat)
  /-- CTX_SET_SLICE (R648). -/
  | ctxSetSlice (h : Hdr) (c : Nat) (base : Nat) (count : Nat) (quota : Nat)
  /-- CTX_SET_QUANTUM (R618). -/
  | ctxSetQuantum (h : Hdr) (c : Nat) (ms : Nat)
  /-- CTX_GET (R648). -/
  | ctxGet (h : Hdr) (c : Nat)
  /-- LOT_SET (R41). -/
  | lotSet (h : Hdr) (c : Nat) (idx : Nat) (e : Word)
  /-- LOT_GET (R648). -/
  | lotGet (h : Hdr) (c : Nat) (idx : Nat) (n : Nat)
  /-- MEM_GET_STATE (R275). -/
  | memGetState (h : Hdr) (g : Nat)
  /-- YD_SET_PARTITION (R255). -/
  | ydSetPartition (h : Hdr) (g mask : Nat)
  /-- MEM_SET_SCRUB (R262). -/
  | memSetScrub (h : Hdr) (g : Option Nat) (hours : Nat)
  /-- MEM_GET_ERRORS (R275). -/
  | memGetErrors (h : Hdr) (g : Nat)
  /-- MEM_INJECT (R276). -/
  | memInject (h : Hdr) (a dataMask chkMask : Nat)
  /-- BLK_GET_MAP (R190). -/
  | blkGetMap (h : Hdr)
  /-- JIG_KEY_ADD (R190). -/
  | jigKeyAdd (h : Hdr) (c key : Nat)
  /-- JIG_KEY_REMOVE (R190). -/
  | jigKeyRemove (h : Hdr) (c key : Nat)
  /-- JIG_LOAD (R169). -/
  | jigLoad (h : Hdr) (c slot mask addr len : Nat) (sigOk : Bool)
  /-- JIG_LOAD_LIB (R171). -/
  | jigLoadLib (h : Hdr) (c slot mask jigId : Nat)
  /-- JIG_UNLOAD (R190). -/
  | jigUnload (h : Hdr) (c slot mask : Nat)
  /-- JIG_RUN (R178). -/
  | jigRun (h : Hdr) (c slot mask : Nat) (params : List Nat)
  /-- JIG_ABORT (R190). -/
  | jigAbort (h : Hdr) (c run : Nat)
  /-- JIG_STATUS (R190). -/
  | jigStatus (h : Hdr) (c mask : Nat)
  /-- OPR_PLAN (R290). -/
  | oprPlan (h : Hdr) (c slot mask recAddr planAddr : Nat) (x : PlanShape)
  /-- OPR_RUN (R294). -/
  | oprRun (h : Hdr) (c : Nat) (plans : List Nat) (trigger : Option TriggerPar)
  /-- OPR_UNTRIGGER (R289). -/
  | oprUntrigger (h : Hdr) (c id : Nat)
  /-- OPR_STATUS (R289). -/
  | oprStatus (h : Hdr) (c : Nat)
  /-- CHAIN_STAGE_END (R294). -/
  | chainStageEnd (dt id : Nat) (faulted : Option Nat)
  /-- REQ_ADMIT (R384). -/
  | reqAdmit (h : Hdr) (c : Nat) (p : AdmitPar)
  /-- REQ_CANCEL (R389). -/
  | reqCancel (h : Hdr) (c x : Nat)
  /-- REQ_UPDATE (R423). -/
  | reqUpdate (h : Hdr) (c x : Nat) (priority : Option Nat) (deadline : Option Stamp)
  /-- REQ_GET (R423). -/
  | reqGet (h : Hdr) (c x : Nat)
  /-- REQ_MODEL_SET (R374). -/
  | reqModelSet (h : Hdr) (c : Nat) (r : ModelRec)
  /-- REQ_SET_POLICY (R423). -/
  | reqSetPolicy (h : Hdr) (c decodePerPrefill kMax grow : Nat)
  /-- REQ_STOP_SET (R396). -/
  | reqStopSet (h : Hdr) (c set_ : Nat) (tokens : List Nat) (seqs : List (List Nat))
  /-- REQ_RING_SET (R403). -/
  | reqRingSet (h : Hdr) (c : Nat) (p : RingPar)
  /-- REQ_GET_STATS (R423). -/
  | reqGetStats (h : Hdr) (c : Nat)
  /-- SMP_SET (R395). -/
  | smpSet (h : Hdr) (c set_ : Nat) (p : SamplerPar)
  /-- SMP_GET (R423). -/
  | smpGet (h : Hdr) (c set_ : Nat)
  /-- KV_POOL_SET (R367). -/
  | kvPoolSet (h : Hdr) (c : Nat) (p : PoolCfg)
  /-- KV_POOL_GET (R366). -/
  | kvPoolGet (h : Hdr) (c : Nat)
  /-- KV_SET_POLICY (R366). -/
  | kvSetPolicy (h : Hdr) (c : Nat) (evict : Bool)
  /-- ATT_SET_BUCKETS (R361). -/
  | attSetBuckets (h : Hdr) (c : Nat) (cuts : List Nat)
  /-- KV_READ_LIST (R766). -/
  | kvReadList (h : Hdr) (c x dest : Nat)
  /-- VEN_LOAD (R424). -/
  | venLoad (h : Hdr) (c : Nat) (p : VenPar)
  /-- VEN_REPLACE (R414). -/
  | venReplace (h : Hdr) (c : Nat) (p : VenPar)
  /-- VEN_UNLOAD (R415). -/
  | venUnload (h : Hdr) (c slot : Nat)
  /-- VEN_GET (R424). -/
  | venGet (h : Hdr) (c : Nat)
  /-- VEN_TRAIN_BEGIN (R424). -/
  | venTrainBegin (h : Hdr) (c : Nat) (package : Option VenPar) (model rank desc stateLot : Nat)
  /-- VEN_TRAIN_STEP (R417). -/
  | venTrainStep (h : Hdr) (c slot batch : Nat)
  /-- VEN_PUBLISH (R417). -/
  | venPublish (h : Hdr) (c slot name version : Nat)
  /-- WGT_UNSEAL (R637). -/
  | wgtUnseal (h : Hdr) (c : Nat) (src : Nat) (len : Nat) (dst : Nat) (sigOk : Bool)
  /-- NET_GET_STATE (R478). -/
  | netGetState (h : Hdr)
  /-- NET_SET_MODE (R432). -/
  | netSetMode (h : Hdr) (g mode : Nat)
  /-- NET_SET_PORT (R478). -/
  | netSetPort (h : Hdr) (g port : Nat) (p : PortCfg)
  /-- NET_SET_PLAN (R437). -/
  | netSetPlan (h : Hdr) (g v4 v6 : Nat)
  /-- NET_SET_UDP_PORT (R445). -/
  | netSetUdpPort (h : Hdr) (g port : Nat)
  /-- NET_ASSIGN (R439). -/
  | netAssign (h : Hdr) (g port : Nat) (exclusive : Bool) (contexts : Nat)
  /-- NET_SET_MANAGER (R471). -/
  | netSetManager (h : Hdr) (m : Nat)
  /-- NET_SET_SISTER (R476). -/
  | netSetSister (h : Hdr) (m : Nat)
  /-- NET_PEER_PIN (R478). -/
  | netPeerPin (h : Hdr) (m : Nat) (pin : Bool) (addrs : List Nat)
  /-- NET_PEER_GET (R478). -/
  | netPeerGet (h : Hdr) (idx : Nat)
  /-- NET_LANE_GET (R478). -/
  | netLaneGet (h : Hdr) (c idx : Nat)
  /-- XLT_GRANT_SET (R47). -/
  | xltGrantSet (h : Hdr) (c : Nat) (l : List (Nat × Nat))
  /-- XLT_SET_LANE_DEPTH (R456). -/
  | xltSetLaneDepth (h : Hdr) (c depth : Nat)
  /-- XLT_COLL_SET (R467). -/
  | xltCollSet (h : Hdr) (c g counter : Nat)
  /-- NET_UNQUARANTINE (R473). -/
  | netUnquarantine (h : Hdr) (m : Nat)
  /-- VID_DEC_OPEN (R494). -/
  | vidDecOpen (h : Hdr) (p : DecPar)
  /-- VID_ENC_OPEN (R510). -/
  | vidEncOpen (h : Hdr) (p : EncPar)
  /-- VID_CLOSE (R522). -/
  | vidClose (h : Hdr) (enc : Bool) (session : Nat) (drain : Bool)
  /-- VID_ENC_SET_RC (R515). -/
  | vidEncSetRc (h : Hdr) (session : Nat) (rc : RateCtl)
  /-- VID_ENC_FORCE_KEY (R516). -/
  | vidEncForceKey (h : Hdr) (session : Nat)
  /-- VID_GET (R523). -/
  | vidGet (h : Hdr) (enc : Bool) (session : Nat)
  /-- PWR_GET_STATE (R603). -/
  | pwrGetState (h : Hdr)
  /-- PWR_SET_LOCAL_CAP (R548). -/
  | pwrSetLocalCap (h : Hdr) (watts : Nat)
  /-- PWR_SET_LONE_CAP (R548). -/
  | pwrSetLoneCap (h : Hdr) (watts : Nat)
  /-- PWR_CAB_CAP (R546). -/
  | pwrCabCap (h : Hdr) (watts : Nat)
  /-- PWR_SET_CEILING (R535). -/
  | pwrSetCeiling (h : Hdr) (level : Nat)
  /-- PWR_SET_DROOP (R551). -/
  | pwrSetDroop (h : Hdr) (margin : Nat)
  /-- PWR_SET_CONF_LEVELS (R561). -/
  | pwrSetConfLevels (h : Hdr) (levels : List Nat)
  /-- PWR_RESUME (R587). -/
  | pwrResume (h : Hdr)
  /-- PWR_CLEAR_LEAK (R590). -/
  | pwrClearLeak (h : Hdr)
  /-- PACE_GROUP_SET (R566). -/
  | paceGroupSet (h : Hdr) (cfg : PaceCfg)
  /-- PACE_GROUP_GET (R603). -/
  | paceGroupGet (h : Hdr)
  /-- PWR_GET_ENERGY (R603). -/
  | pwrGetEnergy (h : Hdr)
  /-- SEC_SPDM (R626). -/
  | secSpdm (h : Hdr) (c : Nat)
  /-- SEC_ROTATE_KEY (R641). -/
  | secRotateKey (h : Hdr) (c : Nat) (rate : Nat)
  /-- SEC_PKG_KEY_ADD (R649). -/
  | secPkgKeyAdd (h : Hdr) (c : Nat) (key : Nat)
  /-- SEC_PKG_KEY_REMOVE (R649). -/
  | secPkgKeyRemove (h : Hdr) (c : Nat) (key : Nat)
  /-- RED_GET (R692). -/
  | redGet (h : Hdr) (c : Nat)
  /-- RED_SET_PROTECT (R656). -/
  | redSetProtect (h : Hdr) (c : Nat) (p : ProtectPar)
  /-- RED_SWAP (R677). -/
  | redSwap (h : Hdr) (c : Nat)
  /-- RED_RELEASE (R679). -/
  | redRelease (h : Hdr) (c : Nat)
  /-- RED_RING_ADOPT (R687). -/
  | redRingAdopt (h : Hdr) (c : Nat) (ring : Nat) (prod : Nat)
  /-- TRAY_DRAIN (R688). -/
  | trayDrain (h : Hdr)
  /-- TRAY_GET (R692). -/
  | trayGet (h : Hdr)
  /-- GAU_SELECT (R696). -/
  | gauSelect (h : Hdr) (benches codes : List Nat)
  /-- GAU_SNAPSHOT (R706). -/
  | gauSnapshot (h : Hdr) (at_ : Stamp) (mask : Nat) (dest : Dest)
  /-- GAU_READ (R727). -/
  | gauRead (h : Hdr) (u first n : Nat)
  /-- GAU_SAMPLE_SET (R713). -/
  | gauSampleSet (h : Hdr) (c n addr logRecords watermark vector prodAddr : Nat)
  /-- GAU_SAMPLE_STOP (R727). -/
  | gauSampleStop (h : Hdr) (c : Nat)
  /-- REC_READ (R727). -/
  | recRead (h : Hdr) (sev pc seq n : Nat) (d : Dest)
  /-- REC_FREEZE (R722). -/
  | recFreeze (h : Hdr) (seconds : Nat)
  /-- REC_THAW (R722). -/
  | recThaw (h : Hdr)
  /-- REC_CLEAR (R725). -/
  | recClear (h : Hdr)
  /-- REC_FLUSH (R719). -/
  | recFlush (h : Hdr)
  /-- REC_GET_STATE (R727). -/
  | recGetState (h : Hdr)
  /-- MBX_CMD_TAIL_WRITE (R65). -/
  | mbxCmdTailWrite (dt m tail : Nat) (written : List Byte) (ideT : Bool)
  /-- MBX_RSP_HEAD_WRITE (R70). -/
  | mbxRspHeadWrite (dt m head : Nat) (ideT : Bool)
  /-- MBX_CTRL_RESET (R76). -/
  | mbxCtrlReset (dt m dur : Nat) (ideT : Bool)
  /-- MBX_CTRL_IRQ (R68). -/
  | mbxCtrlIrq (dt m : Nat) (irqEn : Bool) (vector : Nat) (ideT : Bool)
  /-- MBX_QUARANTINE_EXPIRY (R97). -/
  | mbxQuarantineExpiry (dt m : Nat)
  /-- READ_ONLY_WRITE (R96). -/
  | readOnlyWrite (dt fn : Nat) (b : RoBlock) (ideT : Bool)
  /-- REQ_RING_CONS_WRITE (R405). -/
  | reqRingConsWrite (dt fn n v : Nat) (ideT : Bool)
  /-- GAU_SAMPLE_CONS_WRITE (R713). -/
  | gauSampleConsWrite (dt fn c v : Nat) (ideT : Bool)
  /-- REC_CURSOR_WRITE (R724). -/
  | recCursorWrite (dt slot : Nat) (ram auto : Bool)
  /-- REC_WINDOW_AUTO_READ (R724). -/
  | recWindowAutoRead (dt : Nat)
  /-- YD_HIGH_WATER_READ (R283). -/
  | ydHighWaterRead (dt g : Nat) (pinned : Bool)
  /-- CHECKPOINT (R56). -/
  | checkpoint (dt : Nat) (ends : List (Nat × Bool))
  /-- CORE_DISAGREEMENT (R53). -/
  | coreDisagreement (dt core : Nat)
  /-- PAIR_DISAGREEMENT (R57). -/
  | pairDisagreement (dt : Nat) (mismatch : Bool)
  /-- SIDEBAND_EXTRA_ENDPOINT (R77). -/
  | sidebandExtraEndpoint (dt endpoint : Nat)
  /-- SET_ENDPOINT_ID (R77). -/
  | setEndpointId (dt eid : Nat)
  /-- ENTDAA (R741). -/
  | entdaa (dt addr : Nat)
  /-- SETNEWDA (R741). -/
  | setnewda (dt addr : Nat)
  /-- RSTDAA (R77). -/
  | rstdaa (dt : Nat)
  /-- ENEC (R741). -/
  | enec (dt : Nat)
  /-- DISEC (R741). -/
  | disec (dt : Nat)
  /-- GETPID (R741). -/
  | getpid (dt : Nat)
  /-- GETBCR (R741). -/
  | getbcr (dt : Nat)
  /-- GETDCR (R741). -/
  | getdcr (dt : Nat)
  /-- GETSTATUS (R741). -/
  | getstatus (dt : Nat)
  /-- GETMXDS (R741). -/
  | getmxds (dt : Nat)
  /-- RSTACT (R741). -/
  | rstact (dt action : Nat)
  /-- PLDM_MONITORING (R742). -/
  | pldmMonitoring (dt request : Nat)
  /-- MCTP_CONTROL (R742). -/
  | mctpControl (dt request : Nat)
  /-- GET_VERSION (R627). -/
  | getVersion (dt : Nat) (p : SpdmPath)
  /-- GET_CAPABILITIES (R627). -/
  | getCapabilities (dt : Nat) (p : SpdmPath)
  /-- NEGOTIATE_ALGORITHMS (R627). -/
  | negotiateAlgorithms (dt : Nat) (p : SpdmPath) (offered : Bool)
  /-- GET_DIGESTS (R627). -/
  | getDigests (dt : Nat) (p : SpdmPath)
  /-- GET_CERTIFICATE (R628). -/
  | getCertificate (dt : Nat) (p : SpdmPath) (slot : Nat) (off : Nat) (len : Nat)
  /-- CHALLENGE (R628). -/
  | challenge (dt : Nat) (p : SpdmPath) (slot : Nat)
  /-- GET_MEASUREMENTS (R629). -/
  | getMeasurements (dt : Nat) (p : SpdmPath) (sess : Option Nat) (idx : Nat)
  /-- KEY_EXCHANGE (R627). -/
  | keyExchange (dt : Nat) (p : SpdmPath) (slot : Nat)
  /-- FINISH (R627). -/
  | finish (dt : Nat) (sid : Nat) (good : Bool)
  /-- HEARTBEAT (R627). -/
  | heartbeat (dt : Nat) (sid : Nat)
  /-- KEY_UPDATE (R627). -/
  | keyUpdate (dt : Nat) (sid : Nat)
  /-- END_SESSION (R625). -/
  | endSession (dt : Nat) (sid : Nat)
  /-- KEY_DELIVER (R634). -/
  | keyDeliver (dt : Nat) (sid : Nat) (k : KeyDelivery)
  /-- KEY_ERASE (R635). -/
  | keyErase (dt : Nat) (sid : Nat) (entry : Nat)
  /-- SPDM_SESSION_TIMEOUT (R627). -/
  | spdmSessionTimeout (dt : Nat) (sid : Nat)
  /-- LOCK_INTERFACE (R622). -/
  | lockInterface (dt : Nat) (sid : Nat) (c : Nat) (stream : Nat)
  /-- STOP_INTERFACE (R625). -/
  | stopInterface (dt : Nat) (c : Nat)
  /-- IDE_INTEGRITY_FAILURE (R625). -/
  | ideIntegrityFailure (dt : Nat) (stream : Nat)
  /-- FUNCTION_LEVEL_RESET (R76). -/
  | functionLevelReset (dt : Nat) (fn : Nat) (dur : Nat)
  /-- PERST_ASSERT (R748). -/
  | perstAssert (dt : Nat)
  /-- PERST_DEASSERT (R748). -/
  | perstDeassert (dt : Nat)
  /-- CONFIG_REQUEST (R102). -/
  | configRequest (dt fn : Nat) (sriov : Option Bool)
  /-- BAR4_READ (R51). -/
  | bar4Read (dt vf off len : Nat) (ideT : Bool)
  /-- BAR4_WRITE (R51). -/
  | bar4Write (dt vf off : Nat) (data : List Byte) (ideT : Bool)
  /-- PTM_EXCHANGE (R33). -/
  | ptmExchange (dt master : Nat)
  /-- PPS_IN_EDGE (R33). -/
  | ppsInEdge (dt : Nat) (phase : Int)
  /-- PPS_OUT_SECOND (R33). -/
  | ppsOutSecond (dt : Nat)
  /-- PTP_SYNC (R30). -/
  | ptpSync (dt : Nat) (m : PtpSync)
  /-- PTP_FOLLOW_UP (R443). -/
  | ptpFollowUp (dt port domain : Nat) (offset : Int)
  /-- PTP_ANNOUNCE (R443). -/
  | ptpAnnounce (dt port domain grandmaster : Nat)
  /-- PTP_DELAY_RESP (R443). -/
  | ptpDelayResp (dt port domain : Nat) (delay : Int)
  /-- PTP_DELAY_REQ (R444). -/
  | ptpDelayReq (dt : Nat)
  /-- PTP_MASTER_SYNC_TIMER (R444). -/
  | ptpMasterSyncTimer (dt : Nat)
  /-- SYNC_LOSS (R33). -/
  | syncLoss (dt : Nat)
  /-- ARP_REQUEST (R436). -/
  | arpRequest (dt port len target sender : Nat)
  /-- NEIGHBOR_SOLICITATION (R436). -/
  | neighborSolicitation (dt port len target sender : Nat) (solicits : Bool)
  /-- ECHO_REQUEST (R436). -/
  | echoRequest (dt port len : Nat) (v6 : Bool) (target sender : Nat) (data : List Byte)
  /-- FRAME_DROP (R436). -/
  | frameDrop (dt port : Nat) (kind : FrameKind)
  /-- XLT_MALFORMED (R450). -/
  | xltMalformed (dt port srcM : Nat)
  /-- HELLO_ANNOUNCE (R451). -/
  | helloAnnounce (dt : Nat) (m : XMsg) (p : HelloPar)
  /-- HELLO_OPEN (R455). -/
  | helloOpen (dt : Nat) (m : XMsg) (p : HelloPar)
  /-- HELLO_OPEN_ACK (R455). -/
  | helloOpenAck (dt : Nat) (m : XMsg)
  /-- HELLO_CLOSE (R448). -/
  | helloClose (dt : Nat) (m : XMsg)
  /-- PROBE_ACK (R459). -/
  | probeAck (dt : Nat) (m : XMsg)
  /-- PROBE_ECHO_REQ (R461). -/
  | probeEchoReq (dt : Nat) (m : XMsg)
  /-- PROBE_ECHO_RESP (R461). -/
  | probeEchoResp (dt : Nat) (m : XMsg)
  /-- NAK (R470). -/
  | nak (dt : Nat) (m : XMsg)
  /-- DATA_WRITE (R48). -/
  | dataWrite (dt : Nat) (m : XMsg)
  /-- DATA_READ (R459). -/
  | dataRead (dt : Nat) (m : XMsg)
  /-- READ_RESP (R448). -/
  | readResp (dt : Nat) (m : XMsg)
  /-- ATOMIC (R466). -/
  | atomic (dt : Nat) (m : XMsg)
  /-- COLLECTIVE (R467). -/
  | collective (dt : Nat) (m : XMsg)
  /-- PAGE_SHIP_ANNOUNCE (R418). -/
  | pageShipAnnounce (dt : Nat) (m : XMsg) (p : ShipPar)
  /-- PAGE_SHIP_ACCEPT (R418). -/
  | pageShipAccept (dt : Nat) (m : XMsg)
  /-- PAGE_SHIP_PAGE (R469). -/
  | pageShipPage (dt : Nat) (m : XMsg)
  /-- PAGE_SHIP_SCALES (R469). -/
  | pageShipScales (dt : Nat) (m : XMsg)
  /-- PAGE_SHIP_DONE_ACK (R418). -/
  | pageShipDoneAck (dt : Nat) (m : XMsg)
  /-- CONTROL (R468). -/
  | control (dt : Nat) (m : XMsg)
  /-- PACE_BEACON (R567). -/
  | paceBeacon (dt : Nat) (m : XMsg)
  /-- LAG_NOTICE (R568). -/
  | lagNotice (dt : Nat) (m : XMsg)
  /-- CAP_SET (R546). -/
  | capSet (dt : Nat) (m : XMsg)
  /-- DOWEL_HOLD (R669). -/
  | dowelHold (dt : Nat) (m : DowelMsg)
  /-- DOWEL_RENEW (R668). -/
  | dowelRenew (dt : Nat) (m : DowelMsg)
  /-- DOWEL_GRANT (R673). -/
  | dowelGrant (dt : Nat) (m : DowelMsg)
  /-- DOWEL_REFUSE (R671). -/
  | dowelRefuse (dt : Nat) (m : DowelMsg)
  /-- DOWEL_RELEASE (R679). -/
  | dowelRelease (dt : Nat) (m : DowelMsg)
  /-- DOWEL_SWAP (R677). -/
  | dowelSwap (dt : Nat) (m : DowelMsg)
  /-- DOWEL_TAKEN (R674). -/
  | dowelTaken (dt : Nat) (m : DowelMsg)
  /-- DOWEL_COMMIT (R664). -/
  | dowelCommit (dt : Nat) (m : DowelMsg) (d : Delta)
  /-- DOWEL_COMMIT_ACK (R665). -/
  | dowelCommitAck (dt : Nat) (m : DowelMsg)
  /-- DOWEL_SOLO_GRANT (R681). -/
  | dowelSoloGrant (dt : Nat) (m : DowelMsg)
  /-- PORT_UP (R454). -/
  | portUp (dt port : Nat)
  /-- PORT_DOWN (R442). -/
  | portDown (dt port : Nat)
  /-- ANNOUNCE_TIMER (R454). -/
  | announceTimer (dt : Nat)
  /-- ACK_DELAY_TIMER (R459). -/
  | ackDelayTimer (dt lane : Nat)
  /-- RETRANSMIT_TIMEOUT (R460). -/
  | retransmitTimeout (dt lane : Nat)
  /-- LANE_PROBE_TIMER (R461). -/
  | laneProbeTimer (dt lane : Nat)
  /-- PEER_QUARANTINE_EXPIRY (R473). -/
  | peerQuarantineExpiry (dt m : Nat)
  /-- SHIP_ANNOUNCE_RESEND (R469). -/
  | shipAnnounceResend (dt x : Nat)
  /-- SHIP_PAGE_TIMEOUT (R419). -/
  | shipPageTimeout (dt x : Nat)
  /-- SHIP_ACK_TIMEOUT (R419). -/
  | shipAckTimeout (dt x : Nat)
  /-- PWR_EN_ASSERT (R99). -/
  | pwrEnAssert (dt : Nat) (inputGood : Bool)
  /-- PWR_EN_DEASSERT (R593). -/
  | pwrEnDeassert (dt : Nat)
  /-- TRAY_LATCH_ASSERT (R99). -/
  | trayLatchAssert (dt : Nat) (inputGood : Bool)
  /-- TRAY_LATCH_DEASSERT (R690). -/
  | trayLatchDeassert (dt : Nat)
  /-- KEEP_ALIVE_START (R747). -/
  | keepAliveStart (dt slotId cabId : Nat)
  /-- BOOT_STEP_END (R101). -/
  | bootStepEnd (dt : Nat) (e : BootEnd)
  /-- INPUT_SAMPLE (R537). -/
  | inputSample (dt : Nat) (x : InputRead)
  /-- SUPPLY_RECOVERED (R593). -/
  | supplyRecovered (dt : Nat)
  /-- SUPPLY_HALT_100MS (R597). -/
  | supplyHalt100ms (dt : Nat)
  /-- MEASUREMENT_LOSS (R746). -/
  | measurementLoss (dt : Nat)
  /-- ESTIMATOR_TICK (R536). -/
  | estimatorTick (dt d : Nat)
  /-- POWER_LOOP_TICK (R559). -/
  | powerLoopTick (dt : Nat)
  /-- PACE_TICK (R557). -/
  | paceTick (dt : Nat)
  /-- RAIL_LEVEL_STEP (R534). -/
  | railLevelStep (dt : Nat)
  /-- PACE_METER_INTERVAL (R533). -/
  | paceMeterInterval (dt rate : Nat)
  /-- DEFERRED_PACE_INCREASE (R554). -/
  | deferredPaceIncrease (dt : Nat)
  /-- DROOP_CEILING_EXPIRY (R556). -/
  | droopCeilingExpiry (dt : Nat)
  /-- CALIBRATION_FIT (R538). -/
  | calibrationFit (dt : Nat)
  /-- ATTRIBUTION_PERIOD (R599). -/
  | attributionPeriod (dt : Nat) (shares : List EnergyShare) (rest : Nat)
  /-- CONF_EPOCH (R561). -/
  | confEpoch (dt : Nat)
  /-- CAP_HEARTBEAT_TIMEOUT (R547). -/
  | capHeartbeatTimeout (dt : Nat)
  /-- LONE_CAP_TIMEOUT (R547). -/
  | loneCapTimeout (dt : Nat)
  /-- REPORT_TIMER (R550). -/
  | reportTimer (dt : Nat)
  /-- BEACON_TIMER (R567). -/
  | beaconTimer (dt : Nat)
  /-- MEMBER_STALE (R571). -/
  | memberStale (dt m : Nat)
  /-- DROOP_DETECT (R552). -/
  | droopDetect (dt bench v : Nat)
  /-- DROOP_GATE_RELEASE (R553). -/
  | droopGateRelease (dt k : Nat)
  /-- THERMAL_SAMPLE (R575). -/
  | thermalSample (dt : Nat) (x : HeatRead)
  /-- BLOCK_HALT_1S (R577). -/
  | blockHalt1s (dt k : Nat)
  /-- SUSPECT_CLEAR (R575). -/
  | suspectClear (dt k : Nat) (second : Bool)
  /-- INLET_SETTLED (R574). -/
  | inletSettled (dt : Nat)
  /-- THERM_TRIP (R579). -/
  | thermTrip (dt reading : Nat)
  /-- FLOW_TICK (R583). -/
  | flowTick (dt : Nat) (x : CoolRead)
  /-- FLOWS_DISAGREE (R582). -/
  | flowsDisagree (dt : Nat)
  /-- FLOW_RANGE_RECOVERED (R584). -/
  | flowRangeRecovered (dt : Nat)
  /-- LEAK_DETECTED (R590). -/
  | leakDetected (dt : Nat)
  /-- MR4_REPORT (R261). -/
  | mr4Report (dt pkg rate : Nat)
  /-- SCRUB_BURST (R262). -/
  | scrubBurst (dt g : Nat)
  /-- SRAM_SCRUB (R264). -/
  | sramScrub (dt : Nat) (x : ScrubLine)
  /-- PREFETCH_FILL_START (R258). -/
  | prefetchFillStart (dt g : Nat)
  /-- PREFETCH_PIN_EXPIRY (R259). -/
  | prefetchPinExpiry (dt g : Nat)
  /-- KEY_SWEEP_PAGE (R642). -/
  | keySweepPage (dt : Nat) (c : Nat)
  /-- GROUP_RELEASE_DONE (R615). -/
  | groupReleaseDone (dt : Nat) (g : Nat)
  /-- BLOCK_SCRUB_DONE (R188). -/
  | blockScrubDone (dt : Nat) (k : Nat)
  /-- RUN_START (R173). -/
  | runStart (dt b : Nat)
  /-- OP_ISSUE (R161). -/
  | opIssue (dt b u ev : Nat) (bank : List BankUser) (withheld : Bool)
  /-- OP_COMPLETE (R160). -/
  | opComplete (dt b u ev : Nat)
  /-- EVENT_BOUND_EXCEEDED (R176). -/
  | eventBoundExceeded (dt b ev : Nat)
  /-- MESH_PACKET_ARRIVAL (R183). -/
  | meshPacketArrival (dt link : Nat) (cls : MeshLink)
  /-- CREDIT_RETURN (R181). -/
  | creditReturn (dt link : Nat) (cls : MeshLink)
  /-- INBOUND_WRITE (R140). -/
  | inboundWrite (dt b : Nat)
  /-- RUN_END (R174). -/
  | runEnd (dt id : Nat)
  /-- STEP_END (R391). -/
  | stepEnd (dt c : Nat) (outs : List StepOut) (fate : StepFate) (work : StepWork)
  /-- STEP_BOUNDARY (R340). -/
  | stepBoundary (dt c : Nat) (tails : List (Nat × Nat × Nat × Nat))
  /-- IDLE_BOUNDARY_TIMER (R381). -/
  | idleBoundaryTimer (dt c : Nat) (tails : List (Nat × Nat × Nat × Nat))
  /-- TABLE_CHANGE_BOUNDARY (R381). -/
  | tableChangeBoundary (dt c : Nat) (tails : List (Nat × Nat × Nat × Nat))
  /-- QUANTUM_EXPIRY (R618). -/
  | quantumExpiry (dt : Nat) (c : Nat)
  /-- CONTEXT_SWITCH (R619). -/
  | contextSwitch (dt : Nat) (c : Nat) (overran : Bool)
  /-- INPUT_POLL (R492). -/
  | inputPoll (dt : Nat) (enc : Bool) (session : Nat)
  /-- PICTURE_COMPLETE (R502). -/
  | pictureComplete (dt session : Nat) (r : AuResult)
  /-- WORK_BOUND_REACHED (R506). -/
  | workBoundReached (dt session : Nat)
  /-- ENCODE_PICTURE_DONE (R513). -/
  | encodePictureDone (dt session : Nat) (header : List Byte) (rows : List EncRow) (badRef : Bool)
  /-- PARSE_WATCHDOG (R489). -/
  | parseWatchdog (dt session : Nat)
  /-- VIDEO_CORE_UNRESPONSIVE (R490). -/
  | videoCoreUnresponsive (dt core : Nat) (held : Option Nat)
  /-- VIDEO_CORE_RESTART_DONE (R490). -/
  | videoCoreRestartDone (dt core : Nat)
  /-- HOLD_TIMER (R667). -/
  | holdTimer (dt : Nat) (c : Nat)
  /-- LEASE_EXPIRY (R668). -/
  | leaseExpiry (dt : Nat) (c : Nat)
  /-- HOLD_SILENCE (R671). -/
  | holdSilence (dt : Nat) (c : Nat)
  /-- DOWEL_REQUEST_RESEND (R667). -/
  | dowelRequestResend (dt : Nat) (c : Nat)
  /-- COMMIT_RESEND (R664). -/
  | commitResend (dt : Nat) (c : Nat)
  /-- RELEASE_RESEND (R667). -/
  | releaseResend (dt : Nat) (c : Nat)
  /-- RELEASE_TIMEOUT (R689). -/
  | releaseTimeout (dt : Nat) (c : Nat)
  /-- SWAP_DUE (R677). -/
  | swapDue (dt : Nat) (c : Nat)
  /-- SISTER_LINK_LOST (R680). -/
  | sisterLinkLost (dt : Nat)
  /-- SISTER_LINK_RETURN (R683). -/
  | sisterLinkReturn (dt : Nat) (peerSolo : List Nat)
  /-- RESYNC_COPY_DONE (R683). -/
  | resyncCopyDone (dt : Nat) (c : Nat) (boundary : Nat) (epoch : Nat) (d : Delta)
  /-- SNAPSHOT_LATCH (R706). -/
  | snapshotLatch (dt id : Nat)
  /-- SNAPSHOT_WRITE_DONE (R708). -/
  | snapshotWriteDone (dt id : Nat)
  /-- RECORDER_FLUSH_TIMER (R719). -/
  | recorderFlushTimer (dt : Nat)
  /-- RECORDER_FLUSH_DONE (R720). -/
  | recorderFlushDone (dt : Nat)
  /-- FREEZE_EXPIRY (R722). -/
  | freezeExpiry (dt : Nat)
  /-- FLASH_PROGRAM_FAIL (R721). -/
  | flashProgramFail (dt : Nat) (erasedLeft : Bool)
  /-- START_INTERFACE (R622). -/
  | startInterface (dt : Nat) (c : Nat)
  /-- IDE_KM (R621). -/
  | ideKm (dt : Nat) (sid : Nat) (stream : Option Nat) (on : Bool)
  /-- JIG_LOAD_DONE (R171). -/
  | jigLoadDone (dt id : Nat)
  /-- OPR_PLAN_DONE (R290). -/
  | oprPlanDone (dt id : Nat)
  /-- VENEER_LOAD_DONE (R414). -/
  | veneerLoadDone (dt slot : Nat)
  /-- WGT_UNSEAL_DONE (R637). -/
  | wgtUnsealDone (dt : Nat) (id : Nat) (badChunk : Option Nat)
  /-- SLOT_ERASE_DONE (R136). -/
  | slotEraseDone (dt slot : Nat)
  /-- SLOT_VERIFY_DONE (R136). -/
  | slotVerifyDone (dt slot : Nat) (good : Bool) (m : Manifest)
  /-- RECORDER_ERASE_DONE (R725). -/
  | recorderEraseDone (dt : Nat)
  deriving DecidableEq, Repr, Inhabited

end Sys2Proof
end

