-- ==== Sys2Proof/Machine/Cipher.lean ====
section
/-! DEFINITION. The block ciphers that the manual names and takes from their standards, and the encryption of memory by XTS (R270): SM4
(GB/T 32907), AES-256 (FIPS 197) and XTS (IEEE 1619). A block and a key stand as numbers whose byte i, from the least significant, is byte i of
the standard's string. PRESUMED: the standards' own tables (log entry 11). -/
namespace Sys2Proof.Machine

/-! ### SM4 -/

/-- The substitution table, entry 0 in the most significant byte. -/
def sm4Table : Nat :=
  0xd690e9fecce13db716b614c228fb2c052b679a762abe04c3aa441326498606999c4250f491ef987a33540b43edcfac62e4b31ca9c908e89580df94fa758f3fa64707a7fcf37317ba83593c19e6854fa8686b81b27164da8bf8eb0f4b70569d351e240e5e6358d1a225227c3b01217887d40046579fd327524c3602e7a0c4c89eeabf8ad240c738b5a3f7f2cef96115a1e0ae5da49b341a55ad933230f58cb1e31df6e22e8266ca60c02923ab0d534e6fd5db3745defd8e2f03ff6a726d6c5b518d1baf92bbddbc7f11d95c411f105ad80ac13188a5cd7bbd2d74d012b8e5b4b08969974a0c96777e65b9f109c56ec68418f07dec3adc4d2079ee5f3ed7cb3948

def sm4Sub (b : Nat) : Nat := sm4Table / 256 ^ (255 - b % 256) % 256

/-- The substitution of a word's four bytes. -/
def sm4Tau (w : Nat) : Nat :=
  foldN 4 (fun i a => a + 256 ^ i * sm4Sub (w / 256 ^ i % 256)) 0

def rotl32 (w n : Nat) : Nat := w * 2 ^ n % 2 ^ 32 + w / 2 ^ (32 - n)

/-- A word from four bytes, the first most significant. -/
def wordBe (b : List Byte) : Nat := b.foldl (fun a x => a * 256 + x.toNat) 0

/-- The four words of a 128-bit number, whose byte i of the cipher's string holds bits [8i + 7 : 8i] (R398). -/
def sm4Words (n : Nat) : List Nat := (List.range 4).map fun i => wordBe (leBytes 4 (n / 2 ^ (32 * i)))

/-- The system parameter FK and the fixed parameters CK. -/
def sm4Fk : List Nat := [0xA3B1BAC6, 0x56AA3350, 0x677D9197, 0xB27022DC]
def sm4Ck (i : Nat) : Nat := foldN 4 (fun j a => a * 256 + (4 * i + j) * 7 % 256) 0

/-- One round on four words with a mixed word `b` and a linear map. -/
def sm4Round (lin : Nat → Nat) (x : List Nat) (k : Nat) : List Nat :=
  let g (i : Nat) : Nat := x.getD i 0
  [g 1, g 2, g 3, g 0 ^^^ lin (sm4Tau (g 1 ^^^ g 2 ^^^ g 3 ^^^ k))]

/-- The 32 round keys. -/
def sm4Keys (key : Nat) : List Nat :=
  let lin (b : Nat) : Nat := b ^^^ rotl32 b 13 ^^^ rotl32 b 23
  let k0 := (sm4Words key).zipWith (· ^^^ ·) sm4Fk
  (foldN 32 (fun i (acc : List Nat × List Nat) =>
    let x := sm4Round lin acc.1 (sm4Ck i)
    (x, acc.2 ++ [x.getD 3 0])) (k0, [])).2

/-- SM4 on one block, a 128-bit number, with its round keys in order. -/
def sm4Block (keys : List Nat) (block : Nat) : Nat :=
  let lin (b : Nat) : Nat := b ^^^ rotl32 b 2 ^^^ rotl32 b 10 ^^^ rotl32 b 18 ^^^ rotl32 b 24
  let x := keys.foldl (sm4Round lin) (sm4Words block)
  leNat (x.reverse.flatMap fun w => (leBytes 4 w).reverse)

/-- SM4 encryption and decryption of one block, all as 128-bit numbers. -/
def sm4Encrypt (key block : Nat) : Nat := sm4Block (sm4Keys key) block
def sm4Decrypt (key block : Nat) : Nat := sm4Block (sm4Keys key).reverse block

/-! ### AES-256 -/

/-- The substitution table and its inverse, entry 0 in the most significant byte. -/
def aesTable : Nat :=
  0x637c777bf26b6fc53001672bfed7ab76ca82c97dfa5947f0add4a2af9ca472c0b7fd9326363ff7cc34a5e5f171d8311504c723c31896059a071280e2eb27b27509832c1a1b6e5aa0523bd6b329e32f8453d100ed20fcb15b6acbbe394a4c58cfd0efaafb434d338545f9027f503c9fa851a3408f929d38f5bcb6da2110fff3d2cd0c13ec5f974417c4a77e3d645d197360814fdc222a908846eeb814de5e0bdbe0323a0a4906245cc2d3ac629195e479e7c8376d8dd54ea96c56f4ea657aae08ba78252e1ca6b4c6e8dd741f4bbd8b8a703eb5664803f60e613557b986c11d9ee1f8981169d98e949b1e87e9ce5528df8ca1890dbfe6426841992d0fb054bb16
def aesInvTable : Nat :=
  0x52096ad53036a538bf40a39e81f3d7fb7ce339829b2fff87348e4344c4dee9cb547b9432a6c2233dee4c950b42fac34e082ea16628d924b2765ba2496d8bd12572f8f66486689816d4a45ccc5d65b6926c704850fdedb9da5e154657a78d9d8490d8ab008cbcd30af7e45805b8b34506d02c1e8fca3f0f02c1afbd0301138a6b3a9111414f67dcea97f2cfcef0b4e67396ac7422e7ad3585e2f937e81c75df6e47f11a711d29c5896fb7620eaa18be1bfc563e4bc6d279209adbc0fe78cd5af41fdda8338807c731b11210592780ec5f60517fa919b54a0d2de57a9f93c99cefa0e03b4dae2af5b0c8ebbb3c83539961172b047eba77d626e169146355210c7d

def aesSub (b : Nat) : Nat := aesTable / 256 ^ (255 - b % 256) % 256
def aesInvSub (b : Nat) : Nat := aesInvTable / 256 ^ (255 - b % 256) % 256

/-- Multiplication in the cipher's field of 256 elements, by a factor of four bits. -/
def aesTwice (a : Nat) : Nat := if a < 128 then 2 * a else (2 * a - 256) ^^^ 0x1B
def aesMul (k a : Nat) : Nat :=
  let a2 := aesTwice a
  let a4 := aesTwice a2
  (if k % 2 = 1 then a else 0) ^^^ (if k / 2 % 2 = 1 then a2 else 0) ^^^ (if k / 4 % 2 = 1 then a4 else 0)
    ^^^ (if k / 8 % 2 = 1 then aesTwice a4 else 0)

/-- The key schedule: 60 words of four bytes, as one list of bytes. -/
def aesKeys (key : Nat) : List Nat :=
  foldN 52 (fun n (w : List Nat) =>
    let i := n + 8
    let g (k : Nat) : Nat := w.getD k 0
    let last := (List.range 4).map fun k => g (4 * i - 4 + k)
    let t :=
      if i % 8 = 0 then
        (last.drop 1 ++ last.take 1).mapIdx fun k b => aesSub b ^^^ (if k = 0 then 2 ^ (i / 8 - 1) else 0)
      else if i % 8 = 4 then last.map aesSub
      else last
    w ++ t.mapIdx fun k b => b ^^^ g (4 * i - 32 + k)) ((leBytes 32 key).map (·.toNat))

/-- The bytes of a state XORed with a round's key. -/
def aesAddKey (keys : List Nat) (r : Nat) (x : List Nat) : List Nat := x.mapIdx fun i b => b ^^^ keys.getD (16 * r + i) 0

/-- A row r of the state moves by r columns, to the left or back. -/
def aesShift (back : Bool) (x : List Nat) : List Nat :=
  (List.range 16).map fun i => x.getD (4 * ((i / 4 + (if back then 4 - i % 4 else i % 4)) % 4) + i % 4) 0

/-- The columns of the state times a polynomial. -/
def aesMix (k : List Nat) (x : List Nat) : List Nat :=
  (List.range 16).map fun i => foldN 4 (fun j a => a ^^^ aesMul (k.getD ((j + 4 - i % 4) % 4) 0) (x.getD (i / 4 * 4 + j) 0)) 0

/-- A block as its bytes, and back. -/
def aesBytes (block : Nat) : List Nat := (leBytes 16 block).map (·.toNat)
def aesNat (x : List Nat) : Nat := x.foldr (fun b a => b + 256 * a) 0

/-- AES-256 encryption and decryption of one block. -/
def aesEncrypt (key block : Nat) : Nat :=
  let k := aesKeys key
  let x := foldN 13 (fun r x => aesAddKey k (r + 1) (aesMix [2, 3, 1, 1] (aesShift false (x.map aesSub)))) (aesAddKey k 0 (aesBytes block))
  aesNat (aesAddKey k 14 (aesShift false (x.map aesSub)))
def aesDecrypt (key block : Nat) : Nat :=
  let k := aesKeys key
  let x := foldN 13 (fun r x => aesMix [14, 11, 13, 9] (aesAddKey k (13 - r) ((aesShift true x).map aesInvSub)))
    (aesAddKey k 14 (aesBytes block))
  aesNat (aesAddKey k 0 ((aesShift true x).map aesInvSub))

/-! ### XTS (R270) -/

/-- R270: a block under one half of a key, with AES-256 or, where `sm4` says so, SM4. -/
def blockEncrypt (sm4 : Bool) (key block : Nat) : Nat := if sm4 then sm4Encrypt key block else aesEncrypt key block
def blockDecrypt (sm4 : Bool) (key block : Nat) : Nat := if sm4 then sm4Decrypt key block else aesDecrypt key block

/-- The mask of block j of a data unit: the encrypted tweak times α^j. -/
def xtsMask (sm4 : Bool) (key tweak j : Nat) : Nat :=
  foldN j (fun _ t => 2 * t % 2 ^ 128 ^^^ (if 2 ^ 127 ≤ t then 0x87 else 0)) (blockEncrypt sm4 key tweak)

/-- R270: the memory key of a generation: the two keys of XTS, of 256 bits each, or of 128 for SM4. -/
def memoryKeys (sm4 : Bool) (gen : Nat) : Nat × Nat :=
  let w := if sm4 then 128 else 256
  (Config.memoryKey gen % 2 ^ w, Config.memoryKey gen / 2 ^ w % 2 ^ w)

/-- R270: XTS of one 16-byte block: `key` names the generation × 2 and the cipher (1 for SM4), 0 plain storage. -/
def xtsEncrypt (key tweak j : Nat) (l : List Byte) : List Byte :=
  if key = 0 then l
  else
    let k := memoryKeys (key % 2 = 1) (key / 2)
    let t := xtsMask (key % 2 = 1) k.2 tweak j
    leBytes 16 (blockEncrypt (key % 2 = 1) k.1 (leNat l ^^^ t) ^^^ t)
def xtsDecrypt (key tweak j : Nat) (l : List Byte) : List Byte :=
  if key = 0 then l
  else
    let k := memoryKeys (key % 2 = 1) (key / 2)
    let t := xtsMask (key % 2 = 1) k.2 tweak j
    leBytes 16 (blockDecrypt (key % 2 = 1) k.1 (leNat l ^^^ t) ^^^ t)

/-- R270, R274: what the engine reads under one key of a block that another one's engine has written: the block as it rests in memory,
decrypted. The tweak is the burst's local address bits [43:8]. -/
def recrypt (stored selected tweak j : Nat) (l : List Byte) : List Byte :=
  if stored = selected then l else xtsDecrypt selected tweak j (xtsEncrypt stored tweak j l)

end Sys2Proof.Machine
end

