-- ==== Sys2Proof/Machine/StVideo.lean ====
section
/-! DEFINITION. The state of the video engine (chapter 12). -/
namespace Sys2Proof.Machine

/-- R497: the mark of a frame buffer, with whether it has been decoded into since the session opened. -/
inductive RefMark where
  | unused | shortTerm | longTerm
  deriving DecidableEq, Repr, Inhabited

/-- R497: one frame buffer of a session. -/
structure FrameBuf where
  mark : RefMark := .unused
  decoded : Bool := false
  deriving DecidableEq, Repr, Inhabited

/-- R502: a picture that display order holds: its record so far and its output buffer. -/
structure HeldPic where
  data : List Fld
  buffer : Option Nat
  depth : Nat
  deriving DecidableEq, Repr, Inhabited

/-- A session (R491): what both kinds have. `busy` says that a picture or access unit is in progress, `prod` and `cons` are the input ring's indices, `recProd` and `recCons` the record
ring's; `waiting` that it waits for an output buffer or slot; `badSeen` the index values last ignored. -/
structure VidBase where
  ctx : Nat
  pipe : Nat
  faulted : Bool := false
  closing : Bool := false
  drain : Bool := false
  busy : Bool := false
  prod : Nat := 0
  cons : Nat := 0
  recProd : Nat := 0
  recCons : Nat := 0
  pictures : Nat := 0
  limited : Nat := 0
  skipped : Nat := 0
  badIndex : Nat := 0
  lastRecord : List Fld := []
  waiting : Bool := false
  badSeen : Option Nat × Option Nat := (none, none)
  startedAt : Nat := 0
  deriving DecidableEq, Repr, Inhabited

/-- A decode session. `named` holds, by output buffer, the index of the record that last named it; `nextBuf` is the next in
ring order; `bound` that the picture in progress reached its work bound; `skips` the outputs skipped since the last record. -/
structure DecSession where
  base : VidBase
  par : DecPar
  bufs : List FrameBuf := List.replicate 32 {}
  usable : Option Picture := none
  named : Tab Nat := []
  nextBuf : Nat := 0
  held : List HeldPic := []
  bound : Bool := false
  skips : Nat := 0
  deriving DecidableEq, Repr, Inhabited

/-- An encode session. `sizes` holds the bytes of the last pictures coded under the cap in force, oldest first; `sinceKey` counts
pictures since the last key picture; `sweep` is the picture of the current sweep (R517). -/
structure EncSession where
  base : VidBase
  par : EncPar
  nextRc : Option RateCtl := none
  sizes : List Nat := []
  first : Bool := true
  forceKey : Bool := false
  sinceKey : Nat := 0
  sweep : Nat := 0
  named : Tab Nat := []
  nextSlot : Nat := 0
  refBuf : Nat := 0
  deriving DecidableEq, Repr, Inhabited

/-- The video engine. `coreUp` says which of the two cores run; `paused` that power control has paused video. -/
structure VidSt where
  dec : Tab (Option DecSession) := []
  enc : Tab (Option EncSession) := []
  coreUp : List Bool := [true, true]
  paused : Bool := false
  roWrites : Nat := 0
  deriving DecidableEq, Repr, Inhabited

end Sys2Proof.Machine
end

