-- ==== Sys2Proof/Machine/StNet.lean ====
section
/-! DEFINITION. The state of the Ethernet node and the Xareys Lane Transport (chapter 11). -/
namespace Sys2Proof.Machine

/-- R482: the state of a port. -/
inductive PortState where
  | absent | excluded | stopped | training | down | up
  deriving DecidableEq, Repr, Inhabited

/-- R436: an answer of the node itself: its port, the address it goes to, and what it is. -/
inductive NodeAnswer where
  | arp (ip4 mac : Nat)
  | neighbor (ip6 mac : Nat)
  | echo (data : List Byte)
  deriving DecidableEq, Repr, Inhabited

/-- One Ethernet port (R432–R440, R480); `echoTimes` holds when it answered echoes in the last second. -/
structure Port where
  up : Bool := false
  cfg : PortCfg := ⟨0, 0, 0, 0, 0, 0, none, 9000, 4096, 48, 26⟩
  contexts : Nat := 0
  exclusive : Bool := false
  rxFrames : Nat := 0
  txFrames : Nat := 0
  rxDrops : Nat := 0
  fecCorr : Nat := 0
  fecUncorr : Nat := 0
  txBytes : Nat := 0
  rxBytes : Nat := 0
  echoTimes : List Nat := []
  deriving DecidableEq, Repr, Inhabited

/-- R485: the state of a lane. -/
inductive LaneState where
  | closed | opening | up | down | reopening
  deriving DecidableEq, Repr, Inhabited

/-- A message the module sends: its type (R448), the receiving module, and the rest as a message is received. -/
structure Sent where
  typ : Nat
  dest : Nat
  msg : XMsg
  deriving DecidableEq, Repr, Inhabited

/-- A frame as it left (R433, R437, R445, R446): the message with its port's MAC address and VLAN tag, the IP address that it went to
(0 on the sister port, which uses none), the DSCP value, the UDP ports and the 48 bytes of the XLT header. -/
structure Frame where
  sent : Sent
  srcMac : Nat
  vlan : Option Nat
  ip : Nat
  dscp : Nat
  udpSrc : Nat
  udpDst : Nat
  header : List Byte
  deriving DecidableEq, Repr, Inhabited

/-- What an initiated operation is for (R464, R465). -/
inductive OpFor where
  | benchWrite (bench unit idx : Nat)
  | benchRead (bench unit idx pos : Nat)
  | benchList (bench unit idx left done_ : Nat)
  | benchAtomic (bench unit idx : Nat)
  | ring (ctx ring : Nat)
  | ship (req : Nat)
  | control
  | dowel (ctx : Nat)
  | journal (ctx req count : Nat)
  deriving DecidableEq, Repr, Inhabited

/-- An initiated operation in flight, by its tag and the lane it is on. -/
structure NetOp where
  tag : Nat
  lane : Nat
  purpose : OpFor
  deriving DecidableEq, Repr, Inhabited

/-- A lane (R455–R463). `unacked` holds the messages sent and not acknowledged, oldest first, and `waiting` those that
wait for the lane to open or for credit. `rcvNext` is E of R458; `announced` is C; `held` keeps
what the peer refused with NAK STOPPED, to be sent again at a boundary (R465). -/
structure Lane where
  state : LaneState := .closed
  ctx : Nat := 0
  peer : Nat := 0
  peerCtx : Nat := 0
  modlane : Bool := false
  port : Nat := 0
  theirs : Nat := 0
  depth : Nat := 64
  sndNext : Nat := 0
  sndLimit : Nat := 0
  window : Nat := 0
  ackedCount : Nat := 0
  unacked : List Sent := []
  waiting : List Sent := []
  rcvNext : Nat := 0
  announced : Nat := 0
  ackDue : Option Nat := none
  lastSeqNak : Option Nat := none
  ecnEcho : Bool := false
  retries : Nat := 0
  deadline : Option Nat := none
  srtt : Nat := 0
  lastCut : Nat := 0
  idleAt : Nat := 0
  probeAt : Nat := 0
  stoppedNak : Bool := false
  held : List Sent := []
  deriving DecidableEq, Repr, Inhabited

/-- A peer (R451–R454, R473). -/
structure Peer where
  module : Nat
  pinned : Bool := false
  addrs : List Nat := []
  serial : Nat := 0
  epoch : Nat := 0
  maxData : Nat := 4096
  violations : Nat := 0
  violTimes : List Nat := []
  quarantineEnd : Option Nat := none
  lastMsg : Nat := 0
  deriving DecidableEq, Repr, Inhabited

/-- A shipment in progress (R418, R419): the request, whether this module sends it, its peer, the page count, the pages and
scale records sent or received, the announcement's resends, and the times of its limits. `moved` counts the pages it holds in transit (R336). -/
structure Shipment where
  req : Nat
  sender : Bool
  peer : Nat
  peerCtx : Nat
  shipId : Nat
  pages : Nat
  accepted : Bool := false
  announcedAt : Nat := 0
  lastResend : Nat := 0
  lastPage : Nat := 0
  sentAll : Option Nat := none
  moved : Nat := 0
  total : Nat := 0
  got : Tab Nat := []
  token : Nat := 0
  tokenStamp : Stamp := ⟨0, 0⟩
  deriving DecidableEq, Repr, Inhabited

/-- R467: a collective group of a context. -/
structure CollGroup where
  counter : Nat
  deriving DecidableEq, Repr, Inhabited

/-- The network as a whole. `modes` holds the port mode of each of groups 0–3, `tx` the messages sent, newest first,
`unknownNaks` the time of the last NAK UNKNOWN_PEER by module. -/
structure NetSt where
  ports : Tab Port := []
  modes : Tab Nat := []
  plan4 : Nat := 0
  plan6 : Nat := 0
  udpPort : Nat := 47206
  sister : Option Nat := none
  peers : List Peer := []
  lanes : Tab Lane := []
  ops : List NetOp := []
  tagWait : List (Nat × OpFor × Sent) := []
  ships : List Shipment := []
  grants : Tab (List (Nat × Nat)) := []
  depths : Tab Nat := []
  groups : Tab (Option CollGroup) := []
  malformed : Nat := 0
  violations : Nat := 0
  retransmits : Nat := 0
  naksSent : Nat := 0
  unknownPeer : Nat := 0
  roWrites : Nat := 0
  unknownNaks : Tab Nat := []
  tx : List Frame := []
  answers : List (Nat × Nat × NodeAnswer) := []
  lastAnnounce : Nat := 0
  sisterSync : Nat := 0
  deriving DecidableEq, Repr, Inhabited

end Sys2Proof.Machine
end

