-- ==== Sys2Proof/Machine/StRed.lean ====
section
/-! DEFINITION. The state of mirrored and restartable contexts, of the dowel and of tray removal (chapter 15). -/
namespace Sys2Proof.Machine

/-- R659. -/
inductive RedRole where
  | active | activeSolo | fenced | standby | resync | stale
  deriving DecidableEq, Repr, Inhabited

/-- How a holder gives the dowel away (R677, R679). -/
inductive Giving where
  | swap | release
  deriving DecidableEq, Repr, Inhabited

/-- A copy of what a boundary's commit carries: the requests of the context and its serving state. -/
structure BoundaryCopy where
  reqs : Tab Request := []
  serve : ServeCtx := {}
  veneers : Tab Veneer := []
  deriving DecidableEq, Repr, Inhabited

/-- The redundancy of one context. `sent` holds the send times of recent HOLDs by sequence, `renewed` the send time of the latest one
renewed; `boundary` counts boundaries committed and `acked` those acknowledged; `unsent` says that a boundary's commit waits
for the previous acknowledgement. `requestAt` and `soloAt` are when a REQUEST or SOLO_REQUEST that is not answered was last sent, `askedAt` when
the REQUEST was first sent. `commit` is the place of the last delta in the mirror lot. `sentCopy` and `ackedCopy` are the state at the last commit sent and at the last acknowledged.
`records` are the pending records of the last commit applied on a standby. -/
structure RedCtx where
  par : ProtectPar := {}
  role : RedRole := .active
  prevRole : RedRole := .active
  epoch : Nat := 0
  holdSeq : Nat := 0
  sent : List (Nat × Nat) := []
  renewed : Nat := 0
  heldAt : Nat := 0
  boundary : Nat := 0
  acked : Nat := 0
  unsent : Bool := false
  commitAt : Nat := 0
  commit : Nat × Nat := (0, 0)
  sentCopy : BoundaryCopy := {}
  ackedCopy : BoundaryCopy := {}
  records : List PendRec := []
  requestAt : Option Nat := none
  askedAt : Nat := 0
  soloAt : Option Nat := none
  giving : Option Giving := none
  givingAt : Nat := 0
  givingSent : Option Nat := none
  drainRelease : Bool := false
  lastChange : Nat := 0
  swapDue : Bool := false
  arbiterAt : Nat := 0
  copying : Bool := false
  deriving DecidableEq, Repr, Inhabited

/-- R688–R690: the drain. -/
inductive Drain where
  | none | stepping | handing | closing | flushing | drained
  deriving DecidableEq, Repr, Inhabited

/-- Redundancy as a whole: the contexts, the time of the last DOWEL message from the sister, whether the link counts as
lost, and the drain with the stamp of the last one. `removal` marks a drain by R690. -/
structure RedSt where
  ctxs : Tab RedCtx := []
  sisterAt : Nat := 0
  linkLost : Bool := false
  drain : Drain := .none
  removal : Bool := false
  drainAt : Nat := 0
  lastDrain : Stamp := ⟨0, 0⟩
  deriving DecidableEq, Repr, Inhabited

end Sys2Proof.Machine
end

