-- ==== Sys2Proof/Machine/StPower.lean ====
section
/-! DEFINITION. The state of power, pace, droop and cooling (chapter 13). -/
namespace Sys2Proof.Machine

/-- A block's temperature and droop (R551–R553, R574–R577, R610). Readings are in 0.25 °C, `model` is T_m in °C; `okA` and `okB` say
since when a sensor has stayed within 3 °C of T_m; `recent` holds (time, used) of the last 500 µs. `fired` is the time of the last
detector firing, `shut` since when droop holds the MX gates closed, `shutNs` how long it has in this 1 ms interval. -/
structure BlockHeat where
  a : Nat := 0
  b : Nat := 0
  model : Rat := 0
  suspectA : Bool := false
  suspectB : Bool := false
  okA : Option Nat := none
  okB : Option Nat := none
  used : Nat := 0
  source : Nat := 0
  thermal : Nat := 100
  floor : Nat := 100
  halted : Option Nat := none
  told : Bool := false
  recent : List (Nat × Nat) := []
  fired : Option Nat := none
  shut : Option Nat := none
  shutNs : Nat := 0
  deriving DecidableEq, Repr, Inhabited

/-- R567: another member of the pace group: when its last beacon came and what it said; `bad` that its settings digest differs,
`okSince` since when it has matched, `out` that it is left out (R571). -/
structure Member where
  at_ : Nat := 0
  heard : Bool := false
  allowed : Nat := 0
  level : Nat := 0
  limited : Bool := false
  agreed : Bool := false
  need : Nat := 0
  spare : Nat := 0
  epoch : Nat := 0
  bad : Bool := false
  okSince : Nat := 0
  out : Bool := false
  deriving DecidableEq, Repr, Inhabited

/-- The pace group (R566–R573). `lent` holds the watts borrowed (positive) or lent (negative), `giveBack` that they return to zero at the
next epoch, `rose` the beacon epoch of the last rise under LEND. -/
structure GroupPace where
  cfg : PaceCfg
  level : Nat := 0
  agreed : Bool := false
  mismatch : Bool := false
  members : Tab Member := []
  lent : Rat := 0
  giveBack : Bool := false
  rose : Option Nat := none
  beaconAt : Nat := 0
  deriving DecidableEq, Repr, Inhabited

/-- R559: the power loop's uniform limit in percent, with the dynamic power and the level that it was set against, and whether it answers
the peak limit. -/
structure UniformLimit where
  percent : Nat
  dyn : Rat
  level : Nat
  peak : Bool
  deriving DecidableEq, Repr, Inhabited

/-- R603: a change of P_S: the time T, the new value in W, and what caused it. -/
structure PsChange where
  ns : Nat
  watts : Rat
  cause : Nat
  deriving DecidableEq, Repr, Inhabited

/-- Pace and power. `fell` says that P_S has fallen and the power loop has not answered yet, `dyn` holds the dynamic energies of the last 1 ms
in nJ, newest first, `samples` the input powers of the last 100 ms in µW, `periods` the measured (µJ) and dynamic (nJ) energies of the last 200
calibration periods. `sFit` and `kFit` are S and k once a fit or R539 has changed them. `rampFrom` is the level at which the ramp began. -/
structure PaceSt where
  level : Nat := 0
  target : Nat := 0
  rampFrom : Nat := 0
  stepAt : Nat := 0
  limiter : Nat := 0
  rate : Nat := 0
  rateLevel : Nat := 0
  rateRamp : Bool := false
  ramped : Bool := false
  changes : Nat := 0
  deferred : Bool := false
  droopCeil : Option (Nat × Nat) := none
  droopEvents : Nat := 0
  margin : Nat := 8
  confLevels : List Nat := [6, 12, 18, 24]
  ps : Rat := 600
  psLog : List PsChange := []
  fell : Bool := false
  uniform : Option UniformLimit := none
  cab : Nat := 0
  hbAt : Nat := 0
  hbHold : Bool := false
  lone : Bool := true
  lastSet : Nat := 0
  dyn : List Nat := []
  sFit : Option Rat := none
  kFit : Option Rat := none
  calibrated : Bool := false
  badFit : Bool := false
  periods : List (Nat × Nat) := []
  periodE : Nat := 0
  periodD : Nat := 0
  group : Option GroupPace := none
  deriving DecidableEq, Repr, Inhabited

/-- The input (R537, R593, R746) and the energy counters (R598–R602): `fine` is the measured energy of the period in progress, in units of
10 pJ, `rails` what the sensors of the five rails show (R17), `ctxEnergy` the five sub-counters of each context, `shown` what others see of a confidential context. -/
structure InputSt where
  mv : Nat := 0
  ma : Nat := 0
  rails : List (Nat × Nat) := List.replicate 5 (0, 0)
  samples : List Nat := []
  sampleAt : Nat := 0
  lost : Bool := false
  backAt : Nat := 0
  low : Nat := 0
  high : Nat := 0
  shut : Nat := 0
  goodSince : Option Nat := none
  halt : Option Nat := none
  released : Bool := false
  fine : Nat := 0
  energy : Nat := 0
  unattributed : Nat := 0
  periodStamp : Nat := 0
  ctxEnergy : Tab (List Nat) := []
  shown : Tab Nat := []
  deriving DecidableEq, Repr, Inhabited

/-- The coolant loop (R581–R591): temperatures in 0.1 °C, pressure in 0.1 kPa, flows in mL/min; `flows` holds the used flows of the last
10 ms, newest first. -/
structure CoolSt where
  tin : Nat := 0
  tout : Nat := 0
  dp : Nat := 0
  qdp : Nat := 0
  qheat : Nat := 0
  used : Nat := 0
  flows : List Nat := []
  highAt : Option Nat := none
  apart : Option Nat := none
  together : Option Nat := none
  disagree : Bool := false
  flowLow : Bool := false
  flowCritical : Bool := false
  lowOver : Option Nat := none
  criticalOver : Option Nat := none
  above : Option Nat := none
  inletAt : Option (Nat × Nat) := none
  settled : Bool := false
  inletHot : Bool := false
  inletCold : Bool := false
  leak : Bool := false
  moist : Bool := false
  stop : Bool := false
  deriving DecidableEq, Repr, Inhabited

/-- Chapter 13 as a whole. `gatesShut` holds every issue gate closed for a drain or a removal (R688, R690). -/
structure PowerSt where
  pace : PaceSt := {}
  input : InputSt := {}
  cool : CoolSt := {}
  blocks : Tab BlockHeat := []
  gatesShut : Bool := false
  roWrites : Nat := 0
  deriving DecidableEq, Repr, Inhabited

end Sys2Proof.Machine
end

