-- ==== Sys2Proof/Machine/State.lean ====
section
/-! DEFINITION. The state of the module, the reasons a step can stop, and the module right after reset. -/
namespace Sys2Proof.Machine

/-- The reasons a step stops with a fault. The manual gives every command of this block an effect, so no meaning of
this model ends in a fault: the type has the one constructor below and nothing raises it (safe: it is never answered). -/
inductive Fault where
  /-- Raised by nothing; a fault would be safe, since the machine would stop where the hardware goes on. -/
  | none
  deriving DecidableEq, Repr, Inhabited

/-- The reasons a step is refused. -/
inductive Refusal where
  /-- Raised by the arms of `exec` that give a command no meaning yet; safe, because nothing can be proved of a
  state that is not answered. -/
  | notModelled (mnemonic : String)
  deriving DecidableEq, Repr, Inhabited

/-- The state of the module. `pending` is the queue of commands that wait, first in first out (log entry 1). -/
structure State where
  time : TimeSt := {}
  sq : SquareSt := {}
  rec_ : RecSt := {}
  nv : NvSt := {}
  boot : BootSt := {}
  tray : TraySt := {}
  sec : SecSt := {}
  mem : MemSt := {}
  gau : GauSt := {}
  benches : BenchesSt := {}
  serve : ServeSt := {}
  opr : OprSt := {}
  net : NetSt := {}
  vid : VidSt := {}
  red : RedSt := {}
  pwr : PowerSt := {}
  hostWrites : List HostWrite := []
  free : Nat := 0
  pending : List Instr := []
  deriving DecidableEq, Repr, Inhabited

/-- The module right after power-up: keep-alive supply on, the die without power, nothing booted yet. -/
def State.reset : State := {}

end Sys2Proof.Machine
end

