-- ==== Sys2Proof/Machine/OpsCore.lean ====
section
/-! DEFINITION. Time and stamps (R24–R26), the module's identity, contexts, mailboxes and functions. -/
namespace Sys2Proof.Machine

/-! ### Time and stamps -/

/-- R28, R30, R33: what the servo adds to the rate of T, in parts per 10^9: its frequency correction and its slew, together within
±500 ppm. -/
def rateAdj (s : State) : Int := max (-500000) (min 500000 (s.time.freq + s.time.slew))

/-- Let `dt` nanoseconds of the oscillator pass: the model's own count advances by them, T at the rate that the servo sets (R28). -/
def advance (dt : Nat) (s : State) : State :=
  let n := dt * (1000000000 + rateAdj s).toNat + s.time.frac
  { s with time := { s.time with t := wrapAdd 64 s.time.t (n / 1000000000), frac := n % 1000000000, up := s.time.up + dt } }

/-- The time since reset on which every timer runs. -/
def now (s : State) : Nat := s.time.up

/-- R24: the stamp after L. -/
def succStamp (l : Stamp) : Stamp := if l.lc = 0xFFFF then ⟨l.ns + 1, 0⟩ else ⟨l.ns, l.lc + 1⟩

/-- R24: the next stamp: the later of T:0 and the successor of L. -/
def nextStamp (s : State) : Stamp :=
  match s.time.last with
  | some l => stampMax ⟨s.time.t, 0⟩ (succStamp l)
  | none => ⟨s.time.t, 0⟩

/-- R24: issue a stamp; L becomes the stamp issued. -/
def issueStamp (s : State) : Stamp × State :=
  (nextStamp s, { s with time := { s.time with last := some (nextStamp s) } })

/-- R26: L becomes the later of itself and a received stamp. -/
def causal (r : Stamp) (s : State) : State :=
  { s with time := { s.time with last := some (match s.time.last with
    | some l => stampMax l r
    | none => r) } }

/-- R38: the full stamp of a truncated one (bits [47:0] of a stamp), next to the nanosecond count `r` of a full stamp of its source. -/
def rebuildStamp (r low : Nat) : Stamp :=
  let least := r - 2 ^ 31
  ⟨least + (low / 65536 + 2 ^ 32 - least % 2 ^ 32) % 2 ^ 32, low % 65536⟩

/-- R37: the order of recorded events, by stamp, module number and source sequence. -/
def eventLt (a b : Stamp × Nat × Nat) : Bool :=
  stampLt a.1 b.1 || (a.1 = b.1 && (a.2.1 < b.2.1 || (a.2.1 = b.2.1 && a.2.2 < b.2.2)))

/-- A fresh free value (log entry 6). -/
def takeFree (s : State) : Nat × State := (Config.freeValue s.free, { s with free := s.free + 1 })

/-! ### The output port of the Square -/

/-- R56: the cores take an input, which the output port journals. -/
def takeInput (i : SqInput) (s : State) : State :=
  { s with sq := { s.sq with vote := { s.sq.vote with inputs := s.sq.vote.inputs ++ [i], taken := s.sq.vote.taken + 1 } } }

/-- R52, R56: the output port releases a word, and journals its sequence number. -/
def releaseWord (s : State) : State :=
  { s with sq := { s.sq with vote := { s.sq.vote with
    outputs := s.sq.vote.outputs ++ [s.sq.vote.released], released := s.sq.vote.released + 1 } } }

/-- R57, R58: the Square restarts. -/
def restarting (s : State) : Bool := now s < s.sq.vote.restartEnd

/-! ### Identity -/

/-- R82, R739: the module number set by command, or else the one of the straps. -/
def moduleNo (s : State) : Nat := s.nv.moduleNumber.getD (64 * s.tray.cabId + s.tray.slotId)

/-- R6: the module field 0xFFF, and the module's own number, name this module. -/
def isSelf (s : State) (m : Nat) : Bool := m = 0xFFF || m = moduleNo s

/-- Operating seconds since manufacture (R717). -/
def opSeconds (s : State) : Nat := s.boot.opBase + (s.time.up - s.boot.poweredAt) / 1000000000

/-- The context with a number. -/
def ctxOf (s : State) (c : Nat) : CtxSt := tget s.sec.ctxs c {}

/-- Change a context. -/
def modCtx (c : Nat) (f : CtxSt → CtxSt) (s : State) : State :=
  { s with sec := { s.sec with ctxs := tmod s.sec.ctxs c {} f } }

/-- The context exists and is confidential. -/
def isConf (s : State) (c : Nat) : Bool := (ctxOf s c).state ≠ .undefined && (ctxOf s c).confidential

/-- The context exists. -/
def ctxDefined (s : State) (c : Nat) : Bool := c < 16 && (ctxOf s c).state ≠ .undefined

/-- R80: how a command that names a context which does not exist is refused. -/
def noCtx (c : Nat) : Status := if c < 16 then .badState else .badArg

/-- The TDI of a confidential context is in CONFIG_LOCKED or RUN (R622–R624). -/
def tdiLocked (s : State) (c : Nat) : Bool :=
  isConf s c && ((ctxOf s c).tdi = .locked || (ctxOf s c).tdi = .run)

/-- R670: the context's side of a mirrored pair is FENCED. -/
def sideFenced (s : State) (c : Nat) : Bool :=
  (tget s.red.ctxs c {}).par.mode = 1 && (tget s.red.ctxs c {}).role = .fenced

/-! ### Start-up items and edge units -/

/-- The key of an item of a start-up step. -/
def itemKey (k i : Nat) : Nat := k * 1024 + i

/-- An item's progress within this boot. -/
def itemOf (s : State) (k i : Nat) : ItemProgress := tget s.boot.items (itemKey k i) {}

/-- The component of a slot that holds none. -/
def noComponent : Component := { version := 0, epoch := 0, hash := 0 }

/-- R126, R128: the component that FW_ACTIVATE is activating takes effect on this port, pipe or context now. -/
def activatingUnit (s : State) (comp unit : Nat) : Bool :=
  s.boot.walk.elim false fun w => w.todo.head? = some comp && w.units.head? = some unit

/-- R130: the pause in which FW_ACTIVATE activates SQFW. -/
def sqfwPause (s : State) : Bool := s.boot.walk.elim false fun w => w.todo.head? = some 5

/-- R128, R130: FW_ACTIVATE holds the context at its step boundary: JIGLIB takes effect on it, or SQFW is being activated. -/
def heldForUpdate (s : State) (c : Nat) : Bool := activatingUnit s 4 c || sqfwPause s

/-- R16: the edge units: the Ethernet node with the sister port, the PCIe endpoint and the video engine. -/
inductive EdgeUnit where
  | net | pcie | video
  deriving DecidableEq, Repr, Inhabited

/-- R16: the yards to whose edge ports a unit attaches. -/
def edgeYards : EdgeUnit → List Nat
  | .net => [0, 1, 2, 3]
  | .pcie => [12, 13]
  | .video => [8, 9]

/-- R16, R109: the yards that a unit uses: those that YARD_INIT has not excluded. A group that MEM_TRAIN or MEM_TEST excludes leaves its
yard's edge port in use. -/
def edgeLeft (s : State) (u : EdgeUnit) : List Nat := (edgeYards u).filter fun y => !(itemOf s 11 y).excluded

/-- R109: a unit is unavailable when none of its yards remains. -/
def attached (s : State) (u : EdgeUnit) : Bool := !(edgeLeft s u).isEmpty

/-! ### Mailboxes and functions -/

/-- A mailbox by its number. -/
def mbxOf (s : State) (m : Nat) : Mailbox := tget s.sq.mbx m {}

/-- Change a mailbox. -/
def modMbx (m : Nat) (f : Mailbox → Mailbox) (s : State) : State :=
  { s with sq := { s.sq with mbx := tmod s.sq.mbx m {} f } }

/-- A function by its identifier. -/
def funcOf (s : State) (fid : Nat) : Func := tget s.sq.funcs fid {}

/-- Change a function. -/
def modFunc (fid : Nat) (f : Func → Func) (s : State) : State :=
  { s with sq := { s.sq with funcs := tmod s.sq.funcs fid {} f } }

/-- R83: function identifiers. -/
def fidContext (c : Nat) : Nat := 0x01000000 + c
def fidPort (g : Nat) : Nat := 0x02000000 + g
def fidVideo (p : Nat) : Nat := 0x03000000 + p
def fidPace : Nat := 0x04000000
def fidTime : Nat := 0x05000000
def fidPower : Nat := 0x06000000

/-- R83: the functions that exist. -/
def fidExists (fid : Nat) : Bool :=
  let i := fid % 2 ^ 24
  match fid / 2 ^ 24 with
  | 1 => i < 16
  | 2 => i < 5
  | 3 => i < 6
  | 4 => i = 0
  | 5 => i = 0
  | 6 => i = 0
  | _ => false

/-- A function is quiesced: STOPPED or START_FAILED (R82, R85). -/
def quiesced (s : State) (fid : Nat) : Bool :=
  (funcOf s fid).state = .stopped || (funcOf s fid).state = .startFailed

end Sys2Proof.Machine
end

