-- ==== Sys2Proof/Machine/NetOps.lean ====
section
/-! DEFINITION. Ports, lanes and the sending of XLT messages (R432–R442, R455–R457), on which every family rests that
reaches another module. -/
namespace Sys2Proof.Machine

/-! ### Ports -/

def portOf (s : State) (p : Nat) : Port := tget s.net.ports p {}

def modPort (p : Nat) (f : Port → Port) (s : State) : State :=
  { s with net := { s.net with ports := tmod s.net.ports p {} f } }

/-- R432: the port mode in force. -/
def portMode (s : State) : Nat := tget s.net.modes 0 0

/-- R432: the ports of a mode, and the lanes of a port. -/
def modePorts (mode : Nat) : Nat := 4 * 2 ^ mode
def lanesPer (mode : Nat) : Nat := 8 / 2 ^ mode

/-- R432, R83: the PORT_GROUP of a port. -/
def portGroup (s : State) (p : Nat) : Nat := if p = 32 then 4 else p * lanesPer (portMode s) / 8

/-- R482, R121: the state of a port; it reads its reset value, ABSENT, until the module has started. In SERVICE state no port
carries traffic (R111); a port retrains while SERDESFW takes effect on it (R128). -/
def portState (s : State) (p : Nat) : PortState :=
  if 32 < p || (p < 32 && modePorts (portMode s) ≤ p) || s.boot.phase = .booting || s.tray.thermTrip then .absent
  else if !bitOf s.boot.laneGroups (portGroup s p) then .excluded
  else match (funcOf s (fidPort (portGroup s p))).state with
    | .running =>
      if s.boot.phase = .service then .stopped
      else if activatingUnit s 2 p then .training
      else if (portOf s p).up then .up
      else .down
    | .starting => .training
    | _ => .stopped

/-- R434, R482: the speed code of a port. -/
def portSpeed (s : State) (p : Nat) : Nat :=
  match portState s p with
  | .absent => 0
  | .excluded => 0
  | _ =>
    let full := if p = 32 then 3 else 5 - portMode s
    if bitOf s.boot.lane53 (portGroup s p) then full - 1 else full

/-- R439, R441: a context's UP ports, in ascending number. -/
def ctxPorts (s : State) (c : Nat) : List Nat :=
  (List.range 32).filter fun p => portState s p = .up && bitOf (portOf s p).contexts c

/-- R47: the context holds a port. -/
def holdsPort (s : State) (c : Nat) : Bool := (List.range 32).any fun p => bitOf (portOf s p).contexts c

/-- R441: the port that an index chooses for a context; without an UP port, its first port of any state. -/
def choosePort (s : State) (c idx : Nat) : Nat :=
  let l := ctxPorts s c
  if l.isEmpty then ((List.range 32).find? fun p => bitOf (portOf s p).contexts c).getD 0
  else l.getD (idx % l.length) 0

/-- R440: a port for module traffic: any that is UP. -/
def modulePort (s : State) : Option Nat := (List.range 33).find? fun p => portState s p = .up

/-- R440, R475: the port to a peer: the sister port for the sister when it is UP, else any UP port of the network. -/
def portTo (s : State) (m : Nat) : Option Nat :=
  if s.net.sister = some m && portState s 32 = .up then some 32
  else (List.range 32).find? fun p => portState s p = .up

/-! ### Peers and lanes -/

def peerOf (s : State) (m : Nat) : Option Peer := s.net.peers.find? fun p => p.module = m

def modPeer (m : Nat) (f : Peer → Peer) (s : State) : State :=
  { s with net := { s.net with peers := mapIf (fun p => p.module = m) f s.net.peers } }

def laneOf (s : State) (l : Nat) : Lane := tget s.net.lanes l {}

def modLane (l : Nat) (f : Lane → Lane) (s : State) : State :=
  { s with net := { s.net with lanes := tmod s.net.lanes l {} f } }

/-- R474: the manager and the sister. -/
def isTrusted (s : State) (m : Nat) : Bool := s.nv.manager = some m || s.net.sister = some m

/-- R473: the peer is in quarantine. -/
def peerQuarantined (s : State) (m : Nat) : Bool :=
  match peerOf s m with
  | some p => match p.quarantineEnd with
    | some e => now s < e
    | none => false
  | none => false

/-- The open lanes of a peer. -/
def lanesTo (s : State) (m : Nat) : List (Nat × Lane) := s.net.lanes.filter fun x => x.2.state ≠ .closed && x.2.peer = m

/-- R463: every lane to the peer is DOWN, the peer is quarantined, or it refuses with NAK STOPPED. -/
def peerUnreachable (s : State) (m : Nat) : Bool :=
  let l := lanesTo s m
  peerQuarantined s m || (!l.isEmpty && l.all fun x => x.2.state = .down || x.2.state = .reopening)
    || l.any fun x => x.2.stoppedNak

/-- A message of the module's own, before it is stamped. -/
def blankMsg : XMsg :=
  ⟨0, 0, 0, 0, 0, 0, false, 0, 0, 0, false, false, false, false, false, false, false, ⟨0, 0⟩, 0, 0, 0, 0, [], []⟩

/-- R433: the MAC address of a port. -/
def portMac (s : State) (p : Nat) : Nat := (s.nv.macBase + (if p = 32 then 63 else p)) % 2 ^ 48

/-- R437: the address at which a message reaches a peer from a port: the one that the peer's HELLO lists for the port, or, before any
HELLO, the address plan's. A port with an IPv4 address uses IPv4 (log entry 20). -/
def peerAddr (s : State) (m port : Nat) : Nat :=
  let v4 := (portOf s port).cfg.ip4 ≠ 0
  let plan := (if v4 then s.net.plan4 else s.net.plan6) + 64 * m + port
  match (peerOf s m).map (·.addrs) with
  | some (a :: r) => (a :: r).getD port a
  | _ => plan

/-- R440: the module's own traffic, which takes the port's control DSCP value (R445). -/
def moduleTraffic (typ op : Nat) : Bool := !(0x10 ≤ typ && typ ≤ 0x15) || (typ = 0x15 && op < 2)

/-- R447: the flags of a header. -/
def headerFlags (m : XMsg) : Nat :=
  bit m.hasAck + 2 * bit m.ecnEcho + 4 * bit m.retransmit + 8 * bit m.bulk + 16 * bit m.check + 32 * bit m.ackNow + 64 * bit m.modlane

/-- R446: the 48 bytes of a header. -/
def headerBytes (x : Sent) : List Byte :=
  let m := x.msg
  let ctx (c : Nat) : Nat := if m.modlane then 0 else c
  fieldBytes [⟨1, 1⟩, ⟨1, x.typ⟩, ⟨1, headerFlags m⟩, ⟨1, m.op⟩, ⟨2, m.srcM + 4096 * ctx m.srcC⟩, ⟨2, x.dest + 4096 * ctx m.dstC⟩,
    ⟨2, m.lane⟩, ⟨2, m.length⟩, ⟨4, m.seq⟩, ⟨4, m.ack⟩, ⟨2, m.credit⟩, ⟨2, m.tag⟩, ⟨10, stampNat m.stamp⟩, ⟨6, m.addr⟩, ⟨8, m.operand⟩]

/-- R445: the module's own number of the lane that a message leaves on; 0 for a message of the module class. -/
def ownLane (s : State) (x : Sent) : Nat :=
  if x.typ < 0x10 || 0x16 < x.typ || (x.typ = 0x15 && x.msg.op < 2) then 0
  else ((s.net.lanes.find? fun l => l.2.state ≠ .closed && l.2.peer = x.dest && l.2.theirs = x.msg.lane && l.2.modlane = x.msg.modlane).map (·.1)).getD 0

/-- R433, R437, R445, R475: the frame of a message. -/
def frameOf (s : State) (x : Sent) : Frame :=
  let p := (portOf s x.msg.port).cfg
  let sis := x.msg.port = 32
  { sent := x, srcMac := portMac s x.msg.port, vlan := p.vlan, ip := if sis then 0 else peerAddr s x.dest x.msg.port
    dscp := if sis then 0 else if moduleTraffic x.typ x.msg.op then p.dscpCtl else p.dscpData
    udpSrc := if sis then 0 else 49152 + ownLane s x, udpDst := if sis then 0 else s.net.udpPort, header := headerBytes x }

/-- Send one message: it takes the module's stamp and leaves on its port. A quarantined peer is sent none (R473), and a port that
is not UP sends nothing. -/
def transmit (x : Sent) (s : State) : State :=
  if peerQuarantined s x.dest || portState s x.msg.port ≠ .up then s
  else
    let p := issueStamp s
    let m := { x.msg with srcM := moduleNo s, stamp := p.1 }
    let bytes := 48 + m.data.length + 2 * m.chks.length
    modPort m.port (fun q => { q with txFrames := wrapAdd 64 q.txFrames 1, txBytes := wrapAdd 64 q.txBytes bytes })
      { p.2 with net := { p.2.net with tx := frameOf p.2 { x with msg := m } :: p.2.net.tx } }

/-- R52: send a module-class message (R448), when a port is UP: a word of the Square. -/
def sendModule (typ op dest : Nat) (m : XMsg) (s : State) : State :=
  match portTo s dest with
  | some p => transmit ⟨typ, dest, { m with op := op, port := p }⟩ (releaseWord s)
  | none => s

/-- R448, R470: a NAK on the port of the refused message. -/
def sendNak (reason : Nat) (m : XMsg) (lane : Nat) (s : State) : State :=
  let nak : XMsg :=
    { blankMsg with
      port := m.port, op := reason, dstC := m.srcC, srcC := m.dstC, lane := lane, seq := m.seq, tag := m.tag }
  transmit ⟨0x03, m.srcM, nak⟩
    { s with net := { s.net with naksSent := satAdd 64 s.net.naksSent 1 } }

/-- The distance from one 32-bit sequence number to a later one. -/
def seqDist (a b : Nat) : Nat := (b + 2 ^ 32 - a % 2 ^ 32) % 2 ^ 32

/-- R457, R463: the credits that a lane may use now. -/
def laneCredits (l : Lane) : Nat :=
  let c := seqDist l.sndNext l.sndLimit
  if 2 ^ 31 ≤ c then 0 else min c (l.window - l.unacked.length)

/-- R460: the retransmission timeout. -/
def laneTimeout (l : Lane) : Nat := min 10000000 (max 20000 (4 * l.srtt) * 2 ^ l.retries)

/-- An acknowledgement rides on any header with ACK set (R459): the lane's ack and credit are announced. -/
def withAck (l : Lane) (m : XMsg) : XMsg :=
  { m with hasAck := true, ack := l.rcvNext, credit := l.depth, ecnEcho := l.ecnEcho, lane := l.theirs }

/-- R469: a message carries bytes of a page of a shipment. -/
def isPage (peer ship : Nat) (x : Sent) : Bool := x.typ = 0x15 && x.dest = peer && x.msg.op = 2 && x.msg.operand = ship

/-- R419: the time at which the last page of a shipment has left. -/
def notePage (x : Sent) (s : State) : State :=
  { s with net := { s.net with
      ships := mapIf (fun h => h.sender && isPage h.peer h.shipId x) (fun h => { h with sentAll := some (now s) }) s.net.ships } }

/-- Send the messages of a lane that wait, as far as its credits go. -/
def drainLane (n : Nat) : Nat → State → State
  | 0, s => s
  | fuel + 1, s =>
    let l := laneOf s n
    match l.waiting with
    | [] => s
    | x :: r =>
      if l.state ≠ .up || laneCredits l = 0 then s
      else
        let y : Sent := { x with msg := { withAck l x.msg with seq := l.sndNext, port := l.port } }
        drainLane n fuel (notePage y <| transmit y (modLane n (fun l =>
          { l with waiting := r, unacked := l.unacked ++ [y], sndNext := wrapAdd 32 l.sndNext 1,
                   announced := wrapAdd 32 l.rcvNext l.depth, ackDue := none, ecnEcho := false,
                   deadline := if l.unacked.isEmpty then some (now s + laneTimeout l) else l.deadline }) s))

/-- R455: the lane between a context and a peer's context on a port. -/
def findLane (s : State) (c peer pc port : Nat) (modlane : Bool) : Option Nat :=
  (s.net.lanes.find? fun x => x.2.state ≠ .closed && x.2.ctx = c && x.2.peer = peer && x.2.peerCtx = pc
    && x.2.modlane = modlane && (modlane || x.2.port = port)).map (·.1)

/-- R456: the receive slots that a context's new lanes take. -/
def laneDepth (s : State) (c : Nat) (modlane : Bool) : Nat := if modlane then 64 else tget s.net.depths c 64

/-- R456: a free lane number, or the lane longest idle and idle for at least 1 s. -/
def freeLane (s : State) : Option Nat :=
  match (List.range 16384).find? fun i => (laneOf s i).state = .closed with
  | some i => some i
  | none =>
    let idle := s.net.lanes.filter fun x => x.2.unacked.isEmpty && x.2.waiting.isEmpty && x.2.idleAt + 1000000000 ≤ now s
    match idle with
    | [] => none
    | x :: r => some (r.foldl (fun a y => if y.2.idleAt < a.2.idleAt then y else a) x).1

/-- R451: the payload of a HELLO: serial number, XLT epoch, max_data and the port addresses; their places in the 64 bytes are
the model's choice (log entry 20). -/
def helloBytes (s : State) : List Byte :=
  let l := fieldBytes ([⟨8, Config.serial⟩, ⟨4, s.nv.powerCycle⟩, ⟨4, 4096⟩]
    ++ (s.net.ports.take 12).map fun p => ⟨4, p.2.cfg.ip4⟩)
  l ++ List.replicate (64 - l.length) 0

/-- R455: send HELLO OPEN with the lane's own number and depth. -/
def sendOpen (n : Nat) (s : State) : State :=
  let l := laneOf s n
  let open_ : XMsg :=
    { blankMsg with
      op := 1, port := l.port, srcC := l.ctx, dstC := l.peerCtx, modlane := l.modlane, credit := l.depth, operand := n
      length := 64, data := helloBytes s }
  transmit ⟨0x01, l.peer, open_⟩ s

/-- R455, R456: open a lane, unless no lane qualifies. -/
def openLane (c peer pc port : Nat) (modlane : Bool) (s : State) : Option Nat × State :=
  match freeLane s with
  | none => (none, s)
  | some n =>
    let l : Lane :=
      { state := .opening, ctx := c, peer := peer, peerCtx := pc, modlane := modlane, port := port
        depth := laneDepth s c modlane, announced := laneDepth s c modlane, idleAt := now s }
    (some n, sendOpen n (modLane n (fun _ => l) s))

/-- The lane for a message, opened when there is none. -/
def laneFor (c peer pc port : Nat) (modlane : Bool) (s : State) : Option Nat × State :=
  match findLane s c peer pc port modlane with
  | some n => (some n, s)
  | none => openLane c peer pc port modlane s

/-- Send a message on a lane: it waits for the lane and for credit (R455, R457). -/
def sendLane (n : Nat) (x : Sent) (s : State) : State :=
  let s := modLane n (fun l => { l with waiting := l.waiting ++ [x], idleAt := now s }) s
  drainLane n 64 s

/-- R464: the tags that an operation on a lane may take, as (first, count): MODLANE lanes and the sister port draw on the 512 system
tags; a port has 384 initiator tags for each lane of the node that it uses, which belong to its EXCLUSIVE context or are split equally
among its SHARED ones. -/
def tagPool (s : State) (n : Nat) : Nat × Nat :=
  let l := laneOf s n
  if l.modlane || l.port = 32 then (0, 512)
  else
    let w := 384 * lanesPer (portMode s)
    let cs := maskBits (portOf s l.port).contexts 16
    let share := w / max 1 cs.length
    (w * l.port + (findIdx (· = l.ctx) cs 0).getD 0 * share, share)

/-- R464: an operation holds a tag; initiator tags and system tags are apart. -/
def tagHeld (s : State) (n t : Nat) : Bool :=
  s.net.ops.any fun o => o.tag = t && (laneOf s o.lane).modlane = (laneOf s n).modlane

/-- R464: a free tag for an operation on a lane. -/
def freeTag (s : State) (n : Nat) : Option Nat :=
  let p := tagPool s n
  ((List.range p.2).map (p.1 + ·)).find? fun t => !tagHeld s n t

/-- Send an initiated operation and keep its tag. It waits while no tag of its pool is free, or others of its lane wait (R464). -/
def sendOp (n : Nat) (purpose : OpFor) (x : Sent) (s : State) : State :=
  match (if s.net.tagWait.any fun w => w.1 = n then none else freeTag s n) with
  | none => { s with net := { s.net with tagWait := s.net.tagWait ++ [(n, purpose, x)] } }
  | some t =>
    sendLane n { x with msg := { x.msg with tag := t } } { s with net := { s.net with ops := s.net.ops ++ [⟨t, n, purpose⟩] } }

/-- R464: tags came free: the operations that wait are sent, as far as tags go. -/
def retryTags (s : State) : State :=
  s.net.tagWait.foldl (fun s w => sendOp w.1 w.2.1 w.2.2 s) { s with net := { s.net with tagWait := [] } }

/-- The data that a message to a peer may carry (R438). -/
def maxData (s : State) (port peer : Nat) : Nat :=
  min (portOf s port).cfg.maxData ((peerOf s peer).elim 4096 (·.maxData))

end Sys2Proof.Machine
end

