-- ==== Sys2Proof/Machine/Ops.lean ====
section
/-! DEFINITION. The operations every family rests on: the recorder (R718–R726), notifications and responses (R73–R75),
violations and quarantine (R96–R98), and the dispatch of a mailbox command with its final response. -/
namespace Sys2Proof.Machine

/-! ### The event recorder -/

/-- The position of the oldest record, by (power_cycle, sequence), among those that satisfy a test (R721). -/
def oldestIdx (p : EvRec → Bool) (l : List EvRec) : Option Nat :=
  (l.foldl (fun (acc : Nat × Option (Nat × EvRec)) r =>
    (acc.1 + 1,
      if p r then
        match acc.2 with
        | some (i, b) =>
          if r.powerCycle < b.powerCycle || (r.powerCycle = b.powerCycle && r.seq < b.seq) then some (acc.1, r)
          else some (i, b)
        | none => some (acc.1, r)
      else acc.2)) (0, none)).2.map (·.1)

/-- R721: which records a new record of a severity may take the place of. -/
def displaces (sev : Nat) (r : EvRec) : Bool :=
  match sev with
  | 0 => r.sev = 0
  | 1 => r.sev = 0
  | 2 => r.sev ≤ 1
  | _ => r.sev < 3

/-- R721: put a record into a log of `cap` records; `none` when it finds no place. -/
def placeRec (cap : Nat) (r : EvRec) (l : List EvRec) : Option (List EvRec) :=
  if l.length < cap then some (l ++ [r])
  else (oldestIdx (displaces r.sev) l).map fun i => l.set i r

/-- Count a record that was lost (R721). -/
def loseRec (sev : Nat) (r : RecSt) : RecSt :=
  { r with lost := r.lost.set sev (satAdd 64 (r.lost.getD sev 0) 1)
           lostNew := r.lostNew.set sev (satAdd 16 (r.lostNew.getD sev 0) 1) }

/-- The log is held unchanged by a freeze whose flush has ended (R722). -/
def frozen (s : State) : Bool :=
  match s.rec_.freeze with
  | some f => f.started
  | none => false

/-- R718: close the oldest open record when 1,024 are open. -/
def closeOldest (l : List EvRec) : List EvRec :=
  if (l.filter (·.isOpen)).length < 1024 then l
  else match findIdx (·.isOpen) l 0 with
    | some i => l.modify i fun r => { r with isOpen := false }
    | none => l

/-- The fields that fit into a number of bytes. R75: a response carries at most 220 result bytes; R717: a record carries 26 payload bytes.
DESIGN CHOICE (the manual does not say what becomes of an answer or a payload that is longer): the fields that would pass the last byte are
left out (log entry 9). -/
def fitData : Nat → List Fld → List Fld
  | _, [] => []
  | room, f :: r => if f.bytes ≤ room then f :: fitData (room - f.bytes) r else []

/-- R717, R721, R722: create a record and give it a place in the RAM buffer, or count it as lost. -/
def addRec (code sev source : Nat) (ctx : Option Nat) (rep : Bool) (payload : List Fld) (s : State) : State :=
  let p := issueStamp s
  let s := p.2
  let zero := match ctx with
    | some c => isConf s c
    | none => false
  let r : EvRec :=
    { stamp := p.1, seq := s.rec_.nextSeq, opSeconds := opSeconds s, powerCycle := s.nv.powerCycle, code := code,
      rep := 1, source := source, sev := sev, zeroed := zero, saturated := false, ctx := ctx,
      module := moduleNo s, last := p.1, payload := if zero then [] else fitData 26 payload, isOpen := rep }
  let q := { s.rec_ with nextSeq := wrapAdd 32 s.rec_.nextSeq 1 }
  if frozen s && 4096 ≤ q.ram.length then { s with rec_ := loseRec sev q }
  else match placeRec 16384 r (if rep then closeOldest q.ram else q.ram) with
    | some l => { s with rec_ := { q with ram := l } }
    | none => { s with rec_ := loseRec sev q }

/-- R719: a flush starts: open records close, and a loss since the last flush makes 0x1601 (R726). -/
def startFlush (s : State) : State :=
  let s := if s.rec_.lostNew.all (· = 0) then s
    else
      let p := s.rec_.lostNew.map fun n => Fld.mk 2 n
      addRec 0x1601 1 0 none false p { s with rec_ := { s.rec_ with lostNew := [0, 0, 0, 0] } }
  let ram := s.rec_.ram.map fun r => { r with isOpen := false }
  { s with rec_ := { s.rec_ with ram := ram, flushing := some ram.length } }

/-- R723: a freeze ends early: 0x1603 is made, and the log is no longer held. -/
def endFreezeEarly (s : State) : State :=
  match s.rec_.freeze with
  | some _ => addRec 0x1603 1 0 none false [] { s with rec_ := { s.rec_ with freeze := none } }
  | none => s

/-- R718: the open record that an occurrence joins. -/
def joinIdx (code source : Nat) (ctx : Option Nat) (t : Nat) (l : List EvRec) : Option Nat :=
  findIdx (fun r => r.isOpen && r.code = code && r.source = source && r.ctx = ctx && r.rep < 65535
    && t ≤ r.stamp.ns + 1000000000) l 0

/-! ### Responses and notifications -/

/-- R80: the numbers of the status codes. -/
def statusCode : Status → Nat
  | .ok => 0x0000
  | .accepted => 0x0001
  | .badOpcode => 0x0010
  | .badLength => 0x0011
  | .badArg => 0x0012
  | .badState => 0x0013
  | .denied => 0x0020
  | .confidential => 0x0021
  | .noResource => 0x0030
  | .busy => 0x0031
  | .timeout => 0x0040
  | .incompatible => 0x0050
  | .faulted => 0x0060

/-- R75: how many entries a response takes: 28 result bytes in the first, 64 in each continuation. -/
def rspEntries (r : Response) : Nat := 1 + ceilDiv (fieldLen r.data - 28) 64

/-- R75: a response as the bytes of its entries. -/
def rspBytes (r : Response) : List Byte :=
  let flags := bit r.final + 2 * bit r.async + 4 * bit r.restartDelayed + 8 * bit r.notifyLost
  let head := fieldBytes
    [⟨2, r.opcode⟩, ⟨2, statusCode r.status⟩, ⟨4, r.tag⟩, ⟨1, rspEntries r⟩, ⟨1, flags⟩, ⟨2, fieldLen r.data⟩,
     ⟨4, 0⟩, ⟨10, stampNat r.cmdStamp⟩, ⟨10, stampNat r.rspStamp⟩]
  let body := head ++ fieldBytes r.data
  body ++ List.replicate (64 * rspEntries r - body.length) 0

/-- Response positions not yet consumed by the host. -/
def rspUsed (m : Mailbox) : Nat := (m.rspTail + 2 ^ 32 - m.rspHead) % 2 ^ 32

/-- R73: the mailbox can take no response now: its ring holds 256 entries, or an earlier response waits. -/
def rspBlocked (m : Mailbox) : Bool := 256 ≤ rspUsed m || !m.waiting.isEmpty

/-- R78, R468: entries leave for the peer that a remote mailbox is bound to, in a CONTROL message on a MODLANE lane. -/
def sendControl (m : Nat) (data : List Byte) (s : State) : State :=
  match (mbxOf s m).binding with
  | none => s
  | some b =>
    match laneFor 0 b.peer 0 ((portTo s b.peer).getD 0) true s with
    | (some n, s) =>
      sendOp n .control ⟨0x16, b.peer, { blankMsg with addr := m, length := data.length, modlane := true, data := data }⟩ s
    | (none, s) => s

/-- R63: the transport of a remote or sideband mailbox takes its responses from the ring at once. -/
def takeResponses (m : Nat) (s : State) : State :=
  if 17 ≤ m then modMbx m (fun b => { b with rspHead := b.rspTail }) s else s

/-- R52, R73, R75: write a response into free positions, with its stamp; MSI-X after a final entry when enabled; an in-band interrupt
for a sideband mailbox (R741); a CONTROL message for a remote one (R78). -/
def putRsp (m : Nat) (r : Response) (s : State) : State :=
  let p := issueStamp s
  let b := mbxOf s m
  let s := modMbx m (fun b => { b with
    rsps := { r with rspStamp := p.1 } :: b.rsps
    rspTail := wrapAdd 32 b.rspTail (rspEntries r) }) p.2
  let s := takeResponses m (releaseWord s)
  if 17 ≤ m && m ≤ 24 then sendControl m (rspBytes { r with rspStamp := p.1 }) s
  else if r.final && b.irqEn && m ≤ 16 then { s with sq := { s.sq with msix := (m, b.vector) :: s.sq.msix } }
  else if 25 ≤ m && m ≤ 28 && s.tray.ibiEnabled then { s with tray := { s.tray with ibis := s.tray.ibis + 1 } }
  else s

/-- Write a response if its entries fit now; otherwise it waits for the host (R73). What is written while the Square restarts (R58) or in the
SQFW pause (R130) is late. -/
def writeRsp (m : Nat) (r : Response) (s : State) : State :=
  let b := mbxOf s m
  let r := { r with restartDelayed := r.restartDelayed || restarting s || sqfwPause s }
  if b.waiting.isEmpty && rspUsed b + rspEntries r ≤ 256 then putRsp m r s
  else modMbx m (fun b => { b with waiting := b.waiting ++ [r] }) s

/-- R81: a notification as a response entry; its class is the mask bit it is selected by. DESIGN CHOICE (the manual does not give these
fields of a notification): final 1, status OK, command stamp 0 (log entry 27). -/
def notifRsp (n : Notif) (lost : Bool) : Response :=
  { opcode := 0x00FF, status := .ok, tag := 0, final := true, async := false, restartDelayed := false,
    notifyLost := lost, cmdStamp := ⟨0, 0⟩, rspStamp := ⟨0, 0⟩,
    data := [⟨4, 2 ^ n.cls⟩, ⟨2, n.code⟩, ⟨2, n.source⟩] }

/-- R73: give one mailbox a notification: written, held, or dropped and counted. -/
def notifyOne (m : Nat) (n : Notif) (s : State) : State :=
  let b := mbxOf s m
  if !rspBlocked b && b.held.isEmpty then
    putRsp m (notifRsp n b.lostFlag) (modMbx m (fun b => { b with lostFlag := false }) s)
  else if b.held.length < 64 then modMbx m (fun b => { b with held := b.held ++ [n] }) s
  else modMbx m (fun b => { b with notifyLost := satAdd 16 b.notifyLost 1, lostFlag := true }) s

/-- R81: send a notification to every mailbox that selected its class. -/
def notify (cls code source : Nat) (s : State) : State :=
  (List.range 29).foldl (fun s m =>
    if bitOf (mbxOf s m).mask cls then notifyOne m ⟨cls, code, source⟩ s else s) s

/-- R718–R723: an event makes a recorder entry: it joins an open record, or creates one. A record of severity 3
ends a freeze and starts a flush; so do 12,288 waiting records while the log is not frozen. Severity 2 and 3 send a
notification of class bit 3 (R81). -/
def record (code sev source : Nat) (ctx : Option Nat) (rep : Bool) (payload : List Fld) (s : State) : State :=
  let s := takeInput (.event code) s
  match (if rep then joinIdx code source ctx (nextStamp s).ns s.rec_.ram else none) with
  | some i =>
    let p := issueStamp s
    { p.2 with rec_ := { p.2.rec_ with ram := p.2.rec_.ram.modify i fun r =>
        { r with rep := r.rep + 1, last := p.1, saturated := r.rep + 1 = 65535 } } }
  | none =>
    let s := addRec code sev source ctx rep payload s
    let s := if 2 ≤ sev then notify 3 code source s else s
    if sev = 3 then startFlush (endFreezeEarly s)
    else if 12288 ≤ s.rec_.ram.length && !frozen s && s.rec_.flushing.isNone then startFlush s
    else s

/-- A recorder entry of the Square itself, naming no context. -/
def recordSq (code sev : Nat) (payload : List Fld) (s : State) : State := record code sev 0 none false payload s

/-! ### Work that owes a final response -/

/-- A dispatched command: what its response echoes, and whether its entries were well formed (R74). -/
structure Call where
  mb : Nat
  tag : Nat
  opcode : Nat
  stamp : Stamp
  late : Bool
  lenOk : Bool
  rsvdOk : Bool
  deriving DecidableEq, Repr, Inhabited

/-- What a command answers: the state, the status and the result bytes; `viol` marks an answer that counts as a
violation (R96), `work` the work that owes a response: the final one of an ACCEPTED command, or, where `held`, the single one that is
withheld until the work ends (R45, R84). -/
structure Ans where
  s : State
  status : Status
  data : List Fld
  work : Option (WorkKind × Nat)
  viol : Bool
  held : Bool
  deriving DecidableEq, Repr, Inhabited

/-- The command completed as asked. -/
def ok (s : State) : Ans := ⟨s, .ok, [], none, false, false⟩

/-- The command completed and returns result bytes. -/
def okData (s : State) (d : List Fld) : Ans := ⟨s, .ok, d, none, false, false⟩

/-- The command is refused and has changed nothing. -/
def no (s : State) (st : Status) : Ans := ⟨s, st, [], none, false, false⟩

/-- The command is refused with a reason in its result bytes. -/
def noData (s : State) (st : Status) (d : List Fld) : Ans := ⟨s, st, d, none, false, false⟩

/-- A reserved field was not zero (R96). -/
def badReserved (s : State) : Ans := ⟨s, .badArg, [], none, true, false⟩

/-- The work started; a final response follows. -/
def accepted (s : State) (k : WorkKind) (id : Nat) : Ans := ⟨s, .accepted, [], some (k, id), false, false⟩

/-- The work started, and the single response is withheld until it ends. -/
def withheld (s : State) (k : WorkKind) (id : Nat) : Ans := ⟨s, .ok, [], some (k, id), false, true⟩

/-- The response of a call. -/
def rspOf (c : Call) (st : Status) (d : List Fld) (fin async : Bool) : Response :=
  { opcode := c.opcode, status := st, tag := c.tag, final := fin, async := async, restartDelayed := c.late,
    notifyLost := false, cmdStamp := c.stamp, rspStamp := ⟨0, 0⟩, data := fitData 220 d }

/-- R59: write the response that a piece of work owes (R75); a reset mailbox discards it (R76). -/
def finishWork (w : Work) (st : Status) (d : List Fld) (s : State) : State :=
  if w.discard then s
  else writeRsp w.mb (rspOf ⟨w.mb, w.tag, w.opcode, w.stamp, w.late, true, true⟩ st d true (!w.first)) s

/-- R73, R171, R414: the final response of some work can be written now, so what takes effect with it may take effect. -/
def rspRoom (s : State) (k : WorkKind) (id : Nat) : Bool :=
  (s.sq.work.find? fun w => w.kind = k && w.id = id).elim true fun w =>
    w.discard || ((mbxOf s w.mb).waiting.isEmpty && rspUsed (mbxOf s w.mb) < 256)

/-- Whether work of a kind and number is in progress. -/
def working (k : WorkKind) (id : Nat) (s : State) : Bool := s.sq.work.any fun w => w.kind = k && w.id = id

/-! ### Reverting a function -/

/-- R83: classes whose start completes within 1 ms answer at once (R84). -/
def slowStart (fid : Nat) : Bool := fid / 2 ^ 24 ≤ 3

/-- R81, R85: a function changes its state, which notification class bit 1 selects; the manual names no recorder code for it, so the
code is a free value (log entry 25). -/
def setFunc (fid : Nat) (f : Func → Func) (s : State) : State :=
  let p := takeFree (modFunc fid f s)
  notify 1 (p.1 % 65536) 0 p.2

/-- R90: discard the staged set and restart with the previous settings. -/
def beginRevert (fid : Nat) (s : State) : State :=
  if slowStart fid then
    setFunc fid (fun f => { f with state := .starting, staged := [], holder := none, deadline := none, revert := none,
                                   reverting := true }) s
  else
    setFunc fid (fun f => { f with state := .running, staged := [], holder := none, deadline := none, revert := none,
                                   reverting := false }) s

/-- R91: the number of a cause in the payload of 0x1304 (the manual gives it no number). -/
def causeCode : RevertCause → Nat
  | .reset => 0
  | .quarantine => 1
  | .unbound => 2
  | .holdExpired => 3
  | .forced => 4
  | .tdiError => 5

/-- R91: a quiesced function is reverted for a cause, and 0x1304 names both. DESIGN CHOICE (the manual does not say whether the entry of a
class whose restart takes time is made when the restart begins or when it ends): when it begins (log entry 25). -/
def revertNow (fid : Nat) (cause : RevertCause) (s : State) : State :=
  recordSq 0x1304 1 [⟨4, fid⟩, ⟨1, causeCode cause⟩] (beginRevert fid s)

/-- R91: revert a function for a cause: at once when quiesced, after the stop or after a start that fails otherwise. -/
def revertFor (fid : Nat) (cause : RevertCause) (s : State) : State :=
  match (funcOf s fid).state with
  | .running => s
  | .stopped => revertNow fid cause s
  | .startFailed => revertNow fid cause s
  | .stopping => modFunc fid (fun f => { f with revert := some cause }) s
  | .starting => modFunc fid (fun f => { f with revert := some cause }) s

/-- R91: a revert that waited for the function to quiesce, or for its start to fail. -/
def pendingRevert (fid : Nat) (s : State) : State :=
  match (funcOf s fid).revert with
  | some cause => if quiesced s fid then revertNow fid cause s else s
  | none => s

/-- R91: revert every function that a mailbox holds. -/
def revertHeld (m : Nat) (cause : RevertCause) (s : State) : State :=
  (s.sq.funcs.map (·.1)).foldl (fun s fid => if (funcOf s fid).holder = some m then revertFor fid cause s else s) s

/-! ### Violations and quarantine -/

/-- Discard what a mailbox has exposed and not dispatched: the host finds the positions consumed (R98). -/
def dropExposed (b : Mailbox) : Mailbox := { b with exposed := [], partialEntries := 0, cmdHead := b.cmdTail }

/-- R97: quarantine a mailbox for 30 s. -/
def quarantine (m : Nat) (s : State) : State :=
  let s := modMbx m (fun b => { dropExposed b with quarantineEnd := some (now s + 30000000000) }) s
  revertHeld m .quarantine (record 0x1302 2 0 none false [⟨1, m⟩] s)

/-- The mailbox is in quarantine. -/
def quarantined (s : State) (m : Nat) : Bool :=
  match (mbxOf s m).quarantineEnd with
  | some e => now s < e
  | none => false

/-- R96–R98: count a violation on a mailbox; the tenth within 1 s quarantines a mailbox of 1–24. DESIGN CHOICE (the manual does not say):
violations from before a quarantine count on when it ends early within their second (log entry 27). -/
def violation (m : Nat) (s : State) : State :=
  let s := modMbx m (fun b => { b with
    violations := satAdd 32 b.violations 1
    violTimes := (b.violTimes.filter fun t => now s < t + 1000000000) ++ [now s] }) s
  let s := record 0x1301 1 0 none true [⟨1, m⟩] s
  if 1 ≤ m && m ≤ 24 && 10 ≤ (mbxOf s m).violTimes.length && !quarantined s m then quarantine m s else s

/-! ### Dispatch of a mailbox command -/

/-- R79: who a mailbox speaks for. -/
inductive Speaker where
  | management
  | admin
  | context (c : Nat)
  | sideband
  | firmware
  | nobody
  deriving DecidableEq, Repr, Inhabited

/-- R63, R78: the speaker of a mailbox. -/
def speaker (s : State) (m : Nat) : Speaker :=
  if m = 0 then .management
  else if m ≤ 16 then .context (m - 1)
  else if m ≤ 24 then
    match (mbxOf s m).binding with
    | some ⟨_, .admin⟩ => .admin
    | some ⟨_, .context c⟩ => .context c
    | none => .nobody
  else if m ≤ 28 then .sideband
  else .firmware

/-- The Mailboxes column of a command table, joined with R79: mailbox 0, ADMIN-bound remote mailboxes, the context's
own mailbox (or its CONTEXT-bound remote mailbox), the sideband mailboxes. -/
structure Who where
  m0 : Bool
  admin : Bool
  own : Bool
  side : Bool
  deriving DecidableEq, Repr, Inhabited

/-- "All". -/
def whoAll : Who := ⟨true, true, true, true⟩
/-- "0" alone. -/
def who0 : Who := ⟨true, false, false, false⟩
/-- "0, own context". -/
def who0Own : Who := ⟨true, true, true, false⟩
/-- "0, 17–24 ADMIN". -/
def who0Admin : Who := ⟨true, true, false, false⟩
/-- "0, 25–28". -/
def who0Side : Who := ⟨true, true, false, true⟩
/-- "All permitted" of a family that R79 closes to the sideband mailboxes. -/
def whoCtx : Who := ⟨true, true, true, false⟩
/-- "Own context". -/
def whoOwn : Who := ⟨false, false, true, false⟩

/-- A command's table row: its opcode, who may issue it, the context it names, whether R650 and the rules it names
answer CONFIDENTIAL to a mailbox other than that context's own, and whether the command only reads (R112, R79). -/
structure Spec where
  op : Nat
  who : Who
  ctx : Option Nat := none
  conf : Bool := false
  staging : Bool := false
  reads : Bool := false
  deriving DecidableEq, Repr, Inhabited

/-- The mailbox is the context's own one, or a remote one bound to it. -/
def speaksFor (s : State) (m c : Nat) : Bool := speaker s m = .context c

/-- R79: the command is permitted to the mailbox. -/
def permitted (s : State) (m : Nat) (p : Spec) : Bool :=
  match speaker s m with
  | .management => p.who.m0
  | .admin => p.who.admin
  | .context c => p.who.own && (match p.ctx with
    | some d => c = d
    | none => true)
  | .sideband => p.who.side
  | .firmware => false
  | .nobody => false

/-- R650, R624: the command is answered CONFIDENTIAL. The staged commands and the function commands of a
CONTEXT function stay open to mailbox 0 and ADMIN while the TDI is CONFIG_UNLOCKED. -/
def confRefused (s : State) (m : Nat) (p : Spec) : Bool :=
  match p.ctx with
  | some c => p.conf && isConf s c && !speaksFor s m c && !(p.staging && (ctxOf s c).tdi = .unlocked)
  | none => false

/-- R112, R580, R688: the command is served in SERVICE state, after a thermal trip, and by a drained module. -/
def serviceServes (s : State) (m : Nat) (p : Spec) : Bool :=
  let fam := p.op / 256
  (if s.tray.thermTrip then 25 ≤ m && m ≤ 28 else m = 0 || (25 ≤ m && m ≤ 28))
    && (fam = 0 || fam = 2 || (fam = 0x0C && p.reads))

/-- SERVICE state, or the conditions after a thermal trip or a drain that serve the same commands. -/
def inService (s : State) : Bool :=
  s.boot.phase = .service || s.tray.thermTrip || (s.red.drain = .drained && !s.red.removal)

/-- R113, R742: the board controller alone answers the sideband: the Square does not run, or FW_LOAD has not passed. -/
def boardAlone (s : State) : Bool := s.boot.boardOnly || !(s.boot.ended.contains 7 || s.boot.phase = .service)

/-- The transport of a mailbox reaches the Square: the PCIe link for 0–16 (R62, R108), its VFs enabled for 1–16; a
binding for 17–24; the sideband while the keep-alive supply runs. -/
def reachable (s : State) (m : Nat) : Bool :=
  if m = 0 then s.tray.linkUp && !boardAlone s && !s.tray.thermTrip
  else if m ≤ 16 then s.tray.linkUp && s.tray.sriov && !boardAlone s && !s.tray.thermTrip
  else if m ≤ 24 then (mbxOf s m).binding.isSome && !boardAlone s && !s.tray.thermTrip
  else if m ≤ 28 then s.tray.keepAlive
  else false

/-- The mailbox is being reset (R76). -/
def resetting (s : State) (m : Nat) : Bool := now s < (mbxOf s m).resetEnd

/-- R77: the sideband mailbox that serves an endpoint: the one it holds, or the first free one. -/
def sideFor (s : State) (e : Nat) : Option Nat :=
  match [25, 26, 27, 28].find? fun m => (mbxOf s m).endpoint = some e with
  | some m => some m
  | none => [25, 26, 27, 28].find? fun m => (mbxOf s m).endpoint.isNone

/-- A request on a VF's BARs while its TDI is locked needs the T bit of the bound stream (R623). -/
def ideRefused (s : State) (m : Nat) (t : Bool) : Bool := 1 ≤ m && m ≤ 16 && tdiLocked s (m - 1) && !t

/-- R623: count a request refused. -/
def countIdeDrop (s : State) : State :=
  { s with sec := { s.sec with ideDrops := satAdd 64 s.sec.ideDrops 1 } }

/-! ### The command ring (R65, R66, R72, R74) -/

/-- R66: bytes are written to the command ring from an entry's position on; they may wrap from position 255 to position 0. -/
def writeRing (i : Nat) (b : List Byte) (r : Tab Byte) : Tab Byte :=
  (b.foldl (fun (a : Nat × Tab Byte) x => (a.1 + 1, tset a.2 (a.1 % 0x4000) x)) (i % 256 * 64, r)).2

/-- R66: `n` bytes of the command ring, from the position of an entry on. -/
def readRing (i n : Nat) (r : Tab Byte) : List Byte := (List.range n).map fun k => tget r ((i % 256 * 64 + k) % 0x4000) 0

/-- R74: the head of the command whose first entry has index `i`. -/
def headAt (b : Mailbox) (i : Nat) : CmdHead :=
  let e := readRing i 16 b.ring
  { opcode := fieldAt e 0 2, entries := fieldAt e 2 1, fence := bitOf (fieldAt e 3 1) 0, paramLen := fieldAt e 4 2, tag := fieldAt e 8 4
    rsvd := decide (fieldAt e 3 1 < 2) && fieldAt e 6 2 = 0 && fieldAt e 12 4 = 0 }

/-- R74: the entries that a command takes in the ring. DESIGN CHOICE (the manual does not say how many a command takes whose count is outside
1–4): one (log entry 27). -/
def CmdHead.taken (h : CmdHead) : Nat := if 1 ≤ h.entries && h.entries ≤ 4 then h.entries else 1

/-- R74: 48 parameter bytes stand in the first entry and 64 in each continuation, and at most 240 in all. -/
def CmdHead.lenOk (h : CmdHead) : Bool := h.paramLen ≤ 240 && h.entries = 1 + ceilDiv (h.paramLen - 48) 64

/-- R72, R74: the commands of the last `avail` entries of a ring are exposed, each with its own stamp, while they are complete. DESIGN CHOICE
(the manual does not say which of two doorbells that expose a command's entries stamps it): the one that completes it (log entry 27). -/
def exposeAll (m : Nat) : Nat → Nat → State → State
  | 0, avail, s => modMbx m (fun b => { b with partialEntries := avail }) s
  | fuel + 1, avail, s =>
    let b := mbxOf s m
    let h := headAt b (b.cmdTail + 2 ^ 32 - avail)
    if 1 ≤ avail && h.taken ≤ avail then
      let p := issueStamp s
      exposeAll m fuel (avail - h.taken)
        (modMbx m (fun b => { b with exposed := b.exposed ++ [⟨p.1, h.taken, h, restarting s⟩] }) p.2)
    else modMbx m (fun b => { b with partialEntries := avail }) s

/-- R65, R72: `n` further entries stand in the ring. -/
def expose (m n : Nat) (s : State) : State :=
  let avail := (mbxOf s m).partialEntries + n
  exposeAll m avail avail (modMbx m (fun b => { b with cmdTail := wrapAdd 32 b.cmdTail n }) s)

/-- The first command a mailbox has exposed is taken, if it has the opcode, and `MBX_CMD_HEAD` moves past it (R65). -/
def takeExposed (m op : Nat) (s : State) : Option (Exposed × State) :=
  match (mbxOf s m).exposed with
  | e :: r =>
    if e.head.opcode = op then
      some (e, modMbx m (fun b => { b with exposed := r, cmdHead := wrapAdd 32 b.cmdHead e.entries }) s)
    else none
  | [] => none

/-- A command that no doorbell row has exposed arrives, is stamped and is dispatched in one step. -/
def arrive (m : Nat) (s : State) : Stamp × State :=
  let p := issueStamp (takeInput (.message m) s)
  (p.1, modMbx m (fun b => { b with cmdTail := wrapAdd 32 b.cmdTail 1, cmdHead := wrapAdd 32 b.cmdHead 1 }) p.2)

/-- R58, R73, R74: dispatch must wait: the Square restarts, the response ring is full, or a fence and an earlier command without its final
response. -/
def mustWait (s : State) (m : Nat) (fence : Bool) : Bool :=
  restarting s || rspBlocked (mbxOf s m) || (fence && s.sq.work.any fun w => w.mb = m && !w.discard)

/-- R74: the fence of the next command of a mailbox: the one its ring holds, or the one that arrives. -/
def fenceOf (s : State) (m : Nat) (fence : Bool) : Bool := ((mbxOf s m).exposed.head?.map (·.head.fence)).getD fence

/-- The mailbox a header's command is served at. -/
def servedAt (s : State) (h : Hdr) : Option Nat :=
  if 25 ≤ h.mb && h.mb ≤ 28 then sideFor s h.endpoint
  else if h.mb ≤ 24 then some h.mb
  else none

/-- Write the first response of a command unless it is withheld, count a violation, and keep the work that owes a response. -/
def close (c : Call) (a : Ans) : State :=
  let acc := a.status = .accepted
  let s := if a.held then a.s else writeRsp c.mb (rspOf c a.status a.data (!acc) false) a.s
  let s := match a.work with
    | some (k, id) => { s with sq := { s.sq with work := s.sq.work ++
        [{ mb := c.mb, tag := c.tag, opcode := c.opcode, stamp := c.stamp, kind := k, id := id, late := c.late, first := a.held }] } }
    | none => s
  if a.viol then violation c.mb s else s

/-- R7, R79, R96, R112: the checks every command passes before its own meaning, in this order (log entry 8): the board controller alone,
SERVICE state, the form's length, reserved fields, confidentiality (R650: from any mailbox but the context's own), the mailbox's rights. -/
def precheck (h : Hdr) (p : Spec) (c : Call) (s : State) : Option Ans :=
  if boardAlone s && p.op ≠ 0x0200 then some (no s .badState)
  else if inService s && !serviceServes s c.mb p then some (no s .badState)
  else if !(h.lenOk && c.lenOk) then some ⟨s, .badLength, [], none, true, false⟩
  else if !(h.rsvdOk && c.rsvdOk) then some (badReserved s)
  else if confRefused s c.mb p then some (no s .confidential)
  else if !permitted s c.mb p then some (no s .denied)
  else none

/-- R80: the opcodes that the manual defines, as ranges. -/
def opcodes : List (Nat × Nat) :=
  [(0x0000, 0x0007), (0x0100, 0x0103), (0x0200, 0x0204), (0x0210, 0x0216), (0x0300, 0x0306), (0x0310, 0x0311), (0x0360, 0x0364),
   (0x0400, 0x0408), (0x0410, 0x0413), (0x0500, 0x0503), (0x0510, 0x0514), (0x0520, 0x0521), (0x0580, 0x0584), (0x0600, 0x0603),
   (0x0610, 0x0612), (0x0620, 0x0620), (0x0700, 0x070E), (0x0800, 0x0805), (0x0900, 0x0908), (0x0910, 0x0912), (0x0A00, 0x0A03),
   (0x0B00, 0x0B04), (0x0B10, 0x0B11), (0x0C00, 0x0C04), (0x0C10, 0x0C15), (0x0D00, 0x0D03)]

/-- R80: the opcode is known. -/
def opKnown (op : Nat) : Bool := opcodes.any fun r => r.1 ≤ op && op ≤ r.2

/-- R80, R96: the next command of a mailbox has an unknown opcode, or 0x00FF, and can be dispatched: it is answered BAD_OPCODE, which is a
violation. Where every such command is refused all the same (R112), it is answered BAD_STATE. -/
def refuseUnknown (m : Nat) : Nat → State → State
  | 0, s => s
  | fuel + 1, s =>
    match (mbxOf s m).exposed with
    | [] => s
    | e :: _ =>
      if opKnown e.head.opcode || !reachable s m || quarantined s m || resetting s m || mustWait s m e.head.fence then s
      else match takeExposed m e.head.opcode s with
        | none => s
        | some (e, s') =>
          let c : Call := ⟨m, e.head.tag, e.head.opcode, e.stamp, e.late, true, true⟩
          let a : Ans :=
            if boardAlone s' || (inService s' && !serviceServes s' m { op := e.head.opcode, who := whoAll }) then no s' .badState
            else ⟨s', .badOpcode, [], none, true, false⟩
          refuseUnknown m fuel (close c a)

/-- The commands with unknown opcodes that stand next in a mailbox. -/
def skipUnknown (m : Nat) (s : State) : State := refuseUnknown m (mbxOf s m).exposed.length s

/-- R63, R72: a transport writes command entries into the ring of its mailbox from `MBX_CMD_TAIL` onward, and they are exposed and stamped; what
has an unknown opcode is answered as soon as it stands next. Entries for which the ring has no room are not taken. -/
def takeEntries (m : Nat) (data : List Byte) (s : State) : State :=
  let b := mbxOf s m
  let n := ceilDiv data.length 64
  if n = 0 || 256 < (b.cmdTail + n + 2 ^ 32 - b.cmdHead) % 2 ^ 32 then s
  else skipUnknown m (expose m n (modMbx m (fun b => { b with ring := writeRing b.cmdTail data b.ring }) (takeInput (.message m) s)))

/-- R63, R77: what a sideband message does on arrival: its endpoint has sent, and the entries it brings stand in the ring, stamped, also
while the Square restarts (R60). -/
def sideMessage (m : Nat) (h : Hdr) (s : State) : State :=
  if 25 ≤ m then takeEntries m h.entries (modMbx m (fun b => { b with endpoint := some h.endpoint, lastMsg := now s }) s) else s

/-- Take a command from its mailbox, if it can be dispatched now: the next command of its ring (R65), or one that arrives where the ring holds
none. -/
def enter (h : Hdr) (op : Nat) (s : State) : State × Option Call :=
  match servedAt s h with
  | none => (s, none)
  | some m =>
    if !reachable s m || quarantined s m || resetting s m then (s, none)
    else
      let s := sideMessage m h s
      if mustWait s m (fenceOf s m h.fence) then (s, none)
      else match takeExposed m op s with
      | some (e, s') => (s', some ⟨m, e.head.tag, op, e.stamp, e.late, e.head.lenOk, e.head.rsvd⟩)
      | none =>
        if (17 ≤ m && m ≤ 24) || !(mbxOf s m).exposed.isEmpty || !h.entries.isEmpty then (s, none)
        else if ideRefused s m h.ideT then (countIdeDrop s, none)
        else
          let p := arrive m s
          (p.2, some ⟨m, h.tag, op, p.1, false, true, true⟩)

/-- R59, R74, R75: end the oldest accepted work of a kind and number with a status; nothing when there is none. What a fence held back
behind it and no opcode names is answered. -/
def finish (k : WorkKind) (id : Nat) (st : Status) (d : List Fld) (s : State) : State :=
  match takeFirst (fun w => w.kind = k && w.id = id) s.sq.work with
  | some (w, rest) => skipUnknown w.mb (finishWork w st d { s with sq := { s.sq with work := rest } })
  | none => s

/-- R96: the same, where the answer may be BAD_ARG for a reserved field of a record that is not zero: that is a violation of its mailbox. -/
def finishBad (viol : Bool) (k : WorkKind) (id : Nat) (st : Status) (d : List Fld) (s : State) : State :=
  match s.sq.work.find? fun w => w.kind = k && w.id = id with
  | some w =>
    let s := finish k id st d s
    if viol && !w.discard then violation w.mb s else s
  | none => s

/-- A dispatched command is answered; commands with unknown opcodes that stand behind it are answered in turn. -/
def answered (c : Call) (a : Ans) : State := skipUnknown c.mb (close c a)

/-- The meaning of a mailbox command: time passes, the command is taken from its mailbox, checked, and answered.
When it cannot be dispatched now, only time passes (or the entry is lost, as R97 and R76 say). -/
def command (h : Hdr) (p : Spec) (body : Call → State → Ans) (s : State) : State :=
  let s := advance h.dt s
  match enter h p.op s with
  | (s, none) => s
  | (s, some c) =>
    match precheck h p c s with
    | some a => answered c a
    | none => answered c (body c s)

/-- An event of the module: time passes, then the event acts. -/
def event (dt : Nat) (body : State → State) (s : State) : State := body (advance dt s)

/-! ### Staging -/

/-- R86: a staged command writes only the staged set, from the holder of a quiesced function. -/
def stage (fid : Nat) (x : Staged) (c : Call) (s : State) : Ans :=
  let f := funcOf s fid
  if f.state = .running || f.state = .stopping || f.state = .starting then no s .badState
  else if f.holder ≠ some c.mb then no s .busy
  else ok (modFunc fid (fun f => { f with staged := f.staged ++ [x] }) s)

/-- A fresh identifier for a run, a chain, a snapshot or another piece of accepted work. -/
def freshId (s : State) : Nat × State := (s.sq.nextId, { s with sq := { s.sq with nextId := s.sq.nextId + 1 } })

/-! ### ALERT_N -/

/-- R738, R741: a cause asserts ALERT_N; the pin's assertion raises an in-band interrupt while ENEC enables it. -/
def raiseAlert (a : Alert) (s : State) : State :=
  if s.tray.alerts.contains a then s
  else { s with tray := { s.tray with
    alerts := s.tray.alerts ++ [a]
    ibis := if s.tray.alerts.isEmpty && s.tray.ibiEnabled then s.tray.ibis + 1 else s.tray.ibis } }

/-- R738: a cause ends; ALERT_N deasserts when none holds. -/
def clearAlert (a : Alert) (s : State) : State :=
  { s with tray := { s.tray with alerts := s.tray.alerts.filter (· ≠ a) } }

/-- R110, R60, R762: enter SERVICE state; an activation in progress ends there (R114). -/
def enterService (cause failed : Nat) (s : State) : State :=
  raiseAlert .service { s with boot :=
    { s.boot with phase := .service, running := false, serviceCause := cause, failedStep := failed, walk := none } }

end Sys2Proof.Machine
end

