-- ==== Sys2Proof/Machine/Boot.lean ====
section
/-! DEFINITION. Start-up, the boot journal, module restart, and the firmware slots (chapter 04, R732–R748). -/
namespace Sys2Proof.Machine

/-! ### Host writes, flushes and loss of power -/

/-- Write to a host bus address: a posted write, logged in order (newest first). -/
def hostWrite (addr : Nat) (d : List Fld) (s : State) : State := { s with hostWrites := ⟨addr, d⟩ :: s.hostWrites }

/-- R720, R721: a flush ends: its records take their places in the flash log, and what R719 names is saved. A record
that finds no place is counted as lost. -/
def flushDone (s : State) : State :=
  match s.rec_.flushing with
  | none => s
  | some n =>
    if s.rec_.flashFail then { s with rec_ := { s.rec_ with flushing := none } }
    else
      let out := (s.rec_.ram.take n).foldl (fun (acc : List EvRec × RecSt) r =>
        match placeRec 4128768 r acc.1 with
        | some l => (l, acc.2)
        | none => (acc.1, loseRec r.sev acc.2)) (s.nv.flash, s.rec_)
      let p := issueStamp s
      let s := p.2
      let q := { out.2 with ram := s.rec_.ram.drop n, flushing := none, lastFlush := p.1.ns }
      let q := match q.freeze with
        | some f => if f.started then q else { q with freeze := some { f with started := true, until_ := now s + f.period } }
        | none => q
      { s with rec_ := q
               nv := { s.nv with flash := out.1, savedLost := q.lost, savedOpSeconds := opSeconds s, savedStamp := stampMax s.nv.savedStamp p.1 } }

/-- R594 step 3, R723: the final flush of a shutdown ends a freeze first. -/
def finalFlush (s : State) : State := flushDone (startFlush (endFreezeEarly s))

/-- The module without die power: what survives is non-volatile state, the tray's pins and straps, the model's own
clock and logs, and the queue. `powerOff` does not count a power cycle; the next boot does. -/
def powerOff (s : State) : State :=
  { State.reset with
    time := { up := s.time.up }
    nv := s.nv
    tray := { s.tray with pwrGood := false, linkUp := false, sriov := false, ppsPulse := 0
                          alerts := s.tray.alerts.filter (· = .leak) }
    pwr := { cool := { leak := s.pwr.cool.leak, moist := s.pwr.cool.moist } }
    boot := { opBase := s.nv.savedOpSeconds, poweredAt := s.time.up }
    hostWrites := s.hostWrites
    free := s.free
    pending := s.pending }

/-! ### The steps -/

/-- R99: the conditions for a boot. -/
def bootConditions (s : State) : Bool := s.tray.inputGood && s.tray.pwrEn && s.tray.latch

/-- R101: the mandatory steps. -/
def mandatory (k : Nat) : Bool := k ∈ [1, 2, 3, 4, 5, 7, 18]

/-- R103: how many items a step works on. -/
def stepItems (k : Nat) : Nat :=
  match k with
  | 9 => 16
  | 10 => 16
  | 11 => 16
  | 12 => 63
  | 15 => 5
  | 17 => 6
  | _ => 1

/-- R103: the last rung of a step. -/
def lastRung (k : Nat) : Nat :=
  match k with
  | 6 => 1
  | 8 => 1
  | 9 => 3
  | 10 => 2
  | 11 => 1
  | 12 => 1
  | 13 => 2
  | 14 => 3
  | 15 => 2
  | 16 => 1
  | 17 => 1
  | _ => 0

/-- R103, R763: the steps whose last rung leaves the item out. -/
def excludes (k : Nat) : Bool := k ∈ [9, 10, 11, 12, 15, 17]

/-- R115: the item class of a step's records. -/
def itemClass (k : Nat) : Nat :=
  match k with
  | 6 => 6
  | 9 => 1
  | 10 => 1
  | 11 => 2
  | 12 => 3
  | 15 => 4
  | 17 => 5
  | _ => 0

/-- R117: a journal record that the module uses. -/
def validRec (r : JRec) : Bool := r.authed && !r.bad

/-- R106: a clearing applies to an item. -/
def Cleared.names (c : Cleared) (key : Nat) : Bool := c.item.elim true (· = key)

/-- R104, R106, R117: the valid records of an item that the earlier boots have left, but for those that `BOOT_CLEAR_HISTORY` has set aside
in an earlier boot. -/
def itemRecords (s : State) (k i : Nat) : List JRec :=
  s.nv.journal.filter fun r => validRec r && r.step = k && r.item = i && r.powerCycle < s.nv.powerCycle
    && !s.nv.cleared.any fun c => c.names (itemKey k i) && c.cycle < s.nv.powerCycle && r.powerCycle ≤ c.cycle

/-- R104: the last record of each boot, newest boot first. -/
def lastOfBoots (l : List JRec) : List JRec :=
  l.foldl (fun a r => match a with
    | b :: rest => if b.powerCycle = r.powerCycle then r :: rest else r :: b :: rest
    | [] => [r]) []

/-- R105: the record says that the item passed at a rung. -/
def passedAt (rung : Nat) (r : JRec) : Bool := r.rung = rung && (r.result = 0 || r.result = 1 || r.result = 4)

/-- R104, R105: the rung that the journal keeps for an item, and in how many boots it has last passed at it. -/
def keptRung (s : State) (k i : Nat) : Nat × Nat :=
  let l := lastOfBoots (itemRecords s k i)
  let rung := l.head?.elim 0 (·.rung)
  (rung, (l.takeWhile (passedAt rung)).length)

/-- R104, R105: the rung at which an item starts: the one the journal keeps, or one nearer rung 0 after 16 passes.
`next_boot` raises the rung of MEM_TEST (R266).
FW_VERIFY starts with the boot slot, which is the slot that passed last (R135, R761), and MESH_TEST at rung 2 tries its levels again
(R763; log entry 13). -/
def startRung (s : State) (k i : Nat) : Nat :=
  let r := keptRung s k i
  let kept := if 16 ≤ r.2 && r.1 ≠ 0 && !(excludes k && r.1 = lastRung k) then r.1 - 1 else r.1
  if k = 6 then 0
  else if k = 10 && tget s.nv.nextBoot i 0 = 2 then 2
  else if k = 10 && tget s.nv.nextBoot i 0 = 1 then max kept 1
  else if k = 13 then min kept 1
  else kept

/-- What must have ended before a step starts: steps 1–8 in order, then the five tracks, then 18–20. -/
def stepNeeds (k : Nat) : List Nat :=
  match k with
  | 1 => []
  | 10 => [9]
  | 11 => [10]
  | 13 => [12]
  | 16 => [15]
  | 18 => [11, 13, 14, 15, 17]
  | 19 => [18]
  | 20 => [19]
  | k => if k ≤ 8 then [k - 1] else [8]

def modItem (k i : Nat) (f : ItemProgress → ItemProgress) (s : State) : State :=
  { s with boot := { s.boot with items := tmod s.boot.items (itemKey k i) {} f } }

/-- R115: write a journal record; it waits in Square SRAM until SECURITY_INIT has derived the key (R117). -/
def journal (k result attempt rung cls item code dur detail : Nat) (s : State) : State :=
  let p := if (itemOf s 8 0).passed then issueStamp s else (⟨0, 0⟩, s)
  let r : JRec :=
    { step := k, result := result, attempt := attempt, rung := rung, itemClass := cls, item := item,
      powerCycle := s.nv.powerCycle, opSeconds := opSeconds s, stamp := p.1, code := code, duration := min dur 0xFFFFFFFF,
      detail := detail, seq := s.nv.journalSeq, authed := true }
  let s := { p.2 with nv := { p.2.nv with journalSeq := p.2.nv.journalSeq + 1 } }
  if s.boot.ended.contains 18 then
    { s with nv := { s.nv with journal := (s.nv.journal ++ [r]).drop (s.nv.journal.length + 1 - 65536) } }
  else { s with boot := { s.boot with journalHeld := s.boot.journalHeld ++ [r] } }

/-- R117: the records that waited are written, with their auth or with auth zero. -/
def releaseJournal (auth : Bool) (s : State) : State :=
  let l := s.nv.journal ++ s.boot.journalHeld.map fun r => { r with authed := auth }
  { s with nv := { s.nv with journal := l.drop (l.length - 65536) }, boot := { s.boot with journalHeld := [] } }

/-- R115: the step-specific detail of a record, where it is one of the values that the layout names: data rate in MT/s, pace level found,
link width and speed in GT/s, lane rate in Mb/s, slot and set version. DESIGN CHOICE (the manual gives neither the units of these values
nor their places in the field, and no value for a rung that leaves the item out): these units, the second value from bit 16 on, and 0
there; other steps' details are the attempt's own (log entry 13). -/
def stepDetail (k rung slot detail : Nat) (s : State) : Nat :=
  match k with
  | 5 => slot + 2 ^ 16 * (s.nv.slots.getD slot {}).manifest.setVersion
  | 6 => slot + 2 ^ 16 * (s.nv.slots.getD slot {}).manifest.setVersion
  | 9 => if rung < 2 then 8533 else if rung = 2 then 6400 else 0
  | 13 => if rung = 0 then 31 else if rung = 1 then (itemOf s 13 0).level else 0
  | 14 => match rung with
    | 0 => 16 + 2 ^ 16 * 32
    | 1 => 16 + 2 ^ 16 * 16
    | 2 => 8 + 2 ^ 16 * 16
    | _ => 4 + 2 ^ 16 * 8
  | 15 => if rung = 0 then 106250 else if rung = 1 then 53125 else 0
  | _ => detail

/-- MEM_TEST leaves out a group that MEM_TRAIN excluded; its yard is still tested, for it may run SLAB_ONLY (R257). -/
def leftOut (s : State) (k i : Nat) : Bool :=
  k = 10 && (itemOf s 9 i).excluded

/-- R86, R104: a step starts: every item takes its starting rung, and an item at its exclusion rung is left out and
journalled only (R763). PTP_LOCK at rung 1 is not waited for (R116). -/
def startStep (k : Nat) (s : State) : State :=
  let s := { s with boot := { s.boot with step := k, started := k :: s.boot.started, attempts := 0 } }
  foldN (stepItems k) (fun i s =>
    let r := startRung s k i
    if mandatory k || k = 20 || k = 19 then s
    else if leftOut s k i then modItem k i (fun p => { p with rung := r, settled := true, excluded := true }) s
    else if excludes k && r = lastRung k then
      journal k 3 1 r (itemClass k) i 0 0 (stepDetail k r 0 0 s)
        (modItem k i (fun p => { p with rung := r, attempts := 1, settled := true, excluded := true }) s)
    else if k = 16 && r = 1 then
      let s := { s with time := { s.time with freeRun := true } }
      journal 16 4 1 1 0 i 0 0 0 (modItem k i (fun p => { p with rung := 1, attempts := 1, settled := true, passed := true }) s)
    else modItem k i (fun p => { p with rung := r }) s)
    s

/-- R106, R120: a boot begins without the training parameters of what the boot before it has cleared. -/
def dropCleared (s : State) : State :=
  let l := s.nv.cleared.filter fun c => c.cycle + 1 = s.nv.powerCycle
  let keep (t : Tab (Option Nat)) : Tab (Option Nat) := t.filter fun x => !l.any fun c => c.names (itemKey 9 x.1)
  { s with nv := { s.nv with params := keep s.nv.params, params6400 := keep s.nv.params6400 } }

/-- R266: `next_boot` is used up once MEM_TEST has started. -/
def clearNextBoot (k : Nat) (s : State) : State := if k = 10 then { s with nv := { s.nv with nextBoot := [] } } else s

/-- A step has ended when all its items are settled; a mandatory step, CAL_LOAD and READY end on their own. -/
def itemsSettled (s : State) (k : Nat) : Bool :=
  !mandatory k && k ≠ 19 && k ≠ 20 && (List.range (stepItems k)).all fun i => (itemOf s k i).settled

/-- Mark a step as ended. -/
def endStep (k : Nat) (s : State) : State := { s with boot := { s.boot with ended := k :: s.boot.ended } }

/-- Start the steps that can start, and end those whose items are settled. -/
def bootProgress : Nat → State → State
  | 0, s => s
  | n + 1, s =>
    if !s.boot.running then s
    else match (List.range 21).find? fun k =>
        1 ≤ k && !s.boot.started.contains k && (stepNeeds k).all s.boot.ended.contains with
      | some k => bootProgress n (clearNextBoot k (startStep k s))
      | none =>
        match (List.range 21).find? fun k =>
            s.boot.started.contains k && !s.boot.ended.contains k && itemsSettled s k with
        | some k => bootProgress n (endStep k s)
        | none => s

/-- R99, R100, R738: a boot starts: a new power cycle, DRAIN_OK deasserted, the start record, and step 1. -/
def startBoot (s : State) : State :=
  let s := { s with
    nv := { s.nv with powerCycle := s.nv.powerCycle + 1 }
    tray := { s.tray with drainOk := false, thermTrip := false }
    boot := { s.boot with running := true, phase := .booting } }
  bootProgress 64 (journal 0xFE 0 1 0 0 0 0 0 0 (dropCleared s))

/-- R99: start the boot when its conditions hold and the die has no power yet. -/
def tryBoot (s : State) : State :=
  if bootConditions s && !s.boot.running && s.boot.phase = .booting && s.boot.started.isEmpty then startBoot s else s

/-- R99: the boot ends when one of its conditions does: die power is removed in order. -/
def endBoot (s : State) : State :=
  if s.boot.running && s.boot.phase = .booting && !bootConditions s then powerOff (finalFlush s) else s

/-- R100: a module restart: rails are removed in order with the recorder's final flush (log entry 13), and the module
boots again. -/
def moduleRestart (s : State) : State := tryBoot (powerOff (finalFlush s))

/-! ### Slots and signed records -/

/-- R136: the code of a slot state. -/
def slotCode : SlotState → Nat
  | .empty => 0
  | .writing => 1
  | .valid => 2
  | .trial => 3
  | .confirmed => 4
  | .failed => 5

/-- The slot state of a code. -/
def slotStateOf : Nat → SlotState
  | 0 => .empty
  | 1 => .writing
  | 2 => .valid
  | 3 => .trial
  | 4 => .confirmed
  | _ => .failed

def slotOf (s : State) (i : Nat) : Slot := s.nv.slots.getD i {}

def modSlot (i : Nat) (f : Slot → Slot) (s : State) : State :=
  { s with nv := { s.nv with slots := s.nv.slots.modify i f } }

/-- R119: a setting takes the value of the record in use, or its default. -/
def applySetting (k : Setting) (v : Option Nat) (s : State) : State :=
  match k with
  | .moduleNumber => { s with nv := { s.nv with moduleNumber := v } }
  | .manager => { s with nv := { s.nv with manager := v } }
  | .localCap => { s with nv := { s.nv with localCap := v } }
  | .loneCap => { s with nv := { s.nv with loneCap := v } }
  | .ceiling => { s with nv := { s.nv with ceiling := v } }
  | .bootSlot => { s with nv := { s.nv with bootSlot := v.getD 0 } }
  | .lastActivated => { s with nv := { s.nv with lastActivated := v.getD 0 } }
  | .trialNext => { s with nv := { s.nv with trialNext := if v.getD 0 = 0 then none else some (v.getD 0 - 1) } }
  | .secFloor => { s with nv := { s.nv with secFloor := v.getD (s.nv.factoryFloor.getD 0) } }
  | .slotState i => modSlot i (fun x => { x with state := v.elim (s.nv.ordering.slots.getD i {}).state slotStateOf }) s
  | .scrub g => { s with nv := { s.nv with scrubHours := v.elim (tdel s.nv.scrubHours g) (tset s.nv.scrubHours g) } }

/-- R118: a setting is written in a LOCAL record. -/
def setLocal (k : Setting) (v : Nat) (s : State) : State :=
  applySetting k (some v) { s with nv := { s.nv with
    locals := ⟨k, s.nv.localSeq, v, false⟩ :: s.nv.locals, localSeq := s.nv.localSeq + 1 } }

/-- R119: the value of the valid LOCAL record of a type with the highest sequence number. -/
def localOf (s : State) (k : Setting) : Option Nat := (s.nv.locals.find? fun r => r.key = k && !r.bad).map (·.value)

/-- A slot takes a state (R118), with a change of the rest. -/
def markSlot (i : Nat) (st : SlotState) (f : Slot → Slot) (s : State) : State := setLocal (.slotState i) (slotCode st) (modSlot i f s)

/-- The other slot. -/
def otherSlot (i : Nat) : Nat := if i = 0 then 1 else 0

/-- R135, R137: a slot that SLOT_SELECT can boot. -/
def bootable (x : SlotState) : Bool := x = .valid || x = .trial || x = .confirmed

/-- R134: a slot that three boots have run in trial without confirmation is FAILED. -/
def endLongTrial (i : Nat) (s : State) : State :=
  if (slotOf s i).state = .trial && 3 ≤ (slotOf s i).trialBoots then markSlot i .failed id s else s

/-- R136: the slot that FW_SELECT_BOOT named enters its trial at this boot, if it can be booted; it does so at no later one. -/
def enterTrial (s : State) : State :=
  match s.nv.trialNext with
  | none => s
  | some i =>
    setLocal .trialNext 0
      (if i = s.nv.bootSlot && bootable (slotOf s i).state then markSlot i .trial (fun x => { x with trialBoots := 0 }) s else s)

/-- R134–R136, R761: choose the slot to boot, which becomes the boot slot. -/
def selectSlot (s : State) : State :=
  let b := s.nv.bootSlot
  let s := endLongTrial b (enterTrial s)
  if bootable (slotOf s b).state then { s with boot := { s.boot with runSlot := b } }
  else
    let s := setLocal .bootSlot (otherSlot b) (endLongTrial (otherSlot b) s)
    { s with boot := { s.boot with runSlot := otherSlot b } }

/-- R125, R133: a slot is confirmed: the floor rises to its security version and never falls. -/
def confirmSlot (i : Nat) (s : State) : State :=
  let s := markSlot i .confirmed (fun x => { x with trialBoots := 0 }) s
  setLocal .secFloor (max s.nv.secFloor (slotOf s i).manifest.secVersion) s

/-- The running slot is in trial. -/
def inTrial (s : State) : Bool := s.boot.trialEnd.isSome

/-- R132: the trial ends with the other slot as boot slot and a module restart. -/
def rollBack (s : State) : State :=
  let i := s.boot.runSlot
  let s := setLocal .bootSlot (otherSlot i) (markSlot i .failed id s)
  let s := { s with boot := { s.boot with trialEnd := none } }
  moduleRestart (record 0x2010 2 0 none false [⟨1, i⟩] s)

/-! ### READY and capacity -/

/-- The items of a step that are available, as a mask. -/
def availMask (s : State) (k : Nat) : Nat :=
  foldN (stepItems k) (fun i m => if (itemOf s k i).settled && !(itemOf s k i).excluded then m + 2 ^ i else m) 0

/-- R121, R109: compute the capacity: exactly the items that no step excluded. A group counts while MEM_TRAIN,
MEM_TEST and YARD_INIT all left it in; no block is assignable when MESH_TEST ended at rung 2; an edge unit without a yard counts as
absent. -/
def computeCapacity (s : State) : State :=
  let g := foldN 16 (fun i m =>
    if (itemOf s 9 i).excluded || (itemOf s 10 i).excluded || (itemOf s 11 i).excluded then m else m + 2 ^ i) 0
  let slow := foldN 16 (fun i m => if bitOf g i && (itemOf s 9 i).rung = 2 then m + 2 ^ i else m) 0
  let lane53 := foldN 5 (fun i m =>
    if attached s .net && (itemOf s 15 i).rung = 1 && !(itemOf s 15 i).excluded then m + 2 ^ i else m) 0
  let v := if attached s .video then availMask s 17 else 0
  { s with boot := { s.boot with
    capBlocks := if (itemOf s 13 0).rung = 2 then 0 else availMask s 12
    capGroups := g, groups6400 := slow, yards := availMask s 11
    laneGroups := if attached s .net then availMask s 15 else 0, lane53 := lane53, pcieRung := (itemOf s 14 0).rung
    decPipes := v % 16, encPipes := v / 16 % 4 } }

/-- R122: `BOOT_CAP_IO`. -/
def bootCapIo (s : State) : Nat :=
  let b := s.boot
  b.laneGroups + 2 ^ 8 * b.lane53 + 2 ^ 16 * b.pcieRung + 2 ^ 18 * bit s.tray.linkUp + 2 ^ 24 * b.decPipes
    + 2 ^ 28 * b.encPipes + 2 ^ 32 * b.meshCap + 2 ^ 40 * bit s.time.freeRun

/-- R122: the `BOOT_CAP_*` registers. -/
def bootCaps (s : State) : List Fld :=
  [⟨8, s.boot.capBlocks⟩, ⟨8, s.boot.capGroups + 2 ^ 16 * s.boot.groups6400⟩, ⟨8, bootCapIo s⟩,
   ⟨8, 4 * popCount s.boot.capBlocks 63⟩]

/-- R115: the capacity fields in the 16 bytes of a summary record: the blocks, then the groups, then the fields of `BOOT_CAP_IO` side by
side (log entry 13). -/
def capDetail (s : State) : Nat :=
  let b := s.boot
  let io := b.laneGroups + 2 ^ 5 * b.lane53 + 2 ^ 10 * b.pcieRung + 2 ^ 12 * bit s.tray.linkUp + 2 ^ 13 * b.decPipes + 2 ^ 17 * b.encPipes
    + 2 ^ 19 * b.meshCap + 2 ^ 24 * bit s.time.freeRun
  b.capBlocks + 2 ^ 64 * (b.capGroups + 2 ^ 16 * b.groups6400) + 2 ^ 96 * io

/-- R121, R548, R573: READY: the capacity, the summary record, recorder entry 0x2005 and a notification of class bit 1; the lone cap applies
and a pace group has not agreed. -/
def becomeReady (s : State) : State :=
  let s := computeCapacity s
  let s := journal 0xFF 0 1 0 0 0 0 0 (capDetail s) (endStep 20 s)
  let s := { s with
    boot := { s.boot with phase := .ready }
    pwr := { s.pwr with pace := { s.pwr.pace with lone := true, group := s.pwr.pace.group.map fun g => { g with agreed := false } } } }
  notify 1 0x2005 0 (record 0x2005 0 0 none false [⟨16, capDetail s⟩, ⟨2, 4 * popCount s.boot.capBlocks 63⟩] s)

/-! ### The end of an attempt -/

/-- R110, R113: the third failure of a mandatory step: SERVICE state with 0x2004, and the board controller alone for steps 1–3. The records
of a boot that ends before SECURITY_INIT are written with auth zero (R117), but not after a failure of FLASH (R762). -/
def mandatoryFailed (k : Nat) (s : State) : State :=
  let s := journal 0xFF 2 1 0 0 0 0x2004 0 (capDetail s) s
  let s := if k = 4 then s else releaseJournal false s
  record 0x2004 3 0 none false [⟨1, k⟩] (enterService 1 k { s with boot := { s.boot with boardOnly := decide (k ≤ 3) } })

/-- R136, R117: the failed attempts of each mandatory step in the last three boots, this one first: as many records say so, with auth or
with auth zero. -/
def failedAttempts (s : State) : List (List Nat) :=
  let l := (s.nv.journal ++ s.boot.journalHeld).filter fun r => !r.bad && r.result = 2
  (List.range 3).map fun n => [1, 2, 3, 4, 5, 7, 18].map fun k => (l.filter fun r => r.step = k && r.powerCycle + n = s.nv.powerCycle).length

/-- R118: the key that comes from the device secret for a purpose. -/
def derivedKey (purpose : Nat) : Nat := Config.deriveKey purpose Config.deviceSecret

/-- R118: the derived public key is the one in the identity certificate. -/
def identityChecks (s : State) : Bool := s.nv.identityKey = Config.publicKey (derivedKey 0)

/-- R118: PUF derives the device secret and the identity key. -/
def deriveIdentity (s : State) : State :=
  { s with boot := { s.boot with keys := { s.boot.keys with device := some Config.deviceSecret, identity := some (derivedKey 0) } } }

/-- R101, R118: SECURITY_INIT derives the record, journal and key-wrapping keys. -/
def deriveKeys (s : State) : State :=
  { s with boot := { s.boot with
    keys := { s.boot.keys with record := some (derivedKey 1), journal := some (derivedKey 2), wrap := some (derivedKey 3) } } }

/-- R111: SQ_SELFTEST passes with two cores; the third is left FENCED_HARD in pair mode. -/
def selfTested (e : BootEnd) (s : State) : State :=
  match (List.range 3).find? fun i => !bitOf e.cores i with
  | some i => record 0x1104 2 (i + 1) none false [⟨1, i⟩]
      { s with sq := { s.sq with cores := tset s.sq.cores i .fencedHard, mode := .pair } }
  | none => s

/-- R739: the board controller reads the straps at RAILS. -/
def readStraps (e : BootEnd) (s : State) : State :=
  { s with tray := { s.tray with slotId := e.slotId % 64, cabId := e.cabId % 16 }
           nv := { s.nv with lastRails := some (64 * (e.cabId % 16) + e.slotId % 64) } }

/-- R744, R754: a weak hold-up bank and an open leak trace are reported at RAILS. -/
def railsReports (e : BootEnd) (s : State) : State :=
  let s := if e.bankLow then
      notify 4 0xB130 0x8000 (record 0xB130 2 0x8000 none false [] { s with tray := { s.tray with bankLow := true } })
    else { s with tray := { s.tray with bankLow := false } }
  if e.leakOpen then notify 4 0xB140 0x8000 (record 0xB140 2 0x8000 none false [] s) else s

/-- R117: the journal records that do not check are ignored. -/
def journalChecked (e : BootEnd) (s : State) : State :=
  let s := { s with nv := { s.nv with
    journal := mapIf (fun r => e.badJournal.contains r.seq) (fun r => { r with bad := true }) s.nv.journal } }
  let s := { s with boot := { s.boot with history := s.nv.journal.any validRec } }
  e.badJournal.foldl (fun s _ => record 0x2020 2 0 none true [] s) s

/-- R119: the signed records that fail their check are ignored: each setting takes the value of the next record of its type. -/
def recordsChecked (e : BootEnd) (s : State) : State :=
  let lost := (s.nv.locals.filter fun r => e.badLocals.contains r.seq).map (·.key)
  let s := { s with nv := { s.nv with
    locals := mapIf (fun r => e.badLocals.contains r.seq) (fun r => { r with bad := true }) s.nv.locals
    factoryFloor := if e.badFloor then none else s.nv.factoryFloor
    factoryCal := s.nv.factoryCal && !e.badFactoryCal } }
  let keys := if e.badFloor then .secFloor :: lost else lost
  let s := keys.foldl (fun s k => applySetting k (localOf s k) s) s
  foldN (lost.length + bit e.badFloor + bit e.badFactoryCal) (fun _ s => record 0x2020 2 0 none true [] s) s

/-- R101: FW_LOAD loads the components of the slot that FW_VERIFY passed. -/
def loadFirmware (s : State) : State := { s with boot := { s.boot with running_ := (slotOf s s.boot.runSlot).manifest.comps } }

/-- What a mandatory step leaves when it passes. -/
def mandatoryPassed (e : BootEnd) (s : State) : State :=
  match e.step with
  | 1 => railsReports e (readStraps e { s with tray := { s.tray with pwrGood := true } })
  | 2 => selfTested e s
  | 3 => deriveIdentity s
  | 4 => recordsChecked e (journalChecked e s)
  | 5 => selectSlot s
  | 7 => loadFirmware s
  | 18 => releaseJournal true (deriveKeys s)
  | _ => s

/-- R110, R111, R118: an attempt of a mandatory step ends. -/
def mandatoryEnd (e : BootEnd) (s : State) : State :=
  let n := s.boot.attempts + 1
  let passes := e.ok && !(e.step = 2 && popCount e.cores 3 < 2) && (e.step ≠ 3 || identityChecks s)
  let s := { s with boot := { s.boot with attempts := n } }
  if passes then
    let d := if e.step = 5 then stepDetail 5 0 (selectSlot s).boot.runSlot 0 s else e.detail
    endStep e.step (mandatoryPassed e (journal e.step 0 n 0 0 0 0 e.durationUs d s))
  else
    let s := journal e.step 2 n 0 0 0 e.code e.durationUs e.detail s
    if 3 ≤ n then mandatoryFailed e.step s else s

/-- R763: the payload of 0x2002 and 0x2003. -/
def stepPayload (k i rung : Nat) : List Fld := [⟨1, k⟩, ⟨1, itemClass k⟩, ⟨2, i⟩, ⟨1, rung⟩]

/-- R103: the slot that an attempt of FW_VERIFY checks. -/
def slotTried (s : State) : Nat := if (itemOf s 6 0).rung = 0 then s.boot.runSlot else otherSlot s.boot.runSlot

/-- R115: the item number of an attempt's record; for FW_VERIFY the slot that it checks. -/
def itemNumber (e : BootEnd) (s : State) : Nat := if e.step = 6 then slotTried s else e.item

/-- R115: the detail of an attempt's record. -/
def attemptDetail (e : BootEnd) (rung : Nat) (s : State) : Nat := stepDetail e.step rung (itemNumber e s) e.detail s

/-- An item is settled at a rung, and journalled. -/
def settle (e : BootEnd) (rung : Nat) (result : Nat) (excl : Bool) (s : State) : State :=
  let p := itemOf s e.step e.item
  let passed := result = 0 || result = 1 || result = 4
  let s := journal e.step result (p.attempts + 1) rung (itemClass e.step) (itemNumber e s)
    (if result = 3 then (if e.step = 13 then 0x4201 else 0x2003) else if result = 2 then e.code else 0) e.durationUs
    (attemptDetail e rung s) s
  modItem e.step e.item (fun p =>
    { p with rung := rung, attempts := p.attempts + 1, settled := true, passed := passed, excluded := excl }) s

/-- R758: the largest stamp over the valid journal records and the recorder records in flash. -/
def largestStamp (s : State) : Stamp :=
  let a := (s.nv.journal.filter validRec).foldl (fun m r => stampMax m r.stamp) ⟨0, 0⟩
  s.nv.flash.foldl (fun m r => stampMax (stampMax m r.stamp) r.last) a

/-- R29, R758: TIME_INIT sets T by the rung that passed. L stays: the stamps of one power cycle only rise (R25). -/
def timeInit (rung : Nat) (s : State) : State :=
  let b := if rung = 0 then s.nv.savedStamp else largestStamp s
  { s with time := { s.time with t := if rung ≠ 0 && b = ⟨0, 0⟩ then 0 else b.ns + 1 } }

/-- R125, R135: FW_VERIFY passes a slot: it becomes the running slot; a boot from a slot in trial counts, and restarts its trial (R134). -/
def slotVerified (i : Nat) (s : State) : State :=
  let trial : Bool := (slotOf s i).state = .trial
  let s := if trial then modSlot i (fun x => { x with trialBoots := x.trialBoots + 1 }) s else s
  { s with boot := { s.boot with runSlot := i, trialEnd := if trial then some (now s + 600000000000) else none } }

/-- R128: the epoch under which training parameters are stored: that of the running MEMTRAIN. -/
def trainEpochNow (s : State) : Nat := (s.boot.running_.getD 1 noComponent).epoch

/-- R103, R120, R128: the stored training parameters of a group at a rate, which are absent when they carry another epoch. -/
def hasParams (s : State) (g : Nat) (slow : Bool) : Bool :=
  tget (if slow then s.nv.params6400 else s.nv.params) g none = some (trainEpochNow s)

/-- R120: a group's parameters are stored after full training. -/
def storeParams (g : Nat) (slow : Bool) (s : State) : State :=
  if slow then { s with nv := { s.nv with params6400 := tset s.nv.params6400 g (some (trainEpochNow s)) } }
  else { s with nv := { s.nv with params := tset s.nv.params g (some (trainEpochNow s)) } }

/-- What a non-mandatory step leaves when an item passes at a rung. -/
def itemPassed (e : BootEnd) (rung : Nat) (s : State) : State :=
  match e.step with
  | 6 => slotVerified (slotTried s) s
  | 8 => timeInit rung s
  | 9 => storeParams e.item (rung = 2) s
  | 13 => { s with boot := { s.boot with meshCap := if rung = 0 then 31 else (itemOf s 13 0).level } }
  | 14 => { s with tray := { s.tray with linkUp := !s.tray.perst && attached s .pcie } }
  | 16 => s
  | _ => s

/-- R762: both slots failed FW_VERIFY: the payload names each slot's set version and the check that it failed. -/
def bothSlotsFailed (e : BootEnd) (s : State) : State :=
  let check (i : Nat) : Nat := if i = s.boot.runSlot then (itemOf s 6 0).detail else e.detail
  record 0x2006 3 0 none false
    [⟨4, (slotOf s 0).manifest.setVersion⟩, ⟨2, check 0⟩, ⟨4, (slotOf s 1).manifest.setVersion⟩, ⟨2, check 1⟩]
    (enterService 2 0 (releaseJournal false (journal 0xFF 2 1 0 0 0 0x2006 0 (capDetail s) s)))

/-- R763: an attempt failed and another follows. -/
def tryNext (e : BootEnd) (rung : Nat) (f : ItemProgress → ItemProgress) (s : State) : State :=
  let p := itemOf s e.step e.item
  let n := itemNumber e s
  let s := journal e.step 2 (p.attempts + 1) p.rung (itemClass e.step) n 0x2002 e.durationUs (attemptDetail e p.rung s) s
  let s := modItem e.step e.item (fun p => f { p with attempts := p.attempts + 1, rung := rung, detail := e.detail }) s
  record 0x2002 1 0 none true (stepPayload e.step n rung) s

/-- R116: a failed attempt of an item after which no further one follows is journalled. -/
def failRecord (e : BootEnd) (s : State) : State :=
  let p := itemOf s e.step e.item
  modItem e.step e.item (fun p => { p with attempts := p.attempts + 1 })
    (journal e.step 2 (p.attempts + 1) p.rung (itemClass e.step) (itemNumber e s) e.code e.durationUs (attemptDetail e p.rung s) s)

/-- R103, R107, R108, R116: an attempt of a non-mandatory step failed. -/
def itemFailed (e : BootEnd) (s : State) : State :=
  let p := itemOf s e.step e.item
  let k := e.step
  if k = 6 then
    let s := markSlot (slotTried s) .failed id s
    if p.rung = 0 then tryNext e 1 id s else bothSlotsFailed e (failRecord e s)
  else if k = 8 then
    if p.rung = 0 then tryNext e 1 id s else settle e 1 2 false s
  else if k = 9 && p.rung = 2 && hasParams s e.item true && !p.retrained then
    tryNext e 2 (fun p => { p with retrained := true }) s
  else if k = 13 then
    if p.rung = 0 then tryNext e 1 (fun p => { p with level := 30 }) s
    else if 0 < p.level then tryNext e 1 (fun p => { p with level := p.level - 1 }) s
    else record 0x4201 3 0 none false (stepPayload 13 0 2) (settle e 2 3 true (failRecord e s))
  else if k = 14 && 3 ≤ p.rung then
    record 0x2003 2 0 none false (stepPayload 14 0 3) (settle e 3 2 false s)
  else if k = 16 then
    let s := failRecord e s
    record 0x2002 1 0 none true (stepPayload 16 0 1)
      (settle e 1 4 false { s with time := { s.time with freeRun := true } })
  else if excludes k && p.rung + 1 = lastRung k then
    record 0x2003 2 0 none false (stepPayload k e.item (lastRung k)) (settle e (lastRung k) 3 true (failRecord e s))
  else if k = 19 then
    endStep 19 (journal 19 2 1 0 0 0 e.code e.durationUs e.detail { s with nv := { s.nv with calValid := false } })
  else tryNext e (p.rung + 1) id s

/-- A slot passes FW_VERIFY only at or above the security-version floor (R125); one without a set, or half written, does not (R135,
R137). PTP_LOCK passes with the lock that R33 describes (R101). -/
def attemptOk (e : BootEnd) (s : State) : Bool :=
  let x := slotOf s (slotTried s)
  e.ok && !(e.step = 6 && (x.manifest.secVersion < s.nv.secFloor || x.state = .empty || x.state = .writing))
    && !(e.step = 16 && s.time.sync ≠ .locked)

/-- An attempt of a non-mandatory step ends. -/
def itemEnd (e : BootEnd) (s : State) : State :=
  let p := itemOf s e.step e.item
  if attemptOk e s then
    if e.step = 19 then
      endStep 19 (journal 19 0 1 0 0 0 0 e.durationUs e.detail { s with nv := { s.nv with calValid := true } })
    else itemPassed e p.rung (settle e p.rung (if p.rung = 0 then 0 else 1) false s)
  else itemFailed e s

/-- The boot has such an attempt in progress. -/
def attemptOpen (e : BootEnd) (s : State) : Bool :=
  s.boot.running && s.boot.started.contains e.step && !s.boot.ended.contains e.step
    && e.item < stepItems e.step && !(itemOf s e.step e.item).settled

/-- R762: in SERVICE state the service monitor trains the PCIe link for PF0 at rung 0. -/
def monitorTrains (e : BootEnd) (s : State) : Bool :=
  s.boot.phase = .service && !s.boot.boardOnly && (s.boot.serviceCause = 1 || s.boot.serviceCause = 2) && e.step = 14
    && !(itemOf s 14 0).passed

/-- R762: the monitor's training ends; mailbox 0 is exposed once the link is up. -/
def monitorEnd (e : BootEnd) (s : State) : State :=
  if e.ok then itemPassed e 0 (modItem 14 0 (fun p => { p with rung := 0, settled := true, passed := true }) s) else s

/-- R747 step 5: PCIE_LINK waits for PERST_N to deassert. -/
def linkHeld (e : BootEnd) (s : State) : Bool := e.step = 14 && s.tray.perst

/-- R109: the PCIe link is gone with the last of the endpoint's yards. -/
def dropLostLink (s : State) : State :=
  if attached s .pcie then s else { s with tray := { s.tray with linkUp := false, sriov := false } }

/-- R101–R121: an attempt of a start-up step ends. -/
def execBootStepEnd (dt : Nat) (e : BootEnd) (s : State) : Host.Outcome State Fault Refusal :=
  .next (event dt (fun s =>
    if monitorTrains e s && !linkHeld e s then monitorEnd e s
    else if !attemptOpen e s || linkHeld e s then s
    else
      let s := if mandatory e.step then mandatoryEnd e s
        else if e.step = 20 then becomeReady s
        else itemEnd e s
      if s.boot.phase = .service then s else dropLostLink (bootProgress 64 s)) s)

/-! ### Pins and power -/

/-- R747 step 1: the input reaches 36 V: keep-alive starts and the straps are read; a change since the last RAILS is
ignored until the next boot and makes 0xB110 (R739). -/
def execKeepAliveStart (dt slotId cabId : Nat) (s : State) : Host.Outcome State Fault Refusal :=
  .next (event dt (fun s =>
    let read := 64 * (cabId % 16) + slotId % 64
    let s := { s with tray := { s.tray with keepAlive := true } }
    match s.nv.lastRails with
    | some v =>
      let s := { s with tray := { s.tray with slotId := v % 64, cabId := v / 64 } }
      if v = read then s else record 0xB110 1 0x8000 none false [⟨2, read⟩] s
    | none => { s with tray := { s.tray with slotId := slotId % 64, cabId := cabId % 16 } }) s)

/-- R99, R747: PWR_EN asserts; the input is in 44–60 V or not, as the board controller sees it. -/
def execPwrEnAssert (dt : Nat) (inputGood : Bool) (s : State) : Host.Outcome State Fault Refusal :=
  .next (event dt (fun s => tryBoot { s with tray := { s.tray with pwrEn := true, inputGood := inputGood } }) s)

/-- R99: TRAY_LATCH_N asserts. -/
def execTrayLatchAssert (dt : Nat) (inputGood : Bool) (s : State) : Host.Outcome State Fault Refusal :=
  .next (event dt (fun s => tryBoot { s with tray := { s.tray with latch := true, inputGood := inputGood } }) s)

/-- R593, R594, R691: an ordered shutdown: 0x8503 is written in the final flush, with the stamp of R29, and every rail is
removed. -/
def orderedShutdown (s : State) : State :=
  if !s.boot.running then { s with tray := { s.tray with pwrGood := false } }
  else powerOff (finalFlush (addRec 0x8503 3 0x8000 none false [] s))

/-- R99, R593: PWR_EN deasserts: an ordered shutdown. -/
def execPwrEnDeassert (dt : Nat) (s : State) : Host.Outcome State Fault Refusal :=
  .next (event dt (fun s =>
    let s := { s with tray := { s.tray with pwrEn := false } }
    if s.boot.running || s.boot.phase ≠ .booting then orderedShutdown { s with boot := { s.boot with running := true } }
    else s) s)

/-- What a configuration request is answered with (R102). -/
inductive ConfigAnswer where
  | success | retry | none
  deriving DecidableEq, Repr, Inhabited

/-- R102: a configuration request to PF0 (0) or a VF (1–16), after FW_LOAD has passed. DESIGN CHOICE (R102 names no answer for a VF in a
SERVICE state that follows READY): Request Retry Status (log entry 13). -/
def configAnswer (s : State) (fn : Nat) : ConfigAnswer :=
  if !s.boot.ended.contains 7 && s.boot.phase ≠ .service then .none
  else if fn = 0 then if s.tray.linkUp then .success else .retry
  else if s.boot.phase = .ready || s.boot.phase = .activating then .success else .retry

/-- R102, R748: a configuration request; one to PF0 that is answered may enable SR-IOV or disable it. -/
def execConfigRequest (dt fn : Nat) (sriov : Option Bool) (s : State) : Host.Outcome State Fault Refusal :=
  .next (event dt (fun s =>
    match configAnswer s fn, fn, sriov with
    | .success, 0, some b => { s with tray := { s.tray with sriov := b, lastConfig := 1 } }
    | .success, _, _ => { s with tray := { s.tray with lastConfig := 1 } }
    | .retry, _, _ => { s with tray := { s.tray with lastConfig := 2 } }
    | .none, _, _ => { s with tray := { s.tray with lastConfig := 0 } }) s)

/-! ### Boot and firmware commands (R136) -/

/-- R136: the commands that need module flash fail after a third failure of FLASH. -/
def needFlash (f : Call → State → Ans) (c : Call) (s : State) : Ans :=
  if s.boot.phase = .service && s.boot.failedStep = 4 then no s .faulted else f c s

/-- R137: a firmware command is refused with BUSY while FW_ACTIVATE is in progress. -/
def fwCommand (f : Call → State → Ans) : Call → State → Ans :=
  needFlash fun c s => if s.boot.walk.isSome then no s .busy else f c s

/-- R123: the code of a phase. -/
def phaseCode : BootPhase → Nat
  | .booting => 0
  | .ready => 1
  | .service => 2
  | .activating => 3

/-- Seconds left of a period, rounded up. -/
def secondsLeft (t now : Nat) : Nat := ceilDiv (t - now) 1000000000

/-- R120: a module default is in force: a group without training parameters of its rate, the estimator before its first calibration, the
thermal model before its inlet readings settle, calibration after a failed CAL_LOAD, or a pace group without agreement. -/
def firstUse (s : State) : Bool :=
  !s.boot.started.isEmpty &&
    ((List.range 16).any (fun g => !(itemOf s 9 g).excluded && !hasParams s g ((itemOf s 9 g).rung = 2))
      || !s.pwr.pace.calibrated || !s.pwr.cool.settled || !s.nv.calValid || s.pwr.pace.group.any fun g => !g.agreed)

/-- R123: `BOOT_STATE`. -/
def bootState (s : State) : Nat :=
  let b := s.boot
  b.step + 2 ^ 5 * phaseCode b.phase + 2 ^ 8 * b.runSlot + 2 ^ 9 * bit (inTrial s)
    + 2 ^ 10 * bit (b.ended.contains 5 && b.runSlot ≠ s.nv.lastActivated)
    + 2 ^ 11 * bit (firstUse s) + 2 ^ 12 * bit b.history + 2 ^ 16 * b.serviceCause + 2 ^ 24 * b.failedStep
    + 2 ^ 32 * (match b.trialEnd with
      | some t => secondsLeft t (now s)
      | none => 0)

/-- R136: `BOOT_GET_STATE`: `BOOT_STATE` and the failed attempts of each mandatory step in the last three boots. -/
def bootGetData (s : State) : List Fld :=
  ⟨8, bootState s⟩ :: (failedAttempts s).flatMap fun l => l.map fun n => ⟨1, n⟩

def execBootGetState (h : Hdr) (s : State) : Host.Outcome State Fault Refusal :=
  .next (command h { op := 0x0200, who := who0Side, reads := true }
    (fun _ s => okData s (bootGetData s)) s)

/-- The rungs of every item, in the order of the steps. -/
def rungData (s : State) : List Fld :=
  (List.range 21).flatMap fun k =>
    if mandatory k || k = 0 || 19 ≤ k then []
    else (List.range (stepItems k)).map fun i => ⟨1, (itemOf s k i).rung⟩

/-- R136: `BOOT_GET_CAPACITY`. -/
def execBootGetCapacity (h : Hdr) (s : State) : Host.Outcome State Fault Refusal :=
  .next (command h { op := 0x0201, who := who0Side, reads := true }
    (fun _ s => okData s (bootCaps s ++ rungData s)) s)

/-- HMAC-SM3 (R115, R118): the key fills one block of 64 bytes. -/
def hmacSm3 (key : Nat) (m : List Byte) : List Byte :=
  let pad (x : Byte) : List Byte := (leBytes 64 key).map (· ^^^ x)
  leBytes 32 (Config.sm3 (pad 0x5C ++ leBytes 32 (Config.sm3 (pad 0x36 ++ m))))

/-- R115: a journal record as its fields; auth is the first 8 bytes of its HMAC-SM3 under the journal key, or zero. -/
def jrecData (r : JRec) : List Fld :=
  let f : List Fld := [⟨1, r.step⟩, ⟨1, r.result⟩, ⟨1, r.attempt⟩, ⟨1, r.rung⟩, ⟨1, r.itemClass⟩, ⟨1, 0⟩, ⟨2, r.item⟩,
    ⟨4, r.powerCycle⟩, ⟨4, r.opSeconds⟩, ⟨10, stampNat r.stamp⟩, ⟨2, r.code⟩, ⟨4, r.duration⟩, ⟨16, r.detail⟩,
    ⟨8, r.seq⟩]
  f ++ [⟨8, if r.authed then leNat ((hmacSm3 (derivedKey 2) (fieldBytes f)).take 8) else 0⟩]

/-- R136: `BOOT_READ_JOURNAL`: up to 4,096 records to a host address, or 3 inline for sideband and remote. -/
def execBootReadJournal (h : Hdr) (seq n : Nat) (d : Dest) (s : State) : Host.Outcome State Fault Refusal :=
  .next (command h { op := 0x0202, who := who0Side, reads := true } (needFlash fun c s =>
    let l := (s.nv.journal.filter fun r => seq ≤ r.seq).take n
    match d with
    | .host a =>
      if 17 ≤ c.mb || 4096 < n then no s .badArg
      else okData (hostWrite a (l.flatMap jrecData) s) [⟨4, l.length⟩]
    | .inline => if c.mb < 17 || 3 < n then no s .badArg else okData s (l.flatMap jrecData)
    | .lotAddr _ => no s .badArg) s)

/-- R106: the history up to this boot's end is set aside from the next boot on: of one item, or (none) of all. A rung that `next_boot`
asks of MEM_TEST goes with it, but for the one that this boot's MEM_TEST has still to take (R266). -/
def clearHistory (key : Option Nat) (s : State) : State :=
  { s with nv := { s.nv with
    cleared := ⟨key, s.nv.powerCycle⟩ :: s.nv.cleared
    nextBoot := if s.boot.started.contains 10 then
        s.nv.nextBoot.filter fun x => !Cleared.names ⟨key, 0⟩ (itemKey 10 x.1)
      else s.nv.nextBoot } }

def clearItem (key : Nat) (s : State) : State := clearHistory (some key) s

def clearAll (s : State) : State := clearHistory none s

/-- R106: `BOOT_CLEAR_HISTORY`. -/
def execBootClearHistory (h : Hdr) (w : HistoryItems) (s : State) : Host.Outcome State Fault Refusal :=
  .next (command h { op := 0x0203, who := who0Side } (needFlash fun _ s =>
    match w with
    | .all => ok (record 0x2021 1 0 none false [] (clearAll s))
    | .items l =>
      if l.any fun x => mandatory x.1 || x.1 = 0 || 19 ≤ x.1 || stepItems x.1 ≤ x.2 then no s .badArg
      else ok (record 0x2021 1 0 none false (l.map fun x => ⟨2, itemKey x.1 x.2⟩)
        (l.foldl (fun s x => clearItem (itemKey x.1 x.2) s) s))) s)

/-- R100: `BOOT_RESTART`: a module restart after the response. -/
def execBootRestart (h : Hdr) (s : State) : Host.Outcome State Fault Refusal :=
  let s := command h { op := 0x0204, who := who0Side }
    (fun _ s => ok { s with boot := { s.boot with restartAsked := true } }) s
  .next (if s.boot.restartAsked then moduleRestart { s with boot := { s.boot with restartAsked := false } } else s)

/-- R136: `FW_GET_SLOTS`. -/
def slotData (x : Slot) : List Fld :=
  [⟨1, slotCode x.state⟩, ⟨4, x.manifest.setVersion⟩, ⟨4, x.manifest.secVersion⟩]
    ++ x.manifest.comps.flatMap fun k => [⟨4, k.version⟩, ⟨2, k.epoch⟩]

def execFwGetSlots (h : Hdr) (s : State) : Host.Outcome State Fault Refusal :=
  .next (command h { op := 0x0210, who := who0Side, reads := true }
    (fwCommand fun _ s => okData s (s.nv.slots.flatMap slotData)) s)

/-- R136, R137: `FW_WRITE_BEGIN` marks the non-running slot WRITING and erases it. DESIGN CHOICE (the manual does not say which slot is
the running one in a SERVICE state in which no slot has been loaded): the slot that SLOT_SELECT chose, slot A before it (log entry 13). -/
def execFwWriteBegin (h : Hdr) (slot : Nat) (s : State) : Host.Outcome State Fault Refusal :=
  .next (command h { op := 0x0211, who := who0Side } (fwCommand fun _ s =>
    if 1 < slot then no s .badArg
    else if slot = s.boot.runSlot || inTrial s then no s .badState
    else if working .slotErase slot s || working .slotVerify slot s then no s .busy
    else accepted (markSlot slot .writing (fun _ => {}) s) .slotErase slot) s)

/-- R136: the erase of the slot ends. -/
def execSlotEraseDone (dt slot : Nat) (s : State) : Host.Outcome State Fault Refusal :=
  .next (event dt (finish .slotErase slot .ok []) s)

/-- R136, R137: `FW_WRITE`: up to 224 inline bytes, or up to 1 MiB from a host bus address (`fromHost`). -/
def execFwWrite (h : Hdr) (slot offset : Nat) (fromHost : Bool) (data : List Byte) (s : State) :
    Host.Outcome State Fault Refusal :=
  .next (command h { op := 0x0212, who := who0Side } (fwCommand fun _ s =>
    if 1 < slot || (if fromHost then 1048576 else 224) < data.length then no s .badArg
    else if slot = s.boot.runSlot || inTrial s || (slotOf s slot).state ≠ .writing then no s .badState
    else if working .slotErase slot s then no s .busy
    else ok (modSlot slot (fun x => { x with
      image := (data.foldl (fun (a : Nat × Tab Byte) b => (a.1 + 1, tset a.2 a.1 b)) (offset, x.image)).2 }) s)) s)

/-- R136: `FW_VERIFY_SLOT`. -/
def execFwVerifySlot (h : Hdr) (slot : Nat) (s : State) : Host.Outcome State Fault Refusal :=
  .next (command h { op := 0x0213, who := who0Side } (fwCommand fun _ s =>
    if 1 < slot then no s .badArg
    else if (slotOf s slot).state = .empty then no s .badState
    else if working .slotErase slot s || working .slotVerify slot s then no s .busy
    else accepted s .slotVerify slot) s)

/-- R136, R125: the check of a slot ends: VALID or FAILED. `good` says that the manifest's signature and every hash
check; `m` is the manifest the slot's bytes hold. The running slot is not touched (R137). -/
def execSlotVerifyDone (dt slot : Nat) (good : Bool) (m : Manifest) (s : State) : Host.Outcome State Fault Refusal :=
  .next (event dt (fun s =>
    if !working .slotVerify slot s then s
    else
      let pass := good && s.nv.secFloor ≤ m.secVersion
      let st : SlotState := if pass then .valid else .failed
      finish .slotVerify slot .ok [⟨1, slotCode st⟩]
        (if slot = s.boot.runSlot then s else markSlot slot st (fun x => { x with manifest := m }) s)) s)

/-- R126: the components of the other slot that differ from the running ones. -/
def walkComps (s : State) (m : Manifest) : List Nat :=
  (List.range 6).filter fun i =>
    let a := m.comps.getD i noComponent
    let b := s.boot.running_.getD i noComponent
    a.version ≠ b.version || a.hash ≠ b.hash

/-- R127: the check of every intermediate set: for each component X about to be activated and each component Y still
running from the old slot, Y's epoch does not change or the pair is listed. -/
def walkChecks (old new : List Component) (pairs : List EpochPair) : List Nat → Bool
  | [] => true
  | x :: rest =>
    (rest.all fun y =>
      let yo := (old.getD y noComponent).epoch
      let yn := (new.getD y noComponent).epoch
      yo = yn || pairs.any fun p => p.x = x && p.xEpoch = (new.getD x noComponent).epoch && p.y = y && p.yEpoch = yo)
      && walkChecks old new pairs rest

/-- R128: the ports, pipes or contexts on which a component takes effect, one after another; none of its own for BOARDFW and MEMTRAIN,
which wait for the next boot, and for SQFW. While a context is MIRRORED the sister port waits for the next boot (R130). -/
def unitsOf (x : Nat) (s : State) : List Nat :=
  match x with
  | 2 => (List.range 33).filter fun p =>
      portState s p ≠ .absent && portState s p ≠ .excluded && !(p = 32 && s.red.ctxs.any fun r => r.2.par.mode = 1)
  | 3 => (List.range 6).filter fun p => if p < 4 then bitOf s.boot.decPipes p else bitOf s.boot.encPipes (p - 4)
  | 4 => (List.range 16).filter (ctxDefined s)
  | _ => []

/-- R128: a component whose turn it is may take effect: a context for JIGLIB, and every context for SQFW, is at a step boundary. -/
def unitReady (x : Nat) (units : List Nat) (s : State) : Bool :=
  let idle (c : Nat) : Bool := (tget s.serve.ctxs c {}).step.isNone
  match x with
  | 4 => units.head?.elim true idle
  | 5 => (List.range 16).all idle
  | _ => true

/-- R123, R114: the phase while a walk runs, and after it; SERVICE state stays. -/
def walkPhase (p : BootPhase) : BootPhase := if p = .ready then .activating else p
def phaseAfter (p : BootPhase) : BootPhase := if p = .activating then .ready else p

/-- R131, R761: the walk is complete: the slot is boot slot, last activated, and in trial for 600 s. -/
def walkComplete (slot : Nat) (s : State) : State :=
  let s := markSlot slot .trial (fun x => { x with trialBoots := 0 }) s
  let s := setLocal .trialNext 0 (setLocal .lastActivated slot (setLocal .bootSlot slot s))
  { s with boot := { s.boot with walk := none, phase := phaseAfter s.boot.phase, runSlot := slot
                                 trialEnd := some (now s + 600000000000) } }

/-- R126, R127, R129: `FW_ACTIVATE`. `mirroredActive` is told by the redundancy state. DESIGN CHOICE (the manual gives no answer for a walk
that passes over every component, which has completed when it is answered): one OK (log entry 13). -/
def execFwActivateOn (mirroredActive : State → Bool) (h : Hdr) (s : State) : State :=
  command h { op := 0x0214, who := who0Side } (fwCommand fun _ s =>
    let slot := otherSlot s.boot.runSlot
    let m := (slotOf s slot).manifest
    let todo := walkComps s m
    if !((slotOf s slot).state = .valid || (slotOf s slot).state = .confirmed) then no s .badState
    else if mirroredActive s && todo.contains 5 then no s .badState
    else if !walkChecks s.boot.running_ m.comps m.pairs todo then no s .incompatible
    else match todo with
      | [] => ok (walkComplete slot s)
      | x :: _ => accepted { s with boot := { s.boot with
          walk := some { todo := todo, done := [], slot := slot, units := unitsOf x s }, phase := walkPhase s.boot.phase } } .activate 0) s

/-- R126, R128, R130: a component has taken effect everywhere it does, and the next one begins. BOARDFW and MEMTRAIN wait for the next
boot, as does SERDESFW on a sister port that it passed over. -/
def componentDone (x : Nat) (rest : List Nat) (w : Walk) (s : State) : State :=
  let m := (slotOf s w.slot).manifest
  let s := { s with boot := { s.boot with
    sisterFw := if x = 2 && s.red.ctxs.any (fun r => r.2.par.mode = 1) then some (s.boot.running_.getD 2 noComponent) else s.boot.sisterFw
    running_ := if x < 2 then s.boot.running_ else s.boot.running_.set x (m.comps.getD x noComponent)
    walk := some { w with todo := rest, done := x :: w.done, units := rest.head?.elim [] fun y => unitsOf y s } } }
  if rest.isEmpty then finish .activate 0 .ok [] (walkComplete w.slot s) else s

/-- R130: a component fails to activate: those already changed go back to the old slot's, in reverse order, and the command ends FAULTED. -/
def walkFails (x : Nat) (w : Walk) (s : State) : State :=
  let old := (slotOf s s.boot.runSlot).manifest.comps
  let s := { s with boot := { s.boot with
    running_ := w.done.foldl (fun l i => l.set i (old.getD i noComponent)) s.boot.running_
    sisterFw := none, walk := none, phase := phaseAfter s.boot.phase } }
  finish .activate 0 .faulted [] (record 0x2013 2 0 none false [⟨1, x⟩] s)

/-- R128, R130: the activation of a component, or its turn on one port, pipe or context, ends. -/
def execComponentActivated (dt : Nat) (good : Bool) (s : State) : Host.Outcome State Fault Refusal :=
  .next (event dt (fun s =>
    match s.boot.walk with
    | none => s
    | some w =>
      match w.todo with
      | [] => s
      | x :: rest =>
        if !unitReady x w.units s then s
        else if !good then walkFails x w s
        else match w.units with
          | _ :: u :: us => { s with boot := { s.boot with walk := some { w with units := u :: us } } }
          | _ => componentDone x rest w s) s)

/-- R133: the trial ends confirmed. -/
def endTrial (s : State) : State :=
  record 0x2011 0 0 none false []
    (confirmSlot s.boot.runSlot { s with boot := { s.boot with trialEnd := none } })

/-- R133: `FW_CONFIRM`. -/
def execFwConfirm (h : Hdr) (s : State) : Host.Outcome State Fault Refusal :=
  .next (command h { op := 0x0215, who := who0Side } (fwCommand fun _ s =>
    if inTrial s then ok (endTrial s) else no s .badState) s)

/-- R761: `FW_SELECT_BOOT`. -/
def execFwSelectBoot (h : Hdr) (slot : Nat) (s : State) : Host.Outcome State Fault Refusal :=
  .next (command h { op := 0x0216, who := who0Side } (fwCommand fun _ s =>
    if 1 < slot then no s .badArg
    else if (slotOf s slot).state = .valid || (slotOf s slot).state = .confirmed then
      ok (setLocal .trialNext (slot + 1) (setLocal .lastActivated slot (setLocal .bootSlot slot s)))
    else no s .badState) s)

/-- R133: 600 s of trial have passed. -/
def execTrialExpiry (dt : Nat) (s : State) : Host.Outcome State Fault Refusal :=
  .next (event dt (fun s =>
    match s.boot.trialEnd with
    | some t => if t ≤ now s then endTrial s else s
    | none => s) s)

/-- R132: the Square watchdog fires. -/
def execSquareWatchdog (dt : Nat) (s : State) : Host.Outcome State Fault Refusal :=
  .next (event dt (fun s =>
    if boardAlone s then s
    else if inTrial s then rollBack s
    else moduleRestart (record 0x2030 2 0 none false [] s)) s)

end Sys2Proof.Machine
end

