-- ==== Sys2Proof/Machine/Square.lean ====
section
/-! DEFINITION. The Square's voting cores, the mailbox pages, the sideband, and the general commands (chapter 03,
R741–R742). -/
namespace Sys2Proof.Machine

/-! ### Registers -/

def coreCode : CoreState → Nat
  | .voting => 0
  | .fenced => 1
  | .resync => 2
  | .fencedHard => 3

def modeCode : SqMode → Nat
  | .triple => 0
  | .pair => 1
  | .restarting => 2
  | .halted => 3

/-- R57, R61: the mode as it reads: RESTARTING while a restart lasts. -/
def modeView (s : State) : SqMode := if restarting s && s.sq.mode = .pair then .restarting else s.sq.mode

/-- R61: `SQ_STATUS`. -/
def sqStatus (s : State) : Nat :=
  modeCode (modeView s)
    + foldN 3 (fun i a => a + 2 ^ (2 + 2 * i) * coreCode (tget s.sq.cores i .voting)
        + 2 ^ (8 + 2 * i) * min 3 (tget s.sq.resyncFail i 0)) 0
    + 2 ^ 32 * s.sq.restarts

/-- R67: the class of a mailbox. DESIGN CHOICE (the table names none for the internal mailboxes 29–31): they read 3 (log entry 27). -/
def mbxClass (m : Nat) : Nat := if m = 0 then 0 else if m ≤ 16 then 1 else if m ≤ 24 then 2 else 3

/-- R67, R95: the mailbox's context is confidential. -/
def mbxConf (s : State) (m : Nat) : Bool :=
  match speaker s m with
  | .context c => isConf s c
  | _ => false

/-- R67: the quarantine time remaining, in ms. DESIGN CHOICE (the manual gives no rounding): rounded up (log entry 27). -/
def quarantineMs (s : State) (m : Nat) : Nat :=
  match (mbxOf s m).quarantineEnd with
  | some e => min 65535 (ceilDiv (e - now s) 1000000)
  | none => 0

/-- R67: `MBX_STATE`. -/
def mbxState (s : State) (m : Nat) : Nat :=
  let b := mbxOf s m
  mbxClass m + 2 ^ 3 * bit (256 ≤ rspUsed b) + 2 ^ 4 * bit (quarantined s m) + 2 ^ 5 * bit b.binding.isSome
    + 2 ^ 6 * bit (mbxConf s m) + 2 ^ 7 * bit (resetting s m) + 2 ^ 16 * b.notifyLost + 2 ^ 32 * quarantineMs s m

/-! ### General commands (R81) -/

/-- `NOP`. -/
def execNop (h : Hdr) (s : State) : Host.Outcome State Fault Refusal :=
  .next (command h { op := 0x0000, who := whoAll, reads := true } (fun _ s => ok s) s)

/-- `GET_INFO`: ordering code, serial number, module number and the component versions of the active slot, which is the slot in use. -/
def infoData (s : State) : List Fld :=
  [⟨17, leNat s.nv.ordering.text⟩, ⟨8, Config.serial⟩, ⟨2, moduleNo s⟩]
    ++ ((s.nv.slots.getD s.boot.runSlot {}).manifest.comps.map fun c => ⟨4, c.version⟩)

def execGetInfo (h : Hdr) (s : State) : Host.Outcome State Fault Refusal :=
  .next (command h { op := 0x0001, who := whoAll, reads := true } (fun _ s => okData s (infoData s)) s)

/-- `GET_SQ_STATUS`. -/
def execGetSqStatus (h : Hdr) (s : State) : Host.Outcome State Fault Refusal :=
  .next (command h { op := 0x0002, who := whoAll, reads := true }
    (fun _ s => okData s [⟨8, sqStatus s⟩, ⟨8, s.sq.checkpoints⟩]) s)

/-- `MBX_GET_STATE`: the issuing mailbox's state, violations and ring indices. -/
def mbxGetData (s : State) (m : Nat) : List Fld :=
  let b := mbxOf s m
  [⟨8, mbxState s m⟩, ⟨8, b.violations⟩, ⟨4, b.cmdTail⟩, ⟨4, b.cmdHead⟩, ⟨4, b.rspTail⟩, ⟨4, b.rspHead⟩]

def execMbxGetState (h : Hdr) (s : State) : Host.Outcome State Fault Refusal :=
  .next (command h { op := 0x0003, who := whoAll, reads := true } (fun c s => okData s (mbxGetData s c.mb)) s)

/-- `MBX_NOTIFY_MASK`: bits 6–31 of the mask are reserved. -/
def execMbxNotifyMask (h : Hdr) (mask : Nat) (s : State) : Host.Outcome State Fault Refusal :=
  .next (command h { op := 0x0004, who := whoAll } (fun c s =>
    if 64 ≤ mask then badReserved s else ok (modMbx c.mb (fun b => { b with mask := mask }) s)) s)

/-- R78: `MBX_BIND` binds (or unbinds) a remote mailbox, and reverts the functions it held. -/
def bindOk (s : State) (m : Nat) (b : Option Binding) : Bool :=
  17 ≤ m && m ≤ 24 && match b with
    | some ⟨p, .admin⟩ => p ≤ 4094 && p ≠ moduleNo s
    | some ⟨p, .context c⟩ => p ≤ 4094 && p ≠ moduleNo s && c < 16
    | none => true

def execMbxBind (h : Hdr) (m : Nat) (b : Option Binding) (s : State) : Host.Outcome State Fault Refusal :=
  .next (command h { op := 0x0005, who := who0 } (fun _ s =>
    if bindOk s m b then ok (revertHeld m .unbound (modMbx m (fun x => { x with binding := b }) s)) else no s .badArg) s)

/-- `MBX_UNQUARANTINE`: OK with no effect when the mailbox is not in quarantine. -/
def execMbxUnquarantine (h : Hdr) (m : Nat) (s : State) : Host.Outcome State Fault Refusal :=
  .next (command h { op := 0x0006, who := who0 } (fun _ s =>
    if 31 < m then no s .badArg else ok (modMbx m (fun b => { b with quarantineEnd := none }) s)) s)

/-- R82: `SET_MODULE_NUMBER`, kept in a signed flash record. -/
def execSetModuleNumber (h : Hdr) (n : Nat) (s : State) : Host.Outcome State Fault Refusal :=
  .next (command h { op := 0x0007, who := who0 } (fun _ s =>
    if 4094 < n then no s .badArg
    else if (List.range 5).all fun g => quiesced s (fidPort g) then
      ok (setLocal .moduleNumber n s)
    else no s .badState) s)

/-! ### Mailbox pages (R65–R76) -/

/-- R69: the written tail is behind the current one, or more than 256 entries ahead of the head. -/
def tailBad (b : Mailbox) (tail : Nat) : Bool :=
  2 ^ 31 ≤ (tail + 2 ^ 32 - b.cmdTail) % 2 ^ 32 || 256 < (tail + 2 ^ 32 - b.cmdHead) % 2 ^ 32

/-- R65, R66: the entries that the host has written at the positions from `MBX_CMD_TAIL` onward. -/
def putEntries (m : Nat) (written : List Byte) (s : State) : State :=
  modMbx m (fun b => { b with ring := writeRing b.cmdTail (written.take 0x4000) b.ring }) s

/-- R65, R72: a doorbell exposes the entries up to its tail; what is exposed with an unknown opcode is answered as soon as it stands next. -/
def ring (m tail : Nat) (s : State) : State :=
  skipUnknown m (expose m ((tail + 2 ^ 32 - (mbxOf s m).cmdTail) % 2 ^ 32) (takeInput (.doorbell m tail) s))

/-- R65, R66, R69, R72, R97: the host writes entries to the command ring, and then the doorbell. A page that is resetting takes the entries
and ignores the doorbell (R76). DESIGN CHOICE (the manual does not say whether a bad tail counts as a violation in quarantine): it is
ignored and not counted (log entry 27). -/
def execMbxCmdTailWrite (dt m tail : Nat) (written : List Byte) (ideT : Bool) (s : State) :
    Host.Outcome State Fault Refusal :=
  .next (event dt (fun s =>
    if 16 < m || !reachable s m then s
    else if ideRefused s m ideT then countIdeDrop s
    else
      let s := putEntries m written s
      let b := mbxOf s m
      if resetting s m then s
      else if quarantined s m then
        if tailBad b tail then s else modMbx m (fun b => { b with cmdTail := tail % 2 ^ 32, cmdHead := tail % 2 ^ 32 }) s
      else if tailBad b tail then violation m s
      else ring m tail s) s)

/-- R73: after the host has freed positions, what waited is written: responses first, then notifications. -/
def drainMbx (m : Nat) (s : State) : State :=
  let w := (mbxOf s m).waiting
  let s := w.foldl (fun s r => writeRsp m r s) (modMbx m (fun b => { b with waiting := [] }) s)
  let n := (mbxOf s m).held
  n.foldl (fun s x => notifyOne m x s) (modMbx m (fun b => { b with held := [] }) s)

/-- R70: a write of `MBX_RSP_HEAD`. -/
def execMbxRspHeadWrite (dt m head : Nat) (ideT : Bool) (s : State) : Host.Outcome State Fault Refusal :=
  .next (event dt (fun s =>
    let b := mbxOf s m
    if 16 < m || !reachable s m || resetting s m then s
    else if ideRefused s m ideT then countIdeDrop s
    else if rspUsed b < (head + 2 ^ 32 - b.rspHead) % 2 ^ 32 then violation m s
    else skipUnknown m (drainMbx m (modMbx m (fun b => { b with rspHead := head % 2 ^ 32 }) s))) s)

/-- R76: reset a mailbox; `dur` is how long resetting reads 1, at most 100 µs. DESIGN CHOICE (the manual does not name these): irq_en, vector
and the notification mask stay as they are, and held notifications are written at once (log entry 27). -/
def resetMailbox (m dur : Nat) (s : State) : State :=
  let work := mapIf (fun w => w.mb = m) (fun w => { w with discard := true }) s.sq.work
  let s := { s with sq := { s.sq with work := work } }
  let s := revertHeld m .reset s
  drainMbx m (modMbx m (fun b => { b with
    exposed := [], partialEntries := 0, waiting := [], rsps := [], cmdTail := 0, cmdHead := 0, rspTail := 0, rspHead := 0,
    resetEnd := now s + min dur 100000 }) s)

/-- R76: `MBX_CTRL.reset` is written. -/
def execMbxCtrlReset (dt m dur : Nat) (ideT : Bool) (s : State) : Host.Outcome State Fault Refusal :=
  .next (event dt (fun s =>
    if 16 < m || !reachable s m then s
    else if ideRefused s m ideT then countIdeDrop s
    else resetMailbox m dur s) s)

/-- R759: the entries of the MSI-X table of the function that maps a mailbox page. -/
def msixEntries (m : Nat) : Nat := if m = 0 then 128 else 120

/-- R68, R71: a write of irq_en and vector. -/
def execMbxCtrlIrq (dt m : Nat) (irqEn : Bool) (vector : Nat) (ideT : Bool) (s : State) :
    Host.Outcome State Fault Refusal :=
  .next (event dt (fun s =>
    if 16 < m || !reachable s m then s
    else if ideRefused s m ideT then countIdeDrop s
    else if msixEntries m ≤ vector then violation m s
    else modMbx m (fun b => { b with irqEn := irqEn, vector := vector }) s) s)

/-- R97: the 30 s of a quarantine have passed. -/
def execMbxQuarantineExpiry (dt m : Nat) (s : State) : Host.Outcome State Fault Refusal :=
  .next (event dt (fun s =>
    if quarantined s m then s else modMbx m (fun b => { b with quarantineEnd := none }) s) s)

/-! ### The voting cores (R52–R60) -/

/-- R54, R55: a resynchronisation ends: the core rejoins voting, or has failed once more. -/
def resyncEnd (i : Nat) (good : Bool) (s : State) : State :=
  if tget s.sq.cores i .voting ≠ .resync then s
  else if good then
    let cores := tset s.sq.cores i .voting
    let mode := if (List.range 3).all fun j => tget cores j .voting = .voting then .triple else s.sq.mode
    notify 0 0x1102 (i + 1) (record 0x1102 1 (i + 1) none false [⟨1, i⟩]
      { s with sq := { s.sq with cores := cores, mode := mode } })
  else
    let n := tget s.sq.resyncFail i 0 + 1
    let s := { s with sq := { s.sq with
      resyncFail := tset s.sq.resyncFail i n
      cores := tset s.sq.cores i (if 3 ≤ n then .fencedHard else .fenced) } }
    let s := record 0x1103 2 (i + 1) none false [⟨1, i⟩] s
    if 3 ≤ n then record 0x1104 2 (i + 1) none false [⟨1, i⟩] s else s

/-- R54: a due resynchronisation starts: the fenced core is in RESYNC. -/
def startResync (s : State) : State :=
  let cores := foldN 3 (fun i t => if tget t i .voting = .fenced then tset t i .resync else t) s.sq.cores
  { s with sq := { s.sq with cores := cores } }

/-- R56: 1 ms of T has passed since the last checkpoint of this power cycle (or T has stepped), and the Square runs. -/
def checkpointDue (s : State) : Bool :=
  !(boardAlone s || s.sq.mode = .halted || restarting s)
    && (s.sq.checkpoints = 0 || s.time.t < s.sq.vote.checkpoint.at_ || s.sq.vote.checkpoint.at_ + 1000000 ≤ s.time.t)

/-- R56: the checkpoint takes the state of every mailbox and function; both journals start anew. -/
def takeCheckpoint (s : State) : State :=
  let v := s.sq.vote
  { s with sq := { s.sq with
    checkpoints := wrapAdd 64 s.sq.checkpoints 1
    vote := { v with checkpoint := ⟨s.time.t, v.taken, v.released, s.sq.mbx, s.sq.funcs⟩, inputs := [], outputs := [] } } }

/-- R58, R80: the commands with unknown opcodes that a restart held back are answered in every mailbox. -/
def skipAll (s : State) : State := foldN 29 skipUnknown s

/-- R56: a checkpoint; a core that is fenced starts its resynchronisation, and `ends` tells which of those in progress
end with it, and how. -/
def execCheckpoint (dt : Nat) (ends : List (Nat × Bool)) (s : State) : Host.Outcome State Fault Refusal :=
  .next (event dt (fun s =>
    if !checkpointDue s then s
    else ends.foldl (fun s e => if e.1 < 3 then resyncEnd e.1 e.2 s else s) (startResync (takeCheckpoint (skipAll s)))) s)

/-- R53: in triple mode one core's output differs: it is fenced and the Square continues in pair mode. -/
def execCoreDisagreement (dt core : Nat) (s : State) : Host.Outcome State Fault Refusal :=
  .next (event dt (fun s =>
    if boardAlone s || s.sq.mode ≠ .triple || 3 ≤ core then s
    else notify 0 0x1101 (core + 1) (record 0x1101 2 (core + 1) none false [⟨1, core⟩]
      { s with sq := { s.sq with cores := tset s.sq.cores core .fenced, mode := .pair } })) s)

/-- R60, R132: a fatal condition of the Square: in a trial the module rolls back, otherwise it stays in SERVICE. -/
def squareFatal (s : State) : State :=
  let s := notify 0 0x1106 0 (record 0x1106 3 0 none false [] { s with sq := { s.sq with mode := .halted } })
  if inTrial s then rollBack s
  else
    let s := journal 0xFF 2 1 0 0 0 0x1106 0 (capDetail s) s
    raiseAlert .squareFatal (enterService 3 0 (if s.boot.ended.contains 18 then s else releaseJournal false s))

/-- R57: the numbers of the words that a replay from the checkpoint produces again; the last is the word that the port withholds. -/
def replayed (v : VoteSt) : List Nat := (List.range (v.released + 1 - v.checkpoint.released)).map (v.checkpoint.released + ·)

/-- R57, R59: the replay. Each replayed word whose number the output journal holds is suppressed, and each other one is released; the port
withholds nothing more. -/
def replayOutputs (s : State) : State :=
  let v := s.sq.vote
  ((replayed v).filter fun w => !v.outputs.contains w).foldl (fun s _ => releaseWord s)
    { s with sq := { s.sq with vote := { v with withheld := none } } }

/-- R57–R60: the Square restores the last checkpoint and replays the input journal. DEDUCED from R59 (the replay is deterministic, because the
cores see exactly the journalled inputs): mailboxes, functions and cores end in the state that stood before, so nothing of it changes here;
what the replay writes goes through the output journal. How long the restart takes, at most 5 ms (R58), is a free value; commands that are not
yet dispatched, and responses that wait for a free position, are late (log entry 27). -/
def restart (s : State) : State :=
  let f := takeFree s
  let s := replayOutputs f.2
  let s := { s with sq := { s.sq with
    mbx := s.sq.mbx.map fun x => (x.1, { x.2 with
      exposed := x.2.exposed.map fun e => { e with late := true }
      waiting := x.2.waiting.map fun r => { r with restartDelayed := true } })
    vote := { s.sq.vote with restartEnd := now s + f.1 % 5000001 } } }
  notify 0 0x1105 0 (record 0x1105 2 0 none false [] s)

/-- R57–R60: the two cores of pair mode disagree, and the port withholds the word. `mismatch` says that a replayed word differs from the released
word of its number. -/
def execPairDisagreement (dt : Nat) (mismatch : Bool) (s : State) : Host.Outcome State Fault Refusal :=
  .next (event dt (fun s =>
    if boardAlone s || s.sq.mode ≠ .pair then s
    else
      let times := (s.sq.restartTimes.filter fun t => now s < t + 10000000000) ++ [now s]
      let p := issueStamp s
      let s := { p.2 with sq := { p.2.sq with
        restarts := satAdd 8 p.2.sq.restarts 1, restartTimes := times, lastRestart := p.1.ns
        vote := { p.2.sq.vote with withheld := some p.2.sq.vote.released } } }
      if mismatch || 8 < times.length then squareFatal s else restart s) s)

/-! ### The sideband (R77, R741, R742) -/

/-- R77: release a sideband mailbox from its endpoint. -/
def releaseSide (m : Nat) (s : State) : State :=
  if (mbxOf s m).endpoint.isNone then s
  else record 0x1305 0 0 none false [⟨1, m⟩]
    (resetMailbox m 0 (modMbx m (fun b => { b with endpoint := none }) s))

/-- R77: release all four. -/
def releaseAllSides (s : State) : State := [25, 26, 27, 28].foldl (fun s m => releaseSide m s) s

/-- R77: the sideband mailbox whose endpoint has been idle longest. DESIGN CHOICE (the manual does not say which of several): the lowest number
(log entry 27). -/
def idlest (s : State) : Nat :=
  [26, 27, 28].foldl (fun a m => if (mbxOf s m).lastMsg < (mbxOf s a).lastMsg then m else a) 25

/-- R77: a further endpoint sends. It takes a free mailbox; or the one idle longest, when that has been idle for 60 s;
otherwise it receives an MCTP error response. -/
def execSidebandExtraEndpoint (dt endpoint : Nat) (s : State) : Host.Outcome State Fault Refusal :=
  .next (event dt (fun s =>
    if !s.tray.keepAlive then s
    else match sideFor s endpoint with
      | some m => modMbx m (fun b => { b with endpoint := some endpoint, lastMsg := now s }) s
      | none =>
        let m := idlest s
        if (mbxOf s m).lastMsg + 60000000000 ≤ now s then
          modMbx m (fun b => { b with endpoint := some endpoint, lastMsg := now s }) (releaseSide m s)
        else { s with sq := { s.sq with mctpErrors := endpoint :: s.sq.mctpErrors } }) s)

/-- An answer on the sideband, by the code of what it answers. -/
def sideAnswer (code : Nat) (d : List Fld) (s : State) : State :=
  { s with tray := { s.tray with sideAnswers := (code, d) :: s.tray.sideAnswers } }

/-- The sideband acts only while the keep-alive supply runs. -/
def sideEvent (dt : Nat) (f : State → State) (s : State) : State :=
  event dt (fun s => if s.tray.keepAlive then f s else s) s

/-- R77: Set Endpoint ID; set again, it releases the sideband mailboxes. -/
def execSetEndpointId (dt eid : Nat) (s : State) : Host.Outcome State Fault Refusal :=
  .next (sideEvent dt (fun s =>
    let s := if s.tray.eid.isSome then releaseAllSides s else s
    sideAnswer 0x01 [⟨1, eid⟩] { s with tray := { s.tray with eid := some eid } }) s)

/-- R741, R77: ENTDAA assigns a dynamic address. -/
def execEntdaa (dt addr : Nat) (s : State) : Host.Outcome State Fault Refusal :=
  .next (sideEvent dt (fun s => releaseAllSides { s with tray := { s.tray with i3cAddr := some addr } }) s)

/-- R741, R77: SETNEWDA sets a new dynamic address. -/
def execSetnewda (dt addr : Nat) (s : State) : Host.Outcome State Fault Refusal :=
  .next (sideEvent dt (fun s =>
    if s.tray.i3cAddr.isSome then releaseAllSides { s with tray := { s.tray with i3cAddr := some addr } } else s) s)

/-- R77: RSTDAA resets the dynamic address. -/
def execRstdaa (dt : Nat) (s : State) : Host.Outcome State Fault Refusal :=
  .next (sideEvent dt (fun s => releaseAllSides { s with tray := { s.tray with i3cAddr := none } }) s)

/-- R741: ENEC enables in-band interrupts. -/
def execEnec (dt : Nat) (s : State) : Host.Outcome State Fault Refusal :=
  .next (sideEvent dt (fun s => { s with tray := { s.tray with ibiEnabled := true } }) s)

/-- R741: DISEC disables in-band interrupts. -/
def execDisec (dt : Nat) (s : State) : Host.Outcome State Fault Refusal :=
  .next (sideEvent dt (fun s => { s with tray := { s.tray with ibiEnabled := false } }) s)

/-- R741: the provisional ID holds bits [31:0] of the serial number; its upper 16 bits are left open. -/
def execGetpid (dt : Nat) (s : State) : Host.Outcome State Fault Refusal :=
  .next (sideEvent dt (sideAnswer 0x8D [⟨4, Config.serial % 2 ^ 32⟩, ⟨2, Config.i3cRegister 0⟩]) s)

/-- R741: the bus characteristics register, whose value the manual leaves open. -/
def execGetbcr (dt : Nat) (s : State) : Host.Outcome State Fault Refusal :=
  .next (sideEvent dt (sideAnswer 0x8E [⟨1, Config.i3cRegister 1⟩]) s)

/-- R741: the device characteristics register. -/
def execGetdcr (dt : Nat) (s : State) : Host.Outcome State Fault Refusal :=
  .next (sideEvent dt (sideAnswer 0x8F [⟨1, Config.i3cRegister 2⟩]) s)

/-- R741: target status, whose value at any moment the manual leaves open. -/
def execGetstatus (dt : Nat) (s : State) : Host.Outcome State Fault Refusal :=
  .next (sideEvent dt (fun s =>
    let p := takeFree s
    sideAnswer 0x90 [⟨2, p.1⟩] p.2) s)

/-- R741: maximum data speed. -/
def execGetmxds (dt : Nat) (s : State) : Host.Outcome State Fault Refusal :=
  .next (sideEvent dt (sideAnswer 0x94 [⟨2, Config.i3cRegister 3⟩]) s)

/-- R741: RSTACT defines the target reset action. -/
def execRstact (dt action : Nat) (s : State) : Host.Outcome State Fault Refusal :=
  .next (sideEvent dt (fun s => { s with tray := { s.tray with rstAction := action } }) s)

/-- R742: a PLDM platform-monitoring message is answered; the reading is what the sensor gives (a free value). -/
def execPldmMonitoring (dt request : Nat) (s : State) : Host.Outcome State Fault Refusal :=
  .next (sideEvent dt (fun s =>
    let p := takeFree s
    sideAnswer (0x200 + request) [⟨4, p.1⟩] p.2) s)

/-- R742: an MCTP control message is answered, with the endpoint ID where it has one. -/
def execMctpControl (dt request : Nat) (s : State) : Host.Outcome State Fault Refusal :=
  .next (sideEvent dt (fun s => sideAnswer (0x100 + request) [⟨1, s.tray.eid.getD 0⟩] s) s)

end Sys2Proof.Machine
end

