-- ==== Sys2Proof/Machine/Recorder.lean ====
section
/-! DEFINITION. The event recorder's commands, cursor and flushes (R717–R731). -/
namespace Sys2Proof.Machine

/-- R717: an event record as its fields. -/
def recData (r : EvRec) : List Fld :=
  let attr := r.sev + 4 * bit r.zeroed + 8 * bit r.saturated
  let ctx := match r.ctx with
    | some c => c
    | none => 128
  let f : List Fld :=
    [⟨10, stampNat r.stamp⟩, ⟨4, r.seq⟩, ⟨4, r.opSeconds⟩, ⟨4, r.powerCycle⟩, ⟨2, r.code⟩, ⟨2, r.rep⟩, ⟨2, r.source⟩,
     ⟨1, attr⟩, ⟨1, ctx⟩, ⟨2, r.module⟩, ⟨6, stampNat r.last % 2 ^ 48⟩] ++ r.payload
  f ++ [⟨64 - fieldLen f, 0⟩]

/-- R731: `REC_STATUS`. -/
def recStatus (s : State) : Nat :=
  let r := s.rec_
  let fz := match r.freeze with
    | some f => if f.started then 1 + 2 ^ 16 * min 4096 r.ram.length + 2 ^ 32 * secondsLeft f.until_ (now s)
        + 2 ^ 48 * f.holder else 0
    | none => 0
  fz + 2 * bit r.flushing.isSome + 4 * bit r.flashFail + 8 * bit (16384 ≤ r.ram.length)

/-- R730: `REC_STATUS`, `REC_COUNT`, `REC_NEXT_SEQ` and the lost counters. -/
def recStateData (s : State) : List Fld :=
  [⟨8, recStatus s⟩, ⟨8, s.nv.flash.length % 2 ^ 23 + 2 ^ 32 * s.rec_.ram.length⟩,
   ⟨8, s.rec_.nextSeq + 2 ^ 32 * s.nv.powerCycle⟩] ++ s.rec_.lost.map fun n => ⟨8, n⟩

/-- R727: `REC_GET_STATE`. -/
def execRecGetState (h : Hdr) (s : State) : Host.Outcome State Fault Refusal :=
  .next (command h { op := 0x0C15, who := whoAll, reads := true } (fun _ s => okData s (recStateData s)) s)

/-- The order of records: by (power_cycle, sequence). -/
def recLe (a b : EvRec) : Bool := a.powerCycle < b.powerCycle || (a.powerCycle = b.powerCycle && a.seq ≤ b.seq)

/-- R727: the records that `REC_READ` copies: from the flash log and from those waiting in RAM, at or above a
severity, from a position onward; a context's mailbox receives only records naming its context. -/
def recSelect (s : State) (m sev pc seq n : Nat) : List EvRec :=
  let own (r : EvRec) : Bool := match speaker s m with
    | .context c => r.ctx = some c
    | _ => true
  let l := (s.nv.flash ++ s.rec_.ram).filter fun r =>
    sev ≤ r.sev && (pc < r.powerCycle || (pc = r.powerCycle && seq ≤ r.seq)) && own r
  (sortBy recLe l).take n

/-- R727, R762: `REC_READ`: up to 4,096 records to a host bus address, or 3 inline for sideband and remote. -/
def execRecRead (h : Hdr) (sev pc seq n : Nat) (d : Dest) (s : State) : Host.Outcome State Fault Refusal :=
  .next (command h { op := 0x0C10, who := whoAll, reads := true } (needFlash fun c s =>
    let l := recSelect s c.mb sev pc seq n
    match d with
    | .host a =>
      if 17 ≤ c.mb || 4096 < n || 3 < sev then no s .badArg
      else okData (hostWrite a (l.flatMap recData) s) [⟨4, l.length⟩]
    | .inline => if c.mb < 17 || 3 < n || 3 < sev then no s .badArg else okData s (l.flatMap recData)
    | .lotAddr _ => no s .badArg) s)

/-- R722, R762: `REC_FREEZE`: flush, then hold the log; the holder's own restarts the period. -/
def execRecFreeze (h : Hdr) (seconds : Nat) (s : State) : Host.Outcome State Fault Refusal :=
  .next (command h { op := 0x0C11, who := who0Side, reads := true } (needFlash fun c s =>
    if seconds < 1 || 600 < seconds then no s .badArg
    else match s.rec_.freeze with
      | some f =>
        if f.holder = c.mb then
          let f := { f with until_ := now s + seconds * 1000000000, period := seconds * 1000000000 }
          ok { s with rec_ := { s.rec_ with freeze := some f } }
        else no s .busy
      | none =>
        accepted (startFlush { s with rec_ := { s.rec_ with freeze := some ⟨c.mb, 0, seconds * 1000000000, false⟩ } })
          .recFreeze 0) s)

/-- R722, R723: `REC_THAW` ends the caller's freeze, and the records that waited are flushed. -/
def execRecThaw (h : Hdr) (s : State) : Host.Outcome State Fault Refusal :=
  .next (command h { op := 0x0C12, who := who0Side, reads := true } (fun c s =>
    match s.rec_.freeze with
    | none => ok s
    | some f =>
      if f.holder = c.mb then ok (startFlush { s with rec_ := { s.rec_ with freeze := none } }) else no s .busy) s)

/-- R725: the erase ends: 0x1603 when it ended a freeze, 0x1602 with the number of records erased, a flush, and the final response. -/
def eraseEnds (s : State) : State :=
  match s.rec_.clearing with
  | none => s
  | some (n, held) =>
    let s := { s with rec_ := { s.rec_ with clearing := none } }
    let s := if held then recordSq 0x1603 1 [] s else s
    let s := recordSq 0x1602 1 [⟨4, n⟩] s
    finish .recClear 0 .ok [] (startFlush s)

/-- R725: `REC_CLEAR` ends mailbox 0's freeze and erases the log, the RAM buffer and the lost counters. It is served after one that is
still under way. -/
def execRecClear (h : Hdr) (s : State) : Host.Outcome State Fault Refusal :=
  .next (command h { op := 0x0C13, who := who0 } (fun c s =>
    if s.rec_.freeze.elim false fun f => f.holder ≠ c.mb then no s .busy
    else
      let s := eraseEnds s
      let held := s.rec_.freeze.isSome
      let n := s.nv.flash.length + s.rec_.ram.length
      accepted { s with
        nv := { s.nv with flash := [], savedLost := [0, 0, 0, 0] }
        rec_ := { s.rec_ with ram := [], flushing := none, lost := [0, 0, 0, 0], lostNew := [0, 0, 0, 0], freeze := none
                              clearing := some (n, held) } } .recClear 0) s)

/-- R725: the erase has ended. -/
def execRecorderEraseDone (dt : Nat) (s : State) : Host.Outcome State Fault Refusal := .next (event dt eraseEnds s)

/-- R719, R727: `REC_FLUSH`; while the log is frozen it writes nothing and answers OK. -/
def execRecFlush (h : Hdr) (s : State) : Host.Outcome State Fault Refusal :=
  .next (command h { op := 0x0C14, who := who0Side } (fun _ s =>
    if frozen s then ok s else accepted (startFlush s) .recFlush 0) s)

/-- End every piece of accepted work of a kind and number; what stood behind it and no opcode names is answered. -/
def finishAll (k : WorkKind) (id : Nat) (st : Status) (d : List Fld) (s : State) : State :=
  let w := s.sq.work.filter fun w => w.kind = k && w.id = id
  let s := { s with sq := { s.sq with work := s.sq.work.filter fun w => !(w.kind = k && w.id = id) } }
  w.foldl (fun s w => skipUnknown w.mb (finishWork w st d s)) s

/-- R688 step 5, R690 step 5: the flush of a drain has ended: DRAIN_OK, and the final response of TRAY_DRAIN. -/
def drainFlushed (s : State) : State :=
  if s.red.drain = .flushing then
    finishAll .trayDrain 0 .ok [] { s with
      red := { s.red with drain := .drained, lastDrain := nextStamp s }, tray := { s.tray with drainOk := true } }
  else s

/-- R720: a flush completes; the commands that asked for it have their final responses. -/
def execRecorderFlushDone (dt : Nat) (s : State) : Host.Outcome State Fault Refusal :=
  .next (event dt (fun s =>
    if s.rec_.flushing.isSome then drainFlushed (finishAll .recFreeze 0 .ok [] (finishAll .recFlush 0 .ok [] (flushDone s))) else s) s)

/-- R719: the flush of every 60 s; it writes nothing while the log is frozen. -/
def execRecorderFlushTimer (dt : Nat) (s : State) : Host.Outcome State Fault Refusal :=
  .next (event dt (fun s =>
    if frozen s || boardAlone s || s.rec_.flushing.isSome then s else startFlush s) s)

/-- R722, R723: the period of a freeze ends, and the records that waited are flushed. -/
def execFreezeExpiry (dt : Nat) (s : State) : Host.Outcome State Fault Refusal :=
  .next (event dt (fun s =>
    match s.rec_.freeze with
    | some f =>
      if f.started && f.until_ ≤ now s then startFlush { s with rec_ := { s.rec_ with freeze := none } } else s
    | none => s) s)

/-- R721: a flash page fails to program: the block is retired with 0x1604; when no erased space remains the recorder
keeps to RAM, sets flash_fail and asserts ALERT_N. -/
def execFlashProgramFail (dt : Nat) (erasedLeft : Bool) (s : State) : Host.Outcome State Fault Refusal :=
  .next (event dt (fun s =>
    let s := recordSq 0x1604 2 [] s
    if erasedLeft then s else raiseAlert .flashFail { s with rec_ := { s.rec_ with flashFail := true } }) s)

/-- R724, R730: a write of `REC_CURSOR` through PF0's BAR0. -/
def execRecCursorWrite (dt slot : Nat) (ram auto : Bool) (s : State) : Host.Outcome State Fault Refusal :=
  .next (event dt (fun s =>
    if s.tray.linkUp then { s with rec_ := { s.rec_ with cursor := ⟨slot % 2 ^ 23, ram, auto⟩ } } else s) s)

/-- R724: the records that `REC_WINDOW` shows; slots beyond the log read as zero. -/
def recWindow (s : State) : List (Option EvRec) :=
  let l := if s.rec_.cursor.ram then s.rec_.ram else s.nv.flash
  (List.range 64).map fun i => l[s.rec_.cursor.slot + i]?

/-- R724: with auto set, a read of the window's last 8 bytes advances the cursor by 64. -/
def execRecWindowAutoRead (dt : Nat) (s : State) : Host.Outcome State Fault Refusal :=
  .next (event dt (fun s =>
    if s.tray.linkUp && s.rec_.cursor.auto then
      { s with rec_ := { s.rec_ with cursor := { s.rec_.cursor with slot := wrapAdd 23 s.rec_.cursor.slot 64 } } }
    else s) s)

end Sys2Proof.Machine
end

