-- ==== Sys2Proof/Machine/MemOps.lean ====
section
/-! DEFINITION. The memory system: the address map (R39), the 144/128 code (R235–R240), lots (R40–R46), the yards'
lines (R250–R259), and reads and writes of bytes with their check bits. -/
namespace Sys2Proof.Machine

/-! ### The address map -/

/-- The windows of R39. -/
inductive Window where
  | lpddr (group : Nat)
  | slab (yard : Nat) (quarter : Nat)
  | bench (b : Nat)
  | square
  | regs
  | unmapped
  deriving DecidableEq, Repr, Inhabited

/-- R39, R254: the window a local address lies in. -/
def windowOf (a : Nat) : Window :=
  if a < 0x10000000000 then .lpddr (a / 2 ^ 36)
  else if 0x80000000000 ≤ a && a < 0x80008000000 then
    .slab ((a - 0x80000000000) / 0x800000) ((a - 0x80000000000) % 0x800000 / 0x200000)
  else if 0x90000000000 ≤ a && a < 0x9001F800000 then .bench ((a - 0x90000000000) / 0x200000)
  else if 0xA0000000000 ≤ a && a < 0xA0000600000 then .square
  else if 0xF0000000000 ≤ a && a < 0xF0004000000 then .regs
  else .unmapped

/-- R43: a byte of a bench stride beyond the populated 1.5 MiB holds nothing. -/
def benchHole (a : Nat) : Bool :=
  match windowOf a with
  | .bench _ => 0x180000 ≤ (a - 0x90000000000) % 0x200000
  | _ => false

/-- The base address of a bench store and of a yard's slab. -/
def benchBase (b : Nat) : Nat := 0x90000000000 + b * 0x200000
def slabBase (g : Nat) : Nat := 0x80000000000 + g * 0x800000

/-- R12: the block of a bench. -/
def blockOf (b : Nat) : Nat :=
  if b < 112 then b / 4
  else if b < 116 then 28
  else if b < 118 then 30
  else if b < 120 then 31
  else if b < 122 then 32
  else if b < 126 then 33
  else if b < 130 then 29
  else if b < 132 then 30
  else if b < 134 then 31
  else if b < 136 then 32
  else if b < 140 then 34
  else b / 4

/-- R12: the benches of a block, in ascending order. -/
def blockBenches (k : Nat) : List Nat := (List.range 252).filter fun b => blockOf b = k

/-- R268, R612, R615: the context that owns a channel group and its yard. -/
def groupOwner (s : State) (g : Nat) : Option Nat :=
  (List.range 16).find? fun c => (ctxOf s c).state ≠ .undefined && bitOf (ctxOf s c).groups g

/-- R612: the context whose blocks are ASSIGNED to it now: RESIDENT, HALTED or being switched. -/
def holdsBlocks (x : CtxSt) : Bool := x.state = .resident || x.state = .halted || x.state = .switching

/-- R188: a block that leaves its context while a stopped run still drains on it: it is not cleared yet. -/
def draining (s : State) (k : Nat) : Bool :=
  s.benches.scrubbing.contains k && (blockBenches k).any fun b => (tget s.benches.benches b {}).cur.isSome

/-- The context to which a block is assigned. -/
def blockOwner (s : State) (k : Nat) : Option Nat :=
  if draining s k then (s.benches.leftBy.find? fun p => p.1 = k).map (·.2) else (List.range 16).find? fun c => holdsBlocks (ctxOf s c) && bitOf (ctxOf s c).blocks k

/-- The context that owns the memory behind an address. -/
def addrOwner (s : State) (a : Nat) : Option Nat :=
  match windowOf a with
  | .lpddr g => groupOwner s g
  | .slab g _ => groupOwner s g
  | .bench b => blockOwner s (blockOf b)
  | _ => none

def groupOf (s : State) (g : Nat) : GroupSt := tget s.mem.groups g {}

def modGroup (g : Nat) (f : GroupSt → GroupSt) (s : State) : State :=
  { s with mem := { s.mem with groups := tmod s.mem.groups g {} f } }

def yardOf (s : State) (g : Nat) : YardSt := tget s.mem.yards g {}

def modYard (g : Nat) (f : YardSt → YardSt) (s : State) : State :=
  { s with mem := { s.mem with yards := tmod s.mem.yards g {} f } }

/-- R267: the group is excluded, or its yard is. -/
def groupExcluded (s : State) (g : Nat) : Bool := !bitOf s.boot.capGroups g

/-- The module has not reached READY in this boot (R121). -/
def beforeReady (s : State) : Bool := s.boot.phase = .booting || (s.boot.phase = .service && !s.boot.ended.contains 20)

/-- R257: the yard passed YARD_INIT while MEM_TRAIN or MEM_TEST has excluded its group: all four quarters are slab. -/
def slabOnly (s : State) (g : Nat) : Bool :=
  if beforeReady s then
    (itemOf s 11 g).settled && !(itemOf s 11 g).excluded && ((itemOf s 9 g).excluded || (itemOf s 10 g).excluded)
  else groupExcluded s g && bitOf s.boot.yards g

/-- R254, R257: the quarters of a yard in slab mode. -/
def slabMask (s : State) (g : Nat) : Nat := if slabOnly s g then 15 else (yardOf s g).slab

/-- A gauge of a unit (class × 4096 + instance) counts on, in 48 bits (R702). -/
def gauge (unit idx n : Nat) (s : State) : State :=
  { s with gau := { s.gau with cnt := tmod s.gau.cnt (unit * 32 + idx) 0 fun v => wrapAdd 48 v n } }

/-! ### The code over GF(16) -/

/-- R236: multiply by α: α^4 = α + 1. -/
def gfTwice (a : Nat) : Nat := if a < 8 then 2 * a else (2 * a - 16) ^^^ 3

/-- R236: the product in GF(16). -/
def gfMul (a b : Nat) : Nat :=
  let a1 := gfTwice a
  let a2 := gfTwice a1
  let a3 := gfTwice a2
  (if bitOf b 0 then a else 0) ^^^ (if bitOf b 1 then a1 else 0) ^^^ (if bitOf b 2 then a2 else 0)
    ^^^ (if bitOf b 3 then a3 else 0)

/-- A syndrome, and a column of R237. -/
structure Syn where
  s0 : Nat
  s1 : Nat
  s2 : Nat
  s3 : Nat
  deriving DecidableEq, Repr, Inhabited

def synAdd (a b : Syn) : Syn := ⟨a.s0 ^^^ b.s0, a.s1 ^^^ b.s1, a.s2 ^^^ b.s2, a.s3 ^^^ b.s3⟩

def synScale (k : Nat) (a : Syn) : Syn := ⟨gfMul k a.s0, gfMul k a.s1, gfMul k a.s2, gfMul k a.s3⟩

/-- R237: the column of data symbol t (0–31). -/
def dataColumn (t : Nat) : Syn :=
  let x := t % 16
  let y := 2 + t / 16
  ⟨1, x, y, gfMul x x ^^^ gfMul x y ^^^ gfMul 8 (gfMul y y)⟩

/-- R237: the column of check symbol k (0–3). -/
def checkColumn (k : Nat) : Syn :=
  match k with
  | 0 => ⟨1, 0, 0, 0⟩
  | 1 => ⟨0, 0, 0, 1⟩
  | 2 => ⟨1, 1, 0, 1⟩
  | _ => ⟨1, 0, 1, 8⟩

/-- Symbol t of a number (R235). -/
def symbolOf (v t : Nat) : Nat := v / 16 ^ t % 16

/-- R238: the sum of the data symbols' columns. -/
def dataSum (d : Nat) : Syn := foldN 32 (fun t a => synAdd a (synScale (symbolOf d t) (dataColumn t))) ⟨0, 0, 0, 0⟩

/-- R238: the check bits of a 128-bit data word. -/
def encodeCheck (d : Nat) : Nat :=
  let s := dataSum d
  let c2 := s.s1
  let c3 := s.s2
  let c0 := s.s0 ^^^ s.s1 ^^^ s.s2
  let c1 := s.s3 ^^^ s.s1 ^^^ gfMul 8 s.s2
  c0 + 16 * c1 + 256 * c2 + 4096 * c3

/-- R237: the syndrome of a word whose stored check bits are those of R238 XORed with `x`. -/
def syndromeOf (x : Nat) : Syn := foldN 4 (fun k a => synAdd a (synScale (symbolOf x k) (checkColumn k))) ⟨0, 0, 0, 0⟩

/-- R239: the outcomes of a check; CORRECTED names the symbol (data 0–31, checks 32–35) and the error. -/
inductive WordOutcome where
  | clean
  | poison
  | corrected (symbol err : Nat)
  | detected
  deriving DecidableEq, Repr, Inhabited

/-- R239: decode a syndrome. -/
def decodeSyn (s : Syn) : WordOutcome :=
  if s = ⟨0, 0, 0, 0⟩ then .clean
  else if s = ⟨0, 1, 0, 0⟩ then .poison
  else if s.s0 = 0 then
    if s.s1 = 0 && s.s2 = 0 then .corrected 33 s.s3 else .detected
  else
    match (List.range 32).find? fun t => synScale s.s0 (dataColumn t) = s with
    | some t => .corrected t s.s0
    | none =>
      match [0, 2, 3].find? fun k => synScale s.s0 (checkColumn k) = s with
      | some k => .corrected (32 + k) s.s0
      | none => .detected

/-- R240: the check difference of a poisoned word. -/
def poisonMask : Nat := 0x0111

/-- The outcome of a word with a check difference. -/
def outcomeOf (x : Nat) : WordOutcome := if x = 0 then .clean else decodeSyn (syndromeOf x)

/-- The word is not usable: POISON or DETECTED. -/
def badWord (x : Nat) : Bool :=
  match outcomeOf x with
  | .poison => true
  | .detected => true
  | _ => false

/-! ### Bytes in canonical form -/

/-- What a byte reads as when nothing has written it (log entry 5). -/
def emptyByte : Byte := 0

/-- Read a byte of the stored cells. -/
def cellRead (m : List Host.Cell) (a : Nat) : Byte := tget m a emptyByte

/-- Write a byte: the cells stay sorted, and a byte equal to what an unlisted one reads as is not listed. -/
def cellWrite (m : List Host.Cell) (a : Nat) (v : Byte) : List Host.Cell :=
  if v = emptyByte then tdel m a else tset m a v

/-- The canonical form of stored cells: addresses strictly rising, and no listed byte equal to an unlisted one. -/
def cellsWf : List Host.Cell → Bool
  | [] => true
  | [c] => c.2 ≠ emptyByte
  | c :: d :: r => c.1 < d.1 && c.2 ≠ emptyByte && cellsWf (d :: r)

/-- The memory is in canonical form. -/
def memoryWf (s : State) : Bool := cellsWf s.mem.bytes

/-- Forget every cell of a window: it reads as zeros with valid check bits (R615, R188, R255). -/
def clearRange (lo hi : Nat) (s : State) : State :=
  { s with mem := { s.mem with
      bytes := s.mem.bytes.filter fun c => c.1 < lo || hi ≤ c.1
      chk := s.mem.chk.filter fun c => 16 * c.1 + 15 < lo || hi ≤ 16 * c.1
      bkey := s.mem.bkey.filter fun c => 256 * c.1 + 255 < lo || hi ≤ 256 * c.1
      hidden := s.mem.hidden.filter fun h => 16 * h.word + 15 < lo || hi ≤ 16 * h.word } }

/-! ### Lots -/

/-- R40: the fields of a lot entry. -/
def lotValid (e : Word) : Bool := e.getLsbD 55
def lotEnc (e : Word) : Bool := e.getLsbD 54
def lotExport (e : Word) : Bool := e.getLsbD 53
def lotExec (e : Word) : Bool := e.getLsbD 52
def lotAtomic (e : Word) : Bool := e.getLsbD 51
def lotWrite (e : Word) : Bool := e.getLsbD 50
def lotRead (e : Word) : Bool := e.getLsbD 49
def lotBase (e : Word) : Nat := (e.extractLsb' 0 23).toNat * 0x200000
def lotLimit (e : Word) : Nat := (e.extractLsb' 23 23).toNat * 0x200000

/-- The rights an operation needs (R43). -/
inductive Right where
  | r | w | a | x
  deriving DecidableEq, Repr, Inhabited

def lotGrants (e : Word) : Right → Bool
  | .r => lotRead e
  | .w => lotWrite e
  | .a => lotAtomic e
  | .x => lotExec e

/-- R43: a lot contains every byte of an access, and none lies in the hole of a bench stride. -/
def lotCovers (e : Word) (a len : Nat) : Bool := lotValid e && lotBase e ≤ a && a + len ≤ lotLimit e

/-- R43: every byte of an access that touches a bench stride lies in its populated part (a lot over bench stores holds
whole strides, so an access of less than 0.5 MiB that reaches the hole begins or ends in it). -/
def populated (a len : Nat) : Bool :=
  match windowOf a with
  | .bench _ => (a - 0x90000000000) % 0x200000 + len ≤ 0x180000
  | _ => true

/-- R43: the access passes the lot table of a context; a remote one needs e as well. -/
def lotPasses (s : State) (c a len : Nat) (need : Right) (remote : Bool) : Bool :=
  populated a len && (ctxOf s c).lots.any fun e =>
    e.1 < 256 && lotCovers e.2 a len && lotGrants e.2 need && (!remote || lotExport e.2)

/-- The lot of a context, among its valid ones, that contains an address range. -/
def lotAt (s : State) (c a len : Nat) : Option (Nat × Word) := (ctxOf s c).lots.find? fun e => lotCovers e.2 a len

/-- A valid lot of a context by its base. -/
def lotByBase (s : State) (c b : Nat) : Option Word :=
  ((ctxOf s c).lots.find? fun e => e.1 < 256 && lotValid e.2 && lotBase e.2 = b).map (·.2)

def lotSize (e : Word) : Nat := lotLimit e - lotBase e

/-! ### Encryption -/

/-- R271: the page of an LPDDR5X address, of 64 KiB. -/
def pageOf (a : Nat) : Nat := a / 65536

/-- R644: the page is still under the old epoch. -/
def oldEpoch (x : CtxSt) (p : Nat) : Bool := x.oldPages.any fun r => r.1 ≤ p && p < r.2

/-- R270, R640: a key of a context: its generation × 2 and the context's cipher (1 for SM4); 0 where there is none. -/
def keyOf (x : CtxSt) (gen : Nat) : Nat := if gen = 0 then 0 else 2 * gen + x.cipher % 2

/-- R270, R271: the key that the engine selects for an address: 0 where the page has no enc bit. -/
def keyFor (s : State) (a : Nat) : Nat :=
  match windowOf a with
  | .lpddr g =>
    match groupOwner s g with
    | some c =>
      let x := ctxOf s c
      if x.lots.any fun e => lotCovers e.2 a 1 && lotEnc e.2 then
        keyOf x (if oldEpoch x (pageOf a) then x.keyOld else x.keyCur)
      else 0
    | none => 0
  | _ => 0

/-- The stored bytes of the word that holds an address. -/
def storedWord (s : State) (a : Nat) : List Byte := (List.range 16).map fun i => cellRead s.mem.bytes (a / 16 * 16 + i)

/-- The check difference of the word that holds an address. -/
def chkAt (s : State) (a : Nat) : Nat := tget s.mem.chk (a / 16) 0

/-- What a corrected word's data differ by. -/
def correctedMask : WordOutcome → Nat
  | .corrected sym err => if sym < 32 then err * 16 ^ sym else 0
  | _ => 0

/-- A word's bytes XORed with a 128-bit mask. -/
def xorWord (m : Nat) (l : List Byte) : List Byte := l.zipWith (· ^^^ ·) (leBytes 16 m)

/-- The yard of an LPDDR5X address holds its line. -/
def lineHeld (s : State) (a : Nat) : Bool :=
  match windowOf a with
  | .lpddr g => (yardOf s g).lines.any fun l => l.set_ = a / 256 % 2048 && l.tag = a % 2 ^ 36 / 2 ^ 19
  | _ => false

/-- R269, R271: an access of the address is a transfer between memory and the yard; what the yard holds is plaintext. -/
def pastYard (s : State) (a : Nat) : Bool := a < 0x10000000000 && !lineHeld s a

/-- R271, R272: the transfer passes the encryption engine. -/
def byEngine (s : State) (a : Nat) : Bool := pastYard s a && keyFor s a ≠ 0

/-- R269–R272, R274: one byte as the yard gives it: of what it does not hold, the corrected word, decrypted under the selected key; where no
key is selected, the word as it rests in memory. -/
def readByte (s : State) (a : Nat) : Byte :=
  let k := tget s.mem.bkey (a / 256) 0
  let x := chkAt s a
  if a < 0x10000000000 && (k ≠ keyFor s a || x ≠ 0) && !lineHeld s a then
    let m := correctedMask (outcomeOf x)
    let l := recrypt k (keyFor s a) (a / 256) (a / 16 % 16) (xorWord m (storedWord s a))
    (if keyFor s a = 0 then xorWord m l else l).getD (a % 16) 0
  else cellRead s.mem.bytes a

/-- The bytes of a range. -/
def readBytes (s : State) (a : Nat) : Nat → List Byte
  | 0 => []
  | n + 1 => readByte s a :: readBytes s (a + 1) n

/-- R272: the check difference of a word as the yard gives it: the engine encodes afresh, and poisons what it cannot correct. -/
def chkSeen (s : State) (w : Nat) : Nat :=
  let x := tget s.mem.chk w 0
  if x ≠ 0 && byEngine s (16 * w) then (if badWord x then poisonMask else 0) else x

/-- The words that a range touches. -/
def wordsOf (a len : Nat) : List Nat := if len = 0 then [] else (List.range ((a + len - 1) / 16 + 1 - a / 16)).map (a / 16 + ·)

/-- A word of a range is poisoned or DETECTED. -/
def rangeBad (s : State) (a len : Nat) : Bool := (wordsOf a len).any fun w => badWord (chkSeen s w)

/-- Store one byte. -/
def putByte (a : Nat) (v : Byte) (s : State) : State :=
  { s with mem := { s.mem with bytes := cellWrite s.mem.bytes a v } }

/-- Store bytes from an address on. -/
def putBytes (a : Nat) : List Byte → State → State
  | [], s => s
  | v :: r, s => putBytes (a + 1) r (putByte a v s)

/-- Set the check difference of a word; 0 is not listed. -/
def putChk (w x : Nat) (s : State) : State :=
  { s with mem := { s.mem with chk := if x = 0 then tdel s.mem.chk w else tset s.mem.chk w x } }

/-- The 16 bytes of a word as a consumer uses them (R239, R242). -/
def wordBytes (s : State) (w : Nat) : List Byte := xorWord (correctedMask (outcomeOf (chkSeen s w))) (readBytes s (16 * w) 16)

/-- The bytes of a range as a consumer uses them. -/
def consumeBytes (s : State) (a len : Nat) : List Byte :=
  (((wordsOf a len).flatMap (wordBytes s)).drop (a % 16)).take len

/-! ### Counting errors (R243, R265) -/

/-- The unit identifier (R695) of the level that a word was last read from: the bench store, the yard when it holds
the line or the slab, or the channel group. -/
def levelUnit (s : State) (a : Nat) : Nat :=
  match windowOf a with
  | .bench b => 0x1000 + b
  | .slab g _ => 0x2000 + g
  | .lpddr g => if lineHeld s a then 0x2000 + g else 0x3000 + g
  | _ => 0

/-- R15: the channel group and the position in it of a package's channel. -/
def channelOf (p n : Nat) : Nat × Nat := (4 * (p / 9) + (4 * (p % 9) + n) / 9, (4 * (p % 9) + n) % 9)

/-- R15: the package and its channel at a position of a channel group. -/
def channelAt (g pos : Nat) : Nat × Nat := (9 * (g / 4) + (9 * (g % 4) + pos) / 4, (9 * (g % 4) + pos) % 4)

/-- R15: the packages that a channel group uses; one that it shares stays powered for its other group. -/
def groupPackages (g : Nat) : List Nat := ((List.range 9).map fun pos => (channelAt g pos).1).eraseDups

/-- R246: the channel position of a symbol. -/
def symbolPos (sym : Nat) : Nat := if sym < 32 then sym / 4 else 8

/-- R247, R249: where a local address of LPDDR5X lies in its channel group: bank-group mode of 4 bank groups of 4 banks. -/
structure DramAddr where
  group : Nat
  rank : Nat
  bankGroup : Nat
  bank : Nat
  row : Nat
  column : Nat
  codeword : Nat
  byte_ : Nat
  deriving DecidableEq, Repr, Inhabited

/-- R247: the address decode. -/
def dramOf (a : Nat) : DramAddr :=
  { group := a / 2 ^ 36, rank := a / 2 ^ 18 % 2, bankGroup := a / 256 % 4, bank := a / 2 ^ 16 % 4, row := a / 2 ^ 19 % 131072,
    column := a / 1024 % 64, codeword := a / 16 % 16, byte_ := a % 256 }

/-- R246, R248: where bit i of a symbol of codeword j travels: the channel position, the DQ lane and the beat. -/
def symbolLane (sym j i : Nat) : Nat × Nat × Nat := (symbolPos sym, 4 * (j % 4) + sym % 4, 4 * (j / 4) + i)

/-- R15, R267: the PHY domain of a package is powered: some channel group that it serves is not excluded. -/
def phyPowered (s : State) (p : Nat) : Bool := (List.range 4).any fun n => !groupExcluded s (channelOf p n).1

/-- R239: a syndrome as the register shows it, S3–S0 from bit 15 down. -/
def synNat (s : Syn) : Nat := s.s0 + 16 * s.s1 + 256 * s.s2 + 4096 * s.s3

/-- R265: a time joins the times of a span; `n` of them are kept. -/
def recentTimes (l : List Nat) (t span n : Nat) : List Nat := ((t :: l).filter fun x => t < x + span).take n

/-- R265: the 1,025th corrected error within an hour: 0x3111, a notification and the long test, unless the group is to be excluded
already. -/
def ceThreshold (g before : Nat) (s : State) : State :=
  if before ≤ 1024 && 1024 < (groupOf s g).ceTimes.length then
    notify 4 0x3111 (0x3000 + g) (record 0x3111 1 (0x3000 + g) none false []
      { s with nv := { s.nv with nextBoot := tset s.nv.nextBoot g (max (tget s.nv.nextBoot g 0) 1) } })
  else s

/-- R265: the 16th detected error within 24 h: 0x3112 and exclusion. -/
def dueThreshold (g before : Nat) (s : State) : State :=
  if before < 16 && 16 ≤ (groupOf s g).dueTimes.length then
    record 0x3112 2 (0x3000 + g) none false [] { s with nv := { s.nv with nextBoot := tset s.nv.nextBoot g 2 } }
  else s

/-- R280: a channel group counts an outcome. -/
def countGroup (g addr : Nat) (o : WordOutcome) (x : Nat) (s : State) : State :=
  let p := issueStamp s
  let s := p.2
  let hour := 3600000000000
  let ev (sym : Nat) (d : Bool) : ErrEvent := ⟨addr / 16 * 16, sym, synNat (syndromeOf x), d, p.1⟩
  let live (l : List Nat) (span : Nat) : Nat := (l.filter fun t => now s < t + span).length
  match o with
  | .corrected sym _ =>
    ceThreshold g (live (groupOf s g).ceTimes hour) (modGroup g (fun q => { q with
      ceCount := satAdd 64 q.ceCount 1
      cePos := q.cePos.modify (symbolPos sym) fun n => satAdd 16 n 1
      events := (ev sym false :: q.events).take 16
      ceTimes := recentTimes q.ceTimes (now s) hour 1025 }) s)
  | .detected =>
    dueThreshold g (live (groupOf s g).dueTimes (24 * hour)) (modGroup g (fun q => { q with
      dueCount := satAdd 64 q.dueCount 1
      events := (ev 63 true :: q.events).take 16
      dueTimes := recentTimes q.dueTimes (now s) (24 * hour) 16 }) s)
  | _ => s

/-- R243: a consumer counts an outcome against the level of the word, with its recorder entry. -/
def countErr (addr x : Nat) (s : State) : State :=
  let u := levelUnit s addr
  let o := outcomeOf x
  let bump (ce : Bool) (s : State) : State :=
    match u / 4096 with
    | 1 => { s with mem := { s.mem with benchErr := tmod s.mem.benchErr (u % 4096) (0, 0) fun p =>
        if ce then (satAdd 64 p.1 1, p.2) else (p.1, satAdd 64 p.2 1) } }
    | 2 => modYard (u % 4096) (fun y =>
        if ce then { y with sramCe := satAdd 64 y.sramCe 1 } else { y with sramDue := satAdd 64 y.sramDue 1 }) s
    | _ => countGroup (u % 4096) addr o x s
  match o with
  | .corrected _ _ => record 0x3110 0 u (addrOwner s addr) true [⟨8, addr⟩] (bump true s)
  | .detected => record 0x3101 2 u (addrOwner s addr) false [⟨8, addr⟩] (bump false s)
  | _ => s

/-- R231, R243: a consumer reads a range: every word's outcome is counted, but what the engine has already checked (R272). -/
def consumeCount (a len : Nat) (s : State) : State :=
  (wordsOf a len).foldl (fun s w =>
    let x := chkSeen s w
    if x = 0 then s else countErr (16 * w) x s) s

/-! ### Writing -/

/-- Note the key generation that a burst is stored under; 0, a plain burst, is not listed. -/
def tagBurst (b k : Nat) (s : State) : State :=
  { s with mem := { s.mem with bkey := if k = 0 then tdel s.mem.bkey b else tset s.mem.bkey b k } }

/-- R272: a word passes an encryption engine: it is checked and counted, corrected, and encoded afresh; a DETECTED one leaves poisoned. -/
def engineWord (w : Nat) (s : State) : State :=
  let x := tget s.mem.chk w 0
  match outcomeOf x with
  | .corrected _ _ =>
    putChk w 0 (putBytes (16 * w) (xorWord (correctedMask (outcomeOf x)) (storedWord s (16 * w))) (countErr (16 * w) x s))
  | .detected => putChk w poisonMask (countErr (16 * w) x s)
  | _ => s

/-- The words of a 256-byte burst. -/
def burstWords (a : Nat) : List Nat := (List.range 16).map (a / 256 * 16 + ·)

/-- R272: a burst that is read and written again passes the engine, where its page has enc set. -/
def passEngine (a : Nat) (s : State) : State :=
  if keyFor s a = 0 then s else (burstWords a).foldl (fun s w => engineWord w s) s

/-- R641, R274: before part of a burst is written past the yard under another key, the burst is read through the engine and kept
under the selected key. -/
def rekeyBurst (a : Nat) (s : State) : State :=
  if pastYard s a && tget s.mem.bkey (a / 256) 0 ≠ keyFor s a then
    let s := passEngine a s
    tagBurst (a / 256) (keyFor s a) (putBytes (a / 256 * 256) (readBytes s (a / 256 * 256) 256) s)
  else s

/-- R245, R253: write bytes inside one word. A whole word takes the check difference `x` of what is written; a merge
checks the old word and the new bytes: a poisoned one stays poisoned, another is encoded afresh. -/
def writeWord (a : Nat) (l : List Byte) (x : Nat) (s : State) : State :=
  let w := a / 16
  if a % 16 = 0 && l.length = 16 then putChk w x (putBytes a l s)
  else
    let o := chkSeen s w
    let s := if o = 0 then s else countErr a o s
    let base := wordBytes s w
    let new := l.zipWith (· ^^^ ·) ((leBytes 16 (correctedMask (outcomeOf x))).drop (a % 16))
    let merged := base.take (a % 16) ++ new ++ base.drop (a % 16 + l.length)
    let nx := if badWord o || badWord x then poisonMask else 0
    putChk w nx (putBytes (16 * w) merged s)

/-- Write bytes from an address on; `xs` are the check differences of the words as they travel (R241), in order, and
0 when none is given. -/
def writeChunks : Nat → Nat → List Byte → List Nat → State → State
  | 0, _, _, _, s => s
  | n + 1, a, l, xs, s =>
    if l.isEmpty then s
    else
      let k := min (16 - a % 16) l.length
      writeChunks n (a + k) (l.drop k) (xs.drop 1) (writeWord a (l.take k) (xs.headD 0) (rekeyBurst a s))

/-- A write of bytes at a local address. -/
def writeBytes (a : Nat) (l : List Byte) (xs : List Nat) (s : State) : State := writeChunks (l.length + 1) a l xs s

/-- A read that is not a consumption: bytes and the check differences of its words (R241). -/
def carryBytes (s : State) (a len : Nat) : List Byte × List Nat :=
  (readBytes s a len, (wordsOf a len).map (chkSeen s))

/-- R241: the check differences of bytes that move from byte `skew` of the words in which they came, with the differences `xs`, to the address
`dst`. Words that keep their place keep their check bits; in others an error stays one, and a word that is not usable poisons
(DEDUCED, log entry 14). -/
def realign (skew dst n : Nat) (xs : List Nat) : List Nat :=
  if skew % 16 = dst % 16 then xs
  else if xs.all (· = 0) then []
  else (List.range (ceilDiv (dst % 16 + n) 16)).map fun j =>
    let from_ (k : Nat) : Option Nat :=
      if dst % 16 ≤ 16 * j + k && 16 * j + k < dst % 16 + n then some (16 * j + k - dst % 16 + skew % 16) else none
    if (List.range 16).any fun k => (from_ k).elim false fun p => badWord (xs.getD (p / 16) 0) then poisonMask
    else encodeCheck (foldN 16 (fun k a => a + 256 ^ k * (from_ k).elim 0 fun p =>
      correctedMask (outcomeOf (xs.getD (p / 16) 0)) / 256 ^ (p % 16) % 256) 0)

/-! ### Yard lines -/

/-- R282: the tags of a yard in use: those that its prefetches and its ports hold. -/
def yardTags (y : YardSt) : Nat := y.tags + y.ports.foldl (· + ·) 0

/-- R151: an edge unit's access holds a tag of the edge port while it is served. -/
def edgeTag (a : Nat) (s : State) : State :=
  let peak (y : YardSt) : YardSt := { y with tagsHigh := max y.tagsHigh (yardTags y + 1) }
  match windowOf a with
  | .lpddr g => modYard g peak s
  | .slab g _ => modYard g peak s
  | _ => s

/-- R250: the set and tag of an address. -/
def setOf (a : Nat) : Nat := a / 256 % 2048
def tagOf (a : Nat) : Nat := a % 2 ^ 36 / 2 ^ 19

def lineIs (a : Nat) (l : Line) : Bool := l.set_ = setOf a && l.tag = tagOf a

/-- The address of a line of yard g. -/
def lineAddr (g : Nat) (l : Line) : Nat := g * 2 ^ 36 + l.tag * 2 ^ 19 + l.set_ * 256

/-- An injection under a cached line: a write-back replaces it, dropping a clean line lets it show. -/
def uncover (g : Nat) (l : Line) (s : State) : State :=
  let a := lineAddr g l
  let here := s.mem.hidden.filter fun h => h.word / 16 = a / 256
  let s := { s with mem := { s.mem with hidden := s.mem.hidden.filter fun h => h.word / 16 ≠ a / 256 } }
  if l.dirty then s
  else here.foldl (fun s h =>
    let d := leBytes 16 h.dataMask
    let b := (readBytes s (16 * h.word) 16).zipWith (· ^^^ ·) d
    putChk h.word (tget s.mem.chk h.word 0 ^^^ encodeCheck h.dataMask ^^^ h.chkMask) (putBytes (16 * h.word) b s)) s

/-- The word in memory beneath the yard's copy: how its data differ from the copy's, and its check difference. -/
def beneath (s : State) (w : Nat) : Nat × Nat :=
  (s.mem.hidden.filter fun h => h.word = w).foldl (fun p h => (p.1 ^^^ h.dataMask, p.2 ^^^ encodeCheck h.dataMask ^^^ h.chkMask))
    (0, tget s.mem.chk w 0)

/-- The word in memory beneath the yard's copy differs from it by the mask `d` and has the check difference `x`. -/
def setBeneath (w d x : Nat) (s : State) : State :=
  let c := tget s.mem.chk w 0 ^^^ encodeCheck d ^^^ x
  let l := s.mem.hidden.filter fun h => h.word ≠ w
  { s with mem := { s.mem with hidden := if d = 0 && c = 0 then l else l ++ [⟨w, d, c⟩] } }

/-- The yard's copy of a word changes by `f`; the word in memory stays as it was. -/
def changeCopy (w : Nat) (f : State → State) (s : State) : State :=
  let b := beneath s w
  let old := leNat (storedWord s (16 * w))
  let s := f s
  setBeneath w (b.1 ^^^ old ^^^ leNat (storedWord s (16 * w))) b.2 s

/-- R642: the word in memory beneath the yard's copy passes the engine. -/
def engineBeneath (w : Nat) (s : State) : State :=
  let b := beneath s w
  let g := 16 * w / 2 ^ 36
  match outcomeOf b.2 with
  | .corrected _ _ => setBeneath w (b.1 ^^^ correctedMask (outcomeOf b.2)) 0
      (record 0x3110 0 (0x3000 + g) (groupOwner s g) true [⟨8, 16 * w⟩] (countGroup g (16 * w) (outcomeOf b.2) b.2 s))
  | .detected => setBeneath w b.1 poisonMask
      (record 0x3101 2 (0x3000 + g) (groupOwner s g) false [⟨8, 16 * w⟩] (countGroup g (16 * w) (outcomeOf b.2) b.2 s))
  | _ => s

/-- R250, R269, R271, R272: a burst is read from memory into the yard, through the engine where its page has enc set; what the engine corrects or
poisons stays as it was in memory, beneath the line. -/
def fillLine (g a : Nat) (s : State) : State :=
  let s := gauge (0x3000 + g) 0 256 s
  rekeyBurst a (if keyFor s a = 0 then s else (burstWords a).foldl (fun s w =>
    if tget s.mem.chk w 0 = 0 then s else changeCopy w (engineWord w) s) s)

/-- R645: the last page of the old epoch is gone: the old key is erased. -/
def sweepEnded (c : Nat) (had : Bool) (s : State) : State :=
  if had && (ctxOf s c).oldPages.isEmpty then
    record 0x9402 0 0x9000 (some c) false [] (modCtx c (fun x => { x with keyOld := 0 }) s)
  else s

/-- The page leaves the old epoch. -/
def dropPage (p : Nat) (l : List (Nat × Nat)) : List (Nat × Nat) :=
  l.flatMap fun r => if r.1 ≤ p && p < r.2 then [(r.1, p), (p + 1, r.2)].filter fun q => q.1 < q.2 else [r]

/-- R642, R643: one page is read and decrypted under the old key, and written under the new one. -/
def sweepOne (c p : Nat) (s : State) : State :=
  let s := ((s.mem.chk.map (·.1) ++ s.mem.hidden.map (·.word)).filter (· / 4096 = p)).eraseDups.foldl (fun s w =>
    if lineHeld s (16 * w) then engineBeneath w s else engineWord w s) s
  let l := (List.range 256).map fun b => (256 * p + b, readBytes s (65536 * p + 256 * b) 256)
  let s := modCtx c (fun x => { x with oldPages := dropPage p x.oldPages }) s
  let k := keyOf (ctxOf s c) (ctxOf s c).keyCur
  let s := l.foldl (fun s b => tagBurst b.1 k (putBytes (256 * b.1) b.2 s)) s
  let g := p / 2 ^ 20
  gauge (0x3000 + g) 1 65536 (gauge (0x3000 + g) 0 65536 s)

/-- R641: a write-back to a page whose epoch is still the old one first sweeps that page. -/
def sweepFirst (a : Nat) (s : State) : State :=
  match addrOwner s a with
  | some c => if a < 0x10000000000 && oldEpoch (ctxOf s c) (pageOf a) then sweepEnded c true (sweepOne c (pageOf a) s) else s
  | none => s

/-- A dirty line is written back (R250): under the new key (R641), through the engine where its page has enc set (R272), and kept under
the key that is selected then (R271). -/
def writeBack (a : Nat) (s : State) : State :=
  let s := passEngine a (sweepFirst a s)
  tagBurst (a / 256) (keyFor s a) s

/-- A line leaves the yard, a dirty one written back. -/
def dropLine (g : Nat) (l : Line) (s : State) : State :=
  let s := uncover g l (if l.dirty then writeBack (lineAddr g l) s else s)
  let s := modYard g (fun y => { y with lines := y.lines.filter (· ≠ l) }) s
  if l.dirty then gauge (0x3000 + g) 1 256 (gauge (0x2000 + g) 3 1 s) else s

/-- The ways of a yard in cache mode. -/
def cacheWays (s : State) (g : Nat) : List Nat := (List.range 16).filter fun w => !bitOf (slabMask s g) (w / 4)

/-- R250, R259: the victim among the lines of a full set: pinned lines stay; which of the others pseudo-LRU names is left
open (log entry 14). -/
def victimOf (l : List Line) (n : Nat) : Option Line :=
  let c := l.filter (·.due.isNone)
  if c.isEmpty then none else (c.drop (n % c.length)).head?

/-- R250, R259: the set of a line has a way in cache mode that no pinned line holds. -/
def roomFor (s : State) (g a : Nat) : Bool :=
  (cacheWays s g).any fun w => (yardOf s g).lines.all fun l => l.set_ ≠ setOf a || l.way ≠ w || l.due.isNone

/-- R251: bring a line into the yard, making room in its set; a line that is not written whole is filled first. -/
def allocLine (g a : Nat) (dirty fill : Bool) (due : Option Nat) (s : State) : State :=
  let ways := cacheWays s g
  let here := (yardOf s g).lines.filter fun l => l.set_ = setOf a
  let free := ways.find? fun w => here.all fun l => l.way ≠ w
  let put (w : Nat) (s : State) : State := modYard g (fun y =>
    let ls : List Line := y.lines ++ [Line.mk w (setOf a) (tagOf a) dirty due]
    { y with lines := ls, pinnedHigh := max y.pinnedHigh (ls.filter fun l => l.due.isSome).length }) s
  let s := if fill then fillLine g a s else s
  match free with
  | some w => put w s
  | none =>
    let p := takeFree s
    match victimOf here p.1 with
    | some v => put v.way (dropLine g v p.2)
    | none => p.2

/-- How an access uses the yard (R251). -/
inductive YardUse where
  | read | write | atomic
  deriving DecidableEq, Repr, Inhabited

/-- R272: the engine checks the words of a burst that passes it on its way to a bulk read. -/
def engineRead (a : Nat) (s : State) : State :=
  if keyFor s a = 0 then s
  else (burstWords a).foldl (fun s w => if tget s.mem.chk w 0 = 0 then s else countErr (16 * w) (tget s.mem.chk w 0) s) s

/-- R251, R259: one line's access in a traffic class, `whole` when it covers the line: hit or miss, allocation, and a first read
unpins. A bulk write of part of a line that misses fills, merges and writes the line; it is a write to memory (R641). -/
def touchLine (g a : Nat) (cls : TrafficClass) (use : YardUse) (whole : Bool) (s : State) : State :=
  let bulk := cls = .bulk && use ≠ .atomic
  let dirty := use ≠ .read
  let s := if bulk then gauge (0x2000 + g) 2 1 s else s
  if (yardOf s g).lines.any (lineIs a) then
    let s := if bulk then s else gauge (0x2000 + g) 0 1 s
    modYard g (fun y => { y with lines := mapIf (lineIs a) (fun l =>
      { l with dirty := l.dirty || dirty, due := if use = .read then none else l.due }) y.lines }) s
  else
    let s := gauge (0x2000 + g) 1 1 s
    let fill := !(whole && use = .write)
    if bulk then
      let s := if fill then gauge (0x3000 + g) 0 256 s else s
      if dirty then
        let s := sweepFirst a s
        gauge (0x3000 + g) 1 256 (if fill then passEngine a s else s)
      else engineRead a s
    else allocLine g a dirty fill none s

/-- R258: the line of a prefetch is filled and pinned, unless the pinned ways of its set are full or none is left to it (R259). -/
def fillPrefetch (g : Nat) (p : Prefetch) (s : State) : State :=
  let y := yardOf s g
  if y.lines.any (lineIs p.addr) then s
  else if 4 ≤ (y.lines.filter fun l => l.set_ = setOf p.addr && l.due.isSome).length || !roomFor s g p.addr then
    modYard g (fun y => { y with prefetchDrops := satAdd 64 y.prefetchDrops 1 }) s
  else gauge (0x2000 + g) 4 1 (allocLine g p.addr false true (some p.due) s)

/-- R258: the moment at which the fill of a line due at a stamp starts has come: its stamp less the fill latency that the yard measures. -/
def fillDue (s : State) (g due : Nat) : Bool := due ≤ s.time.t || due ≤ s.time.t + Config.fillLatency g s.time.t

/-- The lines of a range. -/
def linesOf (a len : Nat) : List Nat := if len = 0 then [] else (List.range ((a + len - 1) / 256 + 1 - a / 256)).map (fun i => 256 * (a / 256 + i))

/-- R251, R252: an access of a range in its yard, served in the order in which it reaches it: cached lines for LPDDR5X, slab accesses counted. -/
def yardAccess (a len : Nat) (cls : TrafficClass) (use : YardUse) (s : State) : State :=
  match windowOf a with
  | .lpddr _ => (linesOf a len).foldl (fun s l =>
      match windowOf l with
      | .lpddr g => touchLine g l cls use (a ≤ l && l + 256 ≤ a + len) s
      | _ => s) s
  | .slab g _ => gauge (0x2000 + g) 7 1 s
  | _ => s

/-- R45, R615: write back and invalidate every line of a yard that satisfies a test. -/
def flushYard (g : Nat) (p : Line → Bool) (s : State) : State :=
  ((yardOf s g).lines.filter p).foldl (fun s l => dropLine g l s) s

end Sys2Proof.Machine
end

