-- ==== Sys2Proof/Machine/Mesh.lean ====
section
/-! DEFINITION. The mesh: sites, links with their credits, the routing and the order of service of packets, and the tags of a yard's
ports (R9–R16, R150–R152, R180–R186). -/
namespace Sys2Proof.Machine

/-- R11: the site (street × 16 + avenue) of a bench. -/
def benchSite (b : Nat) : Nat :=
  if b < 112 then b
  else if b < 119 then 112 + (b - 112)
  else if b < 126 then 112 + (b - 110)
  else if b < 133 then 128 + (b - 126)
  else if b < 140 then 128 + (b - 124)
  else b + 4

/-- R10, R11: the bench at a site; none at the Square's four sites. -/
def siteBench (x : Nat) : Option Nat :=
  if x ∈ [119, 120, 135, 136] then none else (List.range 252).find? fun b => benchSite b = x

/-- R14, R184: the attachment crossing of a yard for an address, and whether its yard link is the second of a corner. -/
def yardCrossing (g a : Nat) : Nat :=
  let i := a / 256 % 4
  let n := 4 * (g % 4) + i
  match g / 4 with
  | 0 => n
  | 1 => 16 * n + 15
  | 2 => 240 + n
  | _ => 16 * n

/-- R180: the depth of a class in packet slots. -/
def classDepth : MeshClass → Nat
  | .control => 2
  | .request => 6
  | .response => 6
  | .bulk => 10

def classIdx : MeshClass → Nat
  | .control => 0
  | .request => 1
  | .response => 2
  | .bulk => 3

/-- The number of a link: crossing × 16 + output. The outputs: 0 north, 1 east, 2 south, 3 west, 4 to the local port, 5 to a north or
south yard, 6 to an east or west yard, 8 and 9 from those yards into the crossing. 7 stands for the local port's packets that wait for
their first link, 10 and 11 for those of the two yards (log entry 28). -/
def linkNo (x out : Nat) : Nat := x * 16 + out

/-- Packets wait there for their first link: the number names no link. -/
def isSource (link : Nat) : Bool := link % 16 = 7 || link % 16 = 10 || link % 16 = 11

/-- The credits of a link in a class, full when nothing has been sent on it. -/
def linkOf (s : State) (link : Nat) (c : MeshClass) : LinkSt :=
  tget s.benches.links (link * 4 + classIdx c) ⟨classDepth c, 0, 0⟩

def modLink (link : Nat) (c : MeshClass) (f : LinkSt → LinkSt) (s : State) : State :=
  let t := tmod s.benches.links (link * 4 + classIdx c) ⟨classDepth c, 0, 0⟩ f
  { s with benches := { s.benches with links := t } }

/-- R181: the sum that stays the class's depth. -/
def linkSum (l : LinkSt) : Nat := l.credits + l.inflight + l.freed

/-- R183: the output by which a packet leaves a crossing: along the street first, then along the avenue, then its exit. -/
def routeOut (here dest exit : Nat) : Nat :=
  if here % 16 < dest % 16 then 1
  else if dest % 16 < here % 16 then 3
  else if here / 16 < dest / 16 then 2
  else if dest / 16 < here / 16 then 0
  else exit

/-- The crossing that a link leads to, or at which it ends. -/
def linkEnd (link : Nat) : Nat :=
  let x := link / 16
  match link % 16 with
  | 0 => x - 16
  | 1 => x + 1
  | 2 => x + 16
  | 3 => x - 1
  | _ => x

/-- The link that a packet takes next: a yard's answer the yard's own link, another packet the one to which R183 sends it. -/
def nextLink (p : Packet) : Nat :=
  match p.link % 16 with
  | 10 => linkNo (p.link / 16) 8
  | 11 => linkNo (p.link / 16) 9
  | _ => linkNo (linkEnd p.link) (routeOut (linkEnd p.link) p.dest p.exit)

/-- A packet comes to a place where packets wait for their first link. -/
def injectPacket (source : Nat) (c : MeshClass) (dest exit : Nat) (p : Payload) (s : State) : State :=
  { s with benches := { s.benches with
      outbox := s.benches.outbox ++ [⟨s.benches.nextPacket, source, c, dest, exit, p⟩]
      nextPacket := s.benches.nextPacket + 1 } }

/-- R184: the one of the Square's four crossings in the quadrant of a crossing. -/
def squareSite (x : Nat) : Nat := (if x / 16 < 8 then 7 else 8) * 16 + (if x % 16 < 8 then 7 else 8)

/-- R52, R180, R184: a control packet leaves the Square for a bench. -/
def sendSquare (op : MeshOp) (b : Nat) (s : State) : State :=
  releaseWord <| injectPacket (linkNo (squareSite (benchSite b)) 7) .control (benchSite b) 4 { op := op } s

/-- A run's launch leaves for a bench. -/
def sendLaunch (run b : Nat) (s : State) : State := sendSquare (.launch run) b s

/-- The launch of a run has not reached a bench yet. -/
def launchUnderWay (s : State) (run b : Nat) : Bool :=
  (s.benches.outbox ++ s.benches.packets).any fun p => p.payload.op = .launch run && p.dest = benchSite b

/-- A piece of a container that is being loaded has not reached its bench yet. -/
def loadUnderWay (s : State) (load : Nat) : Bool := (s.benches.outbox ++ s.benches.packets).any fun p => p.payload.op = .jig load

/-- R310: a halo block leaves its bench for another's store, in packets of at most 256 bytes. -/
def sendHalo (run b : Nat) (q : Nat × Nat) (s : State) : State :=
  foldN (ceilDiv q.2 256) (fun _ s =>
    injectPacket (linkNo (benchSite b) 7) .request (benchSite q.1) 4 { op := .halo run, from_ := (b, 0, 0) } s) s

/-- R310: a halo block of a run has not reached the bench that takes its token. -/
def haloUnderWay (s : State) (run : Nat) : Bool := (s.benches.outbox ++ s.benches.packets).any fun p => p.payload.op = .halo run

/-- R181: a packet leaves the buffer at the end of a link. -/
def leaveLink (link : Nat) (c : MeshClass) (s : State) : State :=
  modLink link c (fun l => { l with inflight := l.inflight - 1, freed := l.freed + 1 }) s

/-- R181: a packet is sent on a link. -/
def takeCredit (link : Nat) (c : MeshClass) (s : State) : State :=
  modLink link c (fun l => { l with credits := l.credits - 1, inflight := l.inflight + 1 }) s

/-- The packets at the places that wait for a first link, or those on links. -/
def packetsAt (s : State) (link : Nat) : List Packet := if isSource link then s.benches.outbox else s.benches.packets

/-- The first packet on a link in a class, with the packets that remain there. -/
def headPacket (s : State) (link : Nat) (c : MeshClass) : Option (Packet × List Packet) :=
  takeFirst (fun p => p.link = link && p.cls = c) (packetsAt s link)

/-- A packet leaves where it was; its slot on a link is free (R181). -/
def removePacket (link : Nat) (c : MeshClass) (rest : List Packet) (s : State) : State :=
  if isSource link then { s with benches := { s.benches with outbox := rest } }
  else leaveLink link c { s with benches := { s.benches with packets := rest } }

/-- R182: a packet of a class waits for an output link, at the head of its own, and the link has a credit for it. -/
def readyFor (s : State) (out : Nat) (c : MeshClass) : Bool :=
  0 < (linkOf s out c).credits && (s.benches.outbox ++ s.benches.packets).any fun p =>
    p.cls = c && p.link % 16 ≠ 4 && p.link % 16 ≠ 5 && p.link % 16 ≠ 6 && nextLink p = out
      && ((headPacket s p.link c).map fun q => q.1.id) = some p.id

/-- R182: the order in which an output link looks at the three other classes: it begins after the one that it served last. -/
def turnOrder (last : Nat) : List MeshClass :=
  match last with
  | 1 => [.response, .bulk, .request]
  | 2 => [.bulk, .request, .response]
  | _ => [.request, .response, .bulk]

/-- R182: the class that an output link serves now. -/
def servedClass (s : State) (out : Nat) : Option MeshClass :=
  if readyFor s out .control then some .control else (turnOrder (tget s.benches.turns out 3)).find? (readyFor s out)

/-- R182: an output link has served a class; control packets take no turn of the others. -/
def noteTurn (out : Nat) (c : MeshClass) (s : State) : State :=
  if c = .control then s else { s with benches := { s.benches with turns := tset s.benches.turns out (classIdx c) } }

/-! ### Edge ports -/

/-- R16, R109: the crossing and the exit by which a bench's accesses of a module reach the Ethernet node: through one of the yards that
it uses, the same for all that are for one module, so that they keep their order (R441; log entry 28). -/
def edgeDest (s : State) (m : Nat) : Option (Nat × Nat) :=
  let l := edgeLeft s .net
  (l[m % max 1 l.length]?).map fun g => (yardCrossing g (m / 4 % 4 * 256), if g / 4 % 2 = 0 then 5 else 6)

/-- R16: an answer from another module enters the mesh at the yard that its access left by. -/
def edgeAnswer (m : Nat) (c : MeshClass) (b : Nat) (p : Payload) (s : State) : State :=
  match edgeDest s m with
  | some (x, e) => injectPacket (linkNo x (if e = 5 then 10 else 11)) c (benchSite b) 4 p s
  | none => s

/-! ### Accesses of the edge units and of the Square -/

/-- R184, R14: where a packet for a local address leaves the mesh: its last crossing and exit. -/
def writeDest (a : Nat) : Option (Nat × Nat) :=
  match windowOf a with
  | .lpddr g => some (yardCrossing g a, if g / 4 % 2 = 0 then 5 else 6)
  | .slab g _ => some (yardCrossing g a, if g / 4 % 2 = 0 then 5 else 6)
  | .bench b => some (benchSite b, 4)
  | _ => none

/-- Who makes an access that reaches the mesh from its edge or from the Square: an edge unit or the Square. -/
inductive MeshSource where
  | edge (u : EdgeUnit)
  | square
  deriving DecidableEq, Repr, Inhabited

/-- R16, R184: where packets of a source for an address enter the mesh, and so where their answers leave it; none when the source is at the
address's own yard. An edge unit spreads its accesses over the yards that it uses by the address's bits [17:10] (DESIGN CHOICE, log entry
28). -/
def meshEntry (s : State) (src : MeshSource) (a : Nat) : Option (Nat × Nat) :=
  let ofYard (g : Nat) : Option (Nat × Nat) :=
    if windowYard a = some g then none else some (yardCrossing g a, if g / 4 % 2 = 0 then 5 else 6)
  match src with
  | .edge u =>
    let l := edgeLeft s u
    match windowYard a with
    | some g => if l.contains g then none else (l[a / 1024 % max 1 l.length]?).bind ofYard
    | none => (l[a / 1024 % max 1 l.length]?).bind ofYard
  | .square => (writeDest a).map fun d => (squareSite d.1, 4)
where
  /-- The yard of an address. -/
  windowYard (a : Nat) : Option Nat :=
    match windowOf a with
    | .lpddr g => some g
    | .slab g _ => some g
    | _ => none

/-- R16, R180: one packet for each line of an access crosses the mesh. What the access does stands with its event (DESIGN CHOICE, log entry
28). -/
def meshTraffic (src : MeshSource) (a len : Nat) (cls : TrafficClass) (use : YardUse) (s : State) : State :=
  (linesOf a len).foldl (fun s l =>
    match meshEntry s src l, writeDest l with
    | some (x, e), some d =>
      injectPacket (linkNo x (if e = 4 then 7 else if e = 5 then 10 else 11))
        (if cls = .bulk && use = .write then .bulk else .request) d.1 d.2
        { op := .carry (some (x, e)), addr := l, len := if use = .read then 256 else 0, bulk := cls = .bulk } s
    | _, _ => s) s

/-- R16, R151, R251: an access of an edge unit or of the Square: it crosses the mesh, passes its yard, and an edge unit's holds a tag of the edge port
meanwhile. -/
def touchYard (src : MeshSource) (a len : Nat) (cls : TrafficClass) (use : YardUse) (s : State) : State :=
  let s := match src with
    | .edge _ => edgeTag a s
    | _ => s
  yardAccess a len cls use (meshTraffic src a len cls use s)

/-- R242, R243, R251: the Square reads ranges of memory, as (address, length): the words' outcomes are counted, and the lines pass their yards. -/
def squareReads (l : List (Nat × Nat)) (s : State) : State :=
  l.foldl (fun s a => touchYard .square a.1 a.2 .request .read (consumeCount a.1 a.2 s)) s

/-- R251: the Square writes bytes. -/
def squareWrite (a : Nat) (l : List Byte) (s : State) : State := writeBytes a l [] (touchYard .square a l.length .request .write s)

/-! ### A yard's ports -/

/-- R151: a port may take another tag: its guarantee of 64 is not used up, or it holds less than 512 and one of the 640 tags that no
port is guaranteed is free. -/
def portTagFree (y : YardSt) (port : Nat) : Bool :=
  let n := y.ports.getD port 0
  n < 64 || (n < 512 && (y.ports.map (· - 64)).foldl (· + ·) 0 < 640)

/-- A yard's port takes or returns a tag. -/
def takePortTag (g port : Nat) (s : State) : State :=
  modYard g (fun y =>
    let y := { y with ports := y.ports.modify port (· + 1) }
    { y with tagsHigh := max y.tagsHigh (yardTags y) }) s

def returnPortTag (g port : Nat) (s : State) : State := modYard g (fun y => { y with ports := y.ports.modify port (· - 1) }) s

/-- The yard that a link leads to or comes from. -/
def linkYard (link : Nat) : Nat :=
  let x := link / 16
  if link % 16 = 5 || link % 16 = 8 || link % 16 = 10 then (if x / 16 = 0 then 0 else 8) + x % 16 / 4
  else (if x % 16 = 15 then 4 else 12) + x / 16 / 4

/-- The port of its yard at which a link arrives. -/
def linkPort (link : Nat) : Nat :=
  let x := link / 16
  if link % 16 = 5 || link % 16 = 8 || link % 16 = 10 then x % 16 % 4 else x / 16 % 4

end Sys2Proof.Machine
end

