-- ==== Sys2Proof/Machine/Memory.lean ====
section
/-! DEFINITION. The memory commands, BAR4, scrubbing, prefetch and MR4 reports (chapter 07, R51). -/
namespace Sys2Proof.Machine

/-! ### Registers -/

/-- R281: the state of a channel group, as start-up has left it. -/
def groupState (s : State) (g : Nat) : Nat :=
  if !beforeReady s then if groupExcluded s g then 4 else 3
  else if (itemOf s 9 g).excluded || (itemOf s 10 g).excluded || (itemOf s 11 g).excluded then 4
  else if s.boot.ended.contains 10 then 3
  else if s.boot.started.contains 10 then 2
  else if s.boot.started.contains 9 then 1
  else 0

/-- R15: the channel groups that a package serves. -/
def packageGroups (p : Nat) : List Nat := (List.range 4).map fun n => (channelOf p n).1

/-- R261, R281: the refresh rate of a group: the highest its packages ask for. -/
def refreshOf (s : State) (g : Nat) : Nat :=
  (List.range 36).foldl (fun a p => if (packageGroups p).contains g then max a (tget s.mem.mr4 p 0) else a) 0

/-- R592: the yards of a group admit requests up to this percentage of its bandwidth. -/
def admitShare (s : State) (g : Nat) : Nat := if refreshOf s g = 3 then 50 else 100

/-- The owner field of a status register; a context's own mailbox sees others only as 0xFE (R275, log entry 9). -/
def ownerField (s : State) (g : Nat) (viewer : Option Nat) : Nat :=
  match groupOwner s g, viewer with
  | none, _ => 0xFF
  | some c, some v => if c = v then c else 0xFE
  | some c, none => c

/-- R271, R281: a page of the group has enc set. -/
def encPages (s : State) (g : Nat) : Bool :=
  match groupOwner s g with
  | some c => (ctxOf s c).lots.any fun e =>
      lotValid e.2 && lotEnc e.2 && lotBase e.2 < (g + 1) * 2 ^ 36 && g * 2 ^ 36 < lotLimit e.2
  | none => false

/-- R281: a memory-key sweep runs on the group. -/
def sweepOn (s : State) (g : Nat) : Bool :=
  match groupOwner s g with
  | some c => (ctxOf s c).oldPages.any fun r => r.1 < (g + 1) * 2 ^ 20 && g * 2 ^ 20 < r.2
  | none => false

/-- R281: `MCH_STATUS`. -/
def mchStatus (s : State) (g : Nat) (viewer : Option Nat) : Nat :=
  groupState s g + 2 ^ 8 * bit (bitOf s.boot.groups6400 g) + 2 ^ 10 * bit (encPages s g) + 2 ^ 11 * bit (sweepOn s g)
    + 2 ^ 16 * refreshOf s g + 2 ^ 32 * tget s.nv.nextBoot g 0 + 2 ^ 40 * ownerField s g viewer

/-- R283: the state of a yard, as start-up has left it. -/
def yardState (s : State) (g : Nat) : Nat :=
  if (itemOf s 11 g).excluded then 4
  else if slabOnly s g then 2
  else if beforeReady s then bit (itemOf s 11 g).settled
  else if !bitOf s.boot.yards g then 4
  else 1

/-- R283: `YD_STATUS`. -/
def ydStatus (s : State) (g : Nat) (viewer : Option Nat) : Nat :=
  yardState s g + 2 ^ 32 * slabMask s g + 2 ^ 40 * ownerField s g viewer

/-- Which context a mailbox looks at the machine for: none for mailbox 0, ADMIN and the sideband. -/
def viewerOf (s : State) (m : Nat) : Option Nat :=
  match speaker s m with
  | .context c => some c
  | _ => none

/-! ### Commands (R275–R277) -/

/-- `MEM_GET_STATE` of one group. -/
def execMemGetState (h : Hdr) (g : Nat) (s : State) : Host.Outcome State Fault Refusal :=
  .next (command h { op := 0x0360, who := who0Own, reads := true } (fun c s =>
    if 16 ≤ g then no s .badArg
    else
      let v := viewerOf s c.mb
      let q := groupOf s g
      okData s [⟨8, mchStatus s g v⟩, ⟨8, ydStatus s g v⟩, ⟨8, q.ceCount⟩, ⟨8, q.dueCount⟩, ⟨8, q.poisonWrites⟩]) s)

/-- The context that a command naming a channel group names: its owner; 16 stands for no owner. -/
def groupCtx (s : State) (g : Nat) : Option Nat := some ((groupOwner s g).getD 16)

/-- The slab address range of a quarter. -/
def quarterBase (g q : Nat) : Nat := slabBase g + q * 0x200000

/-- R256: a valid lot covers part of a quarter. -/
def quarterInUse (s : State) (g q : Nat) : Bool :=
  match groupOwner s g with
  | some c => (ctxOf s c).lots.any fun e =>
      lotValid e.2 && lotBase e.2 < quarterBase g q + 0x200000 && quarterBase g q < lotLimit e.2
  | none => false

/-- R255: change a yard's quarter modes. -/
def setPartition (g mask : Nat) (s : State) : State :=
  let old := (yardOf s g).slab
  let changed (l : Line) : Bool := bitOf (old ^^^ mask) (l.way / 4)
  let pins := ((yardOf s g).lines.filter fun l => changed l && l.due.isSome).length
  let s := flushYard g changed s
  let s := foldN 4 (fun q s =>
    if bitOf (old ^^^ mask) q then clearRange (quarterBase g q) (quarterBase g q + 0x200000) s else s) s
  modYard g (fun y => { y with slab := mask, prefetchDrops := satAdd 64 y.prefetchDrops pins }) s

/-- R255–R257, R277: `YD_SET_PARTITION`. -/
def execYdSetPartition (h : Hdr) (g mask : Nat) (s : State) : Host.Outcome State Fault Refusal :=
  .next (command h { op := 0x0361, who := who0Own, ctx := groupCtx s g, conf := true } (fun _ s =>
    if 16 ≤ g || 16 ≤ mask then no s .badArg
    else if yardState s g ≠ 1 then no s .badState
    else if (List.range 4).any fun q => bitOf (yardOf s g).slab q && !bitOf mask q && quarterInUse s g q then no s .busy
    else ok (setPartition g mask s)) s)

/-- R262: `MEM_SET_SCRUB`, in a LOCAL record. -/
def execMemSetScrub (h : Hdr) (g : Option Nat) (hours : Nat) (s : State) : Host.Outcome State Fault Refusal :=
  .next (command h { op := 0x0362, who := who0Admin } (fun _ s =>
    if hours < 1 || 168 < hours || 16 ≤ g.getD 0 then no s .badArg
    else match g with
      | some i => ok (setLocal (.scrub i) hours s)
      | none => ok (foldN 16 (fun i s => setLocal (.scrub i) hours s) s)) s)

/-- R275: an error event as its fields: address, symbol, syndrome, outcome, stamp. -/
def errData (e : ErrEvent) : List Fld :=
  [⟨6, e.addr⟩, ⟨1, e.symbol⟩, ⟨2, e.syndrome⟩, ⟨1, bit e.detected⟩, ⟨3, e.stamp.ns % 2 ^ 24⟩]

/-- R275, R277: `MEM_GET_ERRORS`. -/
def execMemGetErrors (h : Hdr) (g : Nat) (s : State) : Host.Outcome State Fault Refusal :=
  .next (command h { op := 0x0363, who := who0Own, ctx := groupCtx s g, conf := true, reads := true } (fun _ s =>
    if 16 ≤ g then no s .badArg else okData s ((groupOf s g).events.flatMap errData)) s)

/-- R276: the address can be injected into: aligned, and a byte of LPDDR5X, slab or bench store. -/
def injectable (s : State) (a : Nat) : Bool :=
  a % 16 = 0 && match windowOf a with
    | .lpddr _ => true
    | .slab g q => bitOf (slabMask s g) q
    | .bench _ => !benchHole a
    | _ => false

/-- R276: XOR masks into one stored word, bypassing the code. A word of memory whose line the yard holds is struck
beneath the yard's copy. -/
def inject (a d x : Nat) (s : State) : State :=
  if lineHeld s a then { s with mem := { s.mem with hidden := s.mem.hidden ++ [⟨a / 16, d, x⟩] } }
  else
    let b := (List.range 16).map fun i => cellRead s.mem.bytes (a + i)
    let s := putBytes a (b.zipWith (· ^^^ ·) (leBytes 16 d)) s
    putChk (a / 16) (tget s.mem.chk (a / 16) 0 ^^^ encodeCheck d ^^^ x) s

/-- R276: `MEM_INJECT`. -/
def execMemInject (h : Hdr) (a dataMask chkMask : Nat) (s : State) : Host.Outcome State Fault Refusal :=
  .next (command h { op := 0x0364, who := who0 } (fun _ s =>
    if !injectable s a || 2 ^ 128 ≤ dataMask || 65536 ≤ chkMask then no s .badArg
    else if (match addrOwner s a with
      | some c => isConf s c
      | none => false) then no s .confidential
    else if (match windowOf a with
      | .lpddr g => groupExcluded s g
      | _ => false) then no s .badState
    else ok (inject a dataMask chkMask s)) s)

/-! ### BAR4 (R51, R43, R44) -/

/-- A BAR4 request reaches the module. -/
def bar4Open (s : State) (vf : Nat) : Bool := 1 ≤ vf && vf ≤ 16 && s.tray.linkUp && s.tray.sriov && !s.tray.thermTrip

/-- A BAR4 completion. -/
def complete (r : Completion) (s : State) : State :=
  { s with mem := { s.mem with completions := r :: s.mem.completions } }

/-- An error of the endpoint is logged in AER. -/
def logAer (s : State) : State := { s with mem := { s.mem with aer := s.mem.aer + 1 } }

/-- R51, R43, R44: a host read through a VF's BAR4. -/
def execBar4Read (dt vf off len : Nat) (ideT : Bool) (s : State) : Host.Outcome State Fault Refusal :=
  .next (event dt (fun s =>
    if !bar4Open s vf then s
    else if ideRefused s vf ideT then complete ⟨vf, [], false, true⟩ (countIdeDrop s)
    else if off + len ≤ 0x10000000000 && lotPasses s (vf - 1) off len .r true then
      let bad := rangeBad s off len
      let s := touchYard (.edge .pcie) off len .request .read (consumeCount off len s)
      complete ⟨vf, consumeBytes s off len, bad, false⟩ (if bad then logAer s else s)
    else
      record 0x9103 2 0x0000 (some (vf - 1)) true [⟨8, off⟩] (logAer (complete ⟨vf, [], false, true⟩ s))) s)

/-- R51, R43, R44: a host write through a VF's BAR4; a failed one is dropped and counts as a host violation. -/
def execBar4Write (dt vf off : Nat) (data : List Byte) (ideT : Bool) (s : State) : Host.Outcome State Fault Refusal :=
  .next (event dt (fun s =>
    if !bar4Open s vf then s
    else if ideRefused s vf ideT then countIdeDrop s
    else if off + data.length ≤ 0x10000000000 && lotPasses s (vf - 1) off data.length .w true then
      writeBytes off data [] (touchYard (.edge .pcie) off data.length .request .write s)
    else
      record 0x9103 2 0x0000 (some (vf - 1)) true [⟨8, off⟩] (logAer { s with mem := { s.mem with
        hostViolations := tmod s.mem.hostViolations (vf - 1) 0 (satAdd 32 · 1) } })) s)

/-! ### Refresh, scrubbing and prefetch -/

/-- R261, R592: a package's MR4 report: 0 base rate, 1 doubled, 2 quadrupled, 3 high-temperature limit. -/
def execMr4Report (dt pkg rate : Nat) (s : State) : Host.Outcome State Fault Refusal :=
  .next (event dt (fun s =>
    if 36 ≤ pkg || 4 ≤ rate then s
    else
      let old := tget s.mem.mr4 pkg 0
      let u := 0x3000 + (packageGroups pkg).headD 0
      let s := { s with mem := { s.mem with mr4 := tset s.mem.mr4 pkg rate } }
      if rate = 3 && old ≠ 3 then record 0x8360 2 0x8000 none false [⟨1, pkg⟩] (record 0x3141 2 u none false [⟨1, pkg⟩] s)
      else if old < rate && rate < 3 then record 0x3140 1 u none false [⟨1, pkg⟩, ⟨1, rate⟩] s
      else s) s)

/-- R262: the scrubber handles one codeword of a burst in memory; it writes only while the yard holds no copy (R263). -/
def scrubWord (g w : Nat) (s : State) : State :=
  let held := lineHeld s (16 * w)
  let x := if held then (beneath s w).2 else tget s.mem.chk w 0
  let o := outcomeOf x
  match o with
  | .corrected _ _ =>
    let s' := record 0x3110 0 (0x3000 + g) (groupOwner s g) true [⟨8, 16 * w⟩] (countGroup g (16 * w) o x s)
    if held then s' else putChk w 0 (putBytes (16 * w) (xorWord (correctedMask o) (storedWord s (16 * w))) s')
  | .detected =>
    let s' := record 0x3102 2 (0x3000 + g) (groupOwner s g) false [⟨8, 16 * w⟩, ⟨2, synNat (syndromeOf x)⟩]
      (countGroup g (16 * w) o x s)
    if held then s'
    else putChk w poisonMask (modGroup g (fun q => { q with poisonWrites := satAdd 64 q.poisonWrites 1 }) s')
  | _ => s

/-- R262: the memory scrubber reads the next burst of a group; the pass count rises at the end of the group. -/
def execScrubBurst (dt g : Nat) (s : State) : Host.Outcome State Fault Refusal :=
  .next (event dt (fun s =>
    if 16 ≤ g || groupState s g ≠ 3 then s
    else
      let b := g * 2 ^ 28 + (groupOf s g).scrubPos
      let s := foldN 16 (fun j s => scrubWord g (16 * b + j) s) s
      gauge (0x3000 + g) 5 1 (modGroup g (fun q =>
        if q.scrubPos + 1 = 2 ^ 28 then { q with scrubPos := 0, passes := wrapAdd 16 q.passes 1 }
        else { q with scrubPos := q.scrubPos + 1 }) s)) s)

/-- R264: a SRAM scrubber handles one word: corrected or poisoned in place, counted, 0x3103 for DETECTED; memory beneath a yard's line stays as it
is. -/
def sramWord (w : Nat) (s : State) : State :=
  let x := tget s.mem.chk w 0
  let u := levelUnit s (16 * w)
  let bump (ce : Bool) (s : State) : State :=
    if u / 4096 = 1 then
      { s with mem := { s.mem with benchErr := tmod s.mem.benchErr (u % 4096) (0, 0) fun p =>
        if ce then (satAdd 64 p.1 1, p.2) else (p.1, satAdd 64 p.2 1) } }
    else modYard (u % 4096) (fun y =>
      if ce then { y with sramCe := satAdd 64 y.sramCe 1 } else { y with sramDue := satAdd 64 y.sramDue 1 }) s
  match outcomeOf x with
  | .corrected _ _ => changeCopy w (fun s =>
      putChk w 0 (putBytes (16 * w) (xorWord (correctedMask (outcomeOf x)) (storedWord s (16 * w))) s)) (bump true s)
  | .detected => changeCopy w (putChk w poisonMask) (record 0x3103 2 u (addrOwner s (16 * w)) false [⟨8, 16 * w⟩] (bump false s))
  | _ => s

/-- The waiting prefetch with the earliest due stamp; of equals the oldest. -/
def firstDue (l : List Prefetch) : Option Prefetch :=
  l.foldl (fun a p => if a.elim true fun q => p.due < q.due then some p else a) none

/-- R258: a yard starts the fill of the waiting prefetch that is due first, once its moment has come. -/
def execPrefetchFillStart (dt g : Nat) (s : State) : Host.Outcome State Fault Refusal :=
  .next (event dt (fun s =>
    match firstDue (yardOf s g).prefetches with
    | none => s
    | some p =>
      if fillDue s g p.due then
        fillPrefetch g p (modYard g (fun y => { y with prefetches := y.prefetches.erase p, tags := y.tags - 1 }) s)
      else s) s)

/-- R259: pinned lines unpin 20 µs after their due stamp. -/
def execPrefetchPinExpiry (dt g : Nat) (s : State) : Host.Outcome State Fault Refusal :=
  .next (event dt (fun s => modYard g (fun y => { y with lines := y.lines.map fun l =>
    match l.due with
    | some d => if d + 20000 ≤ s.time.t then { l with due := none } else l
    | none => l }) s) s)

/-- R282, R283: a read of `YD_TAGS` (or of `YD_PINNED`) restarts its high-water field. -/
def execYdHighWaterRead (dt g : Nat) (pinned : Bool) (s : State) : Host.Outcome State Fault Refusal :=
  .next (event dt (modYard g (fun y =>
    if pinned then { y with pinnedHigh := (y.lines.filter fun l => l.due.isSome).length }
    else { y with tagsHigh := yardTags y })) s)

end Sys2Proof.Machine
end

