-- ==== Sys2Proof/Machine/Formats.lean ====
section
/-! DEFINITION. Number formats, exact arithmetic on them, conversion and rounding (chapter 06), and the weight codec's
segments. A number is not a number, an infinity, or a sign with a magnitude m · 2^e. -/
namespace Sys2Proof.Machine

/-- The value of an element (R199): `fin` keeps the sign of zero. -/
inductive Num where
  | nan
  | inf (neg : Bool)
  | fin (neg : Bool) (m : Nat) (e : Int)
  deriving DecidableEq, Repr, Inhabited

/-- A floating layout (R199). `top` tells how the largest exponent is used: 0 as IEEE 754, 1 as FP8_E4M3, 2 all finite. -/
structure FloatFmt where
  ebits : Nat
  mbits : Nat
  bias : Int
  top : Nat
  deriving DecidableEq, Repr, Inhabited

/-- R199: the floating layout of a format code (the MX codes name their element's). -/
def floatFmt (code : Nat) : Option FloatFmt :=
  match code with
  | 0x00 => some ⟨8, 23, 127, 0⟩
  | 0x01 => some ⟨8, 7, 127, 0⟩
  | 0x02 => some ⟨4, 3, 7, 1⟩
  | 0x03 => some ⟨5, 2, 15, 0⟩
  | 0x04 => some ⟨3, 2, 3, 2⟩
  | 0x05 => some ⟨2, 3, 1, 2⟩
  | 0x06 => some ⟨2, 1, 1, 2⟩
  | 0x0A => some ⟨4, 3, 7, 1⟩
  | 0x0B => some ⟨5, 2, 15, 0⟩
  | 0x0C => some ⟨3, 2, 3, 2⟩
  | 0x0D => some ⟨2, 3, 1, 2⟩
  | 0x0E => some ⟨2, 1, 1, 2⟩
  | _ => none

/-- R197: the width of an element in bits; 0 for a code that is not an element format. -/
def elemBits (code : Nat) : Nat :=
  match code with
  | 0x00 => 32
  | 0x01 => 16
  | 0x04 => 6
  | 0x05 => 6
  | 0x06 => 4
  | 0x08 => 4
  | 0x09 => 32
  | 0x0C => 6
  | 0x0D => 6
  | 0x0E => 4
  | 0x11 => 4
  | 0x13 => 16
  | _ => if code ≤ 0x13 then 8 else 0

/-- R197: the block formats with E8M0 scales. -/
def isMx (code : Nat) : Bool := 0x0A ≤ code && code ≤ 0x0F

/-- A bit pattern of a floating layout as a value (R199, R200). -/
def decodeFloat (f : FloatFmt) (b : Nat) : Num :=
  let m := b % 2 ^ f.mbits
  let e := b / 2 ^ f.mbits % 2 ^ f.ebits
  let neg := bitOf b (f.ebits + f.mbits)
  let allOnes := e = 2 ^ f.ebits - 1
  if f.top = 0 && allOnes then if m = 0 then .inf neg else .nan
  else if f.top = 1 && allOnes && m = 2 ^ f.mbits - 1 then .nan
  else if e = 0 then .fin neg m (1 - f.bias - f.mbits)
  else .fin neg (2 ^ f.mbits + m) (e - f.bias - f.mbits)

/-- A two's complement number as a value. -/
def decodeInt (w b : Nat) : Num :=
  let v := b % 2 ^ w
  if v < 2 ^ (w - 1) then .fin false v 0 else .fin true (2 ^ w - v) 0

/-- R199, R202, R203: the element value of a bit pattern; an MXINT8 element has the factor 2^−6. -/
def decodeElem (code b : Nat) : Num :=
  match floatFmt code with
  | some f => decodeFloat f b
  | none =>
    match code with
    | 0x07 => decodeInt 8 b
    | 0x08 => decodeInt 4 b
    | 0x09 => decodeInt 32 b
    | 0x0F => match decodeInt 8 b with
      | .fin n m e => .fin n m (e - 6)
      | x => x
    | 0x10 => if b % 256 = 255 then .nan else .fin false 1 ((b % 256 : Nat) - 127)
    | _ => .fin false (b % 2 ^ elemBits code) 0

/-! ### Exact operations -/

/-- A finite value as an integer multiple of 2^q, for q at most its exponent. -/
def scaledInt (n : Bool) (m : Nat) (e q : Int) : Int :=
  let v : Int := (m : Int) * 2 ^ (e - q).toNat
  if n then -v else v

/-- The value of an integer multiple of 2^q; zero has the sign given. -/
def ofScaled (v q : Int) (zeroNeg : Bool) : Num :=
  if v = 0 then .fin zeroNeg 0 q else .fin (decide (v < 0)) v.natAbs q

/-- The exact sum (IEEE 754 signs of zero and special values). -/
def numAdd : Num → Num → Num
  | .nan, _ => .nan
  | _, .nan => .nan
  | .inf a, .inf b => if a = b then .inf a else .nan
  | .inf a, _ => .inf a
  | _, .inf b => .inf b
  | .fin n m e, .fin n' m' e' =>
    let q := min e e'
    ofScaled (scaledInt n m e q + scaledInt n' m' e' q) q (n && n' && m = 0 && m' = 0)

/-- The negated value. -/
def numNeg : Num → Num
  | .nan => .nan
  | .inf n => .inf (!n)
  | .fin n m e => .fin (!n) m e

/-- The exact product. -/
def numMul : Num → Num → Num
  | .nan, _ => .nan
  | _, .nan => .nan
  | .inf a, .inf b => .inf (a != b)
  | .inf a, .fin n m _ => if m = 0 then .nan else .inf (a != n)
  | .fin n m _, .inf b => if m = 0 then .nan else .inf (n != b)
  | .fin n m e, .fin n' m' e' => .fin (n != n') (m * m') (e + e')

/-- Multiply by a power of two. -/
def numShift (k : Int) : Num → Num
  | .fin n m e => .fin n m (e + k)
  | x => x

/-- a < b for numbers that are not NaN; −0 and +0 are equal. -/
def numLt : Num → Num → Bool
  | .nan, _ => false
  | _, .nan => false
  | .inf a, .inf b => a && !b
  | .inf a, _ => a
  | _, .inf b => !b
  | .fin n m e, .fin n' m' e' =>
    let q := min e e'
    decide (scaledInt n m e q < scaledInt n' m' e' q)

def isNan : Num → Bool
  | .nan => true
  | _ => false

/-- a = b as IEEE 754 compares them. -/
def numEq (a b : Num) : Bool := !isNan a && !isNan b && !numLt a b && !numLt b a

def isNegative : Num → Bool
  | .nan => false
  | .inf n => n
  | .fin n _ _ => n

def isZero : Num → Bool
  | .fin _ 0 _ => true
  | _ => false

/-- IEEE 754-2019 maximum: −0 < +0 (R218). -/
def numMax (a b : Num) : Num :=
  if isNan a || isNan b then .nan
  else if numLt a b then b
  else if numLt b a then a
  else if isNegative a then b else a

/-- IEEE 754-2019 minimum (R218). -/
def numMin (a b : Num) : Num :=
  if isNan a || isNan b then .nan
  else if numLt a b then a
  else if numLt b a then b
  else if isNegative a then a else b

/-! ### Rounding and conversion (R214–R217) -/

/-- How a conversion rounds: to nearest even, or stochastically with 16 random bits (R215). -/
inductive Rounding where
  | nearest
  | stochastic (r : Nat)
  deriving DecidableEq, Repr, Inhabited

/-- Round m · 2^e to an integer multiple of 2^q. -/
def roundTo (rnd : Rounding) (m : Nat) (e q : Int) : Nat :=
  if q ≤ e then m * 2 ^ (e - q).toNat
  else
    let d := (q - e).toNat
    let k := m / 2 ^ d
    let rest := m % 2 ^ d
    match rnd with
    | .nearest =>
      if 2 ^ d < 2 * rest || (2 * rest = 2 ^ d && k % 2 = 1) then k + 1 else k
    | .stochastic r => if r % 65536 < rest * 65536 / 2 ^ d then k + 1 else k

/-- R215: the formats to which stochastic rounding applies. -/
def stochasticTo (code : Nat) : Bool := code ∈ [0x01, 0x02, 0x03, 0x04, 0x05, 0x06, 0x07, 0x08]

/-- R216: the bit pattern of the largest finite value, without sign. -/
def maxBits (f : FloatFmt) : Nat :=
  match f.top with
  | 0 => (2 ^ f.ebits - 1) * 2 ^ f.mbits - 1
  | 1 => 2 ^ (f.ebits + f.mbits) - 2
  | _ => 2 ^ (f.ebits + f.mbits) - 1

/-- R201: the canonical NaN of a layout. -/
def nanBits (f : FloatFmt) : Nat :=
  if f.top = 1 then 2 ^ (f.ebits + f.mbits) - 1
  else (2 ^ f.ebits - 1) * 2 ^ f.mbits + 2 ^ (f.mbits - 1)

/-- R201: the bits of an element as they are written: a NaN in its canonical pattern. -/
def canonBits (code b : Nat) : Nat :=
  if isNan (decodeElem code b) then (match floatFmt code with
    | some f => nanBits f
    | none => b)
  else b

/-- A conversion's result: the bits, whether a NaN became zero (R217), and whether it saturated (R697). -/
structure Conv where
  bits : Nat
  nanZero : Bool := false
  sat : Bool := false
  deriving DecidableEq, Repr, Inhabited

/-- R214–R216: convert a value to a floating layout. -/
def encodeFloat (f : FloatFmt) (sat : Bool) (rnd : Rounding) (x : Num) : Conv :=
  let sign (n : Bool) : Nat := if n then 2 ^ (f.ebits + f.mbits) else 0
  let infBits := (2 ^ f.ebits - 1) * 2 ^ f.mbits
  match x with
  | .nan => if f.top = 2 then { bits := 0, nanZero := true } else { bits := nanBits f }
  | .inf n =>
    if f.top = 0 then { bits := sign n + infBits }
    else if f.top = 1 && !sat then { bits := nanBits f }
    else { bits := sign n + maxBits f, sat := true }
  | .fin n m e =>
    if m = 0 then { bits := sign n }
    else
      let q : Int := max (Nat.log2 m + e - f.mbits) (1 - f.bias - f.mbits)
      let k := roundTo rnd m e q
      let b := if k < 2 ^ f.mbits then k else ((q + f.mbits + f.bias).toNat - 1) * 2 ^ f.mbits + k
      if b ≤ maxBits f then { bits := sign n + b }
      else if f.top = 0 && !sat then { bits := sign n + infBits }
      else if f.top = 1 && !sat then { bits := nanBits f }
      else { bits := sign n + maxBits f, sat := true }

/-- R216: round, then clamp to an integer range. -/
def encodeInt (w : Nat) (lo hi : Int) (rnd : Rounding) (x : Num) : Conv :=
  match x with
  | .nan => { bits := 0, nanZero := true }
  | .inf n => { bits := ofSigned w (if n then lo else hi), sat := true }
  | .fin n m e =>
    let k : Int := roundTo rnd m e 0
    let v := if n then -k else k
    if v < lo then { bits := ofSigned w lo, sat := true }
    else if hi < v then { bits := ofSigned w hi, sat := true }
    else { bits := ofSigned w v }

/-- R214–R217: convert a value to an element format. -/
def convert (code : Nat) (sat : Bool) (rnd : Rounding) (x : Num) : Conv :=
  let rnd := if stochasticTo code then rnd else .nearest
  match floatFmt code with
  | some f => encodeFloat f sat rnd x
  | none =>
    match code with
    | 0x07 => encodeInt 8 (-128) 127 rnd x
    | 0x08 => encodeInt 4 (-8) 7 rnd x
    | 0x09 => encodeInt 32 (-(2 ^ 31)) (2 ^ 31 - 1) rnd x
    | 0x12 => encodeInt 8 0 255 rnd x
    | 0x13 => encodeInt 16 0 65535 rnd x
    | _ => { bits := 0 }

/-- Round to FP32, to nearest even. -/
def toF32 (x : Num) : Nat := (convert 0 false .nearest x).bits

/-- A FP32 pattern as a value. -/
def ofF32 (b : Nat) : Num := decodeElem 0 b

/-- A value rounded to FP32. -/
def round32 (x : Num) : Num := ofF32 (toF32 x)

/-- R207: floor(log2 |x|) of a finite non-zero value. -/
def floorLog2 : Num → Int
  | .fin _ m e => Nat.log2 m + e
  | _ => 0

/-- The square root of a non-negative finite value with a sticky bit, exact enough to round to FP32. -/
def numSqrt (m : Nat) (e : Int) : Num :=
  let odd := e % 2 ≠ 0
  let m := (if odd then 2 * m else m) * 2 ^ 128
  let e := (if odd then e - 1 else e) - 128
  let r := Nat.sqrt m
  .fin false (2 * r + bit (decide (r * r ≠ m))) (e / 2 - 1)

/-! ### Vector operations (R218, R219) -/

/-- The precision of the fixed-point arithmetic below: numbers stand as multiples of 2^−128, far below any bound of R218. -/
def fixBits : Nat := 128
def fixOne : Int := 2 ^ fixBits

/-- A finite value in fixed point. -/
def fixOf : Num → Int
  | .fin n m e =>
    let v : Int := if 0 ≤ e + fixBits then (m : Int) * 2 ^ (e + fixBits).toNat else (m : Int) / 2 ^ (-(e + fixBits)).toNat
    if n then -v else v
  | _ => 0

/-- A fixed-point number as a value. -/
def ofFix (v : Int) : Num := ofScaled v (-(fixBits : Int)) false

def fixMul (a b : Int) : Int := a * b / fixOne

/-- ln 2, as the sum of 1 / (k · 2^k). -/
def fixLn2 : Int := ((List.range fixBits).map fun k => fixOne / (((k + 1) * 2 ^ (k + 1) : Nat) : Int)).foldl (· + ·) 0

/-- e^x for 0 ≤ x < 1, by its series. -/
def expSeries (x : Int) : Int :=
  ((List.range 40).foldl (fun (acc : Int × Int) k =>
    let t := fixMul acc.2 x / ((k + 1 : Nat) : Int)
    (acc.1 + t, t)) (fixOne, fixOne)).1

/-- 2^y, for y in fixed point. -/
def fixExp2 (y : Int) : Num := numShift (y / fixOne) (ofFix (expSeries (fixMul (y % fixOne) fixLn2)))

/-- e^y, for y in fixed point. -/
def fixExp (y : Int) : Num := fixExp2 (y * fixOne / fixLn2)

/-- The magnitude of a value is above a whole number. -/
def magAbove (x : Num) (k : Nat) : Bool := numLt (.fin false k 0) (match x with
  | .fin _ m e => .fin false m e
  | x => x)

/-- log2 of a positive value: its exponent, then one binary digit after another by squaring. -/
def fixLog2 (m : Nat) (e : Int) : Num :=
  let l := Nat.log2 m
  let x0 : Nat := m * 2 ^ fixBits / 2 ^ l
  let r := (List.range 100).foldl (fun (acc : Nat × Nat) _ =>
    let x := acc.2 * acc.2 / 2 ^ fixBits
    if 2 ^ (fixBits + 1) ≤ x then (2 * acc.1 + 1, x / 2) else (2 * acc.1, x)) (0, x0)
  ofScaled (((l : Int) + e) * 2 ^ 100 + (r.1 : Int)) (-100) false

/-- 1 / sqrt(m · 2^e). -/
def fixRsqrt (m : Nat) (e : Int) : Num :=
  let odd := e % 2 ≠ 0
  let m := if odd then 2 * m else m
  let e := if odd then e - 1 else e
  .fin false (Nat.sqrt (2 ^ 300 / max 1 m)) (-150 - e / 2)

/-- tanh(a) for a in fixed point. -/
def fixTanh (a : Int) : Int :=
  let b : Int := a.natAbs
  let t : Int := if 40 * fixOne < b then fixOne
    else
      let x := fixOf (fixExp (2 * b))
      (x - fixOne) * fixOne / (x + fixOne)
  if a < 0 then -t else t

/-- 1 / (1 + e^−a). -/
def fixSigmoid (a : Num) : Num :=
  if magAbove a 100 then (if isNegative a then .fin false 0 0 else .fin false 1 0)
  else
    let x := fixOf (fixExp (-((fixOf a).natAbs : Int)))
    ofFix (if isNegative a then x * fixOne / (fixOne + x) else fixOne * fixOne / (fixOne + x))

/-- 0.5 a (1 + tanh(0.7978846 (a + 0.044715 a³))). -/
def fixGelu (a : Num) : Num :=
  if magAbove a 20 then (if isNegative a then .fin false 0 0 else a)
  else
    let x := fixOf a
    let u := (x + fixMul (fixMul x x) x * 44715 / 1000000) * 7978846 / 10000000
    ofFix (fixMul x (fixOne + fixTanh u) / 2)

/-- R218: the exact result of an operation, to far more digits than its bound asks for. -/
def exactResult (variant : Nat) (x : Num) : Num :=
  match variant, x with
  | 0x0D, x => if magAbove x 256 then .inf false else fixExp2 (fixOf x)
  | 0x0E, x => if magAbove x 256 then .inf false else fixExp (fixOf x)
  | 0x0F, .fin _ m e => fixLog2 m e
  | 0x10, .fin n m e => .fin n (2 ^ 200 / max 1 m) (-e - 200)
  | 0x11, .fin _ m e => fixRsqrt m e
  | 0x13, x => if magAbove x 40 then .fin (isNegative x) 1 0 else ofFix (fixTanh (fixOf x))
  | 0x14, x => fixSigmoid x
  | 0x15, x => numMul x (fixSigmoid x)
  | _, x => fixGelu x

/-- R218: the bound of an operation: its ulps, and the exponent of its absolute bound where it has one for the input. -/
def accuracyOf (variant : Nat) (x : Num) : Nat × Option Int :=
  match variant with
  | 0x0D => (2, none)
  | 0x0E => (3, none)
  | 0x0F => (2, if numLt x (.fin false 1 (-1)) || numLt (.fin false 2 0) x then none else some (-22))
  | 0x10 => (1, none)
  | 0x11 => (2, none)
  | 0x13 => (4, some (-22))
  | 0x14 => (4, some (-22))
  | 0x15 => (5, some (-21))
  | _ => (6, some (-21))

/-- R218: one unit in the last place of a FP32 result. -/
def ulpOf : Num → Num
  | .fin n m e => if m = 0 then .fin false 1 (-149) else .fin false 1 (max (floorLog2 (.fin n m e) - 23) (-149))
  | _ => .fin false 1 (-149)

/-- R218: a result is as accurate as its operation promises. -/
def accurate (variant : Nat) (x y c : Num) : Bool :=
  let a := accuracyOf variant x
  let d := numAdd c (numNeg y)
  let d := if isNegative d then numNeg d else d
  match y, c with
  | .fin _ _ _, .fin _ _ _ =>
    !numLt (numMul (.fin false a.1 0) (ulpOf y)) d || a.2.elim false fun k => !numLt (.fin false 1 k) d
  | _, _ => false

/-- R218, R219: the operations whose result the manual bounds and does not fix: the result is free within the bound, and R219's special
cases stand (log entry 6). -/
def bounded (variant : Nat) (x : Num) (bits : Nat) : Num :=
  let any := ofF32 (Config.transcendental variant bits)
  let y := exactResult variant x
  let free := if accurate variant x y any then any else round32 y
  match variant, x with
  | _, .nan => .nan
  | 0x0D, .inf n => if n then .fin false 0 0 else .inf false
  | 0x0D, x => if numLt x (.fin true 149 0) then .fin false 0 0 else free
  | 0x0E, .inf n => if n then .fin false 0 0 else .inf false
  | 0x0E, .fin n m e =>
    -- compare a · 10^9 with −103278929903
    if numLt (numMul (.fin n m e) (.fin false 1000000000 0)) (.fin true 103278929903 0) then .fin false 0 0 else free
  | 0x0F, .inf n => if n then .nan else .inf false
  | 0x0F, .fin n m _ => if m = 0 then .inf true else if n then .nan else free
  | 0x10, .inf n => .fin n 0 0
  | 0x10, .fin n m _ => if m = 0 then .inf n else free
  | 0x11, .inf n => if n then .nan else any
  | 0x11, .fin n m _ => if m = 0 then (if n then any else .inf false) else if n then .nan else free
  | 0x13, .inf n => .fin n 1 0
  | 0x14, .inf n => if n then .fin false 0 0 else .fin false 1 0
  | 0x15, .inf n => if n then .fin true 0 0 else .inf false
  | 0x16, .inf n => if n then .fin true 0 0 else .inf false
  | _, _ => free

/-- R218: the value of an arithmetic operation, before it is rounded. -/
def vopValue (variant : Nat) (a b c : Num) (abits : Nat) : Num :=
  match variant with
  | 0x00 => numAdd a b
  | 0x01 => numAdd a (numNeg b)
  | 0x02 => numMul a b
  | 0x03 => numAdd (numMul a b) c
  | 0x04 => numMin a b
  | 0x05 => numMax a b
  | 0x06 => match a with
    | .nan => .nan
    | .inf _ => .inf false
    | .fin _ m e => .fin false m e
  | 0x07 => numNeg a
  | 0x12 => match a with
    | .nan => .nan
    | .inf n => if n then .nan else .inf false
    | .fin n m e => if m = 0 then .fin n 0 e else if n then .nan else numSqrt m e
  | v => bounded v a abits

/-- R218: the integer and bitwise operations on 32-bit lanes. -/
def vopInt (variant a b : Nat) : Nat :=
  let sa : Int := (BitVec.ofNat 32 a).toInt
  let sb : Int := (BitVec.ofNat 32 b).toInt
  match variant with
  | 0x20 => (a + b) % 2 ^ 32
  | 0x21 => if sa ≤ sb then a else b
  | 0x22 => if sa ≤ sb then b else a
  | 0x23 => a &&& b
  | 0x24 => a ||| b
  | 0x25 => a ^^^ b
  | 0x26 => a * 2 ^ (b % 32) % 2 ^ 32
  | _ => ((BitVec.ofNat 32 a).sshiftRight (b % 32)).toNat

/-- R218: the comparisons. -/
def vopCompare (variant : Nat) (a b : Num) : Bool :=
  match variant with
  | 0x08 => numLt a b
  | 0x09 => numLt a b || numEq a b
  | _ => numEq a b

/-- R207: the largest exponent of an element format under MXQ. -/
def mxEmax (code : Nat) : Int :=
  match code with
  | 0x0A => 8
  | 0x0B => 15
  | 0x0C => 4
  | 0x0D => 2
  | 0x0E => 2
  | _ => 0

/-- R207: the scale byte and the elements of a block of values. The rounding of element i is `rnd i`. -/
def mxQuantise (code : Nat) (rnd : Nat → Rounding) (v : List Num) : Nat × List Conv :=
  if v.any isNan then (255, v.map fun _ => { bits := 0 })
  else
    let mags := v.filterMap fun x => match x with
      | .fin _ m e => if m = 0 then none else some (Num.fin false m e)
      | _ => none
    let e : Int := match mags with
      | [] => -127
      | x :: r => floorLog2 (r.foldl numMax x) - mxEmax code
    let e := max (-127) (min e 127)
    ((e + 127).toNat, v.mapIdx fun i x =>
      let y := numShift (-e) x
      -- R216: the elements always saturate; an MXINT8 element is q · 2^−6 (R202)
      if code = 0x0F then encodeInt 8 (-128) 127 (rnd i) (numShift 6 y)
      else match floatFmt code, y with
        | some f, .inf n => { bits := maxBits f + (if n then 2 ^ (f.ebits + f.mbits) else 0), sat := true }
        | some f, y => encodeFloat f true (rnd i) y
        | none, _ => { bits := 0 })

/-! ### Packed arrays (R204) -/

/-- R204: element `i` of `w` bits of an array of bytes, little-endian in bits. -/
def packedGet (b : Nat → Nat) (w i : Nat) : Nat :=
  let p := w * i
  let n := (List.range 5).foldl (fun a k => a + b (p / 8 + k) * 256 ^ k) 0
  n / 2 ^ (p % 8) % 2 ^ w

/-- R204: pack elements of `w` bits into bytes. -/
def packBytes (w : Nat) (l : List Nat) : List Byte :=
  let n := l.foldr (fun x a => x % 2 ^ w + a * 2 ^ w) 0
  leBytes (ceilDiv (w * l.length) 8) n

/-! ### The matrix engine (R209–R213) -/

/-- R210: the exact sum of one group's products, scaled. -/
def groupSum (l : List (Num × Num)) (shift : Int) : Num :=
  numShift shift (l.foldl (fun acc p => numAdd acc (numMul p.1 p.2)) (.fin false 0 0))

/-- R212: a contribution that exceeds the FP32 range on rounding is an infinity of its sign; another stays exact. -/
def contribution (x : Num) : Num :=
  match round32 x with
  | .inf n => .inf n
  | _ => x

/-- R210–R213 (R211 for BF16): one accumulator cell takes a list of groups, each with its scale shift, or none for a NaN scale. -/
def accumulate (bf16 : Bool) (start : Num) (groups : List (List (Num × Num) × Option Int)) : Num :=
  groups.foldl (fun acc g =>
    match g.2 with
    | none => .nan
    | some k =>
      if bf16 then g.1.foldl (fun acc p => round32 (numAdd acc (contribution (numMul p.1 p.2)))) acc
      else round32 (numAdd acc (contribution (groupSum g.1 k)))) start

/-! ### The weight codec (R221–R232) -/

/-- Bit `i` of a stream (R226). -/
def streamBit (b : List Byte) (i : Nat) : Bool := (b.getD (i / 8) 0).getLsbD (i % 8)

/-- R226: read a unary count of one-bits: the count and the position after the zero-bit. -/
def readUnary (b : List Byte) (limit : Nat) : Nat → Nat → Nat → Option (Nat × Nat)
  | 0, _, _ => none
  | fuel + 1, pos, n =>
    if limit ≤ pos then none
    else if streamBit b pos then readUnary b limit fuel (pos + 1) (n + 1)
    else some (n, pos + 1)

/-- R226: read k low bits, least significant first. -/
def readLow (b : List Byte) (pos k : Nat) : Nat := (List.range k).foldl (fun a i => a + bit (streamBit b (pos + i)) * 2 ^ i) 0

/-- R226: the scale stream, as `n` further scales after `prev`. A difference that leaves 0–255 wraps (DESIGN CHOICE, log entry 17). -/
def readScales (b : List Byte) (limit k : Nat) : Nat → Nat → Nat → Option (List Nat)
  | 0, _, _ => some []
  | n + 1, pos, prev =>
    match readUnary b limit (limit + 1) pos 0 with
    | none => none
    | some (q, p) =>
      if limit < p + k then none
      else
        let z := q * 2 ^ k + readLow b p k
        let v := (if z % 2 = 0 then prev + z / 2 else prev + 256 * (z + 1) - (z + 1) / 2) % 256
        (readScales b limit k n (p + k) v).map (v :: ·)

/-- R226: the canonical codes: (length, code, value) for each FP4 code that occurs. -/
def canonicalCodes (lens : List Nat) : List (Nat × Nat × Nat) :=
  let order := sortBy (fun a b => a.1 ≤ b.1) ((lens.mapIdx fun v l => (l, v)).filter fun p => p.1 ≠ 0)
  (order.foldl (fun (acc : List (Nat × Nat × Nat) × Nat × Nat) p =>
    let code := if acc.2.2 = 0 then 0 else (acc.2.1 + 1) * 2 ^ (p.1 - acc.2.2)
    (acc.1 ++ [(p.1, code, p.2)], code, p.1)) ([], 0, 0)).1

/-- R226: match one code, most significant bit first. -/
def readCode (b : List Byte) (limit : Nat) (codes : List (Nat × Nat × Nat)) : Nat → Nat → Nat → Nat → Option (Nat × Nat)
  | 0, _, _, _ => none
  | fuel + 1, pos, len, acc =>
    if limit ≤ pos then none
    else
      let acc := 2 * acc + bit (streamBit b pos)
      match codes.find? fun c => c.1 = len + 1 && c.2.1 = acc with
      | some c => some (c.2.2, pos + 1)
      | none => readCode b limit codes fuel (pos + 1) (len + 1) acc

/-- R226: the element stream. -/
def readElems (b : List Byte) (limit : Nat) (codes : List (Nat × Nat × Nat)) : Nat → Nat → Option (List Nat)
  | 0, _ => some []
  | n + 1, pos =>
    match readCode b limit codes 15 pos 0 0 with
    | none => none
    | some (v, p) => (readElems b limit codes n p).map (v :: ·)

/-- R227: the code lengths satisfy Kraft's equality, or name one code of length 1. -/
def lengthsOk (lens : List Nat) : Bool :=
  let used := lens.filter (· ≠ 0)
  (used.map fun l => 2 ^ (15 - l)).foldl (· + ·) 0 = 2 ^ 15 || used = [1]

/-- R225–R227, R232: a segment's element bytes and scale bytes, or none when it does not check. -/
def decodeSegment (raw : Bool) (b : List Byte) : Option (List Byte × List Byte) :=
  let f (lo n : Nat) : Nat := leNat ((b.drop lo).take n)
  let rows := f 2 1
  let flags := f 3 1
  let lens := (List.range 16).map fun v => f 8 8 / 16 ^ v % 16
  if f 0 2 ≠ 0xC0D4 || (rows ≠ 64 && rows ≠ 128) || flags ≠ bit raw then none
  else if raw then
    if f 4 4 ≠ 0 || f 8 8 ≠ 0 || b.length < 16 + rows * 34 then none
    else some ((b.drop 16).take (rows * 32), (b.drop (16 + rows * 32)).take (rows * 2))
  else if 4 ≤ f 4 1 || !lengthsOk lens then none
  else
    let sbits := f 6 2
    let s := b.drop 16
    if s.length * 8 < sbits then none
    else match readScales s sbits (f 4 1) (rows * 2 - 1) 0 (f 5 1) with
      | none => none
      | some sc =>
        let el := s.drop (ceilDiv sbits 8)
        match readElems el (el.length * 8) (canonicalCodes lens) (rows * 64) 0 with
        | none => none
        | some vs => some (packBytes 4 vs, (f 5 1 :: sc).map (BitVec.ofNat 8))

end Sys2Proof.Machine
end

