-- ==== Sys2Proof/Machine/Operands.lean ====
section
/-! DEFINITION. The operand forms of a jig: the container's parts (R156–R158, R160), the fields of an op (R165), operand
references (R166) and tensor descriptors (R167). -/
namespace Sys2Proof.Machine

/-- R165: an op from its 96 bits. -/
def opOf (w : Nat) : Op :=
  { cls := bitsOf w 95 91, variant := bitsOf w 90 84, stage := bitsOf w 83 76, dst := bitsOf w 75 66,
    a := bitsOf w 65 56, b := bitsOf w 55 46, c := bitsOf w 45 36, count := bitsOf w 35 20,
    flags := bitsOf w 19 12, imm := bitsOf w 11 0 }

/-- R165: the flags of an op. -/
def opTake (o : Op) : Bool := bitOf o.flags 0
def opGive (o : Op) : Bool := bitOf o.flags 1
def opBulk (o : Op) : Bool := bitOf o.flags 2
def opStochastic (o : Op) : Bool := bitOf o.flags 3
def opSaturate (o : Op) : Bool := bitOf o.flags 4
def opFence (o : Op) : Bool := bitOf o.flags 5
def opCountParam (o : Op) : Bool := bitOf o.flags 6

/-- R160: a stage entry from its 32 bytes. -/
def stageOf (b : List Byte) : Stage :=
  { num := fieldAt b 0 1, unit := fieldAt b 1 1, inCount := fieldAt b 2 1,
    inputs := (List.range (min (fieldAt b 2 1) 4)).map fun i =>
      let v := fieldAt b (4 + 2 * i) 2
      ⟨v % 256, v / 256 % 16, v / 4096⟩
    rsvd := fieldAt b 3 1 = 0 && fieldAt b 12 20 = 0 }

/-- R160: the input is an external token counter. -/
def isExternal (i : StageIn) : Bool := i.source = 0xFF

/-- Cut a list into pieces of `n`. -/
def pieces {α : Type} (n : Nat) : Nat → List α → List (List α)
  | 0, _ => []
  | k + 1, l => l.take n :: pieces n k (l.drop n)

/-- R156: the bytes of a container with given counts. -/
def containerLength (stages consts ops : Nat) : Nat := 128 + 32 * stages + consts + ceilDiv (12 * ops) 16 * 16 + 128

/-- R156: the length that a header asks for. -/
def headerLength (h : List Byte) : Nat := containerLength (fieldAt h 18 2) (fieldAt h 20 2) (fieldAt h 16 2)

/-- R156–R158 (R157 the header): a container read from its bytes. -/
def containerOf (b : List Byte) : Jig :=
  let ops := fieldAt b 16 2
  let st := fieldAt b 18 2
  let cb := fieldAt b 20 2
  let stages := b.drop 128
  let consts := stages.drop (32 * st)
  let opb := consts.drop cb
  let tr := opb.drop (ceilDiv (12 * ops) 16 * 16)
  { magic := fieldAt b 0 4, format := fieldAt b 4 2, flags := fieldAt b 6 2, jigId := fieldAt b 8 8, opCount := ops,
    stageCount := st, constBytes := cb, epoch := fieldAt b 22 2, tagsS0 := fieldAt b 24 1, tagsS1 := fieldAt b 25 1,
    lead := fieldAt b 26 1, bankMask := fieldAt b 28 6, bound := fieldAt b 36 4, formats := fieldAt b 40 8,
    keyId := fieldAt tr 0 8,
    rsvd := fieldAt b 6 2 / 16 = 0 && fieldAt b 27 1 = 0 && fieldAt b 34 2 = 0 && fieldAt b 48 80 = 0
      && fieldAt tr 72 56 = 0,
    stages := (pieces 32 st stages).map stageOf, consts := consts.take cb,
    ops := (pieces 12 ops opb).map fun w => opOf (leNat w) }

/-- R158: the bytes of a jig in a jig store. -/
def jigBytes (j : Jig) : Nat := ceilDiv (128 + 32 * j.stageCount + j.constBytes + 12 * j.opCount) 256 * 256

/-- R166: the form and the index of an operand reference. -/
def refForm (r : Nat) : Nat := r / 256
def refIdx (r : Nat) : Nat := r % 256

/-- R167: a descriptor from its 16 bytes. -/
def descOf (b : List Byte) : Desc :=
  let ks := fieldAt b 7 1
  { offset := fieldAt b 0 6, fmt := fieldAt b 6 1, kind := ks / 64, slot := ks % 32, dim0 := fieldAt b 8 2,
    dim1 := fieldAt b 10 2, stride := fieldAt b 12 4, rsvd := ks / 32 % 2 = 0 }

/-- Descriptor `i` of a jig. -/
def jigDesc (j : Jig) (i : Nat) : Desc := descOf (j.consts.drop (16 * i))

/-- The operand references of an op that its class uses. -/
def usedRefs (o : Op) : List Nat :=
  match o.cls with
  | 0x03 => [o.dst, o.a]
  | 0x08 => [o.dst, o.a, o.b, o.c]
  | 0x09 => [o.dst, o.a, o.b, o.c]
  | 0x0A => [o.dst, o.a]
  | 0x10 => [o.dst, o.a]
  | 0x11 => [o.dst, o.a]
  | 0x12 => [o.dst, o.a, o.b, o.c]
  | 0x13 => [o.dst, o.a]
  | 0x14 => [o.dst, o.a, o.b, o.c]
  | 0x18 => [o.dst, o.a]
  | 0x19 => [o.dst, o.a]
  | 0x1A => [o.dst, o.a]
  | 0x1B => [o.dst, o.a, o.b]
  | 0x1C => [o.a]
  | 0x1D => [o.dst, o.a]
  | _ => []

/-- How many descriptors the constant area holds: up to the highest that an op names (log entry 15). -/
def descCount (j : Jig) : Nat :=
  (j.ops.flatMap usedRefs).foldl (fun n r => if refForm r = 0 then max n (refIdx r + 1) else n) 0

/-- R166: constant `i`, of 8 bytes after the descriptors. -/
def jigConst (j : Jig) (i : Nat) : Nat := fieldAt (j.consts) (16 * descCount j + 8 * i) 8

/-- A signed number of `w` bits. -/
def toSigned (w v : Nat) : Int := if v % 2 ^ w < 2 ^ (w - 1) then (v % 2 ^ w : Nat) else (v % 2 ^ w : Nat) - (2 ^ w : Int)

/-- The bytes of one row of a descriptor. -/
def rowBytes (d : Desc) : Nat := ceilDiv (d.dim0 * elemBits d.fmt) 8

/-- The byte at position `n` of a tensor laid out in rows. -/
def descByte (d : Desc) (n : Nat) : Nat :=
  let r := max (rowBytes d) 1
  n / r * d.stride + n % r

/-- The bytes from the first to the last of a tensor. -/
def descSpan (d : Desc) : Nat := (d.dim1 - 1) * d.stride + rowBytes d

/-- The unit that runs a stage. -/
def stageUnit (j : Jig) (n : Nat) : Option Nat := (j.stages.find? fun x => x.num = n).map (·.unit)

/-- R160: a unit's ops in op-array order, with their indexes in the array. -/
def unitOps (j : Jig) (u : Nat) : List (Nat × Op) :=
  (j.ops.mapIdx fun i o => (i, o)).filter fun p => stageUnit j p.2.stage = some u

/-- R160: the channels into a stage, as (key, input). -/
def stageInputs (j : Jig) (n : Nat) : List (Nat × StageIn) :=
  match j.stages.find? fun x => x.num = n with
  | some x => x.inputs.mapIdx fun i y => (n * 4 + i, y)
  | none => []

/-- R160: the channels out of a stage, as (key, input of the stage that names it). -/
def stageOutputs (j : Jig) (n : Nat) : List (Nat × StageIn) :=
  j.stages.flatMap fun x => (stageInputs j x.num).filter fun p => p.2.source = n && !isExternal p.2

end Sys2Proof.Machine
end

