-- ==== Sys2Proof/Machine/Verify.lean ====
section
/-! DEFINITION. The token rules of a jig's units (R160, R161) and the verification of a container (R169). -/
namespace Sys2Proof.Machine

/-! ### Units, loops and tokens -/

/-- The passes a LOOP makes: its count, or a parameter slot's value when flag 6 is set; `par` gives that value. -/
def loopCount (par : Nat → Nat) (o : Op) : Nat := if opCountParam o then par (refIdx o.a) else o.count

/-- After a body's end, the innermost loops are repeated or left. -/
def closeLoops (pc : Nat) : List (Nat × Nat × Nat) → Nat × List (Nat × Nat × Nat)
  | [] => (pc, [])
  | (a, e, left) :: r => if pc = e then if 1 < left then (a, (a, e, left - 1) :: r) else closeLoops pc r else (pc, (a, e, left) :: r)

/-- R168: the unit moves past the op it has issued. A LOOP without a body repeats nothing. -/
def nextUnit (par : Nat → Nat) (o : Op) (u : UnitSt) : UnitSt :=
  if o.cls = 0x01 then { u with ended := true }
  else
    let n := loopCount par o
    let p := if o.cls = 0x02 then
        if n = 0 || o.imm = 0 then (u.pc + 1 + o.imm, u.loops) else (u.pc + 1, (u.pc + 1, u.pc + 1 + o.imm, n) :: u.loops)
      else (u.pc + 1, u.loops)
    let q := closeLoops p.1 p.2
    { u with pc := q.1, loops := q.2 }

/-- The op a unit would issue next. -/
def unitNext (j : Jig) (n : Nat) (u : UnitSt) : Option (Nat × Op) := if u.ended then none else (unitOps j n)[u.pc]?

/-- The take tokens of an op are present. -/
def takeReady (j : Jig) (ch : Nat → Nat) (ext : Nat → Nat) (o : Op) : Bool :=
  !opTake o || (stageInputs j o.stage).all fun p => if isExternal p.2 then 0 < ext p.2.depth else 0 < ch p.1

/-- Every output channel has room for a token. `held` counts the tokens that ops in flight will still give. -/
def giveReady (j : Jig) (ch : Nat → Nat) (held : Nat → Nat) (o : Op) : Bool :=
  !opGive o || (stageOutputs j o.stage).all fun p => ch p.1 + held p.1 < p.2.depth

/-- The channels after an op takes its tokens. -/
def takeTokens (j : Jig) (o : Op) (ch : Tab Nat) : Tab Nat :=
  if opTake o then (stageInputs j o.stage).foldl (fun t p => if isExternal p.2 then t else tmod t p.1 0 (· - 1)) ch else ch

/-- The channels after an op gives its tokens. -/
def giveTokens (j : Jig) (o : Op) (ch : Tab Nat) : Tab Nat :=
  if opGive o then (stageOutputs j o.stage).foldl (fun t p => tmod t p.1 0 (· + 1)) ch else ch

/-- R160: the channels with their initial tokens. -/
def initialChans (j : Jig) : Tab Nat :=
  j.stages.foldl (fun t x => (stageInputs j x.num).foldl (fun t p =>
    if isExternal p.2 || p.2.init = 0 then t else tset t p.1 p.2.init) t) []

/-- The units at the start of a run; a unit without stages has no part in it. -/
def initialUnits (j : Jig) : List UnitSt := (List.range 4).map fun u => { ended := (unitOps j u).isEmpty }

/-- One unit issues its next op in the abstract run, if it can. -/
def abstractIssue (j : Jig) (par : Nat → Nat) (n : Nat) (p : List UnitSt × Tab Nat) : Option (List UnitSt × Tab Nat) :=
  let u := p.1.getD n {}
  match unitNext j n u with
  | none => none
  | some (_, o) =>
    let ch (k : Nat) : Nat := tget p.2 k 0
    if takeReady j ch (fun _ => 1) o && giveReady j ch (fun _ => 0) o then
      some (p.1.set n (nextUnit par o u), giveTokens j o (takeTokens j o p.2))
    else none

/-- R169 check 11: run the token schedule until every unit is at END (true) or none can issue (false). -/
def abstractRun (j : Jig) (par : Nat → Nat) : Nat → List UnitSt × Tab Nat → Bool
  | 0, _ => false
  | n + 1, p =>
    if p.1.all (·.ended) then true
    else match (List.range 4).findSome? fun u => abstractIssue j par u p with
      | some q => abstractRun j par n q
      | none => false

/-- The number of issues that bounds an abstract run: four loops of 65,535 passes over at most 4,096 ops on four units. -/
def abstractBound : Nat := 2 ^ 80

/-! ### The checks -/

/-- R169: the reasons of a refusal, as (status, reason, op or stage index). -/
abbrev JigRefusal := Option (Status × Nat × Nat)

/-- The first element at which a check fails. -/
def firstBad {α : Type} (ok : α → Bool) (l : List α) : Option Nat := findIdx (fun x => !ok x) l 0

/-- A check over a list refuses at its first failing element. -/
def refuseAt {α : Type} (st : Status) (reason : Nat) (ok : α → Bool) (l : List α) : JigRefusal :=
  (firstBad ok l).map fun i => (st, reason, i)

/-- R168: the class is one of the table's, and the unit executes it. -/
def classOnUnit (cls unit : Nat) : Bool :=
  if cls ≤ 3 then unit ≤ 3
  else if 0x08 ≤ cls && cls ≤ 0x0A then unit = 0
  else if 0x10 ≤ cls && cls ≤ 0x14 then unit = 1
  else if 0x18 ≤ cls && cls ≤ 0x1D then unit = 2 || unit = 3
  else false

/-- R218, R208: the formats of a VOP: CVT between the plain formats, MXQ to a block format, MXD from one, the integer and bitwise
operations on INT32, and every other with both FP32 or both BF16. A jig that names others fails with the variant (DEDUCED, log entry 15). -/
def vopFormatsOk (o : Op) : Bool :=
  let fd := o.imm % 64
  let fs := o.imm / 64 % 64
  let plain (f : Nat) : Bool := f ≤ 0x09 || f = 0x12 || f = 0x13
  if o.variant = 0x0C then plain fs && plain fd
  else if o.variant = 0x17 then (fs = 0 || fs = 1) && isMx fd
  else if o.variant = 0x18 then isMx fs && (fd = 0 || fd = 1)
  else if 0x20 ≤ o.variant then fs = 0x09 && fd = 0x09
  else fs = fd && (fs = 0 || fs = 1)

/-- R208: the formats that a class takes at an operand; `role` tells a destination, the first or second source, or the scales. -/
def formatFor (cls role fmt : Nat) : Bool :=
  match cls, role with
  | 0x08, 3 => fmt = 0x10
  | 0x08, _ => (1 ≤ fmt && fmt ≤ 7) || isMx fmt
  | 0x09, 3 => true
  | 0x09, _ => 1 ≤ fmt && fmt ≤ 7
  | 0x0A, 0 => fmt ≤ 3
  | 0x14, 1 => 1 ≤ fmt && fmt ≤ 3
  | 0x14, 2 => 1 ≤ fmt && fmt ≤ 3
  | _, _ => true

/-- R168, R166: the operand forms that a class allows, with the index in range. -/
def operandsOk (j : Jig) (o : Op) : Bool :=
  let desc (r : Nat) : Bool := refForm r = 0 && 16 * refIdx r + 16 ≤ j.constBytes
  let const (r : Nat) : Bool := refForm r = 3 && 16 * descCount j + 8 * refIdx r + 8 ≤ j.constBytes
  let reg (r : Nat) : Bool := refForm r = 2 && refIdx r < 64
  let tile (r : Nat) : Bool := refForm r = 2 && refIdx r < 2
  let regConst (r : Nat) : Bool := reg r || const r
  match o.cls with
  | 0x02 => !opCountParam o || (refForm o.a = 1 && refIdx o.a < 32)
  | 0x03 => desc o.dst && const o.a
  | 0x08 => tile o.dst && desc o.a && desc o.b && (!isMx (jigDesc j (refIdx o.a)).fmt || desc o.c)
  | 0x09 => tile o.dst && desc o.a && desc o.b && desc o.c
  | 0x0A => desc o.dst && tile o.a
  | 0x10 => reg o.dst && desc o.a
  | 0x11 => desc o.dst && reg o.a
  | 0x12 => reg o.dst && regConst o.a && regConst o.b && regConst o.c
      && (o.variant ≤ 0x18 || (0x20 ≤ o.variant && o.variant ≤ 0x27)) && vopFormatsOk o
  | 0x13 => reg o.dst && reg o.a && o.variant ≤ 4
  | 0x14 => desc o.dst && desc o.a && desc o.b && const o.c
  | 0x18 => desc o.dst && desc o.a
  | 0x19 => desc o.dst && desc o.a
  | 0x1A => desc o.dst && desc o.a
  | 0x1B => desc o.dst && desc o.a && desc o.b
  | 0x1C => desc o.a
  | 0x1D => desc o.dst && const o.a
  | _ => true

/-- R168: the kinds of descriptor that a class takes, as (operand, kinds). -/
def kindsOf (j : Jig) (o : Op) : List (Nat × List Nat) :=
  match o.cls with
  | 0x08 => [(o.a, [0]), (o.b, [0])] ++ if isMx (jigDesc j (refIdx o.a)).fmt then [(o.c, [0])] else []
  | 0x09 => [(o.a, [0]), (o.b, [0]), (o.c, [0])]
  | 0x0A => [(o.dst, [0, 1, 3])]
  | 0x10 => [(o.a, [0])]
  | 0x11 => [(o.dst, [0])]
  | 0x14 => [(o.dst, [0]), (o.a, [0]), (o.b, [0])]
  | 0x18 => [(o.dst, [0]), (o.a, [1, 2])]
  | 0x19 => [(o.dst, [1, 2]), (o.a, [0])]
  | 0x1A => [(o.dst, [1]), (o.a, [0])]
  | 0x1B => [(o.dst, [0]), (o.a, if o.variant % 2 = 1 then [1, 2] else [0]), (o.b, [1, 2])]
  | 0x1C => [(o.a, [1, 2])]
  | 0x1D => [(o.dst, [1, 2])]
  | _ => []

/-- R169 check 8: a kind-0 window lies in the bench store and in the banks of the mask. -/
def windowOk (mask : Nat) (d : Desc) : Bool :=
  d.offset + descSpan d ≤ 0x180000
    && (List.range 48).all fun k => bitOf mask k || d.offset + descSpan d ≤ k * 0x8000 || (k + 1) * 0x8000 ≤ d.offset

/-- R208, R142: every descriptor of an op has a format that its unit accepts there, the matrix engine's A and B the same one (DEDUCED:
check 8, log entry 15). -/
def acceptsFormats (j : Jig) (o : Op) : Bool :=
  let ok (role ref : Nat) : Bool := refForm ref ≠ 0 || formatFor o.cls role (jigDesc j (refIdx ref)).fmt
  ok 0 o.dst && ok 1 o.a && ok 2 o.b
    && ((o.cls ≠ 0x08 && o.cls ≠ 0x09) || (jigDesc j (refIdx o.a)).fmt = (jigDesc j (refIdx o.b)).fmt)
    && (!isMx (jigDesc j (refIdx o.a)).fmt || ok 3 o.c)

/-- R337, R321: a row width that some attention record gives: H_b × D. -/
def rowWidth (w : Nat) : Bool := (List.range 8).any fun h => (List.range 8).any fun d => w = (h + 1) * (32 * (d + 1))

/-- R169 check 8, R197, R229: the descriptors that an op names. -/
def descriptorsOk (j : Jig) (o : Op) : Bool :=
  let ks := kindsOf j o
  ks.all (fun p =>
    let d := jigDesc j (refIdx p.1)
    d.kind ∈ p.2
      && (d.kind ≠ 0 || windowOk j.bankMask d)
      && (d.kind ≠ 3 || (d.fmt = 0x01 && rowWidth d.dim0))
      && (d.fmt ≠ 0x11 || ((o.cls = 0x18 || o.cls = 0x1C) && p.1 = o.a)))
    && ((usedRefs o).all fun r => refForm r ≠ 0 || (jigDesc j (refIdx r)).fmt ≤ 0x13)
    && ((o.cls ≠ 0x08 && o.cls ≠ 0x09) || o.count % 2 = 0) && acceptsFormats j o

/-- R169 check 9: the channels of a stage. -/
def wiringOk (j : Jig) (x : Stage) : Bool :=
  x.inCount ≤ 4 && x.inputs.all fun i =>
    isExternal i || (i.source ≠ x.num && (stageUnit j i.source).isSome && 1 ≤ i.depth && i.init ≤ i.depth)

/-- Where a loop's count comes from: a parameter slot or a constant. -/
def loopSource (o : Op) : Bool × Nat := if opCountParam o then (true, refIdx o.a) else (false, o.count)

/-- The loops around each op of a unit, outermost first: walk the ops with the open loops, each with the ops left in its
body. -/
def loopsAround : List (Nat × Op) → List (Nat × (Bool × Nat)) → List (Nat × List (Bool × Nat))
  | [], _ => []
  | (i, o) :: r, st =>
    let here := (i, (st.map (·.2)).reverse)
    let st := (st.filter fun x => 1 < x.1).map fun x => (x.1 - 1, x.2)
    let st := if o.cls = 0x02 && o.imm ≠ 0 then (o.imm, loopSource o) :: st else st
    here :: loopsAround r st

/-- The loops around op `i` of a jig. -/
def loopsOf (j : Jig) (i : Nat) : List (Bool × Nat) :=
  match (List.range 4).findSome? fun u => (loopsAround (unitOps j u) []).find? fun p => p.1 = i with
  | some p => p.2
  | none => []

/-- An op takes from a channel or gives to it. -/
def usesChannel (o : Op) (ch : Nat × StageIn) : Bool :=
  (opTake o && o.stage = ch.1 / 4) || (opGive o && o.stage = ch.2.source)

/-- R169 check 10: nesting, END inside a body, and the loops of all takes and gives of one channel. -/
def loopsOk (j : Jig) (p : Nat × Op) : Bool :=
  let mine := loopsOf j p.1
  mine.length + bit (decide (p.2.cls = 0x02)) ≤ 4
    && (p.2.cls ≠ 0x01 || mine.isEmpty)
    && (stageInputs j p.2.stage ++ stageOutputs j p.2.stage).all fun ch => isExternal ch.2 || !usesChannel p.2 ch
        || (j.ops.mapIdx fun i o => (i, o)).all fun q => !usesChannel q.2 ch || loopsOf j q.1 = mine

/-- R169 check 12: the KV tail only with bit 1 of the header's flags. -/
def kvTailOk (j : Jig) : Bool :=
  bitOf j.flags 1 || j.ops.all fun o => (kindsOf j o).all fun p => (jigDesc j (refIdx p.1)).kind ≠ 3

/-- What R169's checks 1–4 ask of the world: the address and length the command names, the lot check, whether the key is
one of the context's (or Fisujor's), the signature's validity, and the epochs that the running SQFW accepts. -/
structure JigWorld where
  addr : Nat
  len : Nat
  inLot : Bool
  keyOk : Bool
  sigOk : Bool
  epochOk : Bool
  deriving DecidableEq, Repr, Inhabited

/-- The first of a list of checks that refuses. -/
def firstRefusal : List JigRefusal → JigRefusal
  | [] => none
  | some x :: _ => some x
  | none :: r => firstRefusal r

/-- One check without an index. -/
def refuseUnless (ok : Bool) (st : Status) (reason : Nat) : JigRefusal := if ok then none else some (st, reason, 0)

/-- R169, R198: verify a container; the first failing check with its status, reason and index. -/
def verifyJig (w : JigWorld) (j : Jig) : JigRefusal :=
  let indexed := j.ops.mapIdx fun i o => (i, o)
  firstRefusal [
    refuseUnless (j.magic = 0x4A494701 && j.format = 1 && w.addr % 256 = 0 && w.inLot) .badArg 0x01,
    refuseUnless (1 ≤ j.opCount && j.opCount ≤ 4096 && 1 ≤ j.stageCount && j.stageCount ≤ 256 && j.constBytes ≤ 7936
      && j.constBytes % 16 = 0 && containerLength j.stageCount j.constBytes j.opCount = w.len) .badArg 0x02,
    refuseUnless (w.keyOk && w.sigOk) .denied 0x03,
    refuseUnless w.epochOk .incompatible 0x04,
    refuseUnless (j.rsvd && (List.range (descCount j)).all fun i => (jigDesc j i).rsvd) .badArg 0x05,
    refuseAt .badArg 0x05 (·.rsvd) j.stages,
    refuseAt .badArg 0x05 (fun o => !bitOf o.flags 7) j.ops,
    refuseAt .badArg 0x06 (fun o => match stageUnit j o.stage with
      | some u => classOnUnit o.cls u
      | none => false) j.ops,
    refuseAt .badArg 0x07 (operandsOk j) j.ops,
    refuseAt .badArg 0x08 (descriptorsOk j) j.ops,
    refuseUnless ((List.range (descCount j)).all fun i => (jigDesc j i).fmt ≤ 0x13) .badArg 0x08,
    refuseAt .badArg 0x09 (wiringOk j) j.stages,
    refuseAt .badArg 0x0A (loopsOk j) indexed,
    refuseUnless (abstractRun j (fun _ => 1) abstractBound (initialUnits j, initialChans j)
      && abstractRun j (fun _ => 2) abstractBound (initialUnits j, initialChans j)) .badArg 0x0B,
    refuseUnless (j.tagsS0 + j.tagsS1 ≤ 128 && j.formats < 2 ^ 20 && kvTailOk j) .badArg 0x0C]

end Sys2Proof.Machine
end

