-- ==== Sys2Proof/Machine/Flags.lean ====
section
/-! DEFINITION. Conditions and status of a bench: its gauges (R696–R701), the causes of a stall (R163) and the register
fields that show a bench's state (R192–R196). -/
namespace Sys2Proof.Machine

def benchOf (s : State) (b : Nat) : BenchSt := tget s.benches.benches b {}

def modBench (b : Nat) (f : BenchSt → BenchSt) (s : State) : State :=
  { s with benches := { s.benches with benches := tmod s.benches.benches b {} f } }

def benchGau (s : State) (b : Nat) : BenchGau := tget s.gau.bench b {}

def modGau (b : Nat) (f : BenchGau → BenchGau) (s : State) : State :=
  { s with gau := { s.gau with bench := tmod s.gau.bench b {} f } }

/-- R696, R697: every programmable counter of a bench that selects an event code counts on, in 48 bits. -/
def countCode (b code n : Nat) (s : State) : State :=
  if (benchGau s b).codes.contains code then
    modGau b (fun g =>
      let l := (g.codes.zip g.counts).map fun p => if p.1 = code then wrapAdd 48 p.2 n else p.2
      { g with counts := l }) s
  else s

/-- R163: the causes of a stall, in the order in which they are tested. -/
inductive Stall where
  | tokenIn | fence | gate | channelFull | bank | tag | meshCredit
  deriving DecidableEq, Repr, Inhabited

/-- R163: the value of a cause. -/
def stallCode : Stall → Nat
  | .tokenIn => 1
  | .fence => 2
  | .gate => 3
  | .channelFull => 4
  | .bank => 5
  | .tag => 6
  | .meshCredit => 7

/-- R163, R698: the class of the slot that a cause takes. -/
def frontStarved (c : Stall) : Bool := c = .tokenIn || c = .fence

/-- R698, R700: a slot of the lead unit is counted in one class and in GAU_SLOTS, as one update. -/
def countSlots (b : Nat) (cls : Option Stall) (n : Nat) (s : State) : State :=
  modGau b (fun g =>
    let g := { g with slots := wrapAdd 48 g.slots n }
    match cls with
    | none => { g with retired := wrapAdd 48 g.retired n }
    | some c => if frontStarved c then { g with front := wrapAdd 48 g.front n } else { g with back := wrapAdd 48 g.back n }) s

/-- R699: retired slots move to wasted, as one update. -/
def wasteSlots (b n : Nat) (s : State) : State :=
  modGau b (fun g =>
    { g with retired := (g.retired + 2 ^ 48 - n % 2 ^ 48) % 2 ^ 48, wasted := wrapAdd 48 g.wasted n }) s

/-- R187: a block that BENCH_TEST (step 12) or MESH_TEST (step 13) has removed. -/
def blockExcluded (s : State) (k : Nat) : Bool :=
  if beforeReady s then (tget s.boot.items (12 * 1024 + k) {}).excluded || (tget s.boot.items (13 * 1024) {}).rung = 2
  else !bitOf s.boot.capBlocks k

/-- R187: the state of a block. -/
def blockState (s : State) (k : Nat) : Nat :=
  if blockExcluded s k then 3
  else if s.benches.scrubbing.contains k && !draining s k then 2
  else if (blockOwner s k).isSome then 1
  else 0

/-- The streamer from whose claim an op takes tags (R147): its own unit, or S1 for the matrix engine's direct output. -/
def tagUnit (u : Nat) (o : Op) (d : Desc) : Option Nat :=
  if 0x18 ≤ o.cls then some u else if o.cls = 0x0A && d.kind ≠ 0 then some 3 else none

/-- The streamer that carries an op's packets. -/
def streamerOf (f : InFlight) : Option Nat := tagUnit f.unit f.op f.d

/-- R147: tags in use by one streamer of a bench, one for each packet that is not answered. -/
def tagsUsed (r : BenchRun) (unit : Nat) : Nat :=
  ((r.inflight.filter fun f => streamerOf f = some unit).map (·.waits)).foldl (· + ·) 0

/-- The tags in use on a bench. -/
def tagsOf (r : BenchRun) : Nat := tagsUsed r 2 + tagsUsed r 3

/-- R195: the state of a bench. -/
def benchState (s : State) (b : Nat) : Nat :=
  let x := benchOf s b
  let k := blockState s (blockOf b)
  if k = 3 then 7
  else if k = 2 then 6
  else if beforeReady s then 0
  else match x.cur with
    | some r => if x.faulted then 5 else if r.stopping then 4
      else if r.units.all (·.ended) then 4 else 3
    | none => if s.benches.loads.any fun l => l.blocks.contains (blockOf b) && l.refusal.isNone then 2 else 1

/-- R195: the slots that hold a valid jig, as a mask. -/
def slotsValid (x : BenchSt) : Nat :=
  (List.range 4).foldl (fun m i => if (x.slots.getD i none).isSome && !x.badLines.contains i then m + 2 ^ i else m) 0

/-- R195: `BN_STATUS`. -/
def bnStatus (s : State) (b : Nat) : Nat :=
  let x := benchOf s b
  let active := match x.cur with
    | some r => (List.range 4).foldl (fun m u => if (r.units.getD u {}).ended then m else m + 2 ^ u) 0
    | none => 0
  benchState s b + 8 * blockState s (blockOf b) + 2 ^ 12 * active + 2 ^ 16 * x.queue.length + 2 ^ 20 * slotsValid x
    + 2 ^ 24 * (x.cur.elim 0xFF (·.slot)) + 2 ^ 32 * blockOf b + 2 ^ 40 * (blockOwner s (blockOf b)).getD 0xFF

/-- R196: `BN_FAULT`. -/
def bnFault (s : State) (b : Nat) : Nat :=
  let x := benchOf s b
  x.faultCode + 2 ^ 28 * x.faultSlot + 2 ^ 30 * x.faultUnit + 2 ^ 32 * x.faultOp

/-- R155, R192: the issue-rate limit of a block in percent. -/
def issueLimit (s : State) (k : Nat) : Nat := tget s.benches.limits k 100

/-- R187: the issue gates of an UNASSIGNED block are closed. -/
def unassigned (s : State) (k : Nat) : Bool := blockState s k = 0

/-- R192: `BN_GATE`. -/
def bnGate (s : State) (b : Nat) : Nat :=
  let shut := unassigned s (blockOf b)
  bit (shut || (benchOf s b).mxGate) + 2 * bit (shut || (benchOf s b).vxGate) + 256 * issueLimit s (blockOf b)

/-- R192: `BN_TAGS`. -/
def bnTags (s : State) (b : Nat) : Nat :=
  let x := benchOf s b
  let u (n : Nat) : Nat := x.cur.elim 0 fun r => tagsUsed r n
  u 2 + 2 ^ 8 * u 3 + 2 ^ 16 * x.claims.1 + 2 ^ 24 * x.claims.2 + 2 ^ 32 * x.cur.elim x.maxTags (·.maxTags)

/-- R192: `BN_XING_CREDITS`: four bits for each class and output. -/
def bnCredits (s : State) (b : Nat) : Nat :=
  foldN 4 (fun d a => a + foldN 4 (fun c a =>
    let cls : MeshClass := match c with
      | 0 => .control
      | 1 => .request
      | 2 => .response
      | _ => .bulk
    a + 2 ^ (16 * d + 4 * c) * (linkOf s (linkNo (benchSite b) d) cls).credits) 0) 0

/-- R194: a block belongs to a confidential context, or has left one and is not cleared yet. -/
def confBlock (s : State) (k : Nat) : Bool :=
  ((blockOwner s k).orElse fun _ => if s.benches.scrubbing.contains k then (s.benches.leftBy.find? fun p => p.1 = k).map (·.2) else none).elim false (isConf s)

/-- R192: a register of a bench page by its offset; R194 hides it while the bench is confidential. -/
def benchReg (s : State) (b off : Nat) : Nat :=
  let x := benchOf s b
  let hide := confBlock s (blockOf b)
  let open_ := match off with
    | 0x0010 => x.faultNs
    | 0x0018 => x.events
    | 0x0020 => (x.slots.getD 0 none).elim 0 (·.jigId)
    | 0x0028 => (x.slots.getD 1 none).elim 0 (·.jigId)
    | 0x0030 => (x.slots.getD 2 none).elim 0 (·.jigId)
    | 0x0038 => (x.slots.getD 3 none).elim 0 (·.jigId)
    | 0x0040 => bnTags s b
    | 0x0048 => foldN 8 (fun i a => a + 256 ^ i * x.xtok.getD i 0) 0
    | 0x0050 => foldN 8 (fun i a => a + 256 ^ i * x.xtok.getD (8 + i) 0) 0
    | 0x0058 => x.conflicts
    | 0x0060 => bnGate s b
    | 0x0068 => bnCredits s b
    | 0x0070 => x.roWrites
    | _ => 0
  match off with
  | 0x0000 => bnStatus s b
  | 0x0008 => if hide then (bnFault s b) % 65536 else bnFault s b
  | _ => if hide then 0 else open_

end Sys2Proof.Machine
end

