-- ==== Sys2Proof/Machine/KvOps.lean ====
section
/-! DEFINITION. Requests and the key-value page store: attention geometry, pages, page lists, the free list and its
conservation (R321–R336, R765), and the rows that are written to pages (R326–R329, R337–R339). -/
namespace Sys2Proof.Machine

/-! ### Contexts and requests -/

def serveOf (s : State) (c : Nat) : ServeCtx := tget s.serve.ctxs c {}

def modServe (c : Nat) (f : ServeCtx → ServeCtx) (s : State) : State :=
  { s with serve := { s.serve with ctxs := tmod s.serve.ctxs c {} f } }

def reqOf (s : State) (x : Nat) : Request := tget s.serve.reqs x {}

def modReq (x : Nat) (f : Request → Request) (s : State) : State :=
  { s with serve := { s.serve with reqs := tmod s.serve.reqs x {} f } }

/-- The requests of a context that are not FREE, by index. -/
def liveReqs (s : State) (c : Nat) : List (Nat × Request) := s.serve.reqs.filter fun p => p.2.ctx = c && p.2.state ≠ .free

/-- A model of a context. -/
def modelOf (s : State) (c m : Nat) : Option Model := tget (serveOf s c).models m none

/-! ### Attention geometry -/

/-- R321: an attention record from its 64 bytes. -/
def attOf (b : List Byte) : AttRec :=
  let f := fieldAt b
  { d := f 0 2, hq := f 2 2, hkv := f 4 2, hb := f 6 1, fmt := f 7 1, layers := f 8 2, mask := f 10 1, headMap := f 11 1,
    window := f 12 4, sinks := f 16 4, scale := f 20 4, chunk := f 24 2, mapAddr := f 32 8, scaleInit := f 40 8,
    rsvd := f 26 6 = 0 && f 48 16 = 0 }

/-- R325: the positions of a page. -/
def pageT (a : AttRec) : Nat :=
  let n := 2 * a.d * a.hb
  if n = 0 then 0
  else match a.fmt with
    | 0 => 65536 / (2 * n)
    | 1 => 65536 / n
    | _ => 65536 * 32 / (17 * n)

/-- R323: the kv-head groups of a model. -/
def attG (a : AttRec) : Nat := if a.hb = 0 then 0 else a.hkv / a.hb

/-- R321: every field of an attention record is in range. -/
def attValid (a : AttRec) : Bool :=
  a.rsvd && 32 ≤ a.d && a.d ≤ 256 && a.d % 32 = 0 && 1 ≤ a.hq && a.hq ≤ 256 && 1 ≤ a.hkv && a.hkv ≤ a.hq && 1 ≤ a.hb
    && a.hb ≤ 8 && a.hkv % a.hb = 0 && a.fmt ≤ 2 && 1 ≤ a.layers && a.layers ≤ 256 && a.mask ≤ 3 && a.headMap ≤ 1
    && (if a.mask = 1 || a.mask = 2 then 1 ≤ a.window && a.window ≤ 1048576 else a.window = 0)
    && (if a.mask = 2 then a.sinks ≤ 65535 else a.sinks = 0)
    && 1 ≤ a.chunk && a.chunk ≤ 3 * pageT a
    && (a.headMap = 1 || a.mapAddr = 0) && (a.fmt = 1 || a.scaleInit = 0)

/-- R322: the kv head that a query head uses under RULE. -/
def ruleHead (a : AttRec) (h : Nat) : Nat := h * a.hkv / a.hq

/-- R321, R322: the kv head that a query head uses. -/
def kvHead (s : State) (a : AttRec) (h : Nat) : Nat :=
  if a.headMap = 0 then ruleHead a h else leNat (consumeBytes s (a.mapAddr + h) 1)

/-- R354: the key ranges of `n` keys under a split threshold. -/
def keyRanges (split n : Nat) : List Nat :=
  if n ≤ split || split = 0 then [n]
  else
    let parts := ceilDiv n split
    let len := ceilDiv (ceilDiv n parts) 64 * 64
    (List.range (ceilDiv n len)).map fun i => min len (n - i * len)

/-- R351: the mask entry of a request index; without a mask lot it has no prefix and no ranges. -/
def maskEntry (s : State) (c x : Nat) : MaskEntry :=
  let m := (serveOf s c).pool.maskLot
  if m = 0 then {}
  else
    let b := consumeBytes s (m + 64 * x) 64
    { prefix_ := fieldAt b 0 4, ranges := (List.range (min 6 (fieldAt b 4 1))).map fun i => (fieldAt b (8 + 8 * i) 4, fieldAt b (12 + 8 * i) 4) }

/-- The draft of a model's record. -/
def draftOf (s : State) (c : Nat) (m : Model) : Option Model :=
  if m.rec_.draft = 0xFF then none else modelOf s c m.rec_.draft

/-- R330: the pages of a page set. -/
def setPages (s : State) (c : Nat) (m : Model) : Nat :=
  m.att.layers * attG m.att + ((draftOf s c m).elim 0 fun d => d.att.layers * attG d.att)

/-- R330: what entry `e` of a page set holds: the attention record, layer and group. -/
def setEntry (s : State) (c : Nat) (m : Model) (e : Nat) : AttRec × Nat × Nat :=
  let n := m.att.layers * attG m.att
  match draftOf s c m with
  | some d => if e < n then (m.att, e / max 1 (attG m.att), e % max 1 (attG m.att))
    else (d.att, (e - n) / max 1 (attG d.att), (e - n) % max 1 (attG d.att))
  | none => (m.att, e / max 1 (attG m.att), e % max 1 (attG m.att))

/-- R325: the page sets that cover `n` positions. -/
def setsFor (a : AttRec) (n : Nat) : Nat := ceilDiv n (max 1 (pageT a))

/-! ### The pool -/

/-- R324: the channel group of a page. -/
def pageGroup (p : Nat) : Nat := p * 65536 / 2 ^ 36

/-- The pool index of a page. -/
def poolIndex (ranges : List (Nat × Nat)) (p : Nat) : Option Nat :=
  match ranges with
  | [] => none
  | (a, n) :: r => if a ≤ p && p < a + n then some (p - a) else (poolIndex r p).map (n + ·)

/-- The pages of a pool in pool order. -/
def poolPages (ranges : List (Nat × Nat)) : List Nat := ranges.flatMap fun r => (List.range r.2).map (r.1 + ·)

/-- R765: the free list that FUNC_START builds. -/
def buildFree (ranges : List (Nat × Nat)) : Tab (List Nat) :=
  (List.range 16).foldl (fun t g =>
    match (poolPages ranges).filter fun p => pageGroup p = g with
    | [] => t
    | l => tset t g l) []

/-- R765: the groups that hold pool pages, in ascending order. -/
def poolGroups (ranges : List (Nat × Nat)) : List Nat :=
  (List.range 16).filter fun g => ranges.any fun r => 0 < r.2 && pageGroup r.1 ≤ g && g ≤ pageGroup (r.1 + r.2 - 1)

/-- The number of free pages. -/
def freeCount (x : ServeCtx) : Nat := (x.free.map fun p => p.2.length).foldl (· + ·) 0

/-- R334: the identity of the pool. -/
def poolBalanced (x : ServeCtx) : Bool := freeCount x + x.allocated + x.inTransit = x.poolSize

/-- R333, R765: the group that supplies the next page: the first after the last one, wrapping, that is not empty. -/
def nextGroup (x : ServeCtx) : Option Nat :=
  let gs := poolGroups x.ranges
  let order := match x.lastGroup with
    | some l => gs.filter (l < ·) ++ gs.filter (· ≤ l)
    | none => gs
  order.find? fun g => !(tget x.free g []).isEmpty

/-- R765: take the next page; the counts are the caller's. -/
def popPage (x : ServeCtx) : Option (Nat × ServeCtx) :=
  match nextGroup x with
  | none => none
  | some g =>
    match tget x.free g [] with
    | [] => none
    | p :: r => some (p, { x with free := tset x.free g r, lastGroup := some g })

/-- R765: a freed page joins the tail of its group's queue. -/
def pushPage (p : Nat) (x : ServeCtx) : ServeCtx := { x with free := tmod x.free (pageGroup p) [] (· ++ [p]) }

/-- R336: where taken pages are counted. -/
inductive PageUse where
  | allocated | inTransit
  deriving DecidableEq, Repr, Inhabited

def countPages (u : PageUse) (n : Nat) (x : ServeCtx) : ServeCtx :=
  match u with
  | .allocated => { x with allocated := x.allocated + n }
  | .inTransit => { x with inTransit := x.inTransit + n }

def uncountPages (u : PageUse) (n : Nat) (x : ServeCtx) : ServeCtx :=
  match u with
  | .allocated => { x with allocated := x.allocated - n }
  | .inTransit => { x with inTransit := x.inTransit - n }

/-- R330, R765: take `n` pages in list-entry order. -/
def popPages : Nat → ServeCtx → List Nat × ServeCtx
  | 0, x => ([], x)
  | n + 1, x =>
    match popPage x with
    | none => ([], x)
    | some (p, y) => let q := popPages n y; (p :: q.1, q.2)

/-- R332: the free blocks of the block pages. -/
def freeBlocks (x : ServeCtx) : Nat := (x.blockPages.map fun b => 256 - popCount b.used 256).foldl (· + ·) 0

/-- R765: a new page-list block: the earliest block page with a free block, at its lowest address; else the next page
in the rotation becomes a block page. -/
def popBlock (x : ServeCtx) : Option (Nat × ServeCtx) :=
  let take (l : List BlockPage) (x : ServeCtx) : Option (Nat × ServeCtx) :=
    match l.find? fun b => b.used ≠ 2 ^ 256 - 1 with
    | none => none
    | some b =>
      match (List.range 256).find? fun i => !bitOf b.used i with
      | none => none
      | some i => some (b.page * 65536 + 256 * i,
          { x with blockPages := mapIf (fun y => y.page = b.page) (fun y => { y with used := maskSet y.used i }) l })
  match take x.blockPages x with
  | some r => some r
  | none =>
    match popPage x with
    | none => none
    | some (p, y) => take (y.blockPages ++ [⟨p, 0⟩]) { y with allocated := y.allocated + 1 }

/-- R332: a block is free again; a block page with all 256 free returns to the free list. -/
def pushBlock (a : Nat) (x : ServeCtx) : ServeCtx :=
  let bp := mapIf (fun y => y.page = a / 65536) (fun y => { y with used := maskClear y.used (a % 65536 / 256) }) x.blockPages
  let x := { x with blockPages := bp }
  match x.blockPages.find? fun y => y.page = a / 65536 && y.used = 0 with
  | some y => { pushPage y.page x with blockPages := x.blockPages.filter (fun z => z.page ≠ y.page), allocated := x.allocated - 1 }
  | none => x

/-- R331: the blocks that a list of `n` entries needs. -/
def blocksFor (n : Nat) : Nat := ceilDiv n 62

/-- The pages that adding `p` entries to a list takes, block pages included. -/
def pagesNeeded (x : ServeCtx) (r : Request) (p : Nat) : Nat :=
  let nb := blocksFor (r.list.length + p) - r.blocks.length
  p + ceilDiv (nb - freeBlocks x) 256

/-! ### Pages and lists in memory -/

/-- R331: block `i` of a request's list, as its 256 bytes. -/
def listBlock (r : Request) (i : Nat) : List Byte :=
  let l := (r.list.drop (62 * i)).take 62
  let entries := l.flatMap fun p => leBytes 4 (p % 2 ^ 24)
  let next := match r.blocks[i + 1]? with
    | some a => a / 256
    | none => 0
  entries ++ List.replicate (248 - entries.length) 0 ++ leBytes 5 next ++ leBytes 1 l.length ++ leBytes 2 0

/-- Write the blocks of a request's list from block `from_` on. -/
def writeList (x from_ : Nat) (s : State) : State :=
  let r := reqOf s x
  (List.range r.blocks.length).foldl (fun s i =>
    if from_ ≤ i then squareWrite (r.blocks.getD i 0) (listBlock r i) s else s) s

/-- R326: the end of the last region of a page. -/
def pageEnd (a : AttRec) : Nat :=
  let r := pageT a * a.hb * a.d
  match a.fmt with
  | 0 => 4 * r
  | 1 => 2 * r
  | _ => 17 * r / 16

/-- R327: the address of a page's scale record. -/
def scaleAddr (x : ServeCtx) (p : Nat) : Option Nat := (poolIndex x.ranges p).map fun j => x.pool.scaleLot + 64 * j

/-- R328: the exponent of a new page from the record of the page before it. -/
def nextExp (e sat amax : Nat) : Nat :=
  let e : Int := e
  let e' : Int := if sat = 1 then e + 1
    else if numLt (decodeElem 1 amax) (numShift (e - 131) (.fin false 448 0)) then e - 1
    else e
  (max 0 (min e' 254)).toNat

/-- R328: the scale record of one head of a new page; `init` is the address of its initial exponents, 0 for none. -/
def scaleHead (s : State) (init : Nat) (prev : Option Nat) (h : Nat) : List Byte :=
  let one (v : Nat) : Nat := match prev with
    | none => if init = 0 then 127 else min 254 (leNat (consumeBytes s (init + v) 1))
    | some a =>
      let b := consumeBytes s (a + 8 * h) 8
      nextExp (fieldAt b v 1) (fieldAt b (2 + v) 1) (fieldAt b (4 + 2 * v) 2)
  leBytes 1 (one 0) ++ leBytes 1 (one 1) ++ leBytes 6 0

/-- R328, R326: a page is allocated for entry `i` of a request's list: its scales are set, the bytes after its last region
are zero. -/
def initPage (c : Nat) (m : Model) (list : List Nat) (i : Nat) (s : State) : State :=
  let x := serveOf s c
  let n := max 1 (setPages s c m)
  let en := setEntry s c m (i % n)
  let p := list.getD i 0
  let s := squareWrite (p * 65536 + pageEnd en.1) (List.replicate (65536 - pageEnd en.1) 0) s
  if en.1.fmt ≠ 1 then s
  else match scaleAddr x p with
    | none => s
    | some a =>
      let prev := if i < n then none else scaleAddr x (list.getD (i - n) 0)
      let one (h : Nat) : List Byte :=
        if h < en.1.hb then
          let init := if en.1.scaleInit = 0 then 0 else en.1.scaleInit + 2 * (en.2.1 * en.1.hkv + en.2.2 * en.1.hb + h)
          scaleHead s init prev h
        else List.replicate 8 0
      let reads := (List.range en.1.hb).map fun h => match prev with
        | none => (en.1.scaleInit + 2 * (en.2.1 * en.1.hkv + en.2.2 * en.1.hb + h), if en.1.scaleInit = 0 then 0 else 2)
        | some a => (a + 8 * h, 8)
      squareWrite a ((List.range 8).flatMap one) (squareReads (reads.filter fun r => r.2 ≠ 0) s)

/-- R330, R342: give a request one more page set, or answer none and change nothing. -/
def addPageSet (c x : Nat) (u : PageUse) (s : State) : Option State :=
  match modelOf s c (reqOf s x).model with
  | none => none
  | some m =>
    let n := setPages s c m
    let sc := serveOf s c
    let r := reqOf s x
    if freeCount sc < pagesNeeded sc r n then none
    else
      let q := popPages n sc
      let sc := countPages u n q.2
      let nb := blocksFor (r.list.length + n) - r.blocks.length
      let g := foldN nb (fun _ (acc : List Nat × ServeCtx) =>
        match popBlock acc.2 with
        | some (a, y) => (acc.1 ++ [a], y)
        | none => acc) ([], sc)
      let old := r.list.length
      let s := modReq x (fun r => { r with list := r.list ++ q.1, blocks := r.blocks ++ g.1 }) (modServe c (fun _ => g.2) s)
      let list := (reqOf s x).list
      let s := foldN n (fun i s => initPage c m list (old + i) s) s
      some (writeList x (old / 62 - 1) s)

/-- R347: free every page and block of a request. -/
def freeRequestPages (c x : Nat) (u : PageUse) (s : State) : State :=
  let r := reqOf s x
  let s := modServe c (fun y =>
    let y := r.list.foldl (fun y p => pushPage p y) (uncountPages u r.list.length y)
    r.blocks.foldl (fun y a => pushBlock a y) y) s
  modReq x (fun r => { r with list := [], blocks := [] }) s

/-- R342: secure the page sets that cover `n` positions, or change nothing. -/
def securePages (c x n : Nat) (u : PageUse) : Nat → State → Option State
  | 0, _ => none
  | fuel + 1, s =>
    match modelOf s c (reqOf s x).model with
    | none => none
    | some m =>
      if setsFor m.att n * setPages s c m ≤ (reqOf s x).list.length then some s
      else match addPageSet c x u s with
        | some s' => securePages c x n u fuel s'
        | none => none

/-! ### Rows -/

/-- The attention record under which a page was allocated, and its context. -/
def pageAtt (s : State) (p : Nat) : Option (Nat × AttRec) :=
  match s.serve.reqs.find? fun q => q.2.state ≠ .free && q.2.list.contains p with
  | none => none
  | some (_, r) =>
    match modelOf s r.ctx r.model with
    | none => none
    | some m => some (r.ctx, (setEntry s r.ctx m ((findIdx (· = p) r.list 0).getD 0 % max 1 (setPages s r.ctx m))).1)

/-- R327, R329: whose scale records hold for a page into which rows of `w` columns come, and under which attention record: those of the request
that holds the page, else those of the pool that it lies in. -/
def pageScales (s : State) (p w : Nat) : Option (Nat × AttRec) :=
  (pageAtt s p).orElse fun _ => (List.range 16).findSome? fun c =>
    if (scaleAddr (serveOf s c) p).isNone then none
    else (serveOf s c).models.findSome? fun m => m.2.bind fun m => if m.att.fmt = 1 && m.att.hb * m.att.d = w then some (c, m.att) else none

/-- R329: one element of a FP8 page row, with its saturation. -/
def fp8Element (e : Nat) (x : Num) : Conv := convert 0x02 true .nearest (numShift (127 - (e : Int)) x)

/-- R327, R329: update a head's record after a row's elements: its sat field, with an entry for each element that saturated, and, once, its
amax. -/
def noteHead (c group a h : Nat) (isV : Bool) (amax : Num) (nsat : Nat) (s : State) : State :=
  let b := consumeBytes s (a + 8 * h) 8
  let v := bit isV
  let s := yardAccess (a + 8 * h) 8 .request .read s
  let s := if nsat ≠ 0 then
      foldN nsat (fun _ s => record 0x5105 0 (0x2000 + group) (some c) true [] s) (gauge (0x3000 + group) 4 nsat
        (modServe c (fun x => { x with saturations := x.saturations + nsat })
          (writeBytes (a + 8 * h + 2 + v) [1] [] (yardAccess (a + 8 * h) 8 .request .write s))))
    else s
  if numLt (decodeElem 1 (fieldAt b (4 + 2 * v) 2)) amax then
    writeBytes (a + 8 * h + 4 + 2 * v) (leBytes 2 (convert 1 false .nearest amax).bits) [] (yardAccess (a + 8 * h) 8 .request .write s)
  else s

/-- The largest magnitude of a list of values; a NaN has none. -/
def maxMag (l : List Num) : Num :=
  l.foldl (fun a x => match x with
    | .fin _ m e => numMax a (.fin false m e)
    | .inf _ => .inf false
    | .nan => a) (.fin false 0 0)

/-- R326, R329: the yard stores values of columns [col, col + length) of a row in a page, in the page's format `fmt` with
`t` positions a page and `w` columns a row. -/
def storeRow (fmt t w page slot col : Nat) (isV : Bool) (vals : List Num) (s : State) : State :=
  let r := t * w
  let x := slot * w + col
  let base := page * 65536
  let group := pageGroup page
  match fmt with
  | 0 => writeBytes (base + (if isV then 2 * r else 0) + 2 * x)
      (vals.flatMap fun v => leBytes 2 (convert 1 false .nearest v).bits) [] s
  | 1 =>
    match (pageScales s page w).bind fun q => (scaleAddr (serveOf s q.1) page).map fun sa => (q, sa) with
    | none =>
      -- no record gives the scale of a page outside every pool: its exponent is free (DESIGN CHOICE, log entry 19)
      let e := Config.freeValue s.free % 255
      writeBytes (base + (if isV then r else 0) + x) (vals.map fun v => BitVec.ofNat 8 (fp8Element e v).bits) [] { s with free := s.free + 1 }
    | some ((c, a), sa) =>
        foldN a.hb (fun h s =>
          let part := (vals.mapIdx fun i v => (i, v)).filter fun p => (col + p.1) / max 1 a.d = h
          match part with
          | [] => s
          | (i0, _) :: _ =>
            let e := leNat (consumeBytes s (sa + 8 * h + bit isV) 1)
            let cs := part.map fun p => fp8Element e p.2
            let s := writeBytes (base + (if isV then r else 0) + x + i0) (cs.map fun q => BitVec.ofNat 8 q.bits) [] s
            noteHead c group sa h isV (maxMag (part.map (·.2))) (cs.filter (·.sat)).length s) s
  | _ =>
    foldN (ceilDiv vals.length 32) (fun j s =>
      let q := mxQuantise 0x0E (fun _ => .nearest) ((vals.drop (32 * j)).take 32)
      let y := x + 32 * j
      let s := writeBytes (base + (if isV then 17 * r / 32 else 0) + y / 2) (packBytes 4 (q.2.map (·.bits))) [] s
      writeBytes (base + (if isV then 33 * r / 32 else r / 2) + y / 32) (leBytes 1 q.1) [] s) s

/-- R338: the fields of a tail-table entry. -/
def tailPage (e i : Nat) : Nat := e / 2 ^ (32 + 24 * i) % 2 ^ 24
def tailFmt (e : Nat) : Nat := bitsOf e 24 22
def tailT (e : Nat) : Nat := bitsOf e 21 11
def tailSlot (e : Nat) : Nat := bitsOf e 10 0

/-- R338: a tail-table entry from its pages, format, T and first slot. -/
def tailEntry (pages : List Nat) (fmt t slot : Nat) : Nat :=
  let p (i : Nat) : Nat := pages.getD i 0xFFFFFF % 2 ^ 24
  p 3 * 2 ^ 104 + p 2 * 2 ^ 80 + p 1 * 2 ^ 56 + p 0 * 2 ^ 32 + fmt % 8 * 2 ^ 22 + t % 2 ^ 11 * 2 ^ 11 + slot % 2 ^ 11

/-- R339: the page and slot of position offset `o` of an entry; none for a page that is not there. -/
def tailTarget (e o : Nat) : Option (Nat × Nat) :=
  let t := max 1 (tailT e)
  let i := (tailSlot e + o) / t
  if 4 ≤ i || tailPage e i = 0xFFFFFF then none else some (tailPage e i, (tailSlot e + o) % t)

end Sys2Proof.Machine
end

