-- ==== Sys2Proof/Machine/BenchOps.lean ====
section
/-! DEFINITION. What the ops of a jig do to a bench, to memory and to the mesh (R142–R149, R165–R168, R209–R220,
R228–R232), and how a bench faults and ends a run (R173–R176). -/
namespace Sys2Proof.Machine

/-! ### Faults and the end of a run -/

def runOf (s : State) (id : Nat) : Option Run := s.benches.runs.find? fun r => r.id = id

def modRun (id : Nat) (f : Run → Run) (s : State) : State :=
  { s with benches := { s.benches with runs := mapIf (fun r => r.id = id) f s.benches.runs } }

/-- The context that a bench's block belongs to. -/
def benchCtx (s : State) (b : Nat) : Option Nat := blockOwner s (blockOf b)

/-- R173, R174: a bench has ended its run once no unit will issue and every tag has returned. -/
def settleBench (b : Nat) (s : State) : State :=
  match (benchOf s b).cur with
  | none => s
  | some r =>
    if (r.stopping || r.units.all (·.ended)) && r.inflight.isEmpty then
      let s := modBench b (fun x =>
        { x with cur := none, faulted := false, maxTags := r.maxTags, bankWait := [], bankIn := [] }) s
      modRun r.run (fun q => { q with live := q.live.filter (· ≠ b), retired := tset q.retired b r.retired }) s
    else s

/-- R174: a bench of a run that stops issues nothing more, and its streamers send nothing more. -/
def stopBench (r : BenchRun) : BenchRun :=
  { r with stopping := true, inflight := r.inflight.map fun f => { f with todo := [], formed := true } }

/-- R174: every bench of a run stops issuing; one that has not started it leaves it. -/
def stopRun (id : Nat) (s : State) : State :=
  match runOf s id with
  | none => s
  | some r =>
    let s := r.waiting.foldl (fun s b => modBench b (fun x => { x with queue := x.queue.filter (· ≠ id) }) s) s
    let s := { s with benches := { s.benches with saved := s.benches.saved.map fun p =>
      (p.1, p.2.map fun x => (x.1, { x.2 with queue := x.2.queue.filter (· ≠ id) })) } }
    let s := modRun id (fun q => { q with waiting := [], stopped := true }) s
    r.live.foldl (fun s b => settleBench b (modBench b (fun x =>
      { x with cur := x.cur.map fun c => if c.run = id then stopBench c else c }) s)) s

/-- Every run of a context stops, as `JIG_ABORT` stops one. -/
def stopRuns (c : Nat) (s : State) : State :=
  (s.benches.runs.filter fun r => r.ctx = c).foldl (fun s r => stopRun r.id s) s

/-- R617: the contexts that share a context's blocks in time. -/
def shareSet (s : State) (c : Nat) : List Nat :=
  if !(ctxOf s c).timeShare || (ctxOf s c).blocks = 0 then []
  else (List.range 16).filter fun d => (ctxOf s d).timeShare && (ctxOf s d).blocks = (ctxOf s c).blocks
    && ((ctxOf s d).state = .defined || (ctxOf s d).state = .resident || (ctxOf s d).state = .switching)

/-- R618: a context has work: a request that is not FREE, a queued run, or an armed trigger. -/
def hasWork (s : State) (c : Nat) : Bool :=
  !(liveReqs s c).isEmpty || (s.benches.runs.any fun r => r.ctx = c) || s.opr.triggers.any fun t => t.ctx = c

/-- R618: the next context of the share set, in ascending number from the resident one, that has work. -/
def nextTurn (s : State) (c : Nat) : Option Nat :=
  let l := (shareSet s c).filter fun d => d ≠ c && hasWork s d
  (l.find? (c < ·)).orElse fun _ => l.head?

/-- R618, R619: the quantum has ended and another member has work: the context starts no further step and no further run. -/
def mustYield (s : State) (c : Nat) : Bool := (ctxOf s c).quantumDue && (nextTurn s c).isSome

/-- R174, R176, R196: a bench faults: its fault registers are set, the recorder entry is made and the run stops. -/
def benchFault (b unit idx code : Nat) (payload : List Fld) (s : State) : State :=
  match (benchOf s b).cur with
  | none => s
  | some r =>
    if r.stopping && (benchOf s b).faulted then s
    else
      let s := record code 2 (0x1000 + b) (benchCtx s b) (code = 0x9101 || code / 256 = 0x61) payload s
      let ns := (nextStamp s).ns
      let s := modBench b (fun x => { x with
        faultCode := code, faultUnit := unit, faultSlot := r.slot, faultOp := idx, faultNs := ns, faulted := true
        xtok := if code = 0x4102 then List.replicate 16 0 else x.xtok
        slots := if code = 0x4103 then x.slots.set r.slot none else x.slots }) s
      let s := modRun r.run (fun q => { q with fault := some (q.fault.getD (b, idx, code)) }) s
      stopRun r.run s

/-! ### Reading and writing the bench store -/

/-- R162: the bytes of a bench store as a consumer uses them, whether or not they have been written. -/
def storeBytes (s : State) (b off n : Nat) : List Byte := consumeBytes s (benchBase b + off) n

/-- R244: an operand's words are poisoned. -/
def operandBad (s : State) (b : Nat) (d : Desc) : Bool := rangeBad s (benchBase b + d.offset) (descSpan d)

/-- R244: a bench has consumed a poisoned word: the record names the context, the bench, the jig, the op and the operand's address. -/
def recordPoison (b : Nat) (c : Option Nat) (jig op addr : Nat) (s : State) : State :=
  record 0x3104 3 (0x1000 + b) c false [⟨8, jig⟩, ⟨2, op⟩, ⟨8, addr⟩] s

/-- R243: an operand is consumed: its words' outcomes are counted. -/
def consumeOperand (b : Nat) (d : Desc) (s : State) : State := consumeCount (benchBase b + d.offset) (descSpan d) s

/-- One row of a descriptor in a bench store. -/
def storeRowOf (s : State) (b : Nat) (d : Desc) (r : Nat) : List Byte := storeBytes s b (d.offset + r * d.stride) (rowBytes d)

/-- Element `i` of a row. -/
def elemAt (fmt : Nat) (row : List Byte) (i : Nat) : Num := decodeElem fmt (packedGet (fun k => (row.getD k 0).toNat) (elemBits fmt) i)

/-- R166: the descriptor that an operand reference names, with its offset as ADV has left it (R167). -/
def liveDesc (j : Jig) (r : BenchRun) (ref : Nat) : Desc :=
  let d := jigDesc j (refIdx ref)
  { d with offset := tget r.offsets (refIdx ref) d.offset }

/-- R167: the address of a kind 1 or 2 descriptor: a parameter slot's value and the signed offset. -/
def descAddr (r : BenchRun) (d : Desc) : Nat := ofSigned 56 ((tget r.params d.slot 0 : Nat) + toSigned 48 d.offset)

/-- R46: the module that a kind 2 address names, when it is not this one. -/
def remoteModule (s : State) (d : Desc) (a : Nat) : Option Nat :=
  if d.kind = 2 && !isSelf s (a / 2 ^ 44) then some (a / 2 ^ 44) else none

/-- The local address of a kind 1 or 2 descriptor. -/
def localAddr (d : Desc) (a : Nat) : Nat := if d.kind = 2 then a % 2 ^ 44 else a

/-! ### Rounding -/

/-- R215: the rounding of the `i`-th conversion of an op; the generator's bits are free. -/
def opRounding (s : State) (o : Op) (i : Nat) : Rounding :=
  if opStochastic o then .stochastic (Config.freeValue (s.free + i)) else .nearest

/-- Free values have been used. -/
def useFree (n : Nat) (s : State) : State := { s with free := s.free + n }

/-- R217, R697: conversions of NaN to zero and saturations are counted. -/
def countConvs (b : Nat) (l : List Conv) (s : State) : State :=
  let z := (l.filter (·.nanZero)).length
  let s := modGau b (fun g => { g with nanZero := satAdd 64 g.nanZero z }) s
  countCode b 0x14 (l.filter (·.sat)).length s

/-! ### The matrix engine -/

def accKey (t r c : Nat) : Nat := t * 4096 + r * 64 + c

/-- An accumulator cell as a value. -/
def accCell (s : State) (b t r c : Nat) : Num := ofF32 (tget (benchOf s b).acc (accKey t r c) 0)

def setAcc (b : Nat) (l : List (Nat × Nat)) (s : State) : State :=
  modBench b (fun x => { x with acc := l.foldl (fun t p => tset t p.1 p.2) x.acc }) s

/-- R205, R206: the scale byte of a row of A, or of a column of B, in block `j`. -/
def scaleByte (s : State) (b : Nat) (d : Desc) (row col : Nat) : Nat :=
  leNat (storeBytes s b (d.offset + row * d.stride + col) 1)

/-- R142, R209–R213: MMA. -/
def doMma (b : Nat) (f : InFlight) (s : State) : State :=
  let o := f.op
  let k := o.count * 32
  let t := refIdx o.dst % 2
  let m := min f.a.dim0 64
  let slice (d : Desc) (i : Nat) : List Byte :=
    storeBytes s b (d.offset + i * d.stride) (ceilDiv (64 * elemBits d.fmt) 8)
  let ra := (List.range k).map (slice f.a)
  let rb := (List.range k).map (slice f.b)
  let mx := isMx f.a.fmt
  let cell (r c : Nat) : Nat :=
    let groups := (List.range (k / 32)).map fun j =>
      let ps := (List.range 32).map fun i =>
        (elemAt f.a.fmt (ra.getD (32 * j + i) []) r, elemAt f.b.fmt (rb.getD (32 * j + i) []) c)
      let shift : Option Int :=
        if mx then
          let ea := scaleByte s b f.c j r
          let eb := scaleByte s b f.c (k / 32 + j) c
          if ea = 255 || eb = 255 then none else some ((ea : Int) + eb - 254)
        else some 0
      (ps, shift)
    toF32 (accumulate (f.a.fmt = 1) (if o.variant % 2 = 1 then .fin false 0 0 else accCell s b t r c) groups)
  let cells := (List.range m).flatMap fun r => (List.range 64).map fun c => (accKey t r c, cell r c)
  countCode b 0x02 (k * (if f.a.fmt = 1 then 2 else 1) / (if f.a.fmt ∈ [4, 5, 6, 0x0C, 0x0D, 0x0E] then 2 else 1))
    (setAcc b cells s)

/-- MMA_GRP: the group index list's layout is not stated, so the cells it writes are free (log entry 17), within R201 and R213: a NaN that
is not started fresh stays, an infinity stays or becomes NaN. -/
def doMmaGrp (b : Nat) (f : InFlight) (s : State) : State :=
  let t := refIdx f.op.dst % 2
  let m := min f.a.dim0 64
  let cell (i : Nat) : Nat :=
    let any := canonBits 0 (Config.freeValue (s.free + i) % 2 ^ 32)
    let old := tget (benchOf s b).acc (t * 4096 + i) 0
    if f.op.variant % 2 = 1 then any
    else match ofF32 old with
      | .nan => canonBits 0 old
      | .inf _ => if isNan (ofF32 any) then any else old
      | .fin _ _ _ => any
  let cells := (List.range (m * 64)).map fun i => (t * 4096 + i, cell i)
  useFree (m * 64) (setAcc b cells s)

/-- R145, R214–R217: one row of an accumulator tile in the destination's format. -/
def accRow (s : State) (b : Nat) (f : InFlight) (r : Nat) : List Conv :=
  (List.range (min f.d.dim0 64)).map fun c =>
    convert f.d.fmt (opSaturate f.op) (opRounding s f.op (r * 64 + c)) (accCell s b (refIdx f.op.a % 2) r c)

/-- R144, R145: ACC_OUT to the bench store. -/
def doAccOut (b : Nat) (f : InFlight) (s : State) : State :=
  let rows := min f.d.dim1 64
  let convs := (List.range rows).flatMap (accRow s b f)
  let s' := foldN rows (fun r t => writeBytes (benchBase b + f.d.offset + r * f.d.stride)
    (packBytes (elemBits f.d.fmt) ((accRow s b f r).map (·.bits))) [] t) s
  countConvs b convs (useFree (if opStochastic f.op then rows * 64 else 0) s')

/-! ### The vector engine -/

/-- A byte of the vector registers. -/
def vByte (s : State) (b i : Nat) : Nat := tget (benchOf s b).v i 0

/-- Bytes of the vector registers, from an index on; bytes beyond V63 do not exist. -/
def setV (b i : Nat) (l : List Byte) (s : State) : State :=
  modBench b (fun x => { x with v := (l.mapIdx fun k v => (i + k, v.toNat)).foldl (fun t p =>
    if p.1 < 32768 then (if p.2 = 0 then tdel t p.1 else tset t p.1 p.2) else t) x.v }) s

/-- An element of width `w` of the registers from `reg` on, or of a constant, which stands in every lane. -/
def laneBits (s : State) (b : Nat) (j : Jig) (ref w i : Nat) : Nat :=
  if refForm ref = 3 then jigConst j (refIdx ref) % 2 ^ w
  else packedGet (fun k => vByte s b (512 * refIdx ref + k)) w i

/-- R146: VLD. -/
def doVld (b : Nat) (f : InFlight) (s : State) : State :=
  let n := 512 * f.op.count
  let l := (List.range n).map fun i => (storeBytes s b (f.a.offset + descByte f.a i) 1).headD 0
  setV b (512 * refIdx f.op.dst) l s

/-- The runs of consecutive bytes from position `pos` of a tensor on: which byte of the `n` each begins with, where it lies from the tensor's
begin, and its length. -/
def tensorRuns (d : Desc) (pos n : Nat) : List (Nat × Nat × Nat) :=
  let rb := max 1 (rowBytes d)
  if d.stride = rb || n = 0 then [(0, pos, n)]
  else (List.range ((pos + n - 1) / rb + 1 - pos / rb)).map fun i =>
    let r := pos / rb + i
    let lo := max pos (r * rb)
    (lo - pos, r * d.stride + (lo - r * rb), min (pos + n) ((r + 1) * rb) - lo)

/-- R241, R245: bytes land in a tensor of a bench store from position `pos` on, whole words as such, with the check differences `xs` of the words
that they came in, the first of which they entered at byte `skew`. -/
def landBytes (b : Nat) (d : Desc) (pos skew : Nat) (l : List Byte) (xs : List Nat) (s : State) : State :=
  (tensorRuns d pos l.length).foldl (fun s q =>
    let dst := benchBase b + d.offset + q.2.1
    writeBytes dst ((l.drop q.1).take q.2.2) (realign (skew + q.1) dst q.2.2 (xs.drop ((skew + q.1) / 16))) s) s

/-- R146: VST. -/
def doVst (b : Nat) (f : InFlight) (s : State) : State :=
  landBytes b f.d 0 0 ((List.range (512 * f.op.count)).map fun i => BitVec.ofNat 8 (vByte s b (512 * refIdx f.op.a + i))) [] s

/-- R218: the formats that a VOP names. -/
def vopDst (o : Op) : Nat := o.imm % 64
def vopSrc (o : Op) : Nat := o.imm / 64 % 64

/-- R218: one lane of a VOP. -/
def vopLane (s : State) (b : Nat) (j : Jig) (o : Op) (i : Nat) : Conv :=
  let fd := vopDst o
  let fs := vopSrc o
  let w := elemBits fs
  let x := laneBits s b j o.a w i
  let y := laneBits s b j o.b w i
  let z := laneBits s b j o.c w i
  let v (n : Nat) : Num := decodeElem fs n
  let wd := elemBits fd
  if o.variant = 0x0C then convert fd (opSaturate o) (opRounding s o i) (v x)
  else if 0x20 ≤ o.variant then { bits := vopInt o.variant x y }
  else if o.variant = 0x08 || o.variant = 0x09 || o.variant = 0x0A then
    { bits := if vopCompare o.variant (v x) (v y) then 2 ^ wd - 1 else 0 }
  else if o.variant = 0x0B then { bits := canonBits fs (if z ≠ 0 then x else y) }
  else if o.variant = 0x18 then
    let sc := packedGet (fun k => vByte s b (512 * refIdx o.b + k)) 8 (i / 32)
    let m := if sc = 255 then Num.nan else numShift ((sc : Int) - 127) (v x)
    convert fd (opSaturate o) (opRounding s o i) m
  else
    let r := vopValue o.variant (v x) (v y) (v z) (toF32 (v x))
    if fd = 1 then convert 1 (opSaturate o) (opRounding s o i) (round32 r)
    else { bits := toF32 r }

/-- R207: MXQ over the blocks of `n` registers. -/
def doMxq (b : Nat) (j : Jig) (o : Op) (s : State) : List Conv × State :=
  let w := elemBits (vopSrc o)
  let n := o.count * 4096 / max 1 w
  let blocks := (List.range (n / 32)).map fun k =>
    mxQuantise (vopDst o) (fun i => opRounding s o (32 * k + i))
      ((List.range 32).map fun i => decodeElem (vopSrc o) (laneBits s b j o.a w (32 * k + i)))
  let convs := blocks.flatMap (·.2)
  let s' := setV b (512 * refIdx o.dst) (packBytes (elemBits (vopDst o)) (convs.map (·.bits))) s
  (convs, setV b (512 * refIdx o.b) (blocks.map fun p => BitVec.ofNat 8 p.1) s')

/-- R218: VOP. -/
def doVop (b : Nat) (j : Jig) (f : InFlight) (s : State) : State :=
  let o := f.op
  let n := o.count * 4096 / max 1 (elemBits (vopSrc o))
  let p := if o.variant = 0x17 then doMxq b j o s
    else
      let convs := (List.range n).map (vopLane s b j o)
      (convs, setV b (512 * refIdx o.dst) (packBytes (elemBits (vopDst o)) (convs.map (·.bits))) s)
  useFree (if opStochastic o then n else 0) (countConvs b p.1 p.2)

/-- R220: reduce neighbours pairwise, again and again. -/
def pairwise {α : Type} (f : α → α → α) : List α → List α
  | x :: y :: r => f x y :: pairwise f r
  | l => l

def reducePairs {α : Type} (f : α → α → α) : Nat → List α → Option α
  | 0, _ => none
  | _, [] => none
  | _, [x] => some x
  | n + 1, l => reducePairs f n (pairwise f l)

/-- R220: registers pair by pair first, then lanes. -/
def reduceLanes (f : Num → Num → Num) (regs : List (List Num)) : Num :=
  match reducePairs (fun a b => List.zipWith f a b) (regs.length + 1) regs with
  | none => .nan
  | some l => (reducePairs f (l.length + 1) l).getD .nan

/-- R220, R315: the index of the largest value: NaN above every number, the lowest index among equals. -/
def argmax (l : List Num) : Nat :=
  (l.foldl (fun (acc : Nat × Option (Nat × Num)) x =>
    (acc.1 + 1, match acc.2 with
      | none => some (acc.1, x)
      | some (i, m) => if isNan m then some (i, m) else if isNan x || numLt m x then some (acc.1, x) else some (i, m)))
    (0, none)).2.elim 0 (·.1)

/-- R215, R216, R220: VRED, with the final rounding of a BF16 result. The result stands in lane 0; TOPK's candidates and the other lanes of the register are free (log entry
17). -/
def doVred (b : Nat) (j : Jig) (f : InFlight) (s : State) : State :=
  let o := f.op
  let fmt := if vopSrc o = 1 then 1 else 0
  let w := elemBits fmt
  let lanes := 4096 / w
  let regs := (List.range o.count).map fun r => (List.range lanes).map fun i =>
    decodeElem fmt (laneBits s b j o.a w (r * lanes + i))
  let all := regs.flatten
  let sum (x y : Num) : Num := round32 (numAdd x y)
  let out (x : Num) : Conv := if fmt = 1 then convert 1 (opSaturate o) (opRounding s o 512) x else { bits := toF32 x }
  let res : Option (Nat × Conv) := match o.variant with
    | 0 => some (w / 8, out (reduceLanes numMax regs))
    | 1 => some (w / 8, out (reduceLanes sum regs))
    | 2 => some (4, { bits := argmax all })
    | 4 => some (w / 8, out (reduceLanes numMin regs))
    | _ => none
  let free := (List.range 512).map fun i => BitVec.ofNat 8 (Config.freeValue (s.free + i))
  let s := useFree 513 (setV b (512 * refIdx o.dst) free s)
  match res with
  | some (n, c) => countConvs b [c] (setV b (512 * refIdx o.dst) (leBytes n c.bits) s)
  | none => s

/-- WIN: the encoding of its geometry constant is not stated, so the elements it writes are free (log entry 17); a NaN is the canonical one
(R201). -/
def doWin (b : Nat) (f : InFlight) (s : State) : State :=
  let w := elemBits f.d.fmt
  foldN f.d.dim1 (fun r s =>
    let l := (List.range f.d.dim0).map fun i => canonBits f.d.fmt (Config.freeValue (s.free + i) % 2 ^ w)
    useFree f.d.dim0 (writeBytes (benchBase b + f.d.offset + r * f.d.stride) (packBytes w l) [] s)) s

/-! ### Streamers -/

/-- The pieces of a tensor's first `len` bytes: position and length, each within one row and at most `m` bytes. -/
def tensorPieces (d : Desc) (len m : Nat) : List (Nat × Nat) :=
  let rb := max 1 (rowBytes d)
  (List.range (ceilDiv len rb)).flatMap fun r =>
    let n := min rb (len - r * rb)
    (List.range (ceilDiv n m)).map fun i => (r * rb + i * m, min m (n - i * m))

/-- The bytes that a streamer op moves (R165). -/
def moveLen (o : Op) : Nat := o.count * 64

/-- R44: what a read that is not performed returns: its destination's words are poisoned. -/
def landPoison (b : Nat) (d : Desc) (pos len : Nat) (s : State) : State :=
  foldN len (fun i s => putChk ((benchBase b + d.offset + descByte d (pos + i)) / 16) poisonMask s) s

/-- R222: the segment table's entry of a segment. -/
def codecEntry (s : State) (table i : Nat) : Nat := leNat (consumeBytes s (table + 8 * i) 8)

/-- R222, R223: the address and the length of a segment. -/
def codecRange (s : State) (table i : Nat) : Nat × Nat :=
  let e := codecEntry s table i
  (table + 64 * (e % 2 ^ 32), 64 * (e / 2 ^ 32 % 128))

/-- R225: the rows of a segment; one whose header does not say so is taken as a whole one. -/
def codecRows (s : State) (table i : Nat) : Nat := if leNat (consumeBytes s ((codecRange s table i).1 + 2) 1) = 64 then 64 else 128

/-- R228–R232: a segment's elements and scales, or none where it does not check. -/
def codecDecode (s : State) (table i : Nat) : Option (List Byte × List Byte) :=
  let e := codecEntry s table i
  let q := codecRange s table i
  if rangeBad s q.1 q.2 || rangeBad s (table + 8 * i) 8 || e / 2 ^ 40 ≠ 0 then none
  else decodeSegment (bitOf e 39) (consumeBytes s q.1 q.2)

/-- R232: the recorder entry of a segment that does not check. -/
def codecError (table i : Nat) (s : State) : State :=
  let a := (codecRange s table i).1
  modYard (a / 2 ^ 36) (fun y => { y with codecErrors := satAdd 64 y.codecErrors 1 })
    (record 0x3A01 2 (0x2000 + a / 2 ^ 36) (groupOwner s (a / 2 ^ 36)) true [⟨8, a⟩] s)

/-- R228–R232: the yard's decoder gives one 256-byte answer of a segment: elements, or as the seventeenth the scales. The segment is
read with the first. -/
def codecPart (table i part : Nat) (s : State) : (List Byte × List Nat) × State :=
  let q := codecRange s table i
  let g := q.1 / 2 ^ 36
  let d := codecDecode s table i
  let s := if part = 0 then gauge (0x2000 + g) 5 q.2 (yardAccess q.1 q.2 .request .read (consumeCount q.1 q.2 s)) else s
  match d with
  | some (el, sc) =>
    let l := if part < 16 then (el.drop (256 * part)).take 256 else sc
    ((l, []), gauge (0x2000 + g) 6 l.length s)
  | none =>
    let n := if part < 16 then 256 else 2 * codecRows s table i
    ((List.replicate n 0, List.replicate (n / 16) poisonMask), if part = 0 then codecError table i s else s)

/-- R466: the new value of an atomic operation on a 64-bit word. -/
def atomicNew (op old operand compare : Nat) : Nat :=
  match op with
  | 0 => (old + operand) % 2 ^ 64
  | 1 => operand
  | 2 => if old = compare then operand else old
  | 3 => old &&& operand
  | 4 => old ||| operand
  | 5 => max old operand
  | 6 => min old operand
  | _ => old

/-- R49, R242: an atomic at a yard: the old value, or none when the word is poisoned and nothing changes. -/
def doAtomic (a op operand compare : Nat) (s : State) : Option Nat × State :=
  if rangeBad s a 8 then (none, yardAccess a 8 .request .atomic (consumeCount a 8 s))
  else
    let s := yardAccess a 8 .request .atomic s
    let old := leNat (consumeBytes s a 8)
    (some old, writeBytes a (leBytes 8 (atomicNew op old operand compare)) [] s)

end Sys2Proof.Machine
end

