-- ==== Sys2Proof/Machine/Sampling.lean ====
section
/-! DEFINITION. The sampling buffer (R711–R715). -/
namespace Sys2Proof.Machine

/-- R712: the address of an operand as a 56-bit global address, or 0 for a register or constant. -/
def operandAddr (s : State) (b : Nat) (r : BenchRun) (ref : Nat) (d : Desc) : Nat :=
  if refForm ref ≠ 0 then 0
  else match d.kind with
    | 0 => moduleNo s * 2 ^ 44 + benchBase b + d.offset
    | 1 => moduleNo s * 2 ^ 44 + descAddr r d % 2 ^ 44
    | 2 => if isSelf s (descAddr r d / 2 ^ 44) then moduleNo s * 2 ^ 44 + descAddr r d % 2 ^ 44 else descAddr r d
    | _ => 0

/-- R712: the record of a sampled op. -/
def sampleData (s : State) (b : Nat) (r : BenchRun) (j : Jig) (f : InFlight) (lostBefore faulted : Bool) : List Fld :=
  let o := f.op
  let uses (ref : Nat) : Bool := (usedRefs o).contains ref
  let addr (ref : Nat) (d : Desc) : Nat := if uses ref then operandAddr s b r ref d else 0
  let remote (ref : Nat) (d : Desc) : Bool := uses ref && refForm ref = 0 && (remoteModule s d (descAddr r d)).isSome
  let flags := bit lostBefore + 2 * bit (remote o.dst f.d || remote o.a f.a || remote o.b f.b) + 4 * bit faulted
  [⟨10, stampNat f.issued⟩, ⟨2, b⟩, ⟨1, r.slot % 4 + 4 * f.unit⟩, ⟨1, o.cls⟩, ⟨2, f.idx⟩, ⟨8, j.jigId⟩,
   ⟨4, min (now s - f.issuedAt) 0xFFFFFFFF⟩, ⟨4, min f.waited 0xFFFFFFFF⟩, ⟨1, f.cause⟩, ⟨1, flags⟩, ⟨2, 0⟩,
   ⟨7, addr o.dst f.d⟩, ⟨7, addr o.a f.a⟩, ⟨7, addr o.b f.b⟩, ⟨7, 0⟩]

def samplingOf (s : State) (c : Nat) : Sampling := tget s.gau.sampling c {}

def modSampling (c : Nat) (f : Sampling → Sampling) (s : State) : State :=
  { s with gau := { s.gau with sampling := tmod s.gau.sampling c {} f } }

/-- A MSI-X message of a function. -/
def sendMsix (fn vector : Nat) (s : State) : State := { s with sq := { s.sq with msix := (fn, vector) :: s.sq.msix } }

/-- R714, R715: a record that finds no place is dropped. -/
def dropSample (c : Nat) (s : State) : State :=
  let x := samplingOf s c
  let s := modSampling c (fun x => { x with lost := satAdd 64 x.lost 1, lostBefore := true, overflow := true }) s
  let s := record 0x1610 1 0 (some c) true [] s
  if x.overflow then s else sendMsix (c + 1) x.vector s

/-- R713–R715: write a sampling record, then its producer index. -/
def putSample (c b : Nat) (data : Bool → List Fld) (s : State) : State :=
  let x := samplingOf s c
  let recent := s.gau.sampleTimes.filter fun t => now s < t + 1000000000
  if 2 ^ x.logRecords ≤ (x.prod + 2 ^ 32 - x.cons) % 2 ^ 32 || 16777216 ≤ recent.length then dropSample c s
  else
    let s := { s with gau := { s.gau with sampleTimes := recent ++ [now s] } }
    let s := hostWrite (x.addr + 64 * (x.prod % 2 ^ x.logRecords)) (data x.lostBefore) s
    let p := wrapAdd 32 x.prod 1
    let s := hostWrite x.prodAddr [⟨4, p⟩] s
    let s := modSampling c (fun x => { x with prod := p, lostBefore := false, overflow := false }) s
    let s := modGau b (fun g => { g with samples := wrapAdd 64 g.samples 1 }) s
    if (p + 2 ^ 32 - x.cons) % 2 ^ 32 = x.watermark then sendMsix (c + 1) x.vector s else s

/-- R711: an op is issued: in each run of 2^n ops of a bench one is sampled, chosen by a free value. -/
def samplePickOp (c b : Nat) (s : State) : Bool × State :=
  let x := samplingOf s c
  if !x.enabled then (false, s)
  else
    let q := tget x.runs b (0, 0)
    let p := if q.1 = 0 then let f := takeFree s; (f.1 % 2 ^ x.n, f.2) else (q.2, s)
    (q.1 = p.1, modSampling c (fun x => { x with runs := tset x.runs b ((q.1 + 1) % 2 ^ x.n, p.1) }) p.2)

end Sys2Proof.Machine
end

