-- ==== Sys2Proof/Machine/Stream.lean ====
section
/-! DEFINITION. The streamers: the packets of an op (R145, R228–R232, R331), when they leave a bench (R147–R149), the lot check of each
(R43, R44), what a packet does where it arrives (R184, R251–R259), and how its answer comes back. -/
namespace Sys2Proof.Machine

/-! ### The packets of an op -/

/-- What every packet of an op has in common. -/
def packetOf (b : Nat) (f : InFlight) : Payload := { from_ := (b, f.unit, f.idx), bulk := opBulk f.op }

/-- A packet for a place of a kind 1 or 2 descriptor, here or on another module (R46). -/
def aimed (s : State) (d : Desc) (base : Nat) (n : Nat) (p : Payload) : Payload :=
  { p with addr := localAddr d base + n, module := remoteModule s d base }

/-- LOAD: a read for each piece of the source. -/
def loadPackets (s : State) (b : Nat) (f : InFlight) (base : Nat) : List Payload :=
  (tensorPieces f.a (moveLen f.op) 256).map fun q =>
    aimed s f.a base (descByte f.a q.1) { packetOf b f with op := .read, len := q.2, dst := f.d, pos := q.1 }

/-- A window of one row, from an offset of a bench store on. -/
def linearWindow (off : Nat) : Desc :=
  { offset := off, fmt := 0x02, kind := 0, slot := 0, dim0 := 65536, dim1 := 1, stride := 65536 }

/-- R228, R229: a LOAD from a codec tensor: for each segment its element packets and one of scales; `pos` and `sc` say where they
land, `len` how many element bytes remain. -/
def codecPackets (s : State) (p : Payload) (d : Desc) (table imm : Nat) : Nat → Nat → Nat → Nat → Nat → List Payload
  | 0, _, _, _, _ => []
  | n + 1, i, pos, sc, len =>
    if len = 0 then []
    else
      let rows := codecRows s table i
      let here (part n : Nat) (dst : Desc) (at_ : Nat) : Payload :=
        { p with op := .codec table i part, addr := table + 8 * i, len := n, dst := dst, pos := at_ }
      (List.range (rows / 8)).map (fun k => here k 256 d (pos + 256 * k)) ++ here 16 (2 * rows) (linearWindow (512 * imm)) sc
        :: codecPackets s p d table imm n (i + 1) (pos + 32 * rows) (sc + 2 * rows) (len - 32 * rows)

/-- R228: PREFETCH from a codec tensor: the compressed lines of each segment. -/
def codecFetches (s : State) (p : Payload) (table after : Nat) : Nat → Nat → Nat → List Payload
  | 0, _, _ => []
  | n + 1, i, len =>
    if len = 0 then []
    else { p with op := .codecFetch table i after, addr := table + 8 * i }
      :: codecFetches s p table after n (i + 1) (len - 32 * codecRows s table i)

/-- STORE and SEND: a write for each piece, with its data and check bits; the last packet of a SEND with the give flag names the
counter. -/
def writePackets (s : State) (b : Nat) (f : InFlight) (base : Nat) : List Payload :=
  let l := tensorPieces f.a (moveLen f.op) 256
  l.mapIdx fun i q =>
    let a := benchBase b + f.a.offset + descByte f.a q.1
    let x := carryBytes s a q.2
    let p := aimed s f.d base (descByte f.d q.1) (packetOf b f)
    { p with
        op := .write, data := x.1, chks := realign a p.addr q.2 x.2
        counter := if f.op.cls = 0x1A && opGive f.op && i + 1 = l.length then some (f.op.imm % 16) else none }

/-- The reads of one source of a GATHER, of `n` bytes, which land from `pos` on. -/
def sourcePackets (p : Payload) (d : Desc) (a n pos : Nat) : List Payload :=
  (List.range (ceilDiv n 256)).map fun i =>
    { p with op := .read, addr := a + 256 * i, len := min 256 (n - 256 * i), dst := d, pos := pos + 256 * i }

/-- GATHER: one row of the destination from each address of a list in the bench store; in the LIST variant (variant bit 0) the first
block of a page list, whose pages follow as it arrives. An address with a module field is a global one (R46). DESIGN CHOICE (the manual does
not say whether the 8-byte addresses of a list are local or global): one with module field 0 is local (log entry 28). src_b bounds them. -/
def gatherPackets (s : State) (b : Nat) (r : BenchRun) (f : InFlight) (base : Nat) : List Payload :=
  let lo := localAddr f.b (descAddr r f.b)
  let p : Payload := { packetOf b f with bounds := some (lo, lo + descSpan f.b) }
  if f.op.variant % 2 = 1 then
    if localAddr f.a base = 0 then []
    else [aimed s f.a base 0 { p with op := .list (ceilDiv (moveLen f.op) 65536) 0, len := 256, dst := f.d, bounds := none }]
  else
    let n := rowBytes f.d
    (List.range (moveLen f.op / max 1 n)).flatMap fun i =>
      let a := leNat (storeBytes s b (f.a.offset + descByte f.a (8 * i)) 8)
      let m := if a / 2 ^ 44 = 0 || isSelf s (a / 2 ^ 44) then none else some (a / 2 ^ 44)
      sourcePackets { p with module := m } f.d (a % 2 ^ 44) n (i * n)

/-- R331: the packets that follow from a block of a page list: its pages, then the next block. -/
def listPackets (p : Payload) (total : Nat) (block : List Byte) (left done_ : Nat) : List Payload :=
  let k := min left (min 62 (fieldAt block 253 1))
  let next := fieldAt block 248 5 * 256
  (List.range k).flatMap (fun i =>
      let pos := (done_ + i) * 65536
      sourcePackets p p.dst (fieldAt block (4 * i) 3 * 65536) (min 65536 (total - pos)) pos)
    ++ if k < left && next ≠ 0 && k ≠ 0 then [{ p with op := .list (left - k) (done_ + k), addr := next, len := 256 }] else []

/-- R228: the segment table of a codec source: the address in the parameter slot; the offset counts segments. -/
def codecTable (r : BenchRun) (d : Desc) : Nat := localAddr d (tget r.params d.slot 0)

/-- The packets of a streamer's op, in the order in which they leave. DESIGN CHOICE (R448 has no message for a PREFETCH of another module's
memory, which R168 allows): it sends nothing and ends without a fault (log entry 28). -/
def opPackets (s : State) (b : Nat) (j : Jig) (r : BenchRun) (f : InFlight) : List Payload :=
  let aa := descAddr r f.a
  let da := descAddr r f.d
  let p := packetOf b f
  match f.op.cls with
  | 0x18 =>
    if f.a.fmt = 0x11 && (remoteModule s f.a aa).isNone then
      codecPackets s p f.d (codecTable r f.a) f.op.imm (moveLen f.op) f.a.offset 0 0 (moveLen f.op)
    else loadPackets s b f aa
  | 0x19 => writePackets s b f da
  | 0x1A => writePackets s b f da
  | 0x1B => gatherPackets s b r f aa
  | 0x1C =>
    if (remoteModule s f.a aa).isSome then []
    else if f.a.fmt = 0x11 then
      codecFetches s p (codecTable r f.a) (f.op.imm * 64) (moveLen f.op) f.a.offset (moveLen f.op)
    else (tensorPieces f.a (moveLen f.op) 256).map fun q =>
      aimed s f.a aa (descByte f.a q.1) { p with op := .prefetch (f.op.imm * 64), len := q.2 }
  | 0x1D => [aimed s f.d da 0 { p with op := .atomic f.op.imm (jigConst j (refIdx f.op.a)) }]
  | _ => []

/-- Where a row of a page of the KV store begins (R326). -/
def rowAddr (fmt t w page slot col : Nat) (isV : Bool) : Nat :=
  let r := t * w
  let x := slot * w + col
  page * 65536 + match fmt with
    | 0 => (if isV then 2 * r else 0) + 2 * x
    | 1 => (if isV then r else 0) + x
    | _ => (if isV then 17 * r / 32 else 0) + x / 2

/-- R337–R339: a row of an accumulator tile for the tail of its request's pages; none when its page is not there. -/
def tailPacket (s : State) (b : Nat) (f : InFlight) (r : Nat) : Option Payload :=
  let base := f.d.offset % 2 ^ 13
  let col := f.d.offset / 2 ^ 16 % 2 ^ 16
  let r0 := f.d.offset / 2 ^ 32 % 2 ^ 16
  let q := max 1 (f.d.stride % 2 ^ 16)
  let isV := bitOf f.d.stride 16
  let e := tget (benchOf s b).tail ((base + (r0 + r) / q) % 8192) 0
  match tailTarget e ((r0 + r) % q) with
  | none => none
  | some (page, slot) =>
    let vals := (List.range (min 64 (f.d.dim0 - col))).flatMap fun c =>
      leBytes 2 (convert 1 (opSaturate f.op) (opRounding s f.op (r * 64 + c)) (accCell s b (refIdx f.op.a % 2) r c)).bits
    some { packetOf b f with
      op := .kvRow (tailFmt e) (tailT e) f.d.dim0 page slot col isV
      addr := rowAddr (tailFmt e) (tailT e) f.d.dim0 page slot col isV, data := vals, bulk := true }

/-- R145: the packets of a direct ACC_OUT, with the fault 0x5108 when a row has no page: the rows before it are written. -/
def accPackets (s : State) (b : Nat) (r : BenchRun) (f : InFlight) : List Payload × Option Nat :=
  let rows := List.range (min f.d.dim1 64)
  if f.d.kind = 3 then
    let l := (rows.map (tailPacket s b f)).takeWhile (·.isSome)
    (l.filterMap id, if l.length < rows.length then some 0x5108 else none)
  else
    (rows.flatMap fun i =>
      let bytes := packBytes (elemBits f.d.fmt) ((accRow s b f i).map (·.bits))
      (List.range (ceilDiv bytes.length 256)).map fun k =>
        aimed s f.d (descAddr r f.d) (i * f.d.stride + 256 * k)
          { packetOf b f with op := .write, data := (bytes.drop (256 * k)).take 256 }, none)

/-- An ACC_OUT that writes through S1. -/
def isDirect (f : InFlight) : Bool := f.op.cls = 0x0A && f.d.kind ≠ 0

/-- The first packet that an op sends, whose credit it needs (R161). -/
def firstPacket (s : State) (b : Nat) (j : Jig) (r : BenchRun) (f : InFlight) : Option Payload :=
  if isDirect f then (accPackets s b r f).1.head? else (opPackets s b j r f).head?

/-! ### Sending -/

/-- R184, R16: where a packet leaves the mesh; one for another module at an edge port of the Ethernet node. -/
def packetDest (s : State) (p : Payload) : Option (Nat × Nat) := p.module.elim (writeDest p.addr) (edgeDest s)

/-- R180: the class in which a packet travels to its destination: bulk writes in the bulk class. -/
def sendClass (p : Payload) : MeshClass :=
  match p.op with
  | .write => if p.bulk then .bulk else .request
  | .kvRow _ _ _ _ _ _ _ => .bulk
  | _ => .request

/-- R180: the class of an answer. -/
def answerClass (p : Payload) : MeshClass :=
  match p.op with
  | .data => if p.bulk then .bulk else .response
  | .listed _ _ => if p.bulk then .bulk else .response
  | .carry _ => if p.bulk then .bulk else .response
  | _ => .response

/-- R184: where an answer leaves the mesh: at the bench that asked, or where the access entered it. -/
def answerDest (p : Payload) : Nat × Nat :=
  match p.op with
  | .carry (some d) => d
  | _ => (benchSite p.from_.1, 4)

/-- A packet that writes. -/
def isWrite (p : Payload) : Bool :=
  match p.op with
  | .write => true
  | .kvRow _ _ _ _ _ _ _ => true
  | _ => false

/-- The yard, the bench store or the module that a packet is for. -/
def ownerUnit (p : Payload) : Option Nat :=
  match p.module, windowOf p.addr with
  | some m, _ => some (1024 + m)
  | none, .lpddr g => some g
  | none, .slab g _ => some g
  | none, .bench b => some (16 + b)
  | none, _ => none

/-- The streamer of a bench that a packet comes from; the matrix engine's direct output is S1's. -/
def packetStreamer (p : Payload) : Nat × Nat := (p.from_.1, if p.from_.2.1 = 0 then 3 else p.from_.2.1)

/-- R149: a streamer holds a write back while an earlier one of its own to the same yard or bench store is still on another way, on
which it could be overtaken. -/
def orderHolds (s : State) (p : Payload) : Bool :=
  !isWrite p || (s.benches.outbox ++ s.benches.packets).all fun q =>
    !(isWrite q.payload && packetStreamer q.payload = packetStreamer p && ownerUnit q.payload = ownerUnit p)
      || (packetDest s p = some (q.dest, q.exit) && q.cls = sendClass p)

/-- R181: a packet of the same class waits at the bench for a credit. -/
def waitsAtBench (s : State) (b : Nat) (p : Payload) : Bool :=
  s.benches.outbox.any fun q => q.link = linkNo (benchSite b) 7 && q.cls = sendClass p

/-- A packet may leave its bench: none of its class waits there before it, and R149 holds. -/
def maySend (s : State) (b : Nat) (p : Payload) : Bool := !waitsAtBench s b p && orderHolds s p

/-- R161: the first link of a packet has a credit in its class. -/
def hasCredit (s : State) (b : Nat) (p : Payload) : Bool :=
  match packetDest s p with
  | some (x, e) => 0 < (linkOf s (linkNo (benchSite b) (routeOut (benchSite b) x e)) (sendClass p)).credits
  | none => true

/-- R43: the lot check of a packet's access, where it leaves the bench; the receiving module checks a remote one. -/
def packetPasses (s : State) (c : Nat) (p : Payload) : Bool :=
  p.module.isSome ||
    ((p.bounds.elim true fun q => q.1 ≤ p.addr && p.addr + p.len ≤ q.2) &&
      match p.op with
      | .write => lotPasses s c p.addr p.data.length .w false
      | .kvRow _ _ _ page _ _ _ => lotPasses s c (page * 65536) 65536 .w false
      | .atomic _ _ => p.addr % 8 = 0 && lotPasses s c p.addr 8 .a false
      | .codec t i _ => lotPasses s c (t + 8 * i) 8 .r false && lotPasses s c (codecRange s t i).1 (codecRange s t i).2 .r false
      | .codecFetch t i _ => lotPasses s c (t + 8 * i) 8 .r false && lotPasses s c (codecRange s t i).1 (codecRange s t i).2 .r false
      | _ => lotPasses s c p.addr p.len .r false)

/-- R46, R441: the lane for a bench's remote operation. -/
def benchLane (b c m : Nat) (s : State) : Option Nat × State := laneFor c m c (choosePort s c (b + m)) false s

/-- R465: the fault of a remote operation that cannot be issued. -/
def remoteFault (s : State) (b c m : Nat) : Option Nat :=
  if !holdsPort s c then some 0x6120
  else if peerQuarantined s m then some 0x6124
  else match findLane s c m c (choosePort s c (b + m)) false with
    | some n => if (laneOf s n).state = .down || (laneOf s n).state = .reopening then some 0x6121 else none
    | none => none

/-- The lane message of a remote access: its type, what the module keeps of it, and the message (R464). -/
def remoteMessage (c : Nat) (p : Payload) : Option (Nat × OpFor × XMsg) :=
  let m : XMsg := { blankMsg with srcC := c, dstC := c, addr := p.addr, bulk := p.bulk }
  let k := p.from_
  match p.op with
  | .write => some (0x10, .benchWrite k.1 k.2.1 k.2.2, { m with length := p.data.length, check := true, data := p.data, chks := p.chks })
  | .read => some (0x11, .benchRead k.1 k.2.1 k.2.2 p.pos, { m with length := p.len })
  | .list left done_ => some (0x11, .benchList k.1 k.2.1 k.2.2 left done_, { m with length := p.len })
  | .atomic op x => some (0x13, .benchAtomic k.1 k.2.1 k.2.2, { m with bulk := false, op := op % 16, operand := x })
  | _ => none

/-- Change an op in flight of a bench, by its place. -/
def modFlight (b i : Nat) (f : InFlight → InFlight) (s : State) : State :=
  modBench b (fun x => { x with cur := x.cur.map fun r => { r with inflight := r.inflight.modify i f } }) s

/-- R174: an op that faults as it sends: it sends nothing more, and it is over unless answers are still to come. -/
def sendFault (b i : Nat) (f : InFlight) (code : Nat) (payload : List Fld) (s : State) : State :=
  let s := if f.waits = 0 then
      modBench b (fun x => { x with cur := x.cur.map fun r => { r with inflight := r.inflight.eraseIdx i } }) s
    else s
  benchFault b f.unit f.idx code payload s

/-- R44: a read that is not performed returns poison. -/
def poisonRead (b : Nat) (p : Payload) (s : State) : State :=
  match p.op with
  | .read => landPoison b p.dst p.pos p.len s
  | .codec _ _ _ => landPoison b p.dst p.pos p.len s
  | _ => s

/-- R44: an access that fails its lot check is not performed: a read returns poison, and the jig stops at the op. -/
def lotFault (b i : Nat) (f : InFlight) (p : Payload) (s : State) : State := sendFault b i f 0x9101 [⟨8, p.addr⟩] (poisonRead b p s)

/-- R147, R180: the packet leaves: it holds a tag until it is answered. A remote access without an edge port left cannot leave. -/
def departMesh (b i : Nat) (p : Payload) (s : State) : State :=
  let s := modFlight b i (fun f => { f with todo := f.todo.drop 1, waits := f.waits + 1 }) s
  let s := countCode b 0x10 1 (if isWrite p then countCode b 0x06 p.data.length s else s)
  match packetDest s p with
  | some (x, e) => injectPacket (linkNo (benchSite b) 7) (sendClass p) x e { p with serial := s.benches.nextPacket } s
  | none => s

/-- R46, R465: a remote access leaves for the Ethernet node, or its op faults at issue; of a context without a port it fails as a lot check
does (R47). -/
def departRemote (b c i : Nat) (f : InFlight) (m : Nat) (p : Payload) (s : State) : State :=
  match (remoteFault s b c m).orElse fun _ => if attached s .net then none else some 0x6122 with
  | some code => sendFault b i f code [⟨2, m⟩] (if code = 0x6120 then poisonRead b p s else s)
  | none => departMesh b i p s

/-- R144: a direct ACC_OUT reads its tile once no earlier MMA op into the tile is in flight. -/
def tileReady (r : BenchRun) (i : Nat) (f : InFlight) : Bool :=
  (r.inflight.take i).all fun g => !((g.op.cls = 0x08 || g.op.cls = 0x09) && refIdx g.op.dst % 2 = refIdx f.op.a % 2)

/-- R145: the direct ACC_OUT that is next to read its tile does so: its packets are formed. -/
def formPackets (b : Nat) (s : State) : State :=
  match (benchOf s b).cur with
  | none => s
  | some r =>
    match findIdx (fun f => !f.formed) r.inflight 0 with
    | none => s
    | some i =>
      match r.inflight[i]? with
      | none => s
      | some f =>
        if !tileReady r i f then s
        else
          let q := accPackets s b r f
          let convs := (List.range (min f.d.dim1 64)).flatMap (accRow s b f)
          let s := modFlight b i (fun f => { f with todo := q.1, formed := true, code := q.2 }) s
          countConvs b convs (useFree (if opStochastic f.op then min f.d.dim1 64 * 64 else 0) s)

def claimOf (j : Jig) (u : Nat) : Nat := if u = 2 then j.tagsS0 else j.tagsS1

/-- R147: the tags that are free in a claim. -/
def tagsFree (r : BenchRun) (u : Nat) : Nat := claimOf r.jig u - tagsUsed r u

/-- R147–R149: a streamer sends the next packet of its oldest op that has one, when a tag is free and the packet may leave. -/
def sendNext (b u : Nat) (s : State) : State :=
  match (benchOf s b).cur with
  | none => s
  | some r =>
    match findIdx (fun f => streamerOf f = some u && !f.todo.isEmpty) r.inflight 0 with
    | none => s
    | some i =>
      match r.inflight[i]? with
      | none => s
      | some f =>
        match f.todo with
        | [] => s
        | p :: _ =>
          let c := (benchCtx s b).getD 0
          if tagsFree r u = 0 || !maySend s b p then s
          else if !packetPasses s c p then lotFault b i f p s
          else match p.module with
            | some m => departRemote b c i f m p s
            | none => departMesh b i p s

/-- Both streamers of a bench go on. -/
def streamOn (b : Nat) (s : State) : State :=
  let s := sendNext b 3 (sendNext b 2 (formPackets b s))
  match (benchOf s b).cur with
  | none => s
  | some r => modBench b (fun x => { x with cur := x.cur.map fun q => { q with maxTags := max q.maxTags (tagsOf r) } }) s

/-! ### Arrival -/

/-- R258: a line of a PREFETCH: the yard takes it with its due stamp and one of its 64 reserved tags; its fill starts at once when its moment
has passed, otherwise it waits. -/
def prefetchLine (a due : Nat) (s : State) : State :=
  match windowOf a with
  | .lpddr g =>
    let p := Prefetch.mk (a / 256 * 256) due
    let s := modYard g (fun y => { y with tagsHigh := max y.tagsHigh (yardTags y + 1) }) s
    if fillDue s g due then fillPrefetch g p s
    else modYard g (fun y => { y with prefetches := y.prefetches ++ [p], tags := y.tags + 1 }) s
  | _ => s

/-- The lines that a prefetch packet asks a yard for. -/
def prefetchLines (s : State) (p : Payload) : List Nat :=
  match p.op with
  | .prefetch _ => linesOf p.addr p.len
  | .codecFetch t i _ => linesOf (codecRange s t i).1 (codecRange s t i).2
  | _ => []

/-- R184, R251–R253: what an access does where it arrives, with its answer; none for one that gives no answer. -/
def servePacket (p : Payload) (s : State) : Option Payload × State :=
  let cls : TrafficClass := if p.bulk then .bulk else .request
  let ack : Payload := { op := .ack, from_ := p.from_, bulk := p.bulk }
  match p.op with
  | .write => (some ack, writeBytes p.addr p.data p.chks (yardAccess p.addr p.data.length cls .write s))
  | .read =>
    let s := yardAccess p.addr p.len cls .read s
    let q := carryBytes s p.addr p.len
    (some { p with op := .data, data := q.1, chks := q.2 }, s)
  | .list left done_ =>
    let s := yardAccess p.addr p.len cls .read s
    let q := carryBytes s p.addr p.len
    (some { p with op := .listed left done_, data := q.1, chks := q.2 }, s)
  | .codec t i part => let q := codecPart t i part s; (some { p with op := .data, data := q.1.1, chks := q.1.2, addr := p.addr / 16 * 16 }, q.2)
  | .atomic op x => let q := doAtomic p.addr op x 0 s; (some { ack with bad := q.1.isNone }, q.2)
  | .kvRow fmt t w page slot col isV =>
    let vals := (List.range (p.data.length / 2)).map fun i => decodeElem 1 (fieldAt p.data (2 * i) 2)
    let s := yardAccess p.addr p.data.length .bulk .write s
    (some ack, storeRow fmt t w page slot col isV vals s)
  | .prefetch after => (none, (prefetchLines s p).foldl (fun s a => prefetchLine a (s.time.t + after) s) s)
  | .carry (some _) => (some { p with op := .carry none, bulk := p.bulk && p.len ≠ 0 }, s)
  | .codecFetch t i after =>
    let s := if (codecDecode s t i).isNone then codecError t i s else s
    (none, (prefetchLines s p).foldl (fun s a => prefetchLine a (s.time.t + after) s) s)
  | _ => (none, s)

/-! ### Accesses that end -/

/-- R45: nothing that the drain waits for is under way any more. -/
def drainOver (s : State) (d : LotDrain) : Bool :=
  ((s.benches.outbox ++ s.benches.packets).all fun p => !isAccess p.payload || !d.serials.contains p.payload.serial)
    && s.net.ops.all fun o => !d.ops.contains (o.tag, o.lane)
where
  /-- The packet carries an access that is still to be performed, or a read's data. -/
  isAccess (p : Payload) : Bool :=
    match p.op with
    | .ack => false
    | .launch _ => false
    | .jig _ => false
    | .tail _ _ => false
    | .latch => false
    | .halo _ => false
    | .carry _ => false
    | _ => true

/-- R45: the responses of `LOT_SET` whose accesses have completed. -/
def settleDrains (s : State) : State :=
  (s.benches.drains.filter (drainOver s)).foldl (fun s d => finish .lotDrain d.id .ok [] s)
    { s with benches := { s.benches with drains := s.benches.drains.filter fun d => !drainOver s d } }

/-- R45: a new entry removes a lot, shrinks it or withdraws a right. -/
def narrows (old e : Word) : Bool :=
  lotValid old && !(lotValid e && lotBase e ≤ lotBase old && lotLimit old ≤ lotLimit e
    && (!lotRead old || lotRead e) && (!lotWrite old || lotWrite e) && (!lotAtomic old || lotAtomic e) && (!lotExec old || lotExec e)
    && (!lotExport old || lotExport e))

/-- R45: the context's accesses that are under way within a lot, and its operations on other modules. -/
def admittedAccesses (s : State) (c : Nat) (e : Word) (id : Nat) : LotDrain :=
  let mine (b : Nat) : Bool := benchCtx s b = some c
  let within (a n : Nat) : Bool := lotBase e < a + n && a < lotLimit e
  let touches (p : Payload) : Bool := within p.addr (max 256 p.len) || match p.op with
    | .codec t i _ => within (codecRange s t i).1 (codecRange s t i).2
    | .codecFetch t i _ => within (codecRange s t i).1 (codecRange s t i).2
    | _ => false
  { id := id, ctx := c
    serials := ((s.benches.outbox ++ s.benches.packets).filter fun p =>
      drainOver.isAccess p.payload && mine p.payload.from_.1 && touches p.payload).map (·.payload.serial)
    ops := (s.net.ops.filter fun o => match o.purpose with
      | .benchRead b _ _ _ => mine b
      | .benchList b _ _ _ _ => mine b
      | _ => false).map fun o => (o.tag, o.lane) }

/-- An op's packet or message has been answered: its tag is free. -/
def ackOp (key : Nat × Nat × Nat) (s : State) : State :=
  modBench key.1 (fun x => { x with cur := x.cur.map fun r => { r with inflight :=
    (match findIdx (fun f => f.unit = key.2.1 && f.idx = key.2.2 && 0 < f.waits) r.inflight 0 with
      | some i => r.inflight.modify i fun f => { f with waits := f.waits - 1 }
      | none => r.inflight) } }) s

/-- Change the op in flight that waits for an answer. -/
def modWaiting (key : Nat × Nat × Nat) (f : InFlight → InFlight) (s : State) : State :=
  modBench key.1 (fun x => { x with cur := x.cur.map fun r => { r with inflight :=
    (match findIdx (fun f => f.unit = key.2.1 && f.idx = key.2.2 && 0 < f.waits) r.inflight 0 with
      | some i => r.inflight.modify i f
      | none => r.inflight) } }) s

/-- R331: a block of a page list has come: the packets of its pages follow, unless the run stops. -/
def landList (key : Nat × Nat × Nat) (module : Option Nat) (block : List Byte) (left done_ : Nat) (s : State) : State :=
  match (benchOf s key.1).cur with
  | none => s
  | some r =>
    if r.stopping then s
    else modWaiting key (fun f =>
      let lo := localAddr f.b (descAddr r f.b)
      let p : Payload := { packetOf key.1 f with dst := f.d, module := module, bounds := some (lo, lo + descSpan f.b) }
      { f with todo := f.todo ++ listPackets p (moveLen f.op) block left done_ }) s

/-- An answer that brings nothing for the bench store has come (R164: none of these waits for a bank). -/
def landAnswer (p : Payload) (s : State) : State :=
  match p.op with
  | .listed left done_ => ackOp p.from_ (landList p.from_ p.module p.data left done_ s)
  | _ => ackOp p.from_ (if p.bad then modWaiting p.from_ (fun f => { f with code := some 0x4104 }) s else s)

/-- R16, R46: a bench's remote access reaches the Ethernet node, which sends it on the context's lane (R441), or its op faults
(R465). -/
def arriveEdge (p : Payload) (m : Nat) (s : State) : State :=
  let b := p.from_.1
  let c := (benchCtx s b).getD 0
  let fail (code : Nat) (s : State) : State := ackOp p.from_ (benchFault b p.from_.2.1 p.from_.2.2 code [⟨2, m⟩] s)
  match remoteFault s b c m with
  | some code => fail code s
  | none =>
    match benchLane b c m s, remoteMessage c p with
    | (some n, s), some (typ, why, msg) => sendOp n why ⟨typ, m, msg⟩ s
    | (_, s), _ => fail 0x6122 s

/-- R16, R464: the answer of another module goes back to its bench over the mesh. -/
def answerRemote (m b : Nat) (p : Payload) (s : State) : State := edgeAnswer m (answerClass p) b p s

end Sys2Proof.Machine
end

