-- ==== Sys2Proof/Machine/Bench.lean ====
section
/-! DEFINITION. The commands and events of the benches, their jigs and runs, and of the mesh (chapter 05). -/
namespace Sys2Proof.Machine

/-! ### Blocks -/

/-- The blocks of a 63-bit mask. -/
def blocksOf (mask : Nat) : List Nat := maskBits mask 63

/-- The benches of a list of blocks, in ascending order. -/
def benchesOf (ks : List Nat) : List Nat := (List.range 252).filter fun b => ks.contains (blockOf b)

/-- R188: a block leaves its context: once nothing runs on it any more it is SCRUBBING until its clearing is done. -/
def releaseBlock (k : Nat) (s : State) : State :=
  let left := match blockOwner s k with
    | some c => tset s.benches.leftBy k c
    | none => s.benches.leftBy
  { s with benches := { s.benches with scrubbing := s.benches.scrubbing.filter (· ≠ k) ++ [k], leftBy := left } }

/-- R188: zeros with valid check bits to the stores of a block; tags, tokens, vector registers, accumulators and tables cleared. The last
fault stays until the next run starts (R196), and so do the last run's conflicts (R192). -/
def clearBlock (k : Nat) (s : State) : State :=
  (blockBenches k).foldl (fun s b =>
    modBench b (fun x => lastFault x { ({} : BenchSt) with
      events := x.events, roWrites := x.roWrites, mxGate := x.mxGate, vxGate := x.vxGate, conflicts := x.conflicts })
      (clearRange (benchBase b) (benchBase b + 0x180000) s)) s

/-- R190: the state and owner of each block; a context mailbox sees its own number or 0xFE for another (log entry 9). -/
def execBlkGetMap (h : Hdr) (s : State) : Host.Outcome State Fault Refusal :=
  .next (command h { op := 0x0400, who := whoCtx, reads := true } (fun c s =>
    okData s ((List.range 63).flatMap fun k =>
      let o := match blockOwner s k, viewerOf s c.mb with
        | none, _ => 0xFF
        | some x, some v => if x = v then x else 0xFE
        | some x, none => x
      [⟨1, blockState s k⟩, ⟨1, o⟩])) s)

/-! ### Keys -/

/-- R158: the key identifier of a public key: the first 8 bytes of its SM3 hash. -/
def keyIdOf (key : Nat) : Nat := Config.sm3 (leBytes 64 key) % 2 ^ 64

/-- R190, R622: `JIG_KEY_ADD`; the keys are frozen once the TDI is locked. -/
def execJigKeyAdd (h : Hdr) (c key : Nat) (s : State) : Host.Outcome State Fault Refusal :=
  .next (command h { op := 0x0401, who := who0Own, ctx := some c, conf := true } (fun _ s =>
    if 16 ≤ c || 2 ^ 512 ≤ key then no s .badArg
    else if !ctxDefined s c then no s .badState
    else if (ctxOf s c).jigKeys.contains key then ok s
    else if tdiLocked s c then no s .badState
    else if 8 ≤ (ctxOf s c).jigKeys.length then no s .noResource
    else ok (modCtx c (fun x => { x with jigKeys := x.jigKeys ++ [key] }) s)) s)

/-- R190, R622: `JIG_KEY_REMOVE`; resident jigs stay loaded. -/
def execJigKeyRemove (h : Hdr) (c key : Nat) (s : State) : Host.Outcome State Fault Refusal :=
  .next (command h { op := 0x0402, who := who0Own, ctx := some c, conf := true } (fun _ s =>
    if 16 ≤ c || 2 ^ 512 ≤ key then no s .badArg
    else if !ctxDefined s c then no s .badState
    else if !(ctxOf s c).jigKeys.contains key then ok s
    else if tdiLocked s c then no s .badState
    else ok (modCtx c (fun x => { x with jigKeys := x.jigKeys.filter (· ≠ key) }) s)) s)

/-! ### Loading -/

/-- R617, R620: a time-sharing context that is not resident. -/
def nonResident (s : State) (c : Nat) : Bool :=
  (ctxOf s c).timeShare && ((ctxOf s c).state = .defined || (ctxOf s c).state = .switching)

/-- A context's bench as it is, or as it was saved while the context is not resident. -/
def benchFor (s : State) (c b : Nat) : BenchSt :=
  if nonResident s c then tget (tget s.benches.saved c []) b {} else benchOf s b

/-- Change a context's bench, or its saved image. -/
def modBenchFor (c b : Nat) (f : BenchSt → BenchSt) (s : State) : State :=
  if nonResident s c then
    { s with benches := { s.benches with saved := tmod s.benches.saved c [] fun t => tmod t b {} f } }
  else modBench b f s

/-- R177: a run of the context's slot is queued or running on a bench of the blocks. -/
def slotBusy (s : State) (c : Nat) (ks : List Nat) (slot : Nat) : Bool :=
  s.benches.runs.any fun r => r.slot = slot && r.ctx = c && (r.waiting ++ r.live).any fun b => ks.contains (blockOf b)

/-- R179: the context's CONTEXT function is not serving. -/
def ctxStopped (s : State) (c : Nat) : Bool := (funcOf s (fidContext c)).state ≠ .running && (funcOf s (fidContext c)).state ≠ .starting

/-- The checks every command naming a context and blocks passes: BAD_ARG, then an undefined context, then R189. -/
def blocksRefused (s : State) (c slot mask : Nat) : Option Status :=
  if 16 ≤ c || 4 ≤ slot || mask = 0 || 2 ^ 63 ≤ mask then some .badArg
  else if !ctxDefined s c then some .badState
  else if (blocksOf mask).any fun k => blockState s k ≠ 1 || blockOwner s k ≠ some c then some .denied
  else none

/-- R191: the command names a block of a confidential context other than the one that its mailbox speaks for. -/
def confMask (s : State) (mb mask : Nat) : Bool :=
  (blocksOf mask).any fun k => (blockOwner s k).elim false fun d => isConf s d && !speaksFor s mb d

/-- R764: the jigs in the other slots leave room on every bench. -/
def jigFits (s : State) (c : Nat) (ks : List Nat) (slot : Nat) (j : Jig) : Bool :=
  (benchesOf ks).all fun b =>
    ((((benchFor s c b).slots.mapIdx fun i x => if i = slot then 0 else x.elim 0 jigBytes).foldl (· + ·) 0) + jigBytes j) ≤ 65536

/-- The running version and epoch of JIGLIB and of SQFW. -/
def jiglib (s : State) : Component := s.boot.running_.getD 4 noComponent
def sqfwVersion (s : State) : Nat := (s.boot.running_.getD 5 noComponent).version

/-- R179, R128: JIGLIB is being activated for the context. -/
def jiglibActivating (s : State) (c : Nat) : Bool := activatingUnit s 4 c

/-- R180: a verified container goes to every bench of its blocks, in packets of at most 256 bytes. -/
def sendJig (load : Nat) (ks : List Nat) (j : Jig) (s : State) : State :=
  (benchesOf ks).foldl (fun s b => foldN (jigBytes j / 256) (fun _ s => sendSquare (.jig load) b s) s) s

/-- An ACCEPTED load with its outcome; the final response comes at JIG_LOAD_DONE. -/
def acceptLoad (c slot mask : Nat) (j : Jig) (bad : JigRefusal) (s : State) : Ans :=
  let p := freshId s
  let bad := match bad with
    | some x => some x
    | none => if jigFits p.2 c (blocksOf mask) slot j then none else some (.noResource, 0x0D, 0)
  let l : JigLoad := ⟨p.1, c, slot, blocksOf mask, j, bad.map fun x => (statusCode x.1, x.2.1, x.2.2)⟩
  let s := { p.2 with benches := { p.2.benches with loads := p.2.benches.loads ++ [l] } }
  accepted (if bad.isSome || nonResident s c then s else sendJig p.1 l.blocks j s) .jigLoad p.1

/-- R169, R171, R764, R177, R179, R189: `JIG_LOAD`. A container with a word that is not usable is answered FAULTED (R242). `sigOk` says that the trailer's signature is valid under the key that its
key identifier names (for a library container, under Fisujor's key). -/
def execJigLoad (h : Hdr) (c slot mask addr len : Nat) (sigOk : Bool) (s : State) : Host.Outcome State Fault Refusal :=
  .next (command h { op := 0x0403, who := whoCtx, ctx := some c, conf := true } (fun k s =>
    if confMask s k.mb mask then no s .confidential
    else match blocksRefused s c slot mask with
    | some st => no s st
    | none =>
      if ctxStopped s c then no s .badState
      else if slotBusy s c (blocksOf mask) slot then no s .busy
      else
        let inLot := (ctxOf s c).lots.any fun e => lotCovers e.2 addr len && lotRead e.2 && lotExec e.2
        let j := containerOf (if inLot then consumeBytes s addr len else [])
        let bad := inLot && rangeBad s addr len
        let w : JigWorld :=
          { addr := addr, len := len, inLot := inLot
            keyOk := if bitOf j.flags 0 then keyIdOf Config.fisujorKey = j.keyId else (ctxOf s c).jigKeys.any fun k => keyIdOf k = j.keyId
            sigOk := sigOk, epochOk := Config.epochAccepted (sqfwVersion s) j.epoch }
        acceptLoad c slot mask j (if bad then some (.faulted, 0, 0) else verifyJig w j)
          (if inLot then touchYard .square addr len .request .read (consumeCount addr len s) else s)) s)

/-- R171, R179, R189, R764: `JIG_LOAD_LIB`. -/
def execJigLoadLib (h : Hdr) (c slot mask jigId : Nat) (s : State) : Host.Outcome State Fault Refusal :=
  .next (command h { op := 0x0404, who := whoCtx, ctx := some c, conf := true } (fun k s =>
    let b := Config.library (jiglib s).version jigId
    if confMask s k.mb mask then no s .confidential
    else match blocksRefused s c slot mask with
    | some st => no s st
    | none =>
      if b.isEmpty then no s .badArg
      else if ctxStopped s c then no s .badState
      else if jiglibActivating s c || slotBusy s c (blocksOf mask) slot then no s .busy
      else acceptLoad c slot mask (containerOf b) none s) s)

/-- R171, R170, R764, R159: a load ends, once its container has come to its benches and its response can be written: the slot becomes valid on every bench together, or the refusal is answered. The room is
looked at again: another load may have ended meanwhile. -/
def execJigLoadDone (dt id : Nat) (s : State) : Host.Outcome State Fault Refusal :=
  .next (event dt (fun s => if loadUnderWay s id || !rspRoom s .jigLoad id then s else
    match takeFirst (fun l => l.id = id) s.benches.loads with
    | none => s
    | some (l, rest) =>
      let s := { s with benches := { s.benches with loads := rest } }
      match l.refusal with
      | some (st, reason, idx) =>
        let status : Status :=
          if st = 0x0020 then .denied else if st = 0x0050 then .incompatible else if st = 0x0030 then .noResource
          else if st = 0x0060 then .faulted else .badArg
        let s := if reason = 0x0D || status = .faulted then s else record 0x4301 1 0 (some l.ctx) true [⟨2, reason⟩, ⟨2, idx⟩] s
        finish .jigLoad id status [⟨2, reason⟩, ⟨2, idx⟩] s
      | none =>
        if !ctxDefined s l.ctx || (ctxOf s l.ctx).state = .destroying then finish .jigLoad id .badState [] s
        else if !jigFits s l.ctx l.blocks l.slot l.jig then finish .jigLoad id .noResource [⟨2, 0x0D⟩, ⟨2, 0⟩] s
        else
          let s := (benchesOf (l.blocks.filter (bitOf (ctxOf s l.ctx).blocks))).foldl (fun s b => modBenchFor l.ctx b (fun x =>
            { x with slots := x.slots.set l.slot (some l.jig), badLines := x.badLines.filter (· ≠ l.slot) }) s) s
          finish .jigLoad id .ok [] s) s)

/-- R177, R190: `JIG_UNLOAD`. -/
def execJigUnload (h : Hdr) (c slot mask : Nat) (s : State) : Host.Outcome State Fault Refusal :=
  .next (command h { op := 0x0405, who := whoCtx, ctx := some c, conf := true } (fun k s =>
    if confMask s k.mb mask then no s .confidential
    else match blocksRefused s c slot mask with
    | some st => no s st
    | none =>
      if slotBusy s c (blocksOf mask) slot then no s .busy
      else ok ((benchesOf (blocksOf mask)).foldl (fun s b => modBench b (fun x => { x with slots := x.slots.set slot none }) s) s))
    s)

/-! ### Runs -/

/-- R178: a block is used by the serving units for a model of the context in service. -/
def servedBlock (s : State) (c k : Nat) : Bool :=
  (tget s.serve.ctxs c {}).models.any fun m => match m.2 with
    | some y => bitOf y.plan.blocks k
    | none => false

/-- R189, R620: the blocks on which a context may run: those assigned to it, or, while it is not resident, those of its set. -/
def runBlocksRefused (s : State) (c slot mask : Nat) : Option Status :=
  if nonResident s c && c < 16 && slot < 4 && mask ≠ 0 && mask < 2 ^ 63 then
    if maskWithin mask (ctxOf s c).blocks 63 then none else some .denied
  else blocksRefused s c slot mask

/-- The slot holds a valid jig on every bench. -/
def slotValid (s : State) (c : Nat) (ks : List Nat) (slot : Nat) : Bool :=
  (benchesOf ks).all fun b => bitOf (slotsValid (benchFor s c b)) slot

/-- A launch queue among the benches of some blocks is full. -/
def queueFull (s : State) (c : Nat) (ks : List Nat) : Bool := (benchesOf ks).any fun b => 4 ≤ (benchFor s c b).queue.length

/-- Queue a run on every bench of its blocks; its launch travels to each of them, unless the queue is a saved one. -/
def queueRun (c slot : Nat) (ks params : List Nat) (s : State) : Nat × State :=
  let id := s.benches.nextRun
  let bs := benchesOf ks
  let s := { s with benches := { s.benches with
    nextRun := id + 1
    runs := s.benches.runs ++ [{ id := id, ctx := c, slot := slot, blocks := ks, params := params, waiting := bs, live := [] }] } }
  (id, bs.foldl (fun s b =>
    modBenchFor c b (fun x => { x with queue := x.queue ++ [id] }) (if nonResident s c then s else sendLaunch id b s)) s)

/-- R178, R179, R189, R620: `JIG_RUN`; the ACCEPTED response carries the run number. -/
def execJigRun (h : Hdr) (c slot mask : Nat) (params : List Nat) (s : State) : Host.Outcome State Fault Refusal :=
  .next (command h { op := 0x0406, who := whoCtx, ctx := some c, conf := true } (fun k s =>
    if confMask s k.mb mask then no s .confidential
    else match runBlocksRefused s c slot mask with
    | some st => no s st
    | none =>
      let ks := blocksOf mask
      if 30 < params.length then no s .badArg
      else if ctxStopped s c then no s .badState
      else if ks.any (servedBlock s c) || queueFull s c ks then no s .busy
      else if !slotValid s c ks slot then no s .badState
      else
        let p := queueRun c slot ks params s
        { accepted p.2 .jigRun p.1 with data := [⟨4, p.1⟩] }) s)

/-- R190: `JIG_ABORT`. -/
def execJigAbort (h : Hdr) (c run : Nat) (s : State) : Host.Outcome State Fault Refusal :=
  .next (command h { op := 0x0407, who := whoCtx, ctx := some c, conf := true } (fun _ s =>
    match s.benches.runs.find? fun r => r.id = run && r.ctx = c with
    | some _ => accepted (stopRun run s) .jigAbort run
    | none => if s.benches.ended.contains (run, c) then ok s else no s .badArg) s)

/-- R190: `JIG_STATUS`: for each named bench its queue, running slot and last fault. -/
def execJigStatus (h : Hdr) (c mask : Nat) (s : State) : Host.Outcome State Fault Refusal :=
  .next (command h { op := 0x0408, who := whoCtx, ctx := some c, conf := true, reads := true } (fun k s =>
    if confMask s k.mb mask then no s .confidential
    else match blocksRefused s c 0 mask with
    | some st => no s st
    | none => okData s ((benchesOf (blocksOf mask)).flatMap fun b =>
        let x := benchOf s b
        [⟨1, b⟩, ⟨1, x.cur.elim 0xFF (·.slot)⟩, ⟨1, x.queue.length⟩] ++ x.queue.map (fun id => ⟨4, id⟩) ++ [⟨8, bnFault s b⟩]))
    s)

/-- R619: a JIG_RUN run that no bench has started waits for the next turn of a context whose quantum has ended; the runs of its
step and of its chains go on. -/
def runYields (s : State) (id : Nat) : Bool :=
  match runOf s id with
  | some r => working .jigRun id s && r.live.isEmpty && r.retired.isEmpty && mustYield s r.ctx
  | none => false

/-- R172, R173, R196: a bench starts its next queued run, once the previous one has ended and its tags have returned, and its launch
has come. -/
def startRun (b : Nat) (s : State) : State :=
  let x := benchOf s b
  let q := match x.queue with
    | id :: _ => if runYields s id || launchUnderWay s id b then [] else x.queue
    | [] => []
  match x.cur, q with
  | none, id :: rest =>
    match runOf s id, (x.slots.getD ((runOf s id).elim 0 (·.slot)) none) with
    | some r, some j =>
      let bs := benchesOf r.blocks
      let params := (r.params.mapIdx fun i v => (i, v)) ++ [(30, (findIdx (· = b) bs 0).getD 0), (31, bs.length)]
      let n : BenchRun :=
        { run := id, slot := r.slot, jig := j, units := initialUnits j, chans := initialChans j, params := params, offsets := []
          inflight := [], lastIssue := List.replicate 4 (now s) }
      let s := modBench b (fun x => { x with
        queue := rest, cur := some n, faultCode := 0, faultUnit := 0, faultSlot := 0, faultOp := 0, faultNs := 0
        conflicts := 0, maxTags := 0, claims := (j.tagsS0, j.tagsS1) }) s
      modRun id (fun q => { q with waiting := q.waiting.filter (· ≠ b), live := q.live ++ [b] }) s
    | some r, none =>
      -- R171: the slot has become invalid on this bench; the run that reaches it faults
      let ns := (nextStamp s).ns
      let s := record 0x4103 2 (0x1000 + b) (benchCtx s b) false [] s
      let s := modBench b (fun x => { x with
        queue := rest, faultCode := 0x4103, faultUnit := 0, faultSlot := r.slot, faultOp := 0, faultNs := ns }) s
      stopRun id (modRun id (fun q =>
        { q with waiting := q.waiting.filter (· ≠ b), fault := some (q.fault.getD (b, 0, 0x4103)) }) s)
    | _, _ => modBench b (fun x => { x with queue := rest }) s
  | _, _ => s

/-! ### Issue -/

/-- R155: the events and issues that the block's limit counts begin again when the limit changes. -/
def paceEvents (limit ev : Nat) (x : BenchSt) : BenchSt :=
  if x.pace.1 = limit then { x with pace := (limit, x.pace.2.1 + ev, x.pace.2.2) } else { x with pace := (limit, ev, [0, 0, 0, 0]) }

/-- R553, R588: how many ns ago the gate of the unit began a release that is not over, which takes 200 ns. -/
def releasing (s : State) (b u : Nat) : Option Nat :=
  let x := benchOf s b
  let t := if u = 0 then x.mxOpen else if u = 1 then x.vxOpen else none
  match t with
  | some t => if now s < t + 200 then some (now s - t) else none
  | none => none

/-- R155: the limit lets the unit issue: it has issued on less than that fraction of the events. During a release the rate rises linearly
from 0 to the limit, so that over its first `e` ns the fraction is limit × e / 400. -/
def paceAllows (s : State) (b u : Nat) : Bool :=
  let x := benchOf s b
  match releasing s b u with
  | some e => x.pace.1 = issueLimit s (blockOf b) && (x.pace.2.2.getD u 0 + 1) * 40000 ≤ x.pace.1 * x.pace.2.1 * e
  | none => 100 ≤ issueLimit s (blockOf b)
    || (x.pace.1 = issueLimit s (blockOf b) && (x.pace.2.2.getD u 0 + 1) * 100 ≤ x.pace.1 * x.pace.2.1)

/-- Events pass on a bench, which runs from the fabric rail (R530; log entry 16); while a halt closes its gates they do not count toward the bound (R595). -/
def passEvents (b ev : Nat) (s : State) : State :=
  let s := countCode b 0x07 ((benchOf s b).cur.elim 0 tagsOf * ev) s
  let s := if (benchOf s b).mxGate then countCode b 0x12 ev s else s
  let limit := issueLimit s (blockOf b)
  modBench b (fun x => { paceEvents limit ev x with
    events := wrapAdd 64 x.events ev
    cur := if x.vxGate then x.cur else x.cur.map fun r => { r with events := r.events + ev } }) s

/-- The tokens that ops in flight will still give on a channel. -/
def heldTokens (j : Jig) (r : BenchRun) (ch : Nat) : Nat :=
  (r.inflight.filter fun f => opGive f.op && (stageOutputs j f.op.stage).any fun p => p.1 = ch).length

/-- R60, R111: in SERVICE state no jig runs; a step in progress goes on to its boundary. -/
def serviceHolds (s : State) (b : Nat) : Bool :=
  s.boot.phase = .service && (benchCtx s b).elim true fun c => (tget s.serve.ctxs c {}).step.isNone

/-- R154, R155, R187: the issue gate of a unit is closed, or the block's limit withholds the event. -/
def gateShut (s : State) (b u : Nat) (withheld : Bool) : Bool :=
  let x := benchOf s b
  (u = 0 && x.mxGate) || (u = 1 && x.vxGate) || unassigned s (blockOf b) || serviceHolds s b || !paceAllows s b u
    || (withheld && issueLimit s (blockOf b) < 100)

/-- An op as it would stand in flight. -/
def flightOf (j : Jig) (r : BenchRun) (u i : Nat) (o : Op) : InFlight :=
  let f : InFlight :=
    { unit := u, idx := i, op := o, d := liveDesc j r o.dst, a := liveDesc j r o.a, b := liveDesc j r o.b, c := liveDesc j r o.c }
  { f with formed := !isDirect f }

/-! ### Banks (R139–R141) -/

/-- R139: the banks of a range of a bench store. -/
def banksOf (off len : Nat) : List Nat := if len = 0 then [] else (List.range 48).filter fun k => off / 0x8000 ≤ k && k ≤ (off + len - 1) / 0x8000

/-- The banks of a bench store that an op reads or writes itself; what lands there comes as inbound writes. -/
def opBanks (f : InFlight) : List Nat :=
  let w (d : Desc) : List Nat := if d.kind = 0 then banksOf d.offset (descSpan d) else []
  match f.op.cls with
  | 0x08 => w f.a ++ w f.b ++ if isMx f.a.fmt then w f.c else []
  | 0x09 => w f.a ++ w f.b ++ w f.c
  | 0x0A => w f.d
  | 0x10 => w f.a
  | 0x11 => w f.d
  | 0x14 => w f.d ++ w f.a ++ w f.b
  | 0x19 => w f.a
  | 0x1A => w f.a
  | 0x1B => w f.a
  | _ => []

/-- R140: the order in which a bank serves those who ask for it in the same event. -/
def bankRank : BankUser → Nat
  | .inbound => 0
  | .matrix => 1
  | .vector => 2
  | .streamer _ => 3
  | .square => 4

/-- The requester that a unit is. -/
def bankUser (u : Nat) : BankUser :=
  match u with
  | 0 => .matrix
  | 1 => .vector
  | n => .streamer n

/-- The banks of a bench store that an inbound packet writes. -/
def landingBanks (p : Payload) : List Nat :=
  let n := p.data.length
  match p.op with
  | .data =>
    let a := descByte p.dst p.pos
    banksOf (p.dst.offset + a) (descByte p.dst (p.pos + n - 1) + 1 - a)
  | _ => banksOf ((p.addr - 0x90000000000) % 0x200000) n

/-- R141: a unit waits for the bank, and an inbound write has taken one of its last two events. -/
def inboundBarred (x : BenchSt) (k : Nat) : Bool :=
  x.bankWait.contains k && (x.bankIn.find? fun q => q.1 = k).elim false fun q => x.events < q.2 + 2

/-- The packet waits at a bench's local port to be written into its store: a write, or a read's data. -/
def isInbound (p : Payload) : Bool := p.op = .write || p.op = .data

/-- R161, R163: the first of the conditions before its banks that keeps a unit's next op from issuing. -/
def heldBefore (s : State) (b u : Nat) (j : Jig) (r : BenchRun) (o : Op) (withheld : Bool) : Option Stall :=
  let ext (k : Nat) : Nat := (benchOf s b).xtok.getD k 0
  let ch (k : Nat) : Nat := tget r.chans k 0
  if !takeReady j ch ext o then some .tokenIn
  else if opFence o && r.inflight.any (fun f => f.unit = u) then some .fence
  else if gateShut s b u withheld then some .gate
  else if !giveReady j ch (heldTokens j r) o then some .channelFull
  else none

/-- The op that a unit would issue now asks for one of the banks. -/
def nextAsks (s : State) (b u : Nat) (r : BenchRun) (ks : List Nat) : Bool :=
  match unitNext r.jig u (r.units.getD u {}) with
  | some (i, o) => (heldBefore s b u r.jig r o false).isNone && (opBanks (flightOf r.jig r u i o)).any ks.contains
  | none => false

/-- The requester asks for one of the banks: an inbound write that waits and may take one (R141), or a unit with an op in flight or about
to issue. No command of the Square makes an access of a bench store by its register path that could wait. -/
def asksFor (s : State) (b : Nat) (r : BenchRun) (ks : List Nat) (q : BankUser) : Bool :=
  let by_ (u : Nat) : Bool := (r.inflight.any fun f => f.unit = u && (opBanks f).any ks.contains) || nextAsks s b u r ks
  match q with
  | .inbound => s.benches.packets.any fun p => p.link = linkNo (benchSite b) 4 && isInbound p.payload
      && (landingBanks p.payload).any ks.contains && !(landingBanks p.payload).any (inboundBarred (benchOf s b))
  | .matrix => by_ 0
  | .vector => by_ 1
  | .streamer u => by_ u
  | .square => true

/-- R140, R141: a bank that the op needs serves another of the requesters of this event first; among the two streamers, the lower. -/
def bankTaken (s : State) (b u : Nat) (r : BenchRun) (f : InFlight) (rivals : List BankUser) : Bool :=
  rivals.any fun q => q ≠ bankUser u && asksFor s b r (opBanks f) q
    && (bankRank q < bankRank (bankUser u) || (bankRank q = bankRank (bankUser u) && q = .streamer 2))

/-! ### Conditions of issue (R161, R163) -/

/-- R181: the crossing has no credit left for a packet of the bench. -/
def noCredit (s : State) (b : Nat) (p : Payload) : Bool := waitsAtBench s b p || !hasCredit s b p

/-- R148, R149, R181: what keeps a streamer from sending the op's first packet, with its cause if R163 has one for it: no free tag; an
earlier op that still has packets to send; no credit; or the order of its writes. -/
def sendBlocked (s : State) (b : Nat) (j : Jig) (r : BenchRun) (f : InFlight) : Option (Option Stall) :=
  match streamerOf f with
  | none => none
  | some t =>
    if tagsFree r t = 0 then some (some .tag)
    else match r.inflight.find? fun g => streamerOf g = some t && (!g.todo.isEmpty || !g.formed) with
      | some g => some (match g.todo with
          | p :: _ => if noCredit s b p then some .meshCredit else none
          | [] => none)
      | none => match firstPacket s b j r f with
        | some p => if noCredit s b p then some (some .meshCredit) else if orderHolds s p then none else some none
        | none => none

/-- Whether an op may issue now (R161): none when it may; otherwise the cause of R163, if it has one there (R144, the
window unit's rule and R670 have none). `rivals` are those who ask for its banks in the event. -/
def issueBlocked (s : State) (b u : Nat) (j : Jig) (r : BenchRun) (o : Op) (rivals : List BankUser) (withheld : Bool) :
    Option (Option Stall) :=
  let f := flightOf j r u 0 o
  match heldBefore s b u j r o withheld with
  | some c => some (some c)
  | none =>
    if bankTaken s b u r f rivals then some (some .bank)
    else match sendBlocked s b j r f with
    | some c => some c
    | none =>
      if (o.cls = 0x19 || o.cls = 0x1D) && (remoteModule s f.d (descAddr r f.d)).isSome
          && (benchCtx s b).elim false (sideFenced s) then some none
      else if (o.cls = 0x08 || o.cls = 0x09)
          && r.inflight.any (fun f => f.op.cls = 0x0A && !(isDirect f && f.formed) && refIdx f.op.a = refIdx o.dst) then some none
      else if o.cls = 0x12 && r.inflight.any (fun f => f.op.cls = 0x14) then some none
      else none

/-- R697: the op counts of a bench's gauges. -/
def countOp (b : Nat) (o : Op) (s : State) : State :=
  if 0x08 ≤ o.cls && o.cls ≤ 0x0A then countCode b 0x01 1 s
  else if 0x10 ≤ o.cls && o.cls ≤ 0x13 then countCode b 0x03 1 s
  else s

/-- The cause with the most events since a unit's last issue, the lower on a tie (R712). -/
def mainCause (r : BenchRun) (u : Nat) : Nat :=
  ((List.range 7).foldl (fun (acc : Nat × Nat) i =>
    let n := tget r.stalls (u * 8 + i + 1) 0
    if acc.2 < n then (i + 1, n) else acc) (0, 0)).1

/-- R160, R165: an op issues: it takes its tokens and tags, its unit moves on, and its requests leave. -/
def issueOp (b u : Nat) (j : Jig) (r : BenchRun) (i : Nat) (o : Op) (s : State) : State :=
  let c := (benchCtx s b).getD 0
  let par (k : Nat) : Nat := tget r.params k 0
  let s := if opTake o then modBench b (fun x => { x with
      xtok := (stageInputs j o.stage).foldl (fun t p => if isExternal p.2 then t.modify p.2.depth (· - 1) else t) x.xtok }) s
    else s
  let r := { r with
    chans := takeTokens j o r.chans
    units := r.units.set u (nextUnit par o (r.units.getD u {}))
    retired := if u = j.lead then r.retired + 1 else r.retired }
  let s := if u = j.lead then countSlots b none 1 s else s
  let ks := opBanks (flightOf j r u i o)
  let s := modBench b (fun x => { x with
    pace := (x.pace.1, x.pace.2.1, x.pace.2.2.modify u (· + 1))
    bankWait := x.bankWait.filter (!ks.contains ·) }) s
  let setRun (r : BenchRun) (s : State) : State := modBench b (fun x => { x with cur := some r }) s
  if o.cls ≤ 3 then
    let r := if o.cls = 0x03 then
        let k := refIdx o.dst
        let old := tget r.offsets k (jigDesc j k).offset
        { r with offsets := tset r.offsets k (ofSigned 48 ((old : Int) + toSigned 64 (jigConst j (refIdx o.a)))) }
      else r
    settleBench b (setRun { r with chans := giveTokens j o r.chans } s)
  else
    let f := flightOf j r u i o
    let p := samplePickOp c b (countOp b o (setRun r s))
    let st := issueStamp p.2
    let f := { f with
      todo := if isDirect f then [] else opPackets st.2 b j r f
      sampled := p.1, issued := st.1, issuedAt := now st.2
      waited := now st.2 - r.lastIssue.getD u 0, cause := mainCause r u }
    let r := { r with
      lastIssue := r.lastIssue.set u (now st.2)
      stalls := r.stalls.filter fun q => q.1 / 8 ≠ u
      inflight := r.inflight ++ [f] }
    streamOn b (setRun r st.2)

/-- An op's take waits for an external token counter. -/
def waitsExternal (s : State) (b : Nat) (j : Jig) (o : Op) : Bool :=
  opTake o && (stageInputs j o.stage).any fun p => isExternal p.2 && (benchOf s b).xtok.getD p.2.depth 0 = 0

/-- R698, R163: events in which a unit did not issue `o`. -/
def stallEvents (b u : Nat) (j : Jig) (o : Op) (cause : Option Stall) (ev : Nat) (s : State) : State :=
  let s := if u = j.lead then countSlots b cause ev s else s
  match cause with
  | none => modBench b (fun x => { x with cur := x.cur.map fun r => { r with
      retired := if u = j.lead then r.retired + ev else r.retired } }) s
  | some c =>
    let s := countCode b (0x08 + stallCode c) ev s
    let s := if c = .bank then countCode b 0x08 ev (modBench b (fun x => { x with conflicts := satAdd 64 x.conflicts ev }) s) else s
    let s := if c = .tokenIn && waitsExternal s b j o then countCode b 0x13 ev s else s
    modBench b (fun x => { x with cur := x.cur.map fun r => { r with stalls := tmod r.stalls (u * 8 + stallCode c) 0 (· + ev) } }) s

/-- R163: the events that pass are those of every unit that has not reached END: each of the others stalls with its first cause, or goes
on with its work. `rivals` are those who ask for banks in these events. -/
def attribute_ (b : Nat) (skip : Option Nat) (rivals : List BankUser) (ev : Nat) (s : State) : State :=
  [0, 1, 2, 3].foldl (fun s u =>
    match (benchOf s b).cur with
    | none => s
    | some r =>
      if r.stopping || skip = some u then s
      else match unitNext r.jig u (r.units.getD u {}) with
        | none => s
        | some (_, o) => stallEvents b u r.jig o ((issueBlocked s b u r.jig r o rivals false).getD none) ev s) s

/-- Events pass on a bench, and its units but `skip` use them or stall. -/
def benchEvents (b : Nat) (skip : Option Nat) (rivals : List BankUser) (ev : Nat) (s : State) : State :=
  attribute_ b skip rivals ev (passEvents b ev s)

/-- R141: a unit waits for the banks of its op. -/
def waitBanks (b u : Nat) (j : Jig) (r : BenchRun) (o : Op) (cause : Option Stall) (s : State) : State :=
  if cause ≠ some .bank then s
  else modBench b (fun x => { x with bankWait := (opBanks (flightOf j r u 0 o)).filter (!x.bankWait.contains ·) ++ x.bankWait }) s

/-- R161: a unit issues its next op once every condition holds; otherwise the `ev` events that passed are stalls with the
first cause of R163. `bank` names those who ask for the op's banks in that event, `withheld` that the block's limit skips it. -/
def execOpIssue (dt b u ev : Nat) (bank : List BankUser) (withheld : Bool) (s : State) : Host.Outcome State Fault Refusal :=
  .next (event dt (fun s =>
    if 252 ≤ b || 4 ≤ u then s
    else
      let s := streamOn b (benchEvents b (some u) (bankUser u :: bank) ev s)
      match (benchOf s b).cur with
      | none => s
      | some r =>
        if r.stopping then s
        else match unitNext r.jig u (r.units.getD u {}) with
          | none => s
          | some (i, o) =>
            match issueBlocked s b u r.jig r o bank withheld with
            | some cause => waitBanks b u r.jig r o cause (stallEvents b u r.jig o cause ev s)
            | none =>
              let s := stallEvents b u r.jig o none ev s
              match (benchOf s b).cur with
              | some r => issueOp b u r.jig r i o s
              | none => s) s)

/-! ### Completion -/

/-- R244: the operands that a computing op consumes. -/
def consumed (f : InFlight) : List Desc :=
  match f.op.cls with
  | 0x08 => if isMx f.a.fmt then [f.a, f.b, f.c] else [f.a, f.b]
  | 0x09 => [f.a, f.b, f.c]
  | 0x10 => [f.a]
  | 0x14 => [f.a, f.b]
  | _ => []

/-- What an op has done once it completes; a fault code when it could not. A streamer's op has done it packet by packet. -/
def opEffect (b : Nat) (j : Jig) (f : InFlight) (s : State) : Option Nat × State :=
  match f.op.cls with
  | 0x08 => (none, doMma b f s)
  | 0x09 => (none, doMmaGrp b f s)
  | 0x0A => (f.code, if isDirect f then s else doAccOut b f s)
  | 0x10 => (none, doVld b f s)
  | 0x11 => (none, doVst b f s)
  | 0x12 => (none, doVop b j f s)
  | 0x13 => (none, doVred b j f s)
  | 0x14 => (none, countCode b 0x04 1 (doWin b f s))
  | _ => (f.code, s)

/-- R160, R244, R711: an op completes: its results stand at their destination, its tags return, its tokens are given. -/
def completeOp (b : Nat) (j : Jig) (r : BenchRun) (f : InFlight) (rest : List InFlight) (s : State) : State :=
  let c := (benchCtx s b).getD 0
  let setRun (r : BenchRun) (s : State) : State := modBench b (fun x => { x with cur := some r }) s
  let bad := (consumed f).find? (operandBad s b)
  let s := (consumed f).foldl (fun s d => consumeOperand b d s) s
  let p := match bad with
    | some d => (some 0x4104, recordPoison b (benchCtx s b) j.jigId f.idx (benchBase b + d.offset) s)
    | none => opEffect b j f s
  let s := setRun { r with inflight := rest, chans := if p.1.isSome then r.chans else giveTokens j f.op r.chans } p.2
  let s := if f.sampled then
      putSample c b (fun lost => sampleData s b r j f lost p.1.isSome) s
    else s
  let s := match p.1 with
    | some code => benchFault b f.unit f.idx code [] s
    | none => s
  settleBench b s

/-- R160: an op has done all that it sends: its packets are formed and sent, and every one is answered. -/
def answeredAll (f : InFlight) : Bool := f.formed && f.todo.isEmpty && f.waits = 0

/-- R160: the oldest op of a unit whose answers have come completes. -/
def execOpComplete (dt b u ev : Nat) (s : State) : Host.Outcome State Fault Refusal :=
  .next (event dt (fun s =>
    if 252 ≤ b || 4 ≤ u then s
    else
      let s := streamOn b (benchEvents b none [] ev s)
      match (benchOf s b).cur with
      | none => s
      | some r =>
        match takeFirst (fun f => f.unit = u && answeredAll f) r.inflight with
        | some (f, rest) => completeOp b r.jig r f rest s
        | none => s) s)

/-- R176: a run exceeds its bound of events on a bench. -/
def execEventBoundExceeded (dt b ev : Nat) (s : State) : Host.Outcome State Fault Refusal :=
  .next (event dt (fun s =>
    let s := benchEvents b none [] ev s
    match (benchOf s b).cur with
    | none => s
    | some r =>
      let j := r.jig
      if j.bound ≠ 0 && j.bound * 1024 < r.events then
        benchFault b j.lead ((unitNext j j.lead (r.units.getD j.lead {})).elim 0 (·.1)) 0x4101 [] s
      else s) s)

/-- R174, R699: every bench of a run has ended: its final response, and the slots of a stopped run become wasted. -/
def endRun (id : Nat) (s : State) : State :=
  match takeFirst (fun r => r.id = id) s.benches.runs with
  | none => s
  | some (r, rest) =>
    if !(r.waiting.isEmpty && r.live.isEmpty) then s
    else
      let s := { s with benches := { s.benches with runs := rest, ended := (id, r.ctx) :: s.benches.ended } }
      if r.stopped then
        let s := r.retired.foldl (fun s p => wasteSlots p.1 p.2 s) s
        let f := r.fault.getD (0, 0, 0)
        let s := finish .jigRun id .faulted [⟨2, f.1⟩, ⟨2, f.2.1⟩, ⟨2, f.2.2⟩] s
        finishAll .jigAbort id .ok [] s
      else finishAll .jigAbort id .ok [] (finish .jigRun id .ok [] s)

/-! ### The mesh -/

/-- R185, R186: a packet that has come to a bench's local port: an answer without data for the store is taken at once, a read is
answered; writes and a read's data wait for their bank (INBOUND_WRITE), a launch is in the queue. -/
def arriveBench (b : Nat) (p : Packet) (s : State) : State :=
  let y := p.payload
  match y.op with
  | .ack => landAnswer y s
  | .listed _ _ => landAnswer y (countCode b 0x05 y.data.length s)
  | .launch _ => s
  | .jig _ => s
  | .latch => s
  | .halo _ => s
  | .tail i e => modBench b (fun x => { x with tail := tset x.tail i e }) s
  | _ =>
    let q := servePacket y s
    match q.1 with
    | some a => countCode b 0x10 1 (injectPacket (linkNo (benchSite b) 7) (answerClass a) (answerDest y).1 (answerDest y).2 a q.2)
    | none => q.2

/-- R151: the yard can take the packet: a tag of its port, or for a prefetch reserved tags for its lines. -/
def yardTakes (s : State) (link : Nat) (p : Payload) : Bool :=
  let y := yardOf s (linkYard link)
  match p.op with
  | .prefetch _ => y.tags + (prefetchLines s p).length ≤ 64
  | .codecFetch _ _ _ => y.tags + (prefetchLines s p).length ≤ 64
  | _ => portTagFree y (linkPort link)

/-- R184, R151: a packet that has come to a yard: it takes a tag of its port, is served, and its answer waits to leave by the crossing at
which it came. An accepted prefetch gives its bench tag back (R259). -/
def arriveYard (link : Nat) (p : Packet) (s : State) : State :=
  let y := p.payload
  let g := linkYard link
  match (servePacket y s).1 with
  | none => ackOp y.from_ (servePacket y s).2
  | some _ =>
    let q := servePacket y (takePortTag g (linkPort link) s)
    match q.1 with
    | some a =>
      injectPacket (linkNo (link / 16) (if link % 16 = 5 then 10 else 11)) (answerClass a) (answerDest y).1 (answerDest y).2 a q.2
    | none => q.2

/-- A packet that leaves a yard holds a tag of its port: an answer of the yard; what comes through an edge port holds none. -/
def holdsTag (p : Payload) : Bool :=
  p.module.isNone && match p.op with
    | .carry (some _) => false
    | _ => true

/-- R181–R183: a packet moves on to its next link. From a bench's local port the streamers may send again; an answer that leaves a yard
returns its tag (R151), one that comes through an edge port holds none. -/
def moveOn (link : Nat) (c : MeshClass) (p : Packet) (rest : List Packet) (s : State) : State :=
  let next := nextLink p
  let s := noteTurn next c (takeCredit next c (removePacket link c rest s))
  let s := { s with benches := { s.benches with packets := s.benches.packets ++ [{ p with link := next }] } }
  if link % 16 = 7 then
    match siteBench (link / 16) with
    | some b => streamOn b s
    | none => s
  else if isSource link && holdsTag p.payload then returnPortTag (linkYard next) (linkPort next) s
  else s

/-- R181–R184: the first packet of a class on a link arrives: at a bench or a yard it is taken, at a crossing it moves on when its next
link has a credit and it is its class's turn there (R182). -/
def execMeshPacketArrival (dt link : Nat) (cls : MeshLink) (s : State) : Host.Outcome State Fault Refusal :=
  .next (event dt (fun s => settleDrains (
    let c := meshClass cls
    match headPacket s link c with
    | none => s
    | some (p, rest) =>
      if link % 16 = 4 then
        match siteBench (link / 16) with
        | some b => if isInbound p.payload then s else arriveBench b p (countCode b 0x11 1 (removePacket link c rest s))
        | none => removePacket link c rest s
      else if link % 16 = 5 || link % 16 = 6 then
        if p.payload.op = .carry none then removePacket link c rest s
        else match p.payload.module with
        | some m => arriveEdge p.payload m (removePacket link c rest s)
        | none => if yardTakes s link p.payload then arriveYard link p (removePacket link c rest s) else s
      else if servedClass s (nextLink p) = some c then moveOn link c p rest s
      else s)) s)
where
  /-- The class that a row names. -/
  meshClass : MeshLink → MeshClass
    | .control => .control
    | .request => .request
    | .response => .response
    | .bulk => .bulk

/-- R152: a yard withholds the request and bulk credits of a port for which it has no tag. -/
def withholdsCredit (s : State) (link : Nat) (c : MeshClass) : Bool :=
  (link % 16 = 5 || link % 16 = 6) && (c = .request || c = .bulk) && !portTagFree (yardOf s (linkYard link)) (linkPort link)

/-- R181, R152: a credit returns to the sender of a link. -/
def execCreditReturn (dt link : Nat) (cls : MeshLink) (s : State) : Host.Outcome State Fault Refusal :=
  .next (event dt (fun s =>
    let c := execMeshPacketArrival.meshClass cls
    if 0 < (linkOf s link c).freed && !withholdsCredit s link c then
      modLink link c (fun l => { l with credits := l.credits + 1, freed := l.freed - 1 }) s
    else s) s)

/-- R164: a SEND's counter counts on, or overflows. -/
def countToken (b n : Nat) (s : State) : State :=
  if (benchOf s b).xtok.getD n 0 < 255 then modBench b (fun x => { x with xtok := x.xtok.modify n (· + 1) }) s
  else benchFault b ((benchOf s b).cur.elim 0 (·.jig.lead)) 0 0x4102 [⟨1, n⟩] s

/-- The packet at the head of a bench's local port, in its class, that is for its store, with those that remain on links. -/
def inboundHead (s : State) (b : Nat) : Option (Packet × List Packet) :=
  let link := linkNo (benchSite b) 4
  takeFirst (fun p => p.link = link && isInbound p.payload && ((headPacket s link p.cls).map fun q => q.1.id) = some p.id)
    s.benches.packets

/-- R140, R164, R175: what an inbound write does: a read's data land and give its tag back, a write is acknowledged. -/
def landInbound (b : Nat) (y : Payload) (s : State) : State :=
  if y.op = .data then
    ackOp y.from_ (countCode b 0x05 y.data.length (landBytes b y.dst y.pos (y.addr % 16) y.data y.chks s))
  else
    let s := writeBytes y.addr y.data y.chks s
    let s := countCode b 0x10 1 (injectPacket (linkNo (benchSite b) 7) .response (benchSite y.from_.1) 4
      { op := .ack, from_ := y.from_ } s)
    y.counter.elim s fun n => countToken b n s

/-- R141: an inbound write takes its banks in this event. -/
def takeBanks (b : Nat) (y : Payload) (s : State) : State :=
  modBench b (fun x => { x with bankIn := (landingBanks y).foldl (fun t k => tset t k x.events) x.bankIn }) s

/-- R140, R141: an inbound write lands in a bench store, ahead of every unit; while a unit waits for its bank, on at most every second
event. -/
def execInboundWrite (dt b : Nat) (s : State) : Host.Outcome State Fault Refusal :=
  .next (event dt (fun s =>
    match inboundHead s b with
    | none => s
    | some (p, rest) =>
      if (landingBanks p.payload).any (inboundBarred (benchOf s b)) then s
      else settleDrains (landInbound b p.payload (takeBanks b p.payload (countCode b 0x11 1 (removePacket p.link p.cls rest s))))) s)

/-! ### Scrubbing -/

/-- R264: a requester of R140 asks for a bank of a bench store. -/
def bankClaimed (s : State) (b k : Nat) : Bool :=
  (match (benchOf s b).cur with
    | some r => [BankUser.matrix, .vector, .streamer 2, .streamer 3].any (asksFor s b r [k])
    | none => false)
    || s.benches.packets.any fun p => p.link = linkNo (benchSite b) 4 && isInbound p.payload && (landingBanks p.payload).contains k

/-- R264: the bench scrubber may use the bank: no requester claims it, or it has given the scrubber no event for 1,048,576 events. -/
def scrubMay (s : State) (b k : Nat) : Bool :=
  !bankClaimed s b k || tget (benchOf s b).scrubIn k 0 + 1048576 ≤ (benchOf s b).events

/-- R264: an outcome of a jig store line is counted against its bench. -/
def countJigLine (b : Nat) (o : LineOutcome) (s : State) : State :=
  let bump (f : Nat × Nat → Nat × Nat) (s : State) : State :=
    { s with mem := { s.mem with benchErr := tmod s.mem.benchErr b (0, 0) f } }
  match o with
  | .corrected => bump (fun p => (satAdd 64 p.1 1, p.2)) s
  | .detected => record 0x3103 2 (0x1000 + b) (benchCtx s b) false [] (bump (fun p => (p.1, satAdd 64 p.2 1)) s)
  | _ => s

/-- R264, R171: a SRAM scrubber checks a line: its words are corrected or poisoned in place; a bad jig store line
invalidates its slot on the bench and faults the run in it. -/
def execSramScrub (dt : Nat) (x : ScrubLine) (s : State) : Host.Outcome State Fault Refusal :=
  .next (event dt (fun s =>
    let line (a n : Nat) (s : State) : State := (wordsOf (a / n * n) n).foldl (fun s w => sramWord w s) s
    match x with
    | .bench a => if (match windowOf a with
        | .bench b => !benchHole a && scrubMay s b ((a - benchBase b) / 0x8000)
        | _ => false) then
          let b := (a - 0x90000000000) / 0x200000
          modBench b (fun x => { x with scrubIn := tset x.scrubIn ((a - benchBase b) / 0x8000) x.events }) (line a 128 s)
        else s
    | .yard a => (match windowOf a with
        | .slab g q => if bitOf (slabMask s g) q then line a 256 s else s
        | .lpddr _ => if lineHeld s a then line a 256 s else s
        | _ => s)
    | .jig b slot found =>
      let s := if 252 ≤ b || 4 ≤ slot then s else countJigLine b found s
      if (found ≠ .detected && found ≠ .poison) || 252 ≤ b || 4 ≤ slot then s
      else
        let running := (benchOf s b).cur.elim false fun r => r.slot = slot
        if running then benchFault b 0 0 0x4103 [] s
        else modBench b (fun q => { q with slots := q.slots.set slot none }) (record 0x4103 2 (0x1000 + b) (benchCtx s b) false [] s)) s)

end Sys2Proof.Machine
end

