-- ==== Sys2Proof/Machine/PowerOps.lean ====
section
/-! DEFINITION. What power, pace and cooling do in more than one place: limits (R542–R550), issue gates and limits (R552, R560, R586, R596), pace
levels and predictions (R531, R557), and the pace group's levels (R567–R573). -/
namespace Sys2Proof.Machine

def modPace (f : PaceSt → PaceSt) (s : State) : State := { s with pwr := { s.pwr with pace := f s.pwr.pace } }

def modInput (f : InputSt → InputSt) (s : State) : State := { s with pwr := { s.pwr with input := f s.pwr.input } }

def modCool (f : CoolSt → CoolSt) (s : State) : State := { s with pwr := { s.pwr with cool := f s.pwr.cool } }

def heatOf (s : State) (k : Nat) : BlockHeat := tget s.pwr.blocks k {}

def modHeat (k : Nat) (f : BlockHeat → BlockHeat) (s : State) : State :=
  { s with pwr := { s.pwr with blocks := tmod s.pwr.blocks k {} f } }

/-- R83: POWER is not RUNNING: limits and coefficients are frozen. -/
def powerHeld (s : State) : Bool := (funcOf s fidPower).state ≠ .running

/-- R83: PACE_GROUP is not RUNNING: the module holds its pace. -/
def paceHeld (s : State) : Bool := (funcOf s fidPace).state ≠ .running

/-- R561: a resident context is confidential. -/
def confMode (s : State) : Bool := s.sec.ctxs.any fun x => x.2.state = .resident && x.2.confidential

/-- R12, R187: the ASSIGNED blocks. -/
def assignedBlocks (s : State) : List Nat := (List.range 63).filter fun k => blockState s k = 1

/-! ### Levels (R531) -/

/-- R531: the typical rate of a level, in 10^6 events/s. -/
def typicalRate (l : Nat) : Nat :=
  [600, 656, 713, 769, 825, 881, 938, 994, 1050, 1106, 1163, 1219, 1275, 1331, 1388, 1444,
   1500, 1556, 1613, 1669, 1725, 1781, 1838, 1894, 1950, 1993, 2036, 2079, 2121, 2164, 2207, 2250].getD l 0

/-- R532: the least and the greatest rate of a level, in 10^6 events/s: the typical rate ±6 %, which falls by 0.1 % for each °C by which the
mean used temperature of the blocks (0.25 °C units) exceeds 70 °C. -/
def rateBand (s : State) (l : Nat) : Rat × Rat :=
  let mean : Rat := (((List.range 63).map fun k => (heatOf s k).used).foldl (· + ·) 0 : Nat) / 252
  let r : Rat := (typicalRate l : Nat) * (1000 - (mean - 70)) / 1000
  (r * 94 / 100, r * 106 / 100)

/-- R531: the setpoint of a level, in 0.1 mV. -/
def setpoint (l : Nat) : Nat := 5000 + 125 * l

/-- R557: f_L V_L² of a level. -/
def levelPower (l : Nat) : Nat := typicalRate l * setpoint l ^ 2

/-- R535: the ceiling in force: the level set, 24 by default, and the cap that MESH_TEST found. -/
def ceilingOf (s : State) : Nat := min (s.nv.ceiling.getD 24) s.boot.meshCap

/-- R551: the level whose setpoint is V_ref: the target's, and the lower of both during a ramp. -/
def refLevel (s : State) : Nat :=
  let p := s.pwr.pace
  if p.level = p.target then p.target else min p.rampFrom p.target

/-- R551: a detector that sees `v` (0.1 mV) fires. -/
def droopFires (s : State) (v : Nat) : Bool := v * 100 < setpoint (refLevel s) * (100 - s.pwr.pace.margin)

/-- R534, R607: set the target; a ramp to it starts at the level in force. -/
def setTarget (l : Nat) (s : State) : State :=
  modPace (fun p =>
    if p.target = l then p
    else { p with target := l, rampFrom := p.level, changes := wrapAdd 64 p.changes 1, ramped := true
                  stepAt := if p.level = p.target then now s else p.stepAt }) s

/-! ### The estimate (R536–R540) -/

/-- R120: where the coefficients come from: the store, or the factory, or the conservative defaults. -/
def calSource (s : State) : Nat := if s.nv.calValid then 0 else if s.nv.factoryCal then 1 else 2

def staticTerm (s : State) : Rat := s.pwr.pace.sFit.getD (Config.staticTerm (calSource s))
def dynScale (s : State) : Rat := s.pwr.pace.kFit.getD (Config.dynamicScale (calSource s))

/-- R538, R540, R746: the guard band in percent. -/
def guardOf (s : State) : Nat := if !s.pwr.pace.calibrated || s.pwr.pace.badFit || s.pwr.input.lost then 15 else 0

/-- R536, R538: P_est in W for a dynamic energy of `d` nJ in one microsecond. -/
def estimateOf (s : State) (d : Rat) : Rat :=
  (staticTerm s + dynScale s * d / 1000) * (100 + guardOf s : Nat) / 100

/-- A mean of counts. -/
def meanOf (l : List Nat) : Rat := if l.isEmpty then 0 else (l.foldl (· + ·) 0 : Nat) / (l.length : Nat)

/-- R536: P_est now, and its 1 ms average. -/
def pEst (s : State) : Rat := estimateOf s (s.pwr.pace.dyn.headD 0 : Nat)
def pEstAvg (s : State) : Rat := estimateOf s (meanOf s.pwr.pace.dyn)

/-- R537: the measured averages over 1 ms and 100 ms, in W. -/
def measured1 (s : State) : Rat := meanOf (s.pwr.input.samples.take 100) / 1000000
def measured100 (s : State) : Rat := meanOf s.pwr.input.samples / 1000000

/-- R557, R559: the dynamic power and the level it belongs to; while a uniform limit holds it back, those that the limit was set
against. -/
def dynamicNow (s : State) : Rat × Nat :=
  match s.pwr.pace.uniform with
  | some u => (u.dyn, u.level)
  | none => (pEst s - staticTerm s, s.pwr.pace.level)

/-- R557: the power predicted at a level. -/
def predicted (s : State) (l : Nat) : Rat :=
  let d := dynamicNow s
  staticTerm s + d.1 * (levelPower l : Nat) / (levelPower d.2 : Nat)

/-! ### Limits (R542–R550, R583, R589, R590) -/

/-- R583: the flow limit, from the 10 ms average of the used flow. -/
def flowLimit (s : State) : Nat :=
  let c := s.pwr.cool
  if c.flowCritical then 150
  else if c.flowLow then min 750 ((750 * meanOf c.flows / 1100).floor.toNat)
  else 750

/-- R589: the inlet limit, rounded down to a whole watt. -/
def inletLimit (s : State) : Nat :=
  let t := s.pwr.cool.tin
  if 550 ≤ t then 150 else if 450 < t then (7500 - 25 * (t - 450)) / 10 else 750

/-- R2, R547, R548: the lone cap is in force. -/
def loneNow (s : State) : Bool := s.pwr.pace.lone || s.nv.manager.isNone

/-- R570: watts borrowed or lent. -/
def lentNow (s : State) : Rat := match s.pwr.pace.group with
  | some g => g.lent
  | none => 0

/-- R542: the cap term without lending. -/
def capTerm (s : State) : Nat := if loneNow s then s.nv.loneCap.getD 600 else s.pwr.pace.cab

/-- R542: the terms of P_S with the numbers of their causes (log entry 9): 0 cap, 1 local cap, 2 flow, 3 inlet, 4 leak, 5 the 750 W term. -/
def limitTerms (s : State) : List (Rat × Nat) :=
  [((capTerm s : Nat) + lentNow s, 0), ((s.nv.localCap.getD 750 : Nat), 1), ((flowLimit s : Nat), 2),
   ((inletLimit s : Nat), 3), (if s.pwr.cool.leak then 150 else 750, 4), (750, 5)]

/-- R542: the least term and its cause. -/
def leastTerm : List (Rat × Nat) → Rat × Nat
  | [] => (750, 5)
  | [x] => x
  | x :: r => let y := leastTerm r; if y.1 < x.1 then y else x

/-- R542: what P_S is by its terms. -/
def limitOf (s : State) : Rat × Nat := leastTerm (limitTerms s)

/-- R542: P_P. -/
def peakOf (s : State) : Rat := s.pwr.pace.ps * 6 / 5

/-- R603: P_S changes, and the last 8 changes are kept. -/
def setLimit (x : Rat × Nat) (s : State) : State :=
  if x.1 = s.pwr.pace.ps then s
  else modPace (fun p => { p with
    ps := x.1, fell := p.fell || decide (x.1 < p.ps), psLog := (⟨s.time.t, x.1, x.2⟩ :: p.psLog).take 8 }) s

/-- R544: a fall of P_S takes effect at once, unless POWER is frozen. -/
def lowerLimit (s : State) : State :=
  let x := limitOf s
  if powerHeld s || s.pwr.pace.ps ≤ x.1 then s else setLimit x s

/-- R92, R544: a fall of the cabinet manager's cap takes effect at once while POWER is stopped as well. -/
def lowerCap (s : State) : State :=
  let w := (capTerm s : Nat) + lentNow s
  if powerHeld s then if w < s.pwr.pace.ps then setLimit (w, 0) s else s else lowerLimit s

/-- R545: at a pace tick P_S takes its value whichever way it moves. -/
def renewLimit (s : State) : State := if powerHeld s then s else setLimit (limitOf s) s

/-! ### Halts, gates and issue limits (R560, R586, R593–R596) -/

/-- R593: the supply halt holds. -/
def supplyHalted (s : State) : Bool := s.pwr.input.halt.isSome

/-- R586, R593: the whole fabric is halted. -/
def fabricHalted (s : State) : Bool := s.pwr.cool.stop || supplyHalted s || s.pwr.gatesShut

/-- R552, R560, R577: the gates of a block's benches, and its issue-rate limit, follow what closes and limits them. -/
def applyBlock (k : Nat) (s : State) : State :=
  let h := heatOf s k
  let halt := fabricHalted s || h.halted.isSome
  let u := if blockState s k = 1 then s.pwr.pace.uniform.elim 100 (·.percent) else 100
  let lim := min h.thermal (min h.floor u)
  let s := (benchesOfBlock k).foldl (fun s b => modBench b (fun x => { x with mxGate := halt || h.shut.isSome, vxGate := halt }) s) s
  { s with benches := { s.benches with limits := if lim = 100 then tdel s.benches.limits k else tset s.benches.limits k lim } }
where
  /-- R12: the benches of a block. -/
  benchesOfBlock (k : Nat) : List Nat := (List.range 252).filter fun b => blockOf b = k

/-- R553, R588: the open gates of a block begin their release now: the matrix engine's, and with `all` the vector engine's too. -/
def softOpen (all : Bool) (k : Nat) (s : State) : State :=
  let start (x : BenchSt) : BenchSt := { x with
    pace := (issueLimit s k, 0, [0, 0, 0, 0])
    mxOpen := if x.mxGate then x.mxOpen else some (now s)
    vxOpen := if !all || x.vxGate then x.vxOpen else some (now s) }
  (applyBlock.benchesOfBlock k).foldl (fun s b => modBench b start s) s

/-- Every block's gates and limit. -/
def applyBlocks (s : State) : State := foldN 63 applyBlock s

/-- R586, R593: video is paused while the fabric is halted. -/
def pauseVideo (s : State) : State := { s with vid := { s.vid with paused := fabricHalted s } }

/-! ### REPORT (R549, R550) -/

/-- R549: the condition bits of a REPORT, from bit 37 on. -/
def conditions (s : State) : List Bool :=
  let c := s.pwr.cool
  [c.flowLow, c.flowCritical, c.stop, supplyHalted s, s.pwr.blocks.any fun x => x.2.halted.isSome, loneNow s, c.leak]

/-- R549: REPORT to the manager. -/
def sendReport (s : State) : State :=
  match s.nv.manager with
  | none => s
  | some m =>
    let bits := (conditions s).zipIdx.foldl (fun a p => a + 2 ^ (37 + p.2) * bit p.1) 0
    sendModule 0x22 1 m { blankMsg with
      addr := s.pwr.pace.lastSet
      operand := s.pwr.pace.ps.floor.toNat + 2 ^ 16 * min 65535 (measured100 s).floor.toNat + 2 ^ 32 * s.pwr.pace.level + bits } s

/-- R550: a change of a condition bit is reported. -/
def reporting (f : State → State) (s : State) : State :=
  let s' := f s
  if conditions s = conditions s' then s' else sendReport s'

/-! ### The pace group (R567–R573) -/

/-- R567: the settings digest: the last 12 bits of an SM3 hash. In which fields the settings are hashed is the model's choice (log entry 21). -/
def groupDigest (c : PaceCfg) : Nat :=
  let l := sortBy (fun a b => a ≤ b) c.members
  Config.sm3 (fieldBytes ([⟨4, c.id⟩, ⟨1, bit c.lend⟩, ⟨1, c.interval⟩] ++ l.map fun m => ⟨2, m⟩)) % 4096

def modPaceGroup (f : GroupPace → GroupPace) (s : State) : State := modPace (fun p => { p with group := p.group.map f }) s

/-- R567: the beacon epoch. -/
def groupEpoch (s : State) (g : GroupPace) : Nat := s.time.t / (g.cfg.interval * 1000000) % 65536

/-- The other members. -/
def others (s : State) (g : GroupPace) : List Nat := g.cfg.members.filter (· ≠ moduleNo s)

def memberOf (g : GroupPace) (m : Nat) : Member := tget g.members m {}

/-- R571, R572: a member is live. -/
def memberLive (s : State) (g : GroupPace) (m : Nat) : Bool :=
  let x := memberOf g m
  x.heard && !x.bad && !x.out && now s ≤ x.at_ + 3 * g.cfg.interval * 1000000

/-- R571: every other member has been left out. -/
def groupAlone (s : State) (g : GroupPace) : Bool := (others s g).all fun m => (memberOf g m).out

/-- The highest level up to `n` that passes a test; 0 where none does. -/
def highest (p : Nat → Bool) : Nat → Nat
  | 0 => 0
  | n + 1 => if p (n + 1) then n + 1 else highest p n

/-- R557: the level that the power prediction allows. -/
def powerLevel (s : State) : Nat := highest (fun l => predicted s l ≤ s.pwr.pace.ps * 97 / 100) 31

/-- R556, R557: the droop ceiling. -/
def droopLevel (s : State) : Nat := s.pwr.pace.droopCeil.elim 31 (·.1)

/-- R557, R567: the allowed level: every limit but the group's, with what sets it (R607). -/
def allowedLevel (s : State) : Nat × Nat :=
  if s.pwr.cool.stop || supplyHalted s then (0, 5)
  else if confMode s then (s.pwr.pace.target, 4)
  else
    let c := ceilingOf s
    let d := droopLevel s
    let p := powerLevel s
    if p < min c d then (p, 1) else if d < c then (d, 3) else (c, 0)

/-- R557: the group's limit, where the module is in a group that is not left to it alone. -/
def groupLimit (s : State) : Nat :=
  match s.pwr.pace.group with
  | some g => if groupAlone s g then 31 else g.level
  | none => 31

/-- R568: the cause of a LAG_NOTICE. -/
def lagCause (s : State) : Nat :=
  if s.pwr.cool.stop then 2 else if supplyHalted s then 3 else if (allowedLevel s).2 = 3 then 0 else 4

/-- R568: the allowed level has fallen below the group level: LAG_NOTICE to every member. While R561 applies only the causes COOLANT,
SUPPLY and CAP are sent (R565). -/
def lagBehind (s : State) : State :=
  match s.pwr.pace.group with
  | none => s
  | some g =>
    let a := (allowedLevel s).1
    let cause := lagCause s
    if g.level ≤ a || groupAlone s g || (confMode s && !(cause = 2 || cause = 3 || cause = 4)) then s
    else
      let x : XMsg := { blankMsg with addr := g.cfg.id + 2 ^ 32 * groupDigest g.cfg, operand := a + 32 * cause }
      foldS (others s g) (fun m s => sendModule 0x21 0 m x s) (modPaceGroup (fun g => { g with level := a, giveBack := true }) s)

end Sys2Proof.Machine
end

