-- ==== Sys2Proof/Machine/ServeOps.lean ====
section
/-! DEFINITION. What the serving units do with one request: token records and rings (R401–R408, R665, R684–R686), endings
(R386–R393), shipments that fail (R419), and veneer references (R413–R415). -/
namespace Sys2Proof.Machine

/-! ### Redundancy as the serving units see it -/

def redOf (s : State) (c : Nat) : RedCtx := tget s.red.ctxs c {}

def modRed (c : Nat) (f : RedCtx → RedCtx) (s : State) : State :=
  { s with red := { s.red with ctxs := tmod s.red.ctxs c {} f } }

/-- R655. -/
def mirrored (s : State) (c : Nat) : Bool := (redOf s c).par.mode = 1
def restartable (s : State) (c : Nat) : Bool := (redOf s c).par.mode = 2

/-- R659: the side publishes token records. -/
def mayPublish (s : State) (c : Nat) : Bool :=
  !mirrored s c || (redOf s c).role = .active || (redOf s c).role = .activeSolo

/-- R659, R677, R679: the side runs steps. -/
def roleSteps (s : State) (c : Nat) : Bool := mayPublish s c && (redOf s c).giving.isNone

/-- R660: the side refuses the commands of its requests. -/
def notActive (s : State) (c : Nat) : Bool :=
  mirrored s c && ((redOf s c).role = .standby || (redOf s c).role = .resync || (redOf s c).role = .stale)

/-! ### Rings -/

def ringOf (s : State) (c n : Nat) : Option Ring := tget (serveOf s c).rings n none

def modRing (c n : Nat) (f : Ring → Ring) (s : State) : State :=
  modServe c (fun x => { x with rings := tmod x.rings n none (fun r => r.map f) }) s

/-- The module that a REMOTE ring's records, or a journal, go to. -/
def targetModule (a : Nat) : Nat := a / 2 ^ 44

/-- A lane to the peer is open or can be opened now (R456). -/
def laneReady (s : State) (c peer port : Nat) : Bool :=
  (findLane s c peer c port false).isSome || (freeLane s).isSome

/-- R408, R748: the ring's consumer cannot be reached. A REMOTE ring at G[self] needs no lane (R6). -/
def ringDead (s : State) (c n : Nat) (r : Ring) : Bool :=
  if r.par.kind = 1 then !s.tray.linkUp
  else if isSelf s (targetModule r.par.addr) then false
  else peerUnreachable s (targetModule r.par.addr) || !laneReady s c (targetModule r.par.addr) (choosePort s c n)

/-- R686: the journal module of a RESTARTABLE context cannot be reached. -/
def journalDead (s : State) (c : Nat) : Bool :=
  restartable s c && peerUnreachable s (targetModule (redOf s c).par.journal)

/-- R406: the free records of a ring. -/
def ringFree (r : Ring) : Nat := 256 - (r.prod + 2 ^ 32 - r.cons) % 2 ^ 32

/-- R401: a token record as fields. -/
def recFields (t : TokenRec) : List Fld := [⟨4, t.token⟩, ⟨4, t.position⟩, ⟨6, stampNat t.stamp % 2 ^ 48⟩, ⟨2, t.flags⟩]

/-- A DATA_WRITE with CHECK on a context's lane, for one purpose (R404, R449). An address of this module is written in place (R6),
under the same lot check (R43). DESIGN CHOICE (R44 has no row for a serving unit): one that fails it is dropped, without a recorder entry
(log entry 28). -/
def remoteWrite (c peer port addr : Nat) (data : List Byte) (chks : List Nat) (why : OpFor) (s : State) : State :=
  if isSelf s peer then
    if lotPasses s c (addr % 2 ^ 44) data.length .w false then
      writeBytes (addr % 2 ^ 44) data chks (touchYard .square (addr % 2 ^ 44) data.length .request .write s)
    else s
  else match laneFor c peer c port false s with
  | (none, s) => s
  | (some n, s) =>
    sendOp n why ⟨0x10, peer, { blankMsg with
      srcC := c, dstC := c, addr := addr % 2 ^ 44, length := data.length, check := true, data := data, chks := chks }⟩ s

/-- A run of whole 16-byte words of local memory goes to a remote address, in pieces that the port and the peer take. -/
def remoteCopy (c peer port from_ dest words : Nat) (why : OpFor) (s : State) : State :=
  let w := max 1 (maxData s port peer / 16)
  foldN (ceilDiv words w) (fun i s =>
    let n := min w (words - i * w)
    let p := carryBytes s (from_ + 16 * w * i) (16 * n)
    remoteWrite c peer port (dest + 16 * w * i) p.1 p.2 why s) s

/-! ### The journal of a RESTARTABLE context -/

/-- R383: the parameters of an admission as bytes. -/
def admitBytes (p : AdmitPar) : List Byte :=
  fieldBytes [⟨1, p.model⟩, ⟨1, p.priority⟩,
    ⟨1, bit p.noRecompute + 2 * bit p.shipOut + 4 * bit p.waitKv + 8 * bit p.resume⟩, ⟨1, p.kInit⟩, ⟨2, p.sampler⟩,
    ⟨1, p.stopSet⟩, ⟨1, 0⟩, ⟨2, p.ring⟩, ⟨2, 0⟩, ⟨8, p.veneer⟩, ⟨10, stampNat p.deadline⟩, ⟨2, 0⟩, ⟨8, p.seed⟩, ⟨8, p.tag⟩,
    ⟨4, p.promptLen⟩, ⟨4, p.maxNew⟩, ⟨8, p.histAddr⟩, ⟨4, p.resumed⟩, ⟨2, p.shipModule⟩, ⟨2, p.shipId⟩]

/-- R684: the restart entry of a request; `state` is 0 FREE, 1 LIVE, 2 ENDED. -/
def journalEntry (r : Request) (prod state : Nat) : List Byte :=
  let a := (r.entry.elim [] admitBytes)
  a ++ List.replicate (72 - a.length) 0 ++ fieldBytes [⟨4, r.generated⟩, ⟨4, prod⟩, ⟨1, state⟩] ++ List.replicate 47 0

/-- R684, R685: the history words of positions [lo, hi) and then the entry go to the journal on one lane; the copy takes
whole 16-byte words, since the messages carry check bits (R449). -/
def journalWrite (c x lo hi prod state : Nat) (s : State) : State :=
  let p := (redOf s c).par
  let r := reqOf s x
  let peer := targetModule p.journal
  let port := choosePort s c x
  let from_ := (r.histAddr + 4 * lo) / 16 * 16
  let words := ceilDiv (r.histAddr + 4 * hi - from_) 16
  let s := if lo < hi then
      remoteCopy c peer port from_ (p.journal + 0x80000 + (from_ - p.histLot)) words (.journal c x prod) s
    else s
  remoteWrite c peer port (p.journal + 128 * x) (journalEntry r prod state) (List.replicate 8 0) (.journal c x prod) s

/-! ### Publishing -/

/-- R665, R685: what a record waits for, after its journal write has been sent. -/
def gateFor (c x pos : Nat) (final : Bool) (s : State) : Gate × State :=
  if mirrored s c && (redOf s c).role = .active then (.boundary ((redOf s c).boundary + 1), s)
  else if restartable s c then
    let prod := ((reqOf s x).ring.bind (ringOf s c)).elim 0 (·.prod)
    let s := if final then journalWrite c x 0 0 prod 2 s else journalWrite c x pos (pos + 1) (wrapAdd 32 prod 1) 1 s
    (if final then .open_ else .journal x (wrapAdd 32 prod 1), s)
  else (.open_, s)

/-- A record takes the next place of its ring and waits to be written. -/
def placeRecord (c x : Nat) (t : TokenRec) (final : Bool) (gate : Gate) (s : State) : State :=
  match (reqOf s x).ring with
  | none => s
  | some n =>
    match ringOf s c n with
    | none => s
    | some r =>
      modServe c (fun y => { y with pend := y.pend ++ [⟨x, n, r.prod, t, final, gate⟩] })
        (modRing c n (fun r => { r with prod := wrapAdd 32 r.prod 1 }) s)

/-- R402: the SWITCHED bit of a request's records, and the token field of those without a token, which then names this module. -/
def switchedBit (r : Request) : Nat := 8 * bit r.switched
def noteToken (s : State) (r : Request) : Nat := if r.switched then moduleNo s else 0

/-- A record without a token (R402, R375): `flags` beside NO_TOKEN. -/
def placeNote (c x token flags : Nat) (stamp : Stamp) (s : State) : State :=
  let r := reqOf s x
  let g := if mirrored s c && (redOf s c).role = .active then Gate.boundary ((redOf s c).boundary + 1) else .open_
  placeRecord c x ⟨token, r.promptLen + r.generated, stamp, 2 + flags⟩ false g (modReq x (fun r => { r with lastStamp := stamp }) s)

/-- R676, R406: a SWITCHED record takes its place as soon as the ring keeps one free for the final record. -/
def placeSwitched (c x : Nat) (s : State) : State :=
  let r := reqOf s x
  if !r.switchDue then s
  else match r.ring.bind (ringOf s c) with
    | none => modReq x (fun r => { r with switchDue := false }) s
    | some g =>
      if 2 ≤ ringFree g then
        let t := issueStamp (modReq x (fun r => { r with switchDue := false }) s)
        placeNote c x (moduleNo s) 8 t.1 t.2
      else s

/-- R376, R388, R394: a token is published: it joins the history and gets its place in the ring. -/
def publishToken (c x : Nat) (t : TokenRec) (s : State) : State :=
  let r := reqOf s x
  let flags := t.flags + switchedBit r + 32 * bit r.recompute
  let s := squareWrite (r.histAddr + 4 * t.position) (leBytes 4 t.token) s
  let s := modReq x (fun r => { r with generated := r.generated + 1, lastStamp := t.stamp, recompute := false }) s
  let s := modServe c (fun y => { y with tokens := wrapAdd 64 y.tokens 1 }) s
  let g := gateFor c x t.position false s
  placeRecord c x { t with flags := flags } false g.1 g.2

/-! ### Veneers -/

/-- R413: the references of a slot and version. -/
def veneerRefs (s : State) (slot version : Nat) : Nat :=
  (s.serve.reqs.filter fun p => p.2.state ≠ .free && p.2.veneer = some (slot, version)).length

def venOf (s : State) (slot : Nat) : Veneer := tget s.serve.veneers slot {}

def modVen (slot : Nat) (f : Veneer → Veneer) (s : State) : State :=
  { s with serve := { s.serve with veneers := tmod s.serve.veneers slot {} f } }

/-- R415: a RETIRING slot without references becomes FREE. -/
def retireVeneer (slot : Nat) (s : State) : State :=
  let v := venOf s slot
  if v.state = .retiring && veneerRefs s slot v.version = 0 then
    record 0x5140 0 0 (some v.owner) false [⟨2, slot⟩, ⟨8, v.name⟩, ⟨4, v.version⟩] (modVen slot (fun _ => {}) s)
  else s

/-- R379: an entry becomes FREE, and its references with it. -/
def freeEntry (x : Nat) (s : State) : State :=
  let v := (reqOf s x).veneer
  let s := { s with serve := { s.serve with reqs := tdel s.serve.reqs x } }
  v.elim s fun p => retireVeneer p.1 s

/-! ### Delivery -/

/-- R403, R404: a record and then the producer index are written to a HOST ring, with its message when one is due. -/
def deliverHost (c n : Nat) (r : Ring) (p : PendRec) (s : State) : State :=
  let s := hostWrite (r.par.addr + 16 * (p.idx % 256)) (recFields p.data) s
  let s := hostWrite r.par.mirror [⟨8, wrapAdd 32 p.idx 1⟩] s
  let every := r.par.irqEvery ≠ 0 && r.par.irqEvery ≤ r.sinceIrq + 1
  let s := modRing c n (fun r => { r with sinceIrq := if every then 0 else r.sinceIrq + 1 }) s
  if (every || p.final) && r.par.vector ≠ 0xFFFF then sendMsix (c + 1) r.par.vector s else s

/-- R404: the same on one lane to a REMOTE ring. DESIGN CHOICE (R403 wants record and mirror in the consumer's lots, and gives no outcome for a
mirror that names another module): the mirror's module field plays no part (log entry 28). -/
def deliverRemote (c n : Nat) (r : Ring) (p : PendRec) (s : State) : State :=
  let m := targetModule r.par.addr
  let port := choosePort s c n
  let s := remoteWrite c m port (r.par.addr + 16 * (p.idx % 256)) (fieldBytes (recFields p.data)) [0] (.ring c n) s
  remoteWrite c m port r.par.mirror (leBytes 8 (wrapAdd 32 p.idx 1) ++ leBytes 8 0) [0] (.ring c n) s

/-- R685: a journal write of a request for a producer index is not acknowledged yet. -/
def journalling (s : State) (c x n : Nat) : Bool :=
  (s.net.ops.any fun o => o.purpose = .journal c x n) || s.net.tagWait.any fun w => w.2.1 = .journal c x n

/-- A record may be written now: its gate is open, the side publishes and its ring is reachable. -/
def deliverable (s : State) (c : Nat) (p : PendRec) : Bool :=
  let gate := match p.gate with
    | .open_ => true
    | .boundary n => decide (n ≤ (redOf s c).acked) || decide ((redOf s c).role = .activeSolo)
    | .journal x n => !journalling s c x n
  gate && mayPublish s c && (match ringOf s c p.ring with
    | some r => !ringDead s c p.ring r
    | none => true)

/-- Write one record; an entry whose final record is written becomes FREE (R389, R390). -/
def deliver (c : Nat) (p : PendRec) (s : State) : State :=
  let s := match ringOf s c p.ring with
    | some r => if r.par.kind = 1 then deliverHost c p.ring r p s else deliverRemote c p.ring r p s
    | none => s
  if p.final then freeEntry p.req s else s

/-- R404, R408: write the records that wait, in order within each ring. -/
def flushPend (c : Nat) (s : State) : State :=
  let l := (serveOf s c).pend
  let q := l.foldl (fun (a : State × List PendRec × List Nat) p =>
    if a.2.2.contains p.ring || !deliverable a.1 c p then (a.1, a.2.1 ++ [p], a.2.2 ++ [p.ring])
    else (deliver c p a.1, a.2.1, a.2.2)) (modServe c (fun x => { x with pend := [] }) s, [], [])
  modServe c (fun x => { x with pend := q.2.1 }) q.1

/-- R428: the index after the last record written. -/
def ringWritten (s : State) (c n : Nat) (r : Ring) : Nat :=
  let k := ((serveOf s c).pend.filter fun p => p.ring = n).length
  (r.prod + 2 ^ 32 - k % 2 ^ 32) % 2 ^ 32

/-! ### Shipments that fail -/

/-- R387: the earliest ending; FAULTED wins a tie. -/
def firstEnding (l : List Ending) : Option Ending :=
  l.foldl (fun a e => match a with
    | none => some e
    | some b => if stampLt e.stamp b.stamp || (e.stamp = b.stamp && e.status = 7) then some e else some b) none

/-- R387: an ending is found; the earliest stays. -/
def addEnding (x : Nat) (e : Ending) (s : State) : State := modReq x (fun r => { r with ending := firstEnding (r.ending.toList ++ [e]) }) s


def shipOf (s : State) (x : Nat) : Option Shipment := s.net.ships.find? fun h => h.req = x

def modShip (x : Nat) (f : Shipment → Shipment) (s : State) : State :=
  { s with net := { s.net with ships := mapIf (fun h => h.req = x) f s.net.ships } }

def dropShip (x : Nat) (s : State) : State := { s with net := { s.net with ships := s.net.ships.filter fun h => h.req ≠ x } }

/-- R336: a shipment that ends without success gives its counts back. -/
def unship (c x : Nat) (s : State) : State :=
  match shipOf s x with
  | none => s
  | some h =>
    let s := if h.sender then modServe c (fun y => countPages .allocated h.moved (uncountPages .inTransit h.moved y)) s
      else if h.accepted then freeRequestPages c x (if h.pages ≤ h.total then .allocated else .inTransit) s
      else s
    dropShip x s

/-- R419: a shipment fails on this side: its counts return, 0x5130 is made and, when this side detects it, the peer is told. -/
def failShip (x : Nat) (tell : Bool) (s : State) : State :=
  match shipOf s x with
  | none => s
  | some h =>
    let c := (reqOf s x).ctx
    let s := if tell then sendModule 0x03 0x0B h.peer { blankMsg with srcC := c, dstC := h.peerCtx, operand := h.shipId }
        { s with net := { s.net with naksSent := satAdd 64 s.net.naksSent 1 } }
      else s
    let s := record 0x5130 2 0 (some c) false [⟨2, x⟩, ⟨2, h.shipId⟩, ⟨2, h.peer⟩] (unship c x s)
    let p := issueStamp s
    addEnding x ⟨6, p.1⟩ p.2

/-! ### Endings -/

/-- R386–R390, R347: a request ends: its pages are freed, its final record gets its place, and its entry waits for that record
or, without a ring, becomes FREE. -/
def endRequest (c x : Nat) (e : Ending) (handedOff : Bool) (s : State) : State :=
  let s := if (shipOf s x).isSome then failShip x true s else s
  let s := freeRequestPages c x .allocated s
  let v := (reqOf s x).veneer
  let st := if e.status = 4 then ReqState.cancelled else .done
  let s := modReq x (fun r => { r with
    state := st, status := e.status, out := [], ending := none
    veneer := if e.status = 4 then none else r.veneer }) s
  let s := v.elim s fun p => retireVeneer p.1 s
  let r := reqOf s x
  let flags := 3 + switchedBit r + 64 * bit handedOff + 256 * e.status
  let g := gateFor c x 0 true s
  if r.ring.isNone then freeEntry x g.2
  else placeRecord c x ⟨noteToken s r, r.promptLen + r.generated, e.stamp, flags⟩ true g.1
    (modReq x (fun r => { r with lastStamp := e.stamp }) g.2)

/-- End every request of a context that is not FREE with one status (R335, R392, R616). -/
def endAll (c status : Nat) (p : Request → Bool) (s : State) : State :=
  (liveReqs s c).foldl (fun s q =>
    if p q.2 && q.2.state ≠ .done && q.2.state ≠ .cancelled then
      let t := issueStamp s
      endRequest c q.1 ⟨status, t.1⟩ false t.2
    else s) s

/-- A request still takes part in serving. -/
def serving_ (r : Request) : Bool := r.state ≠ .free && r.state ≠ .done && r.state ≠ .cancelled

end Sys2Proof.Machine
end

