-- ==== Sys2Proof/Machine/RedOps.lean ====
section
/-! DEFINITION. The per-step copy of a MIRRORED context (R662–R666) and the sending of DOWEL messages (R667). -/
namespace Sys2Proof.Machine

/-! ### DOWEL messages -/

/-- R667: send a DOWEL message of a context to a module; `data` is the payload of COMMIT. -/
def sendDowel (c op dest field : Nat) (data : List Byte) (s : State) : State :=
  let r := redOf s c
  sendModule 0x23 op dest { blankMsg with
    srcC := c, dstC := c, addr := r.par.pairId, operand := r.epoch % 2 ^ 32 + 2 ^ 32 * (field % 2 ^ 32)
    length := data.length, data := data } s

def toSister (c op field : Nat) (s : State) : State :=
  match s.net.sister with
  | some m => sendDowel c op m field [] s
  | none => s

def toArbiter (c op field : Nat) (s : State) : State :=
  match s.nv.manager with
  | some m => sendDowel c op m field [] s
  | none => s

/-- R680: the sister link counts as lost. -/
def sisterLost (s : State) : Bool := portState s 32 ≠ .up || s.red.sisterAt + 100000000 ≤ now s

/-! ### The copy -/

/-- The bytes of rows `lo` to `hi` − 1 of a page, as (address, length) (R326). -/
def rowSpans (a : AttRec) (page lo hi : Nat) : List (Nat × Nat) :=
  let w := a.hb * a.d
  let r := pageT a * w
  let base := page * 65536
  let n := hi - lo
  match a.fmt with
  | 0 => [(base + 2 * lo * w, 2 * n * w), (base + 2 * r + 2 * lo * w, 2 * n * w)]
  | 1 => [(base + lo * w, n * w), (base + r + lo * w, n * w)]
  | _ => [(base + lo * w / 2, n * w / 2), (base + r / 2 + lo * w / 32, n * w / 32),
      (base + 17 * r / 32 + lo * w / 2, n * w / 2), (base + 33 * r / 32 + lo * w / 32, n * w / 32)]

/-- A DATA_WRITE with CHECK to the sister on a MODLANE lane (R475, R662). -/
def mirrorWrite (addr : Nat) (data : List Byte) (chks : List Nat) (c : Nat) (s : State) : State :=
  match s.net.sister with
  | none => s
  | some m =>
    match laneFor 0 m 0 32 true s with
    | (none, s) => s
    | (some n, s) => sendOp n (.dowel c) ⟨0x10, m, { blankMsg with
        addr := addr, length := data.length, check := true, modlane := true, data := data, chks := chks }⟩ s

/-- The whole words of a span of local memory go to the same addresses of the sister. -/
def mirrorSpan (c : Nat) (x : Nat × Nat) (s : State) : State :=
  if x.2 = 0 then s
  else
    let from_ := x.1 / 16 * 16
    let words := ceilDiv (x.1 + x.2 - from_) 16
    foldN (ceilDiv words 256) (fun i s =>
      let p := carryBytes s (from_ + 4096 * i) (16 * min 256 (words - 256 * i))
      mirrorWrite (from_ + 4096 * i) p.1 p.2 c s) s

/-- The rows of positions [lo, hi) of a request in each entry's pages, with the scale records of those pages (R662). -/
def mirrorRows (c x lo hi : Nat) (s : State) : State :=
  match modelOf s c (reqOf s x).model with
  | none => s
  | some m =>
    let r := reqOf s x
    let n := max 1 (setPages s c m)
    foldS (r.list.mapIdx fun i p => (i, p)) (fun q s =>
      let a := (setEntry s c m (q.1 % n)).1
      let t := max 1 (pageT m.att)
      let first := q.1 / n * t
      let l := max lo first - first
      let h := min hi (first + t) - first
      if hi ≤ first || h ≤ l then s
      else
        let s := (rowSpans a q.2 l h).foldl (fun s x => mirrorSpan c x s) s
        match (if a.fmt = 1 then scaleAddr (serveOf s c) q.2 else none) with
        | some b => mirrorSpan c (b, 64) s
        | none => s) s

/-- R662: what of one request has changed since a copy was sent goes to the sister. -/
def mirrorRequest (c x : Nat) (old : Request) (s : State) : State :=
  let r := reqOf s x
  let s := mirrorRows c x (min old.kept r.kept) r.kept s
  let s := foldN r.blocks.length (fun i s =>
    if r.blocks[i]? = old.blocks[i]? && listBlock r i = listBlock old i then s
    else mirrorSpan c (r.blocks.getD i 0, 256) s) s
  let lo := if old.state = .free then 0 else old.promptLen + old.generated
  let hi := r.promptLen + r.generated
  mirrorSpan c (r.histAddr + 4 * lo, 4 * (hi - lo)) s

/-- The veneer slots of a context. -/
def ownVeneers (s : State) (c : Nat) : Tab Veneer := s.serve.veneers.filter fun v => v.2.state ≠ .free && v.2.owner = c

/-- The state that a boundary's commit carries. -/
def copyOf (s : State) (c : Nat) : BoundaryCopy := ⟨liveReqs s c, serveOf s c, ownVeneers s c⟩

/-- R661: the contents of the veneers that are new since a copy was sent. -/
def mirrorVeneers (c : Nat) (old : Tab Veneer) (s : State) : State :=
  (ownVeneers s c).foldl (fun s v => if tget old v.1 {} = v.2 then s else mirrorSpan c (v.2.addr, v.2.len) s) s

/-- R662, R664: the delta of a boundary, then COMMIT. The records in the mirror lot have no stated form: their place, length and
bytes are free values (log entry 6). -/
def sendCommit (c : Nat) (s : State) : State :=
  let old := (redOf s c).sentCopy
  let s := (liveReqs s c).foldl (fun s q => mirrorRequest c q.1 (tget old.reqs q.1 {}) s) s
  let p := takeFree (mirrorVeneers c old.veneers s)
  let q := takeFree p.2
  let d := takeFree q.2
  let off := p.1 % 2 ^ 18 * 16
  let len := 16 * (1 + q.1 % 256)
  let s := mirrorWrite ((redOf s c).par.mirrorLot + off) (leBytes len d.1) (List.replicate (len / 16) 0) c d.2
  let s := modRed c (fun r => { r with sentCopy := copyOf s c, commitAt := now s, unsent := false, commit := (off, len) }) s
  match s.net.sister with
  | some m => sendDowel c 8 m (redOf s c).boundary (leBytes 8 off ++ leBytes 8 len) s
  | none => s

/-- R666, R683: step 9 of a boundary: its commit leaves at once, or waits for the acknowledgement of the one before; while the whole state is
copied it queues behind the copy. -/
def commitBoundary (c : Nat) (s : State) : State :=
  if mirrored s c && (redOf s c).role = .activeSolo && (redOf s c).copying then
    sendCommit c (modRed c (fun r => { r with boundary := r.boundary + 1 }) s)
  else if mirrored s c && (redOf s c).role = .active then
    let s := modRed c (fun r => { r with boundary := r.boundary + 1 }) s
    if (redOf s c).acked + 1 < (redOf s c).boundary then modRed c (fun r => { r with unsent := true }) s
    else sendCommit c s
  else s

end Sys2Proof.Machine
end

