-- ==== Sys2Proof/Machine/Dowel.lean ====
section
/-! DEFINITION. How a side gives the dowel away (R677–R679, R689), and the drain of the module (R688–R690). -/
namespace Sys2Proof.Machine

/-- R659: the side is the acting holder of a mirrored pair. -/
def acting (s : State) (c : Nat) : Bool := mirrored s c && ((redOf s c).role = .active || (redOf s c).role = .activeSolo)

/-- The acting sides of the module. -/
def actingCtxs (s : State) : List Nat := (List.range 16).filter (acting s)

/-- R678: a swap is deferred: a side is not in sync, or the sister link is lost. -/
def swapDeferred (s : State) (c : Nat) : Bool := (redOf s c).role ≠ .active || (redOf s c).copying || sisterLost s

/-- A record whose boundary the standby has acknowledged. -/
def recordAcked (s : State) (c : Nat) (p : PendRec) : Bool :=
  match p.gate with
  | .boundary n => decide (n ≤ (redOf s c).acked)
  | _ => true

/-- R673, R674, R679: the unacknowledged step is discarded: its runs stop, and the context returns to the last acknowledged boundary. What
consumers have returned and seen since stays: consumer indices, and entries whose final record has been written. -/
def dropUnacked (c : Nat) (s : State) : State :=
  let s := stopRuns c (modServe c (fun y => { y with step := none, boundaryDue := false, waste := [] }) s)
  if (redOf s c).role = .activeSolo then s
  else
    let y := serveOf s c
    let b := (redOf s c).ackedCopy
    let keep := y.pend.filter (recordAcked s c)
    let live := b.reqs.filter fun q =>
      serving_ q.2 || keep.any fun p => p.final && p.req = q.1
    let back (n : Nat) (r : Ring) : Ring := match tget y.rings n none with
      | some q => { r with cons := q.cons, sinceIrq := q.sinceIrq, seen := q.seen }
      | none => r
    let rings := b.serve.rings.map fun p => (p.1, p.2.map (back p.1))
    let reqs := live.foldl (fun t q => tset t q.1 q.2) (s.serve.reqs.filter fun q => q.2.ctx ≠ c)
    let s := { s with serve := { s.serve with reqs := reqs } }
    modServe c (fun _ => { b.serve with rings := rings, pend := keep, step := none, boundaryDue := false, waste := [] }) s

/-- R677 step 3: SWAP is sent once no step runs and the last boundary is acknowledged. -/
def trySwap (c : Nat) (s : State) : State :=
  let r := redOf s c
  let y := serveOf s c
  if r.giving = some .swap && r.givingSent.isNone && y.step.isNone && !y.boundaryDue && !r.unsent && r.acked = r.boundary then
    toSister c 6 r.acked (modRed c (fun r => { r with givingSent := some (now s) }) s)
  else s

/-- R677: a swap begins: no further step runs. -/
def startSwap (c : Nat) (s : State) : State :=
  trySwap c (modRed c (fun r => { r with giving := some .swap, givingAt := now s, givingSent := none, swapDue := false }) s)

/-- R679: a release: the acting side stops at once, discards its unacknowledged step and sends RELEASE to the sister and the arbiter. -/
def releaseDowel (drain : Bool) (c : Nat) (s : State) : State :=
  if !acting s c || (redOf s c).giving = some .release then s
  else
    let s := dropUnacked c s
    let s := modRed c (fun r => { r with
      giving := some .release, givingAt := now s, givingSent := some (now s), drainRelease := drain, unsent := false
      boundary := r.acked }) s
    toArbiter c 5 (redOf s c).acked (toSister c 5 (redOf s c).acked s)

/-- R597, R690: every acting side releases. -/
def releaseAll (s : State) : State := foldS (actingCtxs s) (releaseDowel false) s

/-- R677, R678: the swap that is due at a boundary: it begins, or is deferred with 0xA104. -/
def dueSwap (c : Nat) (s : State) : State :=
  if !(redOf s c).swapDue || !acting s c || (redOf s c).giving.isSome then s
  else if swapDeferred s c then record 0xA104 1 (0x6000 + c) (some c) false [] s
  else startSwap c s

/-! ### The drain -/

/-- R688 step 1: every context holds at a boundary. -/
def allHold (s : State) : Bool := s.serve.ctxs.all fun x => x.2.step.isNone && !x.2.boundaryDue

/-- R688 step 2: no side still gives its dowel away, and the journal writes are acknowledged or 100 ms have passed. -/
def handedAll (s : State) : Bool :=
  (actingCtxs s).all (fun c => (redOf s c).giving.isNone)
    && (s.red.drainAt + 100000000 ≤ now s || (s.net.ops.map (·.purpose) ++ s.net.tagWait.map (·.2.1)).all fun p => match p with
      | .journal _ _ _ => false
      | _ => true)

/-- R688 steps 4 and 5, R690: the flush of a drain; while the log is frozen nothing is written. -/
def drainFlush (s : State) : State :=
  let s := { s with red := { s.red with drain := .flushing } }
  if frozen s then drainFlushed s else startFlush s

/-- R688 step 3, R690 step 3: the issue gates close and video pauses. -/
def shutGates (s : State) : State := applyBlocks (pauseVideo { s with pwr := { s.pwr with gatesShut := true } })

/-- R688, R689: the drain goes on as far as it can. -/
def drainProgress (s : State) : State :=
  let s := if s.red.drain = .stepping && allHold s then
      foldS (actingCtxs s) (fun c s => if swapDeferred s c then releaseDowel true c s else startSwap c s)
        { s with red := { s.red with drain := .handing, drainAt := now s } }
    else s
  if s.red.drain = .handing && handedAll s then
    drainFlush (recordSq 0xB101 0 [] (shutGates { s with red := { s.red with drain := .closing } }))
  else s

end Sys2Proof.Machine
end

