-- ==== Sys2Proof/Machine/Tensors.lean ====
section
/-! DEFINITION. Operator records and tensors, and what each operator computes (R284–R320). -/
namespace Sys2Proof.Machine

/-! ### Records -/

/-- R286: a tensor reference from its 48 bytes. -/
def tensorOf (b : List Byte) : Tensor :=
  { addr := fieldAt b 0 8, fmt := fieldAt b 8 1, layout := fieldAt b 9 1, n := fieldAt b 12 4, h := fieldAt b 16 2,
    w := fieldAt b 18 2, c := fieldAt b 20 4, strides := (List.range 4).map fun i => fieldAt b (24 + 6 * i) 6
    rsvd := fieldAt b 10 2 = 0 }

/-- R285: an operator record from its 256 bytes. -/
def oprRecOf (b : List Byte) : OprRec :=
  { kind := fieldAt b 0 1, mode := fieldAt b 1 1, padMode := fieldAt b 2 1, flags := fieldAt b 3 1, padValue := fieldAt b 4 4
    k := (fieldAt b 8 2, fieldAt b 10 2), stride := (fieldAt b 12 2, fieldAt b 14 2), dil := (fieldAt b 16 2, fieldAt b 18 2)
    padV := (fieldAt b 20 2, fieldAt b 22 2), padH := (fieldAt b 24 2, fieldAt b 26 2), groups := fieldAt b 28 2
    src := tensorOf (b.drop 32), dst := tensorOf (b.drop 80), aux := tensorOf (b.drop 128), biasAddr := fieldAt b 176 8
    flagsAddr := fieldAt b 184 8, params := (b.drop 192).take 32
    rsvd := fieldAt b 30 2 = 0 && fieldAt b 224 32 = 0 && fieldAt b 3 1 < 64 }

/-- R285: the parameters of a kind. -/
def oprParam (r : OprRec) (lo n : Nat) : Nat := fieldAt r.params lo n

/-- The reference is all zero. -/
def tensorZero (t : Tensor) : Bool :=
  t.addr = 0 && t.fmt = 0 && t.layout = 0 && t.n = 0 && t.h = 0 && t.w = 0 && t.c = 0 && t.strides.all (· = 0) && t.rsvd

/-- R286: reserved parts of a reference. -/
def tensorRsvd (t : Tensor) : Bool := t.rsvd && t.addr < 2 ^ 56 && (t.layout = 3 || t.strides.all (· = 0))

/-- R313: a pooling mode over the whole picture. -/
def globalPool (r : OprRec) : Bool := r.kind = 2 && 3 ≤ r.mode

/-- R285, R286: every reserved part of a record is zero. -/
def reservedZero (r : OprRec) : Bool :=
  r.rsvd && r.src.rsvd && r.dst.rsvd && r.aux.rsvd && (r.kind ≠ 5 || oprParam r 2 2 = 0)

/-- R290 check 2: the kind's fields are defined, and those it does not use are zero. -/
def kindOk (r : OprRec) : Bool :=
  let act := r.flags / 8
  let noSizes := r.k = (0, 0) && r.stride = (0, 0) && r.dil = (0, 0)
  let noGeom := noSizes && r.padV = (0, 0) && r.padH = (0, 0)
  let noBias := !bitOf r.flags 2 && act = 0 && r.biasAddr = 0
  r.rsvd && tensorRsvd r.src && tensorRsvd r.dst && tensorRsvd r.aux && match r.kind with
    | 1 => r.mode = 0 && r.padMode ≤ 2 && act ≤ 3 && (bitOf r.flags 2 || r.biasAddr = 0) && r.flagsAddr = 0
        && oprParam r 0 32 = 0
    | 2 => r.mode ≤ 4 && r.padMode = 0 && noBias && r.flagsAddr = 0 && tensorZero r.aux && oprParam r 0 32 = 0
        && (!globalPool r || noSizes)
    | 3 => r.mode ≤ 1 && r.padMode = 0 && r.flags = 0 && noBias && r.padValue = 0 && noGeom && r.flagsAddr = 0
        && (r.mode = 1 || tensorZero r.aux) && oprParam r 0 32 = 0
    | 4 => r.mode ≤ 1 && r.padMode = 0 && noBias && noGeom && oprParam r 8 24 = 0
    | 5 => r.mode ≤ 1 && r.padMode = 0 && noBias && noGeom && r.flagsAddr = 0 && tensorZero r.aux
        && oprParam r 0 1 ≤ 2 && oprParam r 1 1 ≤ 1 && oprParam r 2 2 = 0
    | _ => false

/-! ### Places of elements -/

/-- The bytes of one element. -/
def elemBytes (fmt : Nat) : Nat := ceilDiv (elemBits fmt) 8

/-- The channel positions of a pixel in memory (R287). -/
def chanStride (t : Tensor) : Nat := if t.layout = 0 then ceilDiv t.c 32 * 32 else t.c

/-- R287: the byte offset of an element. -/
def elemOffset (t : Tensor) (n h w c : Nat) : Nat :=
  let e := elemBytes t.fmt
  match t.layout with
  | 2 => e * (((n * t.c + c) * t.h + h) * t.w + w)
  | 3 => n * t.strides.getD 0 0 + h * t.strides.getD 1 0 + w * t.strides.getD 2 0 + c * t.strides.getD 3 0
  | _ => e * (((n * t.h + h) * t.w + w) * chanStride t + c)

/-- R499: the planes of a picture: offsets of Cb and Cr, and the end; `e` is the sample size. -/
def yuvStride (w e : Nat) : Nat := ceilDiv (w * e) 128 * 128
def yuvPlane (w h e : Nat) : Nat := h * yuvStride w e
def yuvCb (w h e : Nat) : Nat := ceilDiv (yuvPlane w h e) 4096 * 4096
def yuvCr (w h e : Nat) : Nat := ceilDiv (yuvCb w h e + yuvPlane (ceilDiv w 2) (ceilDiv h 2) e) 4096 * 4096
def yuvSize (w h e : Nat) : Nat := yuvCr w h e + yuvPlane (ceilDiv w 2) (ceilDiv h 2) e

/-- The bytes from the first to the last of a tensor. -/
def tensorSpan (t : Tensor) : Nat :=
  match t.layout with
  | 0 => elemBytes t.fmt * t.n * t.h * t.w * chanStride t
  | 3 => elemOffset t (t.n - 1) (t.h - 1) (t.w - 1) (t.c - 1) + elemBytes t.fmt
  | 5 => yuvSize t.w t.h (elemBytes t.fmt)
  | _ => elemBytes t.fmt * t.n * t.h * t.w * t.c

/-- The local address of a tensor. -/
def tensorBase (t : Tensor) : Nat := t.addr % 2 ^ 44

/-- One element as a value. -/
def tensorElem (s : State) (t : Tensor) (n h w c : Nat) : Num :=
  decodeElem t.fmt (leNat (consumeBytes s (tensorBase t + elemOffset t n h w c) (elemBytes t.fmt)))

/-! ### Shapes (R300–R303) -/

/-- R300, R301: the output size along one axis; 0 makes an empty output. -/
def outSize (i lo hi k d st : Nat) : Nat :=
  if i + lo + hi < d * (k - 1) + 1 then 0 else (i + lo + hi - d * (k - 1) - 1) / st + 1

/-- The dilation that counts (R300). -/
def dilOf (r : OprRec) : Nat × Nat := if r.kind = 1 then r.dil else (1, 1)

/-- The output's height and width. -/
def outShape (r : OprRec) : Nat × Nat :=
  match r.kind with
  | 1 => (outSize r.src.h r.padV.1 r.padV.2 r.k.1 r.dil.1 r.stride.1, outSize r.src.w r.padH.1 r.padH.2 r.k.2 r.dil.2 r.stride.2)
  | 2 => if globalPool r then (1, 1)
      else (outSize r.src.h r.padV.1 r.padV.2 r.k.1 1 r.stride.1, outSize r.src.w r.padH.1 r.padH.2 r.k.2 1 r.stride.2)
  | 3 => (r.src.h, r.src.w)
  | 4 => (oprParam r 0 2, oprParam r 2 2)
  | _ => (r.dst.h, r.dst.w)

/-- R290 check 8: the dst dimensions. -/
def dstOk (r : OprRec) : Bool :=
  let o := outShape r
  r.dst.h = o.1 && r.dst.w = o.2 && match r.kind with
    | 1 => r.dst.n = r.src.n && r.dst.c = r.aux.n
    | 2 => r.dst.n = r.src.n && r.dst.c = r.src.c
    | 3 => r.dst.n = r.src.n && r.dst.c = 1
        && (r.mode = 0 || (r.aux.n = r.src.n && r.aux.h = r.src.h && r.aux.w = r.src.w && r.aux.c = 1))
    | 4 => r.dst.n = oprParam r 4 4 && r.dst.c = r.src.c
    | _ => r.dst.n = 1 && r.dst.c = 3

/-- R311: the path of a record: 0 matrix, 1 window, 2 vector. -/
def pathOf (r : OprRec) : Nat :=
  match r.kind with
  | 1 => if 1 < r.groups && r.src.c / r.groups < 32 then 1 else 0
  | 2 => 1
  | 3 => 1
  | _ => 2

/-- R292: formats and layouts. -/
def formatsOk (r : OprRec) : Bool :=
  let fp : List Nat := [0x01, 0x02, 0x03]
  let plain (t : Tensor) : Bool := t.layout ≤ 3
  match r.kind with
  | 1 => r.src.fmt ∈ (if pathOf r = 0 then 0x07 :: fp else fp) && r.aux.fmt = r.src.fmt && r.dst.fmt ∈ 0x00 :: fp
      && plain r.src && plain r.dst && (r.aux.layout ≤ 4)
  | 2 => r.src.fmt ∈ 0x00 :: fp && r.dst.fmt ∈ 0x00 :: fp && plain r.src && plain r.dst
  | 3 => r.src.fmt ∈ 0x00 :: fp && (r.dst.fmt = 0x09 || r.dst.fmt = 0x13) && plain r.src && r.dst.layout = 1 && r.dst.c = 1
      && (r.mode = 0 || (r.aux.fmt = r.src.fmt && plain r.aux))
  | 4 => r.src.fmt ∈ 0x12 :: 0x00 :: fp && r.dst.fmt = r.src.fmt && plain r.src && plain r.dst
  | 5 => (r.src.fmt = 0x12 || r.src.fmt = 0x13) && r.src.layout = 5 && r.src.n = 1 && r.dst.fmt ∈ [0x00, 0x01, 0x02] && r.dst.layout ≤ 1
  | _ => false

/-- R286: the ranges of a reference's dimensions. -/
def dimsOk (t : Tensor) : Bool := 1 ≤ t.n && t.n ≤ 65535 && 1 ≤ t.h && 1 ≤ t.w && 1 ≤ t.c && t.c ≤ 65535

/-- A value lies in a range, on both axes. -/
def both (p : Nat × Nat) (lo hi : Nat) : Bool := lo ≤ p.1 && p.1 ≤ hi && lo ≤ p.2 && p.2 ≤ hi

/-- R304: the limits of the parameters. -/
def limitsOk (r : OprRec) : Bool :=
  let pads := both r.padV 0 1023 && both r.padH 0 1023
  dimsOk r.src && dimsOk r.dst && match r.kind with
    | 1 =>
      let m := pathOf r = 0
      dimsOk r.aux && both r.k 1 (if m then 31 else 15) && both r.stride 1 (if m then 32 else 16)
        && both r.dil 1 (if m then 255 else 64) && pads && 1 ≤ r.groups && r.src.c % r.groups = 0
        && r.aux.n % r.groups = 0 && r.aux.h = r.k.1 && r.aux.w = r.k.2 && r.aux.c = r.src.c / r.groups
    | 2 => r.groups = 1 && pads && (globalPool r || (both r.k 1 31 && both r.stride 1 32 && r.dil = (1, 1)))
    | 4 => r.groups = 1 && both (oprParam r 0 2, oprParam r 2 2) 1 1024 && 1 ≤ oprParam r 4 4 && oprParam r 4 4 ≤ 65535
    | 5 =>
      let ch := oprParam r 4 2
      let cw := oprParam r 6 2
      r.groups = 1 && 1 ≤ ch && ch ≤ r.dst.h && 1 ≤ cw && cw ≤ r.dst.w
        && (r.mode = 1 || (r.src.h % ch = 0 && r.src.w % cw = 0))
    | _ => r.groups = 1

/-- R303: REFLECT fits. -/
def reflectOk (r : OprRec) : Bool :=
  r.kind ≠ 1 || r.padMode ≠ 2
    || (both r.padV 0 (r.src.h - 1) && both r.padH 0 (r.src.w - 1))

/-! ### Tiles (R306–R309) -/

/-- R309: the extents that the planner chose along an axis, when they can stand: they cut the output whole and each satisfies s·To ≥ E − s;
otherwise one tile, which has no halo (log entry 18). -/
def tileCuts (o st e : Nat) (ext : List Nat) : List Nat :=
  if ext.all (0 < ·) && ext.foldl (· + ·) 0 = o && ext.all fun t => e ≤ st * t + st then ext else [o]

/-- The tiles as ranges of outputs. -/
def tileRanges : List Nat → Nat → List (Nat × Nat)
  | [], _ => []
  | t :: r, a => (a, a + t) :: tileRanges r (a + t)

/-- R308, R309: a tile's part of one axis: the outputs it covers, the input positions it owns, and its halo, the positions of the next
tile that its windows reach; each as [from, to). -/
structure Cut where
  out : Nat × Nat
  own : Nat × Nat
  halo : Nat × Nat
  deriving DecidableEq, Repr, Inhabited

/-- R308, R309: the part of the tile that covers outputs `o` of `n`, over `i` input positions: the last tile owns every position to the
end of the axis. -/
def cutOf (i n lo st e : Nat) (o : Nat × Nat) : Cut :=
  let hi := if o.2 = n then i else min i (st * o.2 - lo)
  { out := o, own := (min i (st * o.1 - lo), hi), halo := (hi, max hi (min i (st * (o.2 - 1) + e - lo))) }

/-- Whether a record's outputs have windows of input positions. -/
def windowed (r : OprRec) : Bool := r.kind = 1 || (r.kind = 2 && !globalPool r)

/-- R300: the extent E of a window and its stride, on both axes; an operator without windows reads one position for each output. -/
def extentOf (r : OprRec) : Nat × Nat :=
  if windowed r then ((dilOf r).1 * (r.k.1 - 1) + 1, (dilOf r).2 * (r.k.2 - 1) + 1) else (1, 1)
def strideOf (r : OprRec) : Nat × Nat := if windowed r then r.stride else (1, 1)

/-- R307: the tiles of a record in raster order, height-major, each as its parts of the height and of the width. -/
def tilesOf (r : OprRec) (hExt wExt : List Nat) : List (Cut × Cut) :=
  let o := outShape r
  let e := extentOf r
  let st := strideOf r
  let hs := (tileRanges (tileCuts o.1 st.1 e.1 hExt) 0).map (cutOf r.src.h o.1 r.padV.1 st.1 e.1)
  let ws := (tileRanges (tileCuts o.2 st.2 e.2 wExt) 0).map (cutOf r.src.w o.2 r.padH.1 st.2 e.2)
  hs.flatMap fun a => ws.map fun b => (a, b)

/-- R305: some window covers a position of an axis. -/
def covered (n lo k d st p : Nat) : Bool :=
  (List.range k).any fun t => d * t ≤ p + lo && (p + lo - d * t) % max 1 st = 0 && (p + lo - d * t) / max 1 st < n

/-- R305: the rows or columns of a range that some window covers. -/
def coveredRows (r : OprRec) (q : Nat × Nat) : List Nat :=
  ((List.range (q.2 - q.1)).map (q.1 + ·)).filter (covered (outShape r).1 r.padV.1 (if windowed r then r.k.1 else 1) (dilOf r).1 (strideOf r).1)
def coveredCols (r : OprRec) (q : Nat × Nat) : List Nat :=
  ((List.range (q.2 - q.1)).map (q.1 + ·)).filter (covered (outShape r).2 r.padH.1 (if windowed r then r.k.2 else 1) (dilOf r).2 (strideOf r).2)

/-- Join ranges, as (address, length), that follow each other without a gap. -/
def joinRanges (l : List (Nat × Nat)) : List (Nat × Nat) :=
  l.foldr (fun x acc => match acc with
    | y :: t => if x.1 + x.2 = y.1 then (x.1, x.2 + y.2) :: t else x :: acc
    | [] => [x]) []

/-- The bytes of some rows and columns of a tensor, over all n and `c` channel positions, as ranges. -/
def tensorRanges (t : Tensor) (rows cols : List Nat) (c : Nat) : List (Nat × Nat) :=
  joinRanges ((List.range t.n).flatMap fun i => rows.flatMap fun h => cols.flatMap fun w => (List.range c).map fun k =>
    (tensorBase t + elemOffset t i h w k, elemBytes t.fmt))

/-- R305, R308: what the bench of a tile loads: the positions that the tile owns and a window covers. -/
def tileLoads (r : OprRec) (x : Cut × Cut) : List (Nat × Nat) :=
  tensorRanges r.src (coveredRows r x.1.own) (coveredCols r x.2.own) r.src.c

/-- R310: the halo blocks of a tile, each with how many tiles further on its owner stands in a raster of `across` tiles, and its bytes: what
it receives from its neighbours in the south, in the east and in the south-east. -/
def haloBlocks (r : OprRec) (across : Nat) (x : Cut × Cut) : List (Nat × Nat) :=
  let block (n : Nat) (rows cols : List Nat) : Nat × Nat := (n, r.src.n * rows.length * cols.length * chanStride r.src * elemBytes r.src.fmt)
  [block across (coveredRows r x.1.halo) (coveredCols r x.2.own), block 1 (coveredRows r x.1.own) (coveredCols r x.2.halo),
   block (across + 1) (coveredRows r x.1.halo) (coveredCols r x.2.halo)].filter fun q => q.2 ≠ 0

/-- R306: for every output of a range, the centre tap alone lands in the image. -/
def onlyCentre (i lo k d st : Nat) (r : Nat × Nat) : Bool :=
  (List.range (r.2 - r.1)).all fun j =>
    let o := r.1 + j
    (List.range k).all fun t =>
      let inside := lo ≤ st * o + d * t && st * o + d * t < lo + i
      inside = decide (t = k / 2)

/-- R306: a tile is centre-only. -/
def centreOnly (r : OprRec) (x : Cut × Cut) : Bool :=
  r.kind = 1 && r.padMode = 0 && r.k.1 % 2 = 1 && r.k.2 % 2 = 1
    && onlyCentre r.src.h r.padV.1 r.k.1 r.dil.1 r.stride.1 x.1.out && onlyCentre r.src.w r.padH.1 r.k.2 r.dil.2 r.stride.2 x.2.out

/-- R306, R309: tile count, halo rows and columns, and centre-only tiles. -/
def tileData (r : OprRec) (x : PlanShape) : Nat × Nat × Nat × Nat :=
  let o := outShape r
  let e := extentOf r
  let st := strideOf r
  let hs := tileCuts o.1 st.1 e.1 x.hExt
  let ws := tileCuts o.2 st.2 e.2 x.wExt
  (hs.length * ws.length, if 1 < hs.length then e.1 - st.1 else 0, if 1 < ws.length then e.2 - st.2 else 0,
    ((tilesOf r x.hExt x.wExt).filter (centreOnly r)).length)

/-- An output position lies in a tile. -/
def inTile (oh ow : Nat) (x : Cut × Cut) : Bool := x.1.out.1 ≤ oh && oh < x.1.out.2 && x.2.out.1 ≤ ow && ow < x.2.out.2

/-! ### Values -/

/-- R302: the input position that a tap reads: inside, or the pad mode's substitute; none for CONSTANT. -/
def tapPos (padMode i : Nat) (p : Int) : Option Nat :=
  if 0 ≤ p && p < i then some p.toNat
  else match padMode with
    | 1 => some (if p < 0 then 0 else i - 1)
    | 2 => some (if p < 0 then (-p).toNat else (2 * ((i : Int) - 1) - p).toNat)
    | _ => none

/-- The magnitude of a value. -/
def numAbs : Num → Num
  | .fin _ m e => .fin false m e
  | .inf _ => .inf false
  | .nan => .nan

/-- R233, R234: a FP32 value that the summation order leaves open: within n × 2^−24 × (sum of magnitudes) of the exact value, or any
value when a partial sum may leave the FP32 range. `key` picks it (log entry 18). -/
def within (key n : Nat) (y mags : Num) : Num :=
  match y with
  | .fin _ _ _ =>
    let v := ofF32 (Config.freeValue key % 2 ^ 32)
    match v, round32 mags with
    | _, .inf _ => v
    | .fin _ _ _, _ =>
      if numLt (numShift (-24) (numMul (.fin false n 0) mags)) (numAbs (numAdd v (numNeg y))) then round32 y else v
    | _, _ => round32 y
  | y => y

/-- The value of a sum of products in the module's order. -/
def dotValue (key : Nat) (bf16 : Bool) (l : List (Num × Num)) : Num :=
  let p := l.map fun x => numMul x.1 x.2
  let y := p.foldl numAdd (.fin false 0 0)
  let mags := (p.map numAbs).foldl numAdd (.fin false 0 0)
  within key (if bf16 then l.length + 1 else ceilDiv l.length 32 + 1) y mags

/-- R312: the activation of a FP32 value. -/
def activate (act : Nat) (x : Num) : Num :=
  match act with
  | 1 => numMax x (.fin false 0 0)
  | 2 => numMin (numMax x (.fin false 0 0)) (.fin false 6 0)
  | 3 => bounded 0x15 x (toF32 x)
  | _ => x

/-- The taps of an output position: filter indices with the rows and columns they read. -/
def tapList (k : Nat × Nat) : List (Nat × Nat) := (List.range k.1).flatMap fun i => (List.range k.2).map fun j => (i, j)

/-- R306: per output channel, the FP32 sum of the weights of every tap but the centre, as its pattern; `key` picks what the order of
summation leaves open. -/
def offCentreSums (r : OprRec) (weights : List Nat) (key : Nat) : List Nat :=
  (List.range r.aux.n).map fun co =>
    let l := ((tapList r.k).filter fun t => t ≠ (r.k.1 / 2, r.k.2 / 2)).flatMap fun t => (List.range r.aux.c).map fun ci =>
      decodeElem r.aux.fmt (weights.getD (((co * r.k.1 + t.1) * r.k.2 + t.2) * r.aux.c + ci) 0)
    toF32 (within (key + co) l.length (l.foldl numAdd (.fin false 0 0)) ((l.map numAbs).foldl numAdd (.fin false 0 0)))

/-- R302, R306, R312: a CONV output before conversion. In a centre-only tile the centre tap alone is computed, and pad_value times the
planned sum of the other weights is added unless pad_value is 0. -/
def convValue (s : State) (p : Plan) (key n oh ow co : Nat) : Num :=
  let r := p.rec_
  let cg := r.aux.c
  let g := co / max 1 (r.aux.n / r.groups)
  let term (t : Nat × Nat) : List (Num × Num) :=
    let y := tapPos r.padMode r.src.h ((r.stride.1 * oh + r.dil.1 * t.1 : Nat) - (r.padV.1 : Int))
    let x := tapPos r.padMode r.src.w ((r.stride.2 * ow + r.dil.2 * t.2 : Nat) - (r.padH.1 : Int))
    (List.range cg).map fun ci =>
      let w := decodeElem r.aux.fmt (p.weights.getD (((co * r.k.1 + t.1) * r.k.2 + t.2) * cg + ci) 0)
      let v := match y, x with
        | some y, some x => tensorElem s r.src n y x (g * cg + ci)
        | _, _ => ofF32 r.padValue
      (v, w)
  let centre := (tilesOf r p.hExt p.wExt).any fun x => inTile oh ow x && centreOnly r x
  let off : List (Num × Num) := if r.padValue % 2 ^ 31 = 0 then [] else [(ofF32 r.padValue, ofF32 (p.offSums.getD co 0))]
  let acc := dotValue key (r.src.fmt = 1 || p.path = 1)
    (if centre then term (r.k.1 / 2, r.k.2 / 2) ++ off else (tapList r.k).flatMap term)
  let acc := if bitOf r.flags 2 then round32 (numAdd acc (ofF32 (leNat (consumeBytes s (r.biasAddr % 2 ^ 44 + 4 * co) 4)))) else acc
  activate (r.flags / 8) acc

/-- The FP32 sum of a list in R220's order. -/
def pairSum (l : List Num) : Num :=
  (reducePairs (fun x y => round32 (numAdd x y)) (l.length + 1) l).getD (.fin false 0 0)

/-- The FP32 quotient by a count: RCP, then one product (R313). -/
def byCount (x : Num) (n : Nat) : Num :=
  round32 (numMul x (bounded 0x10 (.fin false n 0) (toF32 (.fin false n 0))))

/-- R313, R314: a POOL output before conversion, and whether its window is empty. -/
def poolValue (s : State) (r : OprRec) (n oh ow c : Nat) : Num × Bool :=
  if globalPool r then
    let l := (List.range r.src.h).flatMap fun y => (List.range r.src.w).map fun x => tensorElem s r.src n y x c
    if r.mode = 3 then (l.foldl numMax (.inf true), false) else (byCount (pairSum l) (r.src.h * r.src.w), false)
  else
    let l := (tapList r.k).filterMap fun t =>
      let y := tapPos 0 r.src.h ((r.stride.1 * oh + t.1 : Nat) - (r.padV.1 : Int))
      let x := tapPos 0 r.src.w ((r.stride.2 * ow + t.2 : Nat) - (r.padH.1 : Int))
      match y, x with
      | some y, some x => some (tensorElem s r.src n y x c)
      | _, _ => none
    let out := r.k.1 * r.k.2 - l.length
    match r.mode with
    | 1 =>
      if l.isEmpty then (ofF32 r.padValue, false)
      else (byCount (round32 (numAdd (pairSum l) (round32 (numMul (ofF32 r.padValue) (.fin false out 0))))) (r.k.1 * r.k.2), false)
    | m =>
      if l.isEmpty then (.fin false 0 0, true)
      else if m = 0 then (l.foldl numMax (.inf true), false)
      else (byCount (pairSum l) l.length, false)

/-- A finite FP32 value divided by a count, correctly rounded. -/
def divCount (x : Num) (d : Nat) : Num :=
  match x with
  | .fin n m e =>
    let q := m * 2 ^ 80 / max 1 d
    round32 (.fin n (2 * q + (if m * 2 ^ 80 % max 1 d = 0 then 0 else 1)) (e - 81))
  | x => x

/-- R318: the sample coordinate along one axis, in FP32, in the order the rule writes it (log entry 18). -/
def sampleAt (a b : Num) (size out i : Nat) : Num :=
  let m (x : Num) (k : Nat) : Num := round32 (numMul x (.fin false k 0))
  if 1 < out then
    round32 (numAdd (m a (size - 1)) (divCount (m (m (round32 (numAdd b (numNeg a))) i) (size - 1)) (out - 1)))
  else divCount (m (round32 (numAdd a b)) (size - 1)) 2

/-- The integer part of a non-negative value. -/
def numFloor : Num → Nat
  | .fin false m e => if 0 ≤ e then m * 2 ^ e.toNat else m / 2 ^ (-e).toNat
  | _ => 0

/-- R319: the position lies on the axis. -/
def insideAxis (size : Nat) (p : Num) : Bool :=
  match p with
  | .fin _ _ _ => !numLt p (.fin false 0 0) && !numLt (.fin false (size - 1) 0) p
  | _ => false

/-- R319: one sample of a crop. -/
def cropValue (s : State) (r : OprRec) (key n c : Nat) (y x : Num) : Num :=
  let at_ (i j : Nat) : Num := tensorElem s r.src n i j c
  if r.mode = 1 then
    let near (p : Num) (size : Nat) : Nat := min (size - 1) (numFloor (numAdd p (.fin false 1 (-1))))
    at_ (near y r.src.h) (near x r.src.w)
  else
    let y0 := numFloor y
    let x0 := numFloor x
    let y1 := min (y0 + 1) (r.src.h - 1)
    let x1 := min (x0 + 1) (r.src.w - 1)
    let wy := numAdd y (.fin true y0 0)
    let wx := numAdd x (.fin true x0 0)
    let uy := numAdd (.fin false 1 0) (numNeg wy)
    let ux := numAdd (.fin false 1 0) (numNeg wx)
    let l : List Num := [numMul (numMul uy ux) (at_ y0 x0), numMul (numMul uy wx) (at_ y0 x1),
      numMul (numMul wy ux) (at_ y1 x0), numMul (numMul wy wx) (at_ y1 x1)]
    within key 8 (l.foldl numAdd (.fin false 0 0)) ((l.map numAbs).foldl numAdd (.fin false 0 0))

/-! ### Pictures (R284, R285) -/

/-- R499: a sample of a plane (0 luma, 1 Cb, 2 Cr) of a picture. -/
def yuvSample (s : State) (t : Tensor) (plane y x : Nat) : Nat :=
  let e := elemBytes t.fmt
  let at_ := if plane = 0 then 0 else if plane = 1 then yuvCb t.w t.h e else yuvCr t.w t.h e
  leNat (consumeBytes s (tensorBase t + at_ + y * yuvStride (if plane = 0 then t.w else ceilDiv t.w 2) e + x * e) e)

/-- A weighted mean as the sum of weight × sample and the sum of the weights. -/
def sampleMean (l : List (Nat × Nat)) : Nat × Nat := ((l.map fun p => p.1 * p.2).foldl (· + ·) 0, (l.map (·.1)).foldl (· + ·) 0)

/-- R285, mode BOX: the mean of a plane over the block of an output pixel, whose luma block is `f` rows by `g` columns; a chroma block holds
every sample that the luma block touches (DEDUCED where f or g is odd, log entry 18). -/
def boxMean (s : State) (t : Tensor) (f g i j plane : Nat) : Nat × Nat :=
  let part (n k : Nat) : List Nat :=
    let lo := if plane = 0 then k * n else k * n / 2
    let hi := if plane = 0 then (k + 1) * n else ceilDiv ((k + 1) * n) 2
    (List.range (hi - lo)).map (lo + ·)
  sampleMean ((part f i).flatMap fun y => (part g j).map fun x => (1, yuvSample s t plane y x))

/-- R285, mode BILINEAR: a plane between the four samples around a position. The manual does not say which position an output pixel takes:
it is free (DESIGN CHOICE, log entry 18). -/
def bilinearMean (s : State) (t : Tensor) (key plane : Nat) : Nat × Nat :=
  let h := if plane = 0 then t.h else ceilDiv t.h 2
  let w := if plane = 0 then t.w else ceilDiv t.w 2
  let p := Config.freeValue key % ((h - 1) * 65536 + 1)
  let q := Config.freeValue (key + 1) % ((w - 1) * 65536 + 1)
  let rows := [(65536 - p % 65536, p / 65536), (p % 65536, min (p / 65536 + 1) (h - 1))]
  let cols := [(65536 - q % 65536, q / 65536), (q % 65536, min (q / 65536 + 1) (w - 1))]
  sampleMean (rows.flatMap fun y => cols.map fun x => (y.1 * x.1, yuvSample s t plane y.2 x.2))

/-- A quotient, exact to 2^−120 of its last place. -/
def ratio (n : Int) (d : Nat) : Num := .fin (decide (n < 0)) (n.natAbs * 2 ^ 120 / max 1 d) (-120)

/-- BT.601, BT.709, BT.2020: the weights of R and of B in luma, times 10,000 (log entry 11). -/
def lumaWeights (matrix : Nat) : Nat × Nat :=
  match matrix with
  | 0 => (2990, 1140)
  | 1 => (2126, 722)
  | _ => (2627, 593)

/-- R285: R, G or B of mean samples, as a sum of terms, before clamping: limited range has luma from 16 to 235 and chroma from 16 to 240 in
units of the top eight bits, full range every code (log entry 11). -/
def colourTerms (r : OprRec) (bits chan : Nat) (y cb cr : Nat × Nat) : List Num :=
  let k := 2 ^ (bits - 8)
  let full := oprParam r 1 1 = 1
  let luma : Num := if full then ratio y.1 (y.2 * (2 ^ bits - 1)) else ratio (y.1 - (16 * k * y.2 : Nat)) (219 * k * y.2)
  let chroma (c : Nat × Nat) : Num :=
    let n : Int := c.1 - (2 ^ (bits - 1) * c.2 : Nat)
    if full then ratio n (c.2 * (2 ^ bits - 1)) else ratio n (224 * k * c.2)
  let w := lumaWeights (oprParam r 0 1)
  let g := 10000 - w.1 - w.2
  match chan with
  | 0 => [luma, numMul (ratio (2 * (10000 - w.1) : Nat) 10000) (chroma cr)]
  | 1 => [luma, numMul (ratio (-(2 * w.2 * (10000 - w.2) : Nat)) (10000 * g)) (chroma cb),
      numMul (ratio (-(2 * w.1 * (10000 - w.1) : Nat)) (10000 * g)) (chroma cr)]
  | _ => [luma, numMul (ratio (2 * (10000 - w.2) : Nat) 10000) (chroma cb)]

/-- How many free values a pixel of PIXCONV uses. -/
def pixFree : Nat := 10

/-- R285: a channel of a content pixel of PIXCONV before conversion to dst: the mean samples, the matrix, then scale and offset. Whether a value
outside 0–1 is clamped, and the order of the FP32 operations, are left open: free (log entry 18). -/
def pixValue (s : State) (r : OprRec) (key i j chan : Nat) : Num :=
  let ch := oprParam r 4 2
  let cw := oprParam r 6 2
  let mean (plane : Nat) : Nat × Nat :=
    if r.mode = 0 then boxMean s r.src (r.src.h / max 1 ch) (r.src.w / max 1 cw) i j plane
    else bilinearMean s r.src (key + 2 * plane) plane
  let terms := colourTerms r (if r.src.fmt = 0x12 then 8 else 10) chan (mean 0) (mean 1) (mean 2)
  let v := terms.foldl numAdd (.fin false 0 0)
  let clamped := numMin (numMax v (.fin false 0 0)) (.fin false 1 0)
  let v := if Config.freeValue (key + 6) % 2 = 1 then clamped else v
  let scale := ofF32 (oprParam r (8 + 4 * chan) 4)
  let offset := ofF32 (oprParam r (20 + 4 * chan) 4)
  let mags := numAdd (numMul (numAbs scale) ((terms.map numAbs).foldl numAdd (.fin false 0 0))) (numAbs offset)
  within (key + 7) (if r.mode = 0 then (mean 0).2 + (mean 1).2 + 8 else 16) (numAdd (numMul scale v) offset) mags

/-- R316: a box of a box list: its coordinates and batch index. -/
structure Box where
  ya : Nat
  xa : Nat
  yb : Nat
  xb : Nat
  batch : Nat
  deriving DecidableEq, Repr, Inhabited

def boxOf (b : List Byte) : Box := ⟨fieldAt b 0 4, fieldAt b 4 4, fieldAt b 8 4, fieldAt b 12 4, fieldAt b 16 4⟩

def finite32 (b : Nat) : Bool := b / 2 ^ 23 % 256 ≠ 255

/-- R320: the crop of a box: the samples that are inside, as (i, j, y, x), or none for a crop of pad_value; its flag byte. -/
def boxSamples (r : OprRec) (x : Box) : Option (List (Nat × Nat × Num × Num)) × Nat :=
  if !(finite32 x.ya && finite32 x.xa && finite32 x.yb && finite32 x.xb) then (none, 16)
  else if r.src.n ≤ x.batch then (none, 8)
  else
    let o := outShape r
    let ya := ofF32 x.ya
    let xa := ofF32 x.xa
    let yb := ofF32 x.yb
    let xb := ofF32 x.xb
    let all := (List.range o.1).flatMap fun i => (List.range o.2).map fun j =>
      (i, j, sampleAt ya yb r.src.h o.1 i, sampleAt xa xb r.src.w o.2 j)
    let l := all.filter fun q => insideAxis r.src.h q.2.2.1 && insideAxis r.src.w q.2.2.2
    let inverted := numLt yb ya || numLt xb xa
    let zero := numEq ya yb && numEq xa xb
    (some l, bit (decide (l.length < all.length)) + 2 * bit inverted + 4 * bit zero)

/-! ### Stages -/

/-- One output element of a stage: its address, format and value, and how it is converted. -/
structure OutElem where
  addr : Nat
  fmt : Nat
  val : Num
  deriving DecidableEq, Repr, Inhabited

/-- The four loops over a tensor's elements. -/
def forTensor {α : Type} (n h w c : Nat) (f : Nat → Nat → Nat → Nat → α) : List α :=
  (List.range n).flatMap fun i => (List.range h).flatMap fun j => (List.range w).flatMap fun k => (List.range c).map (f i j k)

/-- R288: the +0 of the padding channel positions of an output. -/
def padElems (t : Tensor) (n : Nat) : List OutElem :=
  if t.layout = 0 then
    forTensor n t.h t.w (chanStride t - t.c) fun i j k c =>
      ⟨tensorBase t + elemOffset t i j k (t.c + c), t.fmt, .fin false 0 0⟩
  else []

/-- An element of a tensor as an output. -/
def outElem (t : Tensor) (n h w c : Nat) (v : Num) : OutElem := ⟨tensorBase t + elemOffset t n h w c, t.fmt, v⟩

/-- R317: the box count as it stands in memory. -/
def boxCount (s : State) (r : OprRec) : Nat := leNat (consumeBytes s (tensorBase r.aux) 4)

/-- The boxes of a stage's list, of which the run read the count `n` as it started: those it handles, and how many are dropped (R317). -/
def boxesOf (s : State) (r : OprRec) (n : Nat) : List Box × Nat :=
  let a := tensorBase r.aux
  let k := min n (oprParam r 4 4)
  ((List.range k).map fun i => boxOf (consumeBytes s (a + 16 + 32 * i) 32), n - k)

/-- What a stage writes and how it ends when nothing stops it: output elements, flag bytes as (address, byte), and its end. `key` numbers
its free values, `boxes` is the box count that the run has read. -/
def stageOutput (s : State) (p : Plan) (key boxes : Nat) : List OutElem × List (Nat × Nat) × StageEnd :=
  let r := p.rec_
  let t := r.dst
  let done : StageEnd := ⟨0, 0, 0, 0⟩
  match r.kind with
  | 1 =>
    let l := forTensor t.n t.h t.w t.c fun n h w c => (n, h, w, c)
    let o := l.mapIdx fun i q => outElem t q.1 q.2.1 q.2.2.1 q.2.2.2 (convValue s p (key + i) q.1 q.2.1 q.2.2.1 q.2.2.2)
    (o ++ padElems t t.n, [], done)
  | 2 =>
    let l := forTensor t.n t.h t.w t.c fun n h w c => (outElem t n h w c (poolValue s r n h w c).1, (poolValue s r n h w c).2)
    (l.map (·.1) ++ padElems t t.n, [], { done with emptyWindows := (l.filter (·.2)).length })
  | 3 =>
    let l := forTensor r.src.n r.src.h r.src.w 1 fun n h w _ =>
      let v := (List.range r.src.c).map fun c => tensorElem s r.src n h w c
      let i := argmax v
      outElem t n h w 0 (.fin false i 0) :: (if r.mode = 1 then [outElem r.aux n h w 0 (v.getD i .nan)] else [])
    (l.flatten ++ (if r.mode = 1 then padElems r.aux r.aux.n else []), [], done)
  | 4 =>
    let bs := boxesOf s r boxes
    let crop (b : Nat) (x : Box) : List OutElem × Nat :=
      let q := boxSamples r x
      let l := q.1.getD []
      (forTensor 1 t.h t.w t.c fun _ i j c =>
        let v := match findIdx (fun y => y.1 = i && y.2.1 = j) l 0 with
          | some k => match l[k]? with
            | some y => cropValue s r (key + ((b * t.h + i) * t.w + j) * t.c + c) x.batch c y.2.2.1 y.2.2.2
            | none => ofF32 r.padValue
          | none => ofF32 r.padValue
        outElem t b i j c v, q.2)
    let cs := bs.1.mapIdx crop
    let bad := (cs.filter fun x => 8 ≤ x.2).length
    let fl := cs.mapIdx fun i x => (r.flagsAddr % 2 ^ 44 + i, x.2)
    ((cs.flatMap (·.1)) ++ padElems t bs.1.length, fl,
      { done with outcome := if bs.1.isEmpty then 1 else if 0 < bad then 2 else 0, flagged := bad, dropped := bs.2 })
  | _ =>
    let ch := oprParam r 4 2
    let cw := oprParam r 6 2
    let l := forTensor 1 t.h t.w 3 fun _ i j c =>
      outElem t 0 i j c (if i < ch && j < cw then pixValue s r (key + pixFree * ((i * t.w + j) * 3 + c)) i j c else ofF32 r.padValue)
    (l ++ padElems t 1, [], done)

/-- How many free values a stage uses for its values; its random bits come after them. -/
def stageFree (p : Plan) : Nat := 2 * p.rec_.dst.n * p.rec_.dst.h * p.rec_.dst.w * (p.rec_.dst.c + 32) * pixFree

/-- R312: an output element, converted once; `key` numbers its random bits. -/
def convElem (flags key : Nat) (x : OutElem) : Conv :=
  convert x.fmt (bitOf flags 0) (if bitOf flags 1 && stochasticTo x.fmt then .stochastic (Config.freeValue key % 65536) else .nearest) x.val

/-- Pieces of bytes, in the order of their addresses, with those that follow each other joined: so a run's outputs are written in whole words
(R245). -/
def joinPieces (l : List (Nat × List Byte)) : List (Nat × List Byte) :=
  (sortBy (fun a b => decide (a.1 ≤ b.1)) l).foldr (fun x acc => match acc with
    | y :: t => if x.1 + x.2.length = y.1 then (x.1, x.2 ++ y.2) :: t else x :: acc
    | [] => [x]) []

/-- An access of a plan's run: the bench that makes it, its address and length. -/
structure PlanAccess where
  bench : Nat
  addr : Nat
  len : Nat
  deriving DecidableEq, Repr, Inhabited

/-- An operator whose outputs are cut into tiles by R307. -/
def tiled (r : OprRec) : Bool := windowed r || r.kind = 3

/-- R307: the tiles of a plan, each with its bench: tile j goes to rank j mod (benches in the run). -/
def planTiles (p : Plan) : List (Nat × Cut × Cut) :=
  let bs := benchesOf p.blocks
  (tilesOf p.rec_ p.hExt p.wExt).mapIdx fun j x => (bs.getD (j % max 1 bs.length) 0, x)

/-- The bench of rank 0, which reads and writes what no tile owns. -/
def leadBench (p : Plan) : Nat := (benchesOf p.blocks).headD 0

/-- R305, R308: what a plan's run reads: each tile's bench the positions that its tile owns; the whole source where the operator has no
tiles. -/
def planReads (p : Plan) : List PlanAccess :=
  let r := p.rec_
  let acc (b : Nat) (x : Nat × Nat) : PlanAccess := ⟨b, x.1, x.2⟩
  (if tiled r then (planTiles p).flatMap fun x => (tileLoads r x.2).map (acc x.1)
    else [⟨leadBench p, tensorBase r.src, tensorSpan r.src⟩])
    ++ (if r.kind = 1 && bitOf r.flags 2 then [⟨leadBench p, r.biasAddr % 2 ^ 44, 4 * r.aux.n⟩] else [])
    ++ (if r.kind = 4 then [⟨leadBench p, tensorBase r.aux, 16 + 32 * oprParam r 4 4⟩] else [])

/-- What a plan's run writes: each tile's bench the outputs of its tile. -/
def planWrites (p : Plan) : List PlanAccess :=
  let r := p.rec_
  let part (t : Tensor) (x : Nat × Cut × Cut) : List PlanAccess :=
    let rows := (List.range (x.2.1.out.2 - x.2.1.out.1)).map (x.2.1.out.1 + ·)
    let cols := (List.range (x.2.2.out.2 - x.2.2.out.1)).map (x.2.2.out.1 + ·)
    (tensorRanges t rows cols (if t.layout = 0 then chanStride t else t.c)).map fun y => ⟨x.1, y.1, y.2⟩
  (if tiled r then (planTiles p).flatMap (part r.dst) else [⟨leadBench p, tensorBase r.dst, tensorSpan r.dst⟩])
    ++ (if r.kind = 3 && r.mode = 1 then (planTiles p).flatMap (part r.aux) else [])
    ++ (if r.kind = 4 then [⟨leadBench p, r.flagsAddr % 2 ^ 44, oprParam r 4 4⟩] else [])

/-- R310: what a bench sends of its tiles to the benches of other tiles: for each halo block, the bench that needs it and its bytes. -/
def haloSends (p : Plan) (b : Nat) : List (Nat × Nat) :=
  let l := planTiles p
  let across := (tileCuts (outShape p.rec_).2 (strideOf p.rec_).2 (extentOf p.rec_).2 p.wExt).length
  if windowed p.rec_ then
    (l.mapIdx fun j x => (haloBlocks p.rec_ across x.2).filterMap fun q =>
      match l[j + q.1]? with
      | some y => if y.1 = b && x.1 ≠ b then some (x.1, q.2) else none
      | none => none).flatten
  else []

end Sys2Proof.Machine
end

