-- ==== Sys2Proof/Machine/Attn.lean ====
section
/-! DEFINITION. Attention: scores, row statistics, read-back and the backward recompute (R349–R359, R364, R365). -/
namespace Sys2Proof.Machine

/-! ### The score slab (R353) -/

/-- R353: a model's share of slab quarters or of the slab lot, in whole pages. -/
def slabShare (bytes benches : Nat) : Nat := bytes / max 1 benches / 65536 * 65536

/-- R353: Y_b and M_b of a model under a pool. -/
def yardSlab (p : PoolCfg) (m : Model) : Nat := slabShare (popCount p.quarters 64 * 0x200000) m.plan.attBenches
def memorySlab (s : State) (c : Nat) (p : PoolCfg) (m : Model) : Nat :=
  slabShare ((if p.slabLot = 0 then none else lotByBase s c p.slabLot).elim 0 lotSize) m.plan.attBenches

/-- R353: where the slab of a row width lives, as its level (0 BENCH, 1 YARD, 2 MEMORY) and its space. -/
def slabLevel (yb mb n : Nat) : Nat × Nat :=
  if n ≤ 8192 then (0, 524288) else if n ≤ 131072 && 4 * n ≤ yb then (1, yb) else (2, mb)

/-- R353: the rows of a pass over rows of `n` keys. -/
def passLimit (yb mb n rows : Nat) : Nat := min rows (min 64 ((slabLevel yb mb n).2 / (4 * max 1 n)))

/-- R353: the rows that the next pass takes of those that remain, given by their key counts: as many as its last row's width allows; a
row alone passes whatever the space (log entry 19). -/
def passRows (yb mb : Nat) (keys : List Nat) : Nat :=
  (((List.range (min 64 keys.length)).map (keys.length.min 64 - ·)).find? fun r => r ≤ passLimit yb mb (keys.getD (r - 1) 0) keys.length).getD 1

/-- R353: the passes over a list of rows: each row with the width of its pass. -/
def passWidths (yb mb : Nat) : Nat → List Nat → List Nat
  | 0, _ => []
  | _, [] => []
  | n + 1, keys =>
    let r := passRows yb mb keys
    List.replicate r (keys.getD (r - 1) 0) ++ passWidths yb mb n (keys.drop r)

/-! ### Masks (R350) -/

/-- R350: how many keys a query at a position may see under its mask mode. -/
def keyCount (a : AttRec) (e : MaskEntry) (p : Nat) : Nat := if a.mask = 3 then max p (e.prefix_ - 1) + 1 else p + 1

/-- R350: a query at position `p` sees key `j`. -/
def sees (a : AttRec) (e : MaskEntry) (p j : Nat) : Bool :=
  let inWindow := p < j + a.window && j ≤ p
  let mode := match a.mask with
    | 0 => decide (j ≤ p)
    | 1 => inWindow
    | 2 => decide (j < min a.sinks (p + 1)) || inWindow
    | _ => decide (j < keyCount a e p)
  mode && !e.ranges.any fun r => r.1 ≤ j && j < r.2

/-! ### Keys and values -/

/-- A K or V row as the matrix engine takes it, with the exponent byte of its scale (127 where the format has none). -/
structure KvRow where
  vals : List Num
  exp : Nat
  deriving DecidableEq, Repr, Inhabited

/-- R326, R349: element `x` of a page's K or V region. An MX element is expanded to BF16 by its block's scale, as MXD does it. -/
def pageElem (s : State) (a : AttRec) (page x : Nat) (isV : Bool) : Num :=
  let r := pageT a * a.hb * a.d
  let base := page * 65536
  let byte (o : Nat) : Nat := leNat (consumeBytes s (base + o) 1)
  match a.fmt with
  | 0 => decodeElem 1 (leNat (consumeBytes s (base + (if isV then 2 * r else 0) + 2 * x) 2))
  | 1 => decodeElem 2 (byte ((if isV then r else 0) + x))
  | _ =>
    let sc := byte ((if isV then 33 * r / 32 else r / 2) + x / 32)
    let v := byte ((if isV then 17 * r / 32 else 0) + x / 2) / 16 ^ (x % 2) % 16
    if sc = 255 then .nan else decodeElem 1 (convert 1 false .nearest (numShift ((sc : Int) - 127) (decodeElem 0x0E v))).bits

/-- R326, R327: the K or V row of a position in a request's pages. `e` is the page-set entry, `h` the head within its group. -/
def pageRow (s : State) (c : Nat) (m : Model) (a : AttRec) (req e h j : Nat) (isV : Bool) : KvRow :=
  let t := max 1 (pageT a)
  let page := (reqOf s req).list.getD (j / t * max 1 (setPages s c m) + e) 0
  let exp := if a.fmt = 1 then
      (scaleAddr (serveOf s c) page).elim 127 fun x => leNat (consumeBytes s (x + 8 * h + bit isV) 1)
    else 127
  ⟨(List.range a.d).map fun i => pageElem s a page ((j % t * a.hb + h) * a.d + i) isV, exp⟩

/-- A row of a tensor of BF16 rows. -/
def bf16Row (s : State) (addr d i : Nat) : List Num :=
  (List.range d).map fun k => decodeElem 1 (leNat (consumeBytes s (addr + 2 * (i * d + k)) 2))

/-- What an attention run works with: its context, model, draft or main attention record and that record's first page-set entry. -/
structure AttCtx where
  c : Nat
  model : Model
  att : AttRec
  first : Nat
  yb : Nat
  mb : Nat
  split : Nat
  masks : Tab MaskEntry
  deriving DecidableEq, Repr, Inhabited

/-- The format of the keys of a run: that of the pages, or BF16 for tensors. -/
def kvFormat (x : AttCtx) (r : AttRun) : Nat := if r.kv.isSome then 0 else x.att.fmt

/-- The K or V row of a position for kv head `g`. -/
def kvRow (s : State) (x : AttCtx) (r : AttRun) (req g j : Nat) (isV : Bool) : KvRow :=
  match r.kv with
  | some (k, v) => ⟨bf16Row s (if isV then v else k) x.att.d (j * x.att.hkv + g), 127⟩
  | none => pageRow s x.c x.model x.att req (x.first + r.layer * attG x.att + g / max 1 x.att.hb) (g % max 1 x.att.hb) j isV

/-! ### Scores (R349) -/

/-- R321: σ; +0 stands for 1/sqrt(D). -/
def sigma (a : AttRec) : Num :=
  if a.scale = 0 then bounded 0x11 (.fin false a.d 0) (toF32 (.fin false a.d 0)) else ofF32 a.scale

/-- R349, R207: a Q row as FP8 operands, with its exponent byte eq + 127; a NaN makes it all NaN. -/
def quantRow (q : List Num) : List Num × Nat :=
  let b := mxQuantise 0x0A (fun _ => .nearest) q
  if b.1 = 255 then (q.map fun _ => .nan, 127) else (b.2.map fun v => decodeElem 2 v.bits, b.1)

/-- R349: the score of a Q row against a K row. `key` picks what the order of summation leaves open. -/
def scoreOf (a : AttRec) (fmt key : Nat) (q : List Num) (k : KvRow) : Num :=
  if fmt = 1 then
    let b := quantRow q
    let acc := dotValue key false (b.1.zip k.vals)
    round32 (numShift ((b.2 : Int) - 127 + (k.exp : Int) - 127) (round32 (numMul (sigma a) acc)))
  else round32 (numMul (sigma a) (dotValue key true (q.zip k.vals)))

/-- R355: exp(s − m), which is 1 exactly for s = m. -/
def expOf (x m : Num) : Num :=
  if numEq x m then .fin false 1 0
  else
    let d := round32 (numAdd x (numNeg m))
    bounded 0x0E d (toF32 d)

/-- R355: the reciprocal of a row sum, which is 1 exactly for 1. -/
def recip (l : Num) : Num := if numEq l (.fin false 1 0) then .fin false 1 0 else bounded 0x10 l (toF32 l)

/-! ### Rows (R354–R359) -/

/-- R357, R358: what a row ends with: its statistics, flags and slab level, and its output before conversion. -/
structure RowOut where
  m : Num
  l : Num
  keys : Nat
  empty : Bool
  nan : Bool
  split : Bool
  level : Nat
  out : List Num
  deriving DecidableEq, Repr, Inhabited

/-- R349: an operand of P·V: p × r in BF16, or in FP8 with the factor 2^(8 + eV − eVmax). -/
def pOperand (fmt : Nat) (p r : Num) (ev evMax : Nat) : Num :=
  let w := round32 (numMul p r)
  if fmt = 1 then decodeElem 2 (convert 2 true .nearest (numShift (8 + (ev : Int) - (evMax : Int)) w)).bits
  else decodeElem 1 (convert 1 false .nearest w).bits

/-- R356: the weights and V rows of a P·V product, padded to a multiple of 64 keys with P = +0 and zero rows. -/
def padKeys (d : Nat) (l : List (Num × List Num)) : List (Num × List Num) :=
  l ++ List.replicate (ceilDiv l.length 64 * 64 - l.length) (.fin false 0 0, List.replicate d (.fin false 0 0))

/-- R349, R356: the read-back: the P·V product of a slab row with its factor. -/
def readBack (d fmt key : Nat) (ps : List Num) (r : Num) (vs : List KvRow) : List Num :=
  let evMax := vs.foldl (fun a v => max a v.exp) 0
  let w := padKeys d ((ps.zip vs).map fun q => (pOperand fmt q.1 r q.2.exp evMax, q.2.vals))
  (List.range d).map fun i =>
    let acc := dotValue (key + i) (fmt ≠ 1) (w.map fun q => (q.1, q.2.getD i (.fin false 0 0)))
    if fmt = 1 then round32 (numShift ((evMax : Int) - 135) acc) else acc

/-- R355, R220: the sum of a slab row as VRED SUM forms it: registers of 128 lanes pair by pair first, then lanes; the last register is filled
up with +0. -/
def rowSum (l : List Num) : Num :=
  let n := ceilDiv l.length 128
  reduceLanes (fun x y => round32 (numAdd x y)) (pieces 128 n (l ++ List.replicate (128 * n - l.length) (.fin false 0 0)))

/-- R353, R355: the row maximum, the p_j and the row sum of a slab row; `none` stands for a hidden column, which holds −∞ and whose key
contributes nothing, even where every visible score is −∞ (DEDUCED from R350; log entry 19). -/
def rowStats (slab : List (Option Num)) : Num × List Num × Num :=
  let m := slab.foldl (fun a x => x.elim a (numMax a)) (.inf true)
  let ps := slab.map fun x => x.elim (.fin false 0 0) (expOf · m)
  (m, ps, rowSum ps)

/-- R354: the ranges of the keys as (first, length). -/
def rangeStarts : List Nat → Nat → List (Nat × Nat)
  | [], _ => []
  | n :: r, a => (a, n) :: rangeStarts r (a + n)

/-- R354: the merge of the ranges of a row, each as its m, l and normalised output; those with l = 0 are omitted. -/
def mergeParts (d : Nat) (parts : List (Num × Num × List Num)) : Num × Num × List Num :=
  let ps := parts.filter fun q => !isZero q.2.1
  let m := (ps.map (·.1)).foldl numMax (.inf true)
  let ws := ps.map fun q => round32 (numMul q.2.1 (expOf q.1 m))
  let add (l : List Num) : Num := l.foldl (fun a v => round32 (numAdd a v)) (.fin false 0 0)
  let l := add ws
  (m, l, (List.range d).map fun i =>
    round32 (numMul (add ((ps.zip ws).map fun q => round32 (numMul (q.1.2.2.getD i (.fin false 0 0)) q.2))) (recip l)))

/-- R357: a row with no visible key. -/
def emptyRow (d : Nat) (split : Bool) (level : Nat) : RowOut :=
  ⟨.inf true, .fin false 0 0, 0, true, false, split, level, List.replicate d (.fin false 0 0)⟩

/-- R357: a row with a score that is NaN or +∞. -/
def nanRow (d keys : Nat) (split : Bool) (level : Nat) : RowOut :=
  ⟨.nan, .nan, keys, false, true, split, level, List.replicate d .nan⟩

/-- R349–R357: a query row of `n` keys over the slab rows of its key ranges, as (first column, columns). `vis` says which keys it sees,
`score` gives a key's score and `val` its V row; a page of `t` keys is read when the row sees one of them. `key` numbers its free values. -/
def attRow (d fmt key n t level : Nat) (parts : List (Nat × Nat)) (vis : Nat → Bool) (score : Nat → Num) (val : Nat → KvRow) : RowOut :=
  let seen := (List.range n).filter vis
  let read (j : Nat) : Bool := seen.any fun i => i / max 1 t = j / max 1 t
  let cut := decide (1 < parts.length)
  match seen with
  | [] => emptyRow d cut level
  | [j] =>
    let x := score j
    if isNan x || x = .inf false then nanRow d 1 cut level
    else ⟨x, .fin false 1 0, 1, false, false, cut, level, (val j).vals.map fun v => numShift (((val j).exp : Int) - 127) v⟩
  | _ =>
    if seen.any fun j => isNan (score j) || score j = .inf false then nanRow d seen.length cut level
    else
      let part (i : Nat) (p : Nat × Nat) : Num × Num × List Num :=
        let js := (List.range p.2).map (p.1 + ·)
        let slab := js.map fun j => if j < n && vis j then some (score j) else none
        let st := rowStats slab
        if slab.all Option.isNone then (.inf true, .fin false 0 0, [])
        else (st.1, st.2.2, readBack d fmt (key + i * d) st.2.1 (recip st.2.2) (js.map fun j => if j < n && read j then val j else ⟨[], 0⟩))
      let os := parts.mapIdx part
      let o := if cut then mergeParts d os else os.headD (.inf true, .fin false 0 0, [])
      ⟨o.1, o.2.1, seen.length, false, false, cut, level, o.2.2⟩

/-- R358: the bytes of a row statistics record. -/
def statsRecord (o : RowOut) : List Byte :=
  leBytes 4 (toF32 o.m) ++ leBytes 4 (toF32 o.l) ++ leBytes 4 o.keys
    ++ leBytes 1 (bit o.empty + 2 * bit o.nan + 4 * bit o.split + 8 * o.level) ++ leBytes 3 0

/-- R359: where a row's record stands: layer `l`, batch row `i` of `rows`, query head `h` of `hq`. -/
def statsAddr (base l rows i hq h : Nat) : Nat := base + ((l * rows + i) * hq + h) * 16

/-! ### Runs -/

/-- The number of free values that a row may use. -/
def rowFree (x : AttCtx) (n : Nat) : Nat := n + (2 + ceilDiv n (max 1 x.split)) * x.att.d

/-- The mask entry that holds for a row (R351); a row of a training batch has none. -/
def rowMask (x : AttCtx) (q : AttQuery) : MaskEntry := tget x.masks q.req {}

/-- The keys of a row. -/
def rowKeys (x : AttCtx) (q : AttQuery) : Nat := keyCount x.att (rowMask x q) q.pos

/-- R354: the key count of a request in a run: that of its last row. -/
def reqKeys (x : AttCtx) (r : AttRun) (req : Nat) : Nat := ((r.rows.filter fun q => q.req = req).map (rowKeys x)).foldl max 0

/-- R349: the score of a row's query head against a key. -/
def rowScore (s : State) (x : AttCtx) (r : AttRun) (i h key : Nat) (q : AttQuery) (j : Nat) : Num :=
  scoreOf x.att (kvFormat x r) (key + j) (bf16Row s r.q x.att.d (i * x.att.hq + h)) (kvRow s x r q.req (kvHead s x.att h) j false)

/-- One row and query head of a forward run. -/
def forwardRow (s : State) (x : AttCtx) (r : AttRun) (i h key width : Nat) (q : AttQuery) : RowOut :=
  let n := rowKeys x q
  let ranges := keyRanges x.split (reqKeys x r q.req)
  let parts := if ranges.length ≤ 1 then [(0, max width n)] else rangeStarts ranges 0
  attRow x.att.d (kvFormat x r) (key + n) n (if r.kv.isSome then 1 else pageT x.att) (slabLevel x.yb x.mb (parts.headD (0, 0)).2).1 parts (sees x.att (rowMask x q) q.pos)
    (rowScore s x r i h key q) fun j => kvRow s x r q.req (kvHead s x.att h) j true

/-- The rows of a run in the order in which the passes take them: those of one request and one kv-head group together, by batch row and
then by query head; each as (batch row, query head, query). -/
def runRows (s : State) (x : AttCtx) (r : AttRun) : List (List (Nat × Nat × AttQuery)) :=
  let rows := r.rows.mapIdx fun i q => (i, q)
  (dedup (r.rows.map (·.req))).flatMap fun req => (List.range (attG x.att)).map fun g =>
    (rows.filter fun p => p.2.req = req).flatMap fun p =>
      ((List.range x.att.hq).filter fun h => kvHead s x.att h / max 1 x.att.hb = g).map fun h => (p.1, h, p.2)
where
  /-- The different values of a list, in order. -/
  dedup (l : List Nat) : List Nat := l.foldl (fun acc v => if acc.contains v then acc else acc ++ [v]) []

/-- R353: the rows of a run with the widths of their passes and the first free value of each. -/
def runPlan (s : State) (x : AttCtx) (r : AttRun) : List (Nat × Nat × AttQuery × Nat) :=
  (runRows s x r).flatMap fun l =>
    let ws := passWidths x.yb x.mb l.length (l.map fun p => rowKeys x p.2.2)
    (l.zip ws).map fun p => (p.1.1, p.1.2.1, p.1.2.2, p.2)

/-- R349–R359: a forward run: each row's output is converted once and written, with its record where a statistics tensor is named. It
answers how many rows are NAN_ROW. -/
def forwardRun (x : AttCtx) (r : AttRun) (s : State) : Nat × State :=
  (runPlan s x r).foldl (fun acc p =>
    let s := acc.2
    let o := forwardRow s x r p.1 p.2.1 s.free p.2.2.2 p.2.2.1
    let e := elemBytes r.fmt
    let bytes := o.out.flatMap fun v => leBytes e (convert r.fmt false .nearest v).bits
    let s := writeBytes (r.o + (p.1 * x.att.hq + p.2.1) * x.att.d * e) bytes [] s
    let s := match r.stats with
      | some a => writeBytes (statsAddr a r.layer r.rows.length p.1 x.att.hq p.2.1) (statsRecord o) [] s
      | none => s
    (acc.1 + bit o.nan, { s with free := s.free + rowFree x (rowKeys x p.2.2.1) })) (0, s)

/-! ### Backward recompute (R364, R365) -/

/-- R364: what a backward run knows of one row and query head: its kv head, the keys it sees, P, dS, and the rows of Q and dO; `nan`
for a NAN_ROW. -/
structure BackRow where
  row : Nat
  head : Nat
  kv : Nat
  req : Nat
  keys : List Nat
  nan : Bool
  p : List Num
  dS : List Num
  q : List Num
  dO : List Num
  deriving DecidableEq, Repr, Inhabited

/-- A value as a BF16 operand of the matrix engine. -/
def bf16Of (v : Num) : Num := decodeElem 1 (convert 1 false .nearest v).bits

/-- R364: one row and query head: P from the saved m and l, dP = dO·Vᵀ, D = Σ dO ⊙ O and dS = P ⊙ (dP − D). -/
def backRow (s : State) (x : AttCtx) (r : AttRun) (b : AttBack) (stats i h key : Nat) (q : AttQuery) : BackRow :=
  let d := x.att.d
  let rec_ := consumeBytes s (statsAddr stats r.layer r.rows.length i x.att.hq h) 16
  let flags := fieldAt rec_ 12 1
  let n := rowKeys x q
  let g := kvHead s x.att h
  let js := if bitOf flags 0 then [] else (List.range n).filter (sees x.att (rowMask x q) q.pos)
  let m := ofF32 (fieldAt rec_ 0 4)
  let inv := recip (ofF32 (fieldAt rec_ 4 4))
  let ps := js.map fun j => round32 (numMul (expOf (rowScore s x r i h key q j) m) inv)
  let dO := bf16Row s b.dO d (i * x.att.hq + h)
  let dd := pairSum ((dO.zip (bf16Row s r.o d (i * x.att.hq + h))).map fun v => round32 (numMul v.1 v.2))
  let ds := (js.zip ps).map fun v =>
    let dp := dotValue (key + n + v.1) true (dO.zip (kvRow s x r q.req g v.1 true).vals)
    round32 (numMul v.2 (round32 (numAdd dp (numNeg dd))))
  ⟨i, h, g, q.req, js, bitOf flags 1, ps, ds, bf16Row s r.q d (i * x.att.hq + h), dO⟩

/-- A gradient that a NAN_ROW touches is NaN (R365). -/
def gradOf (nan : Bool) (v : Num) : Num := if nan then .nan else v

/-- R364: the rows of dQ, dK and dV of a backward run as (address, FP32 values). `key` numbers the free values. -/
def gradients (s : State) (x : AttCtx) (r : AttRun) (b : AttBack) (rows : List BackRow) (key : Nat) : List (Nat × List Num) :=
  let d := x.att.d
  let at_ (base i : Nat) : Nat := base + 4 * d * i
  let dims (k : Nat) (nan : Bool) (f : Nat → List (Num × Num)) (scale : Num) : List Num :=
    (List.range d).map fun e => gradOf nan (round32 (numMul scale (dotValue (key + k * d + e) true (f e))))
  let one : Num := .fin false 1 0
  let zero : Num := .fin false 0 0
  let dq := rows.mapIdx fun k w =>
    (at_ b.dQ (w.row * x.att.hq + w.head), dims k w.nan (fun e => (w.keys.zip w.dS).map fun v =>
      (bf16Of v.2, (kvRow s x r w.req w.kv v.1 false).vals.getD e zero)) (sigma x.att))
  let n := (r.rows.map (rowKeys x)).foldl max 0
  let places := (List.range n).flatMap fun j => (List.range x.att.hkv).map fun g => (j, g)
  let touch (j g : Nat) : List (BackRow × Nat) :=
    (rows.filter fun w => w.kv = g).filterMap fun w => (findIdx (· = j) w.keys 0).map fun t => (w, t)
  let side (k : Nat) (base : Nat) (w : BackRow → Nat → Num) (v : BackRow → List Num) (scale : Num) : List (Nat × List Num) :=
    places.mapIdx fun i p =>
      let l := touch p.1 p.2
      (at_ base (p.1 * x.att.hkv + p.2), dims (k + i) (l.any fun q => q.1.nan) (fun e => l.map fun q =>
        (bf16Of (w q.1 q.2), (v q.1).getD e zero)) scale)
  dq ++ side rows.length b.dK (fun w t => w.dS.getD t zero) (·.q) (sigma x.att)
    ++ side (rows.length + places.length) b.dV (fun w t => w.p.getD t zero) (·.dO) one

/-- R364: a backward run writes its gradients. -/
def backwardRun (x : AttCtx) (r : AttRun) (b : AttBack) (stats : Nat) (s : State) : State :=
  let plan := runPlan s x r
  let step (w : Nat × Nat × AttQuery × Nat) : Nat := 2 * rowKeys x w.2.2.1
  let rows := (plan.foldl (fun (acc : List BackRow × Nat) w =>
    (acc.1 ++ [backRow s x r b stats w.1 w.2.1 (s.free + acc.2) w.2.2.1], acc.2 + step w)) ([], 0))
  let g := gradients s x r b rows.1 (s.free + rows.2)
  let s := g.foldl (fun s p => writeBytes p.1 (p.2.flatMap fun v => leBytes 4 (toF32 v)) [] s) s
  { s with free := s.free + rows.2 + g.length * x.att.d }

/-! ### Runs of a step -/

/-- R326: the bytes of a page that hold the rows of a slot: K and V elements, and their block scales. -/
def slotRanges (a : AttRec) (page slot : Nat) : List (Nat × Nat) :=
  let w := a.hb * a.d
  let r := pageT a * w
  let b := page * 65536
  match a.fmt with
  | 0 => [(b + 2 * slot * w, 2 * w), (b + 2 * r + 2 * slot * w, 2 * w)]
  | 1 => [(b + slot * w, w), (b + r + slot * w, w)]
  | _ => [(b + slot * w / 2, w / 2), (b + r / 2 + slot * w / 32, w / 32), (b + 17 * r / 32 + slot * w / 2, w / 2),
      (b + 33 * r / 32 + slot * w / 32, w / 32)]

/-- What a run reads of the pages of its requests: the rows of every key that one of its rows sees, in each group's pages, and the scale records of
FP8 pages. -/
def pageReads (s : State) (x : AttCtx) (r : AttRun) : List (Nat × Nat) :=
  let t := max 1 (pageT x.att)
  (runRows.dedup (r.rows.map (·.req))).flatMap fun req =>
    let rows := r.rows.filter fun q => q.req = req
    let keys := (List.range ((rows.map (rowKeys x)).foldl max 0)).filter fun j =>
      rows.any fun q => sees x.att (rowMask x q) q.pos j && j < rowKeys x q
    (List.range (attG x.att)).flatMap fun g =>
      let page (c : Nat) : Nat := (reqOf s req).list.getD (c * max 1 (setPages s x.c x.model) + (x.first + r.layer * attG x.att + g)) 0
      (keys.flatMap fun j => slotRanges x.att (page (j / t)) (j % t))
        ++ (if x.att.fmt = 1 then (runRows.dedup (keys.map (· / t))).filterMap fun c =>
            (scaleAddr (serveOf s x.c) (page c)).map fun a => (a, 8 * x.att.hb)
          else [])

/-- The ranges that a run reads and writes, as (address, length). -/
def attReads (s : State) (x : AttCtx) (r : AttRun) : List (Nat × Nat) :=
  let n := (r.rows.map (rowKeys x)).foldl max 0
  let heads := r.rows.length * x.att.hq
  [(r.q, 2 * heads * x.att.d)] ++ (match r.kv with
    | some (k, v) => [(k, 2 * n * x.att.hkv * x.att.d), (v, 2 * n * x.att.hkv * x.att.d)]
    | none => pageReads s x r) ++ (match r.back, r.stats with
    | some b, some a => [(r.o, 2 * heads * x.att.d), (b.dO, 2 * heads * x.att.d), (statsAddr a r.layer r.rows.length 0 x.att.hq 0, 16 * heads)]
    | _, _ => [])

def attWrites (x : AttCtx) (r : AttRun) : List (Nat × Nat) :=
  let n := (r.rows.map (rowKeys x)).foldl max 0
  let heads := r.rows.length * x.att.hq
  match r.back, r.stats with
  | some b, some _ => [(b.dQ, 4 * heads * x.att.d), (b.dK, 4 * n * x.att.hkv * x.att.d), (b.dV, 4 * n * x.att.hkv * x.att.d)]
  | some _, none => []
  | none, some a => [(r.o, elemBytes r.fmt * heads * x.att.d), (statsAddr a r.layer r.rows.length 0 x.att.hq 0, 16 * heads)]
  | none, none => [(r.o, elemBytes r.fmt * heads * x.att.d)]

/-- R44, R242–R244: what an attention run meets in memory: a lot that does not pass, or a poisoned word. -/
def attFault (s : State) (x : AttCtx) (r : AttRun) : Option (Nat × Nat) :=
  let lot := ((attReads s x r).map fun a => (a, Right.r)) ++ ((attWrites x r).map fun a => (a, Right.w))
  match lot.find? fun a => 0 < a.1.2 && !lotPasses s x.c a.1.1 a.1.2 a.2 false with
  | some a => some (0x9101, a.1.1)
  | none => ((attReads s x r).find? fun a => rangeBad s a.1 a.2).map fun a => (0x4104, a.1)

/-- A run belongs to its step: a serving step's rows are of its requests, and a training step's keys stand in tensors. -/
def runFits (p : Step) (r : AttRun) : Bool :=
  if p.kind = .training then r.kv.isSome else r.rows.all fun q => p.items.any fun i => i.1 = q.req

/-- The setting of a run in a step: none for a layer that its record does not have, and for a draft's run where the model has none. -/
def attCtxOf (s : State) (c : Nat) (p : Step) (r : AttRun) : Option AttCtx :=
  match modelOf s c p.model with
  | none => none
  | some m =>
    let y := serveOf s c
    let mk (a : AttRec) (first : Nat) (of : Model) : Option AttCtx :=
      if r.layer < a.layers && runFits p r then
        some ⟨c, m, a, first, yardSlab y.pool of, memorySlab s c y.pool of, y.pool.split, p.masks⟩ else none
    if r.draft then (draftOf s c m).bind fun d => mk d.att (m.att.layers * attG m.att) d else mk m.att 0 m

/-- R359: the run as its step names it: only a training step's run names a statistics tensor, runs backward and has its keys in tensors;
its rows belong to no request. -/
def namedRun (p : Step) (r : AttRun) : AttRun :=
  if p.kind = .training then { r with rows := r.rows.map fun q => { q with req := 2 ^ 32 } } else { r with stats := none, back := none, kv := none }

/-- What the attention runs of a step have done so far: the NAN_ROW rows, the fault that ended them, and the state. -/
structure AttDone where
  nan : Nat := 0
  fault : Option (Nat × Nat) := none
  s : State

/-- One attention run of a step. -/
def attRun (c : Nat) (p : Step) (acc : AttDone) (r : AttRun) : AttDone :=
  let r := namedRun p r
  match acc.fault, attCtxOf acc.s c p r with
  | none, some x =>
    (match attFault acc.s x r with
    | some f => { acc with fault := some f }
    | none =>
      let s := (attReads acc.s x r).foldl (fun s a => yardAccess a.1 a.2 (if r.kv.isNone && a.1 ≠ r.q then .bulk else .request) .read
        (consumeCount a.1 a.2 s)) acc.s
      let s := (attWrites x r).foldl (fun s a => yardAccess a.1 a.2 .request .write s) s
      match r.back, r.stats with
      | some b, some a => { acc with s := backwardRun x r b a s }
      | some _, none => acc
      | none, _ => let q := forwardRun x r s; { acc with nan := acc.nan + q.1, s := q.2 })
  | _, _ => acc

/-- R349–R359, R364: the attention runs of a step, in order, until one meets a fault. -/
def attRuns (c : Nat) (p : Step) (l : List AttRun) (s : State) : AttDone := l.foldl (attRun c p) { s := s }

end Sys2Proof.Machine
end

