-- ==== Sys2Proof/Machine/Sampler.lean ====
section
/-! DEFINITION. The sampler unit: the draw of R398 and the choice of a token of R397. -/
namespace Sys2Proof.Machine

/-- R398: the draw, as a 24-bit integer to be divided by 2^24. -/
def draw24 (seed tag position j : Nat) : Nat :=
  sm4Encrypt (seed % 2 ^ 64 + 2 ^ 64 * (tag % 2 ^ 64)) (position % 2 ^ 32 + 2 ^ 32 * (j % 2 ^ 32)) / 2 ^ 104

/-! ### Choosing a token -/

/-- A FP32 quotient, rounded to nearest even (log entry 19). -/
def numDiv (a b : Num) : Num :=
  match a, b with
  | .nan, _ => .nan
  | _, .nan => .nan
  | .inf n, .inf _ => if n then .nan else .nan
  | .inf n, .fin k _ _ => .inf (n != k)
  | .fin n _ _, .inf k => .fin (n != k) 0 0
  | .fin n m e, .fin k d f =>
    if d = 0 then (if m = 0 then .nan else .inf (n != k))
    else
      let sh := 40 + Nat.log2 d
      let q := m * 2 ^ sh / d
      round32 (.fin (n != k) (2 * q + (if m * 2 ^ sh % d = 0 then 0 else 1)) (e - f - sh - 1))

/-- R397: the logits after bias and repetition penalty. -/
def adjustLogits (p : SamplerPar) (bias : List (Nat × Nat)) (recent : List Nat) (z : List Num) : List Num :=
  let z := bias.foldl (fun z x => z.modify x.1 fun v => round32 (numAdd v (ofF32 x.2))) z
  let rp := ofF32 p.repPenalty
  if numEq rp (.fin false 1 0) then z
  else
    let seen := (if p.repWindow = 0 then recent else recent.drop (recent.length - p.repWindow)).eraseDups
    seen.foldl (fun z t => z.modify t fun v =>
      if numLt (.fin false 0 0) v then numDiv v rp else round32 (numMul v rp)) z

/-- What a position's choice gives: a token, or the recorder code of its fault (R399). -/
inductive Pick where
  | token (t : Nat)
  | fault (code : Nat)
  deriving DecidableEq, Repr, Inhabited

/-- The value is +∞, or −∞. -/
def isPosInf (x : Num) : Bool := x = .inf false
def isNegInf (x : Num) : Bool := x = .inf true

/-- The lowest index with the largest value. -/
def argMaxNum (l : List Num) : Nat :=
  (l.foldl (fun (a : Nat × Nat × Num) x => (a.1 + 1, if numLt a.2.2 x then (a.1, x) else a.2)) (0, 0, .inf true)).2.1

/-- R397: the first candidate whose running sum exceeds u · s. -/
def firstOver (limit : Num) : List (Nat × Num) → Num → Nat → Nat
  | [], _, last => last
  | (t, w) :: r, sum, _ => if numLt limit (numAdd sum w) then t else firstOver limit r (numAdd sum w) t

/-- R397: the shortest prefix whose weights sum to at least `need`. -/
def prefixTo (need : Num) : List (Nat × Num) → Num → List (Nat × Num)
  | [], _ => []
  | (t, w) :: r, sum => if numLt (numAdd sum w) need then (t, w) :: prefixTo need r (numAdd sum w) else [(t, w)]

def numSum (l : List Num) : Num := l.foldl numAdd (.fin false 0 0)

/-- R397: sampling among finite values; exponentials are the module's own (R218), sums and comparisons exact. -/
def sampleFrom (p : SamplerPar) (y : List Num) (u24 : Nat) : Nat :=
  let n := min (if p.topK = 0 then 1024 else p.topK) y.length
  let ranked := sortBy (fun (a b : Nat × Num) => !numLt a.2 b.2) (y.mapIdx fun i v => (i, v))
  let m := (ranked.headD (0, .nan)).2
  let w (v : Num) : Num := let d := round32 (numAdd v (numNeg m)); bounded 0x0E d (toF32 d)
  let c := (ranked.take n).map fun q => (q.1, w q.2)
  let z := numSum (y.map w)
  let keep := prefixTo (numMul (ofF32 p.topP) z) c (.fin false 0 0)
  let p0 := (c.headD (0, .nan)).2
  let keep := keep.filter fun q => !numLt q.2 (numMul (ofF32 p.minP) p0)
  let s := numSum (keep.map (·.2))
  firstOver (numMul (.fin false u24 (-24)) s) keep (.fin false 0 0) ((keep.headD (0, .nan)).1)

/-- R397, R399: the token of one position. `recent` is the sequence before it. -/
def pickToken (p : SamplerPar) (bias : List (Nat × Nat)) (seed tag position : Nat) (recent : List Nat) (logits : Logits) : Pick :=
  let z := adjustLogits p bias recent (logits.map ofF32)
  if z.any isNan then .fault 0x5110
  else if z.all isNegInf then .fault 0x5111
  else if p.mode = 0 then .token (argMaxNum z)
  else
    let y := z.map fun v => numDiv v (ofF32 p.temperature)
    let u := draw24 seed tag position 0
    let top := ((y.mapIdx fun i v => (i, v)).filter fun q => isPosInf q.2).map (·.1)
    if !top.isEmpty then .token (top.getD (u * top.length / 2 ^ 24) 0)
    else .token (sampleFrom p y u)

end Sys2Proof.Machine
end

