-- ==== Sys2Proof/Machine/Boundary.lean ====
section
/-! DEFINITION. A step boundary of a context (R340): endings, page work, attention work and the choice of the next step
(R341–R363, R373, R380–R382, R400, R406–R408, R411, R418). -/
namespace Sys2Proof.Machine

/-! ### Order and needs -/

/-- R341: the allocation order of two requests. -/
def allocLe (a b : Nat × Request) : Bool :=
  let x := a.2
  let y := b.2
  if x.priority ≠ y.priority then decide (y.priority < x.priority)
  else match x.deadline, y.deadline with
    | some d, some e => if d = e then stampLe x.admitStamp y.admitStamp else stampLt d e
    | some _, none => true
    | none, some _ => false
    | none, none => stampLe x.admitStamp y.admitStamp

/-- The requests of a context that take part in allocation, in allocation order. -/
def allocOrder (s : State) (c : Nat) : List (Nat × Request) :=
  sortBy allocLe ((liveReqs s c).filter fun q => q.2.joined && serving_ q.2)

/-- R394: the positions that a prefill covers. -/
def prefillTarget (r : Request) : Nat := r.promptLen + (if r.recompute then r.generated else 0)

/-- The state a request steps in: that it parked from, for a PARKED one. -/
def stepState (r : Request) : ReqState := if r.state = .parked then r.parkedFrom else r.state

/-- R406, R410, R411: the draft length of a request's coming decode step. -/
def draftLen (s : State) (c : Nat) (r : Request) : Nat :=
  match (modelOf s c r.model).bind (draftOf s c) with
  | none => 0
  | some d =>
    let k := if r.k = 0 then (if r.probeIn = 0 then 1 else 0) else r.k
    let k := if d.att.chunk < r.draftLag then 0 else k
    match r.ring.bind (ringOf s c) with
    | some g => min k (ringFree g - 2)
    | none => k

/-- R342: the rows of the coming step. -/
def stepRows (s : State) (c : Nat) (r : Request) : Nat :=
  if stepState r = .decode then draftLen s c r + 1
  else match modelOf s c r.model with
    | some m => min m.att.chunk (prefillTarget r - r.kept)
    | none => 0

/-! ### Step 1: verified requests -/

/-- R340 step 1, R348, R409, R411: the KV tail of a verified request moves to its accepted length. `draftLag` counts the rows that the draft lacks: a
step with draft tokens leaves none; a step that deferred the draft's return wrote a chunk of them, and one that had none to write adds its own. -/
def moveTail (c x : Nat) (s : State) : State :=
  let r := reqOf s x
  match r.verified with
  | none => s
  | some (k, a) =>
    let chunk := ((modelOf s c r.model).bind (draftOf s c)).elim 0 (·.att.chunk)
    let due := r.k ≠ 0 || r.probeIn = 0
    let lag := if 0 < k then 0 else if due && chunk < r.draftLag then r.draftLag - chunk + 1 else r.draftLag + 1
    modReq x (fun r => { r with kept := r.kept + a + 1, draftLag := lag }) s

/-- A change of k is recorded (R410). -/
def setDraftLen (c x k : Nat) (s : State) : State :=
  if (reqOf s x).k = k then s
  else record 0x5150 0 0 (some c) true [⟨2, x⟩, ⟨1, k⟩] (modReq x (fun r => { r with k := k }) s)

/-- R410: adapt the draft length after a step with `k` draft tokens of which `a` were accepted, under the policy from this boundary on. -/
def adaptDraft (c x : Nat) (s : State) : State :=
  let r := reqOf s x
  let pol := (serveOf s c).policy
  match r.verified with
  | none => s
  | some (k, a) =>
    let s := modReq x (fun r => { r with verified := none }) s
    if r.k = 0 then
      if k = 0 then modReq x (fun r => { r with probeIn := r.probeIn - 1 }) s
      else
        let s := modReq x (fun r => { r with probeIn := 31, zeroStreak := 0, fullStreak := 0 }) s
        if a = 0 then s else setDraftLen c x 1 s
    else if k = 0 then s
    else
      let z := if a = 0 then r.zeroStreak + 1 else 0
      let f := if a = k then r.fullStreak + 1 else 0
      let s := modReq x (fun r => { r with zeroStreak := if 4 ≤ z then 0 else z, fullStreak := if pol.grow ≤ f then 0 else f }) s
      if 4 ≤ z then setDraftLen c x (r.k / 2) (modReq x (fun r => { r with probeIn := 31 }) s)
      else if pol.grow ≤ f then setDraftLen c x (min (r.k + 1) pol.kMax) s
      else s

/-! ### Step 2: endings and publication -/

/-- The last `n` tokens of a request's history. -/
def historyTail (s : State) (r : Request) (len n : Nat) : List Nat :=
  let k := min n len
  (pieces 4 k (consumeBytes s (r.histAddr + 4 * (len - k)) (4 * k))).map leNat

/-- R400: the tokens of a step in order, up to the one that ends the request. `seen` is the end of the sequence before them. -/
def scanTokens (stops : StopSet) (maxNew maxLen : Nat) : Nat → List Nat → List TokenRec → List TokenRec × Option Ending
  | _, _, [] => ([], none)
  | gen, seen, t :: l =>
    let seq := seen ++ [t.token]
    if stops.tokens.contains t.token || stops.seqs.any (fun q => !q.isEmpty && q.isSuffixOf seq) then ([t], some ⟨1, t.stamp⟩)
    else if maxNew ≤ gen + 1 || maxLen ≤ t.position + 1 then ([t], some ⟨2, t.stamp⟩)
    else let q := scanTokens stops maxNew maxLen (gen + 1) seq l; (t :: q.1, q.2)

/-- R347, R24: the deadline has passed: what the boundary does is stamped at or after it. -/
def deadlinePassed (s : State) (r : Request) : List Ending :=
  match r.deadline with
  | some d => if stampLe d (nextStamp s) then [⟨3, d⟩] else []
  | none => []

/-- R388, R406: the tokens of a request that may be published: those emitted before its deadline, as far as its ring keeps one position free for
the final record. -/
def publishable (s : State) (c : Nat) (r : Request) : List TokenRec :=
  let l := r.out.takeWhile fun t => r.deadline.elim true (stampLt t.stamp ·)
  match r.ring.bind (ringOf s c) with
  | some g => l.take (ringFree g - 1)
  | none => l

/-- R387–R389, R400: one request at a boundary: its tokens are published as far as they may be, and it ends or goes on. -/
def settleRequest (c x : Nat) (s : State) : State :=
  let s := placeSwitched c x s
  let r := reqOf s x
  let maxLen := (modelOf s c r.model).elim 0 (·.rec_.maxLen)
  let stops := (tget (serveOf s c).stops r.stopSet none).getD ⟨[], []⟩
  let ship := r.shipOut && r.state = .prefill
  let q := if ship then ([], none)
    else scanTokens stops r.maxNew maxLen r.generated (historyTail s r (r.promptLen + r.generated) 8) (publishable s c r)
  let cancel := match r.cancel with
    | some t => [Ending.mk 4 t]
    | none => []
  let win := firstEnding (q.2.toList ++ r.ending.toList ++ cancel ++ deadlinePassed s r)
  let own := q.2
  let l := match win with
    | none => q.1
    | some e => if some e = own then q.1 else if e.status = 4 then [] else q.1.filter fun t => stampLt t.stamp e.stamp
  let s := l.foldl (fun s t => publishToken c x t s) s
  match win with
  | some e => endRequest c x e (r.shipOut && e.status = 1) s
  | none =>
    let go := !r.out.isEmpty && !ship && (r.state = .prefill || r.state = .waitKv)
    modReq x (fun r => { r with out := if ship then r.out else r.out.drop q.1.length, state := if go then .decode else r.state }) s

/-- R336, R418: a WAIT_KV request whose last page has arrived: the first token and the acknowledgement. -/
def receiveShipment (c x : Nat) (s : State) : State :=
  match shipOf s x with
  | none => s
  | some h =>
    if h.sender || !h.accepted || h.total < h.pages then s
    else
      let r := reqOf s x
      let s := modReq x (fun r => { r with kept := r.promptLen, out := [⟨h.token, r.promptLen, h.tokenStamp, 0⟩], draftLag := 0 }) s
      let s := match laneFor c h.peer h.peerCtx (choosePort s c 0) false s with
        | (some n, s) => sendOp n (.ship x) ⟨0x15, h.peer, { blankMsg with op := 4, srcC := c, dstC := h.peerCtx, operand := r.shipId }⟩ s
        | (none, s) => s
      dropShip x s

/-- R469: the payload of a shipment's ANNOUNCE; the places of its fields are the model's choice (log entry 19). -/
def announceBytes (r : Request) (a : AttRec) (h : Shipment) : List Byte :=
  let l := fieldBytes [⟨4, h.pages⟩, ⟨4, r.promptLen⟩, ⟨2, a.d⟩, ⟨1, a.hb⟩, ⟨1, a.fmt⟩, ⟨2, a.layers⟩, ⟨8, r.tag⟩, ⟨4, h.token⟩,
    ⟨10, stampNat h.tokenStamp⟩]
  l ++ List.replicate (64 - l.length) 0

/-- Send, or send again, a shipment's ANNOUNCE. -/
def sendAnnounce (c x : Nat) (s : State) : State :=
  match shipOf s x, modelOf s c (reqOf s x).model with
  | some h, some m =>
    sendModule 0x15 0 h.peer { blankMsg with
      srcC := c, dstC := h.peerCtx, operand := h.shipId, length := 64, data := announceBytes (reqOf s x) m.att h }
      (modShip x (fun h => { h with lastResend := now s }) s)
  | _, _ => s

/-- R418: the pages that a shipment sends: those of the page sets for positions 0 to prompt_len. -/
def shippedPages (s : State) (c : Nat) (r : Request) : Nat :=
  (modelOf s c r.model).elim 0 fun m => min r.list.length (setsFor m.att (r.promptLen + 1) * setPages s c m)

/-- R418: a ship_out request whose last chunk has ended is announced to its peer. -/
def announceShip (c x : Nat) (s : State) : State :=
  let r := reqOf s x
  match r.out, shipOf s x with
  | t :: _, none =>
    if r.shipOut && r.state = .prefill then
      let h : Shipment :=
        { req := x, sender := true, peer := r.shipModule, peerCtx := c, shipId := r.shipId, pages := shippedPages s c r
          announcedAt := now s, lastResend := now s, token := t.token, tokenStamp := t.stamp }
      let s := { s with net := { s.net with ships := s.net.ships ++ [h] } }
      if peerUnreachable s r.shipModule then failShip x false s else sendAnnounce c x s
    else s
  | _, _ => s

/-- R340 step 2: what commands have changed takes effect. -/
def applyChanges (c : Nat) (s : State) : State :=
  let s := (liveReqs s c).foldl (fun s q => modReq q.1 (fun r => { r with
    joined := true, priority := r.newPriority.getD r.priority, deadline := r.newDeadline.getD r.deadline
    newPriority := none, newDeadline := none }) s) s
  modServe c (fun y => { y with
    policy := y.newPolicy.getD y.policy, newPolicy := none, evict := y.newEvict.getD y.evict, newEvict := none
    samplers := y.newSamplers.foldl (fun t p => tset t p.1 p.2) y.samplers, newSamplers := [], changed := false }) s

/-- R405: a returned index moves a ring's consumer index on, or is ignored and counted. -/
def returnIndex (c n v : Nat) (s : State) : State :=
  match ringOf s c n with
  | none => s
  | some r =>
    if seqDist r.cons v ≤ seqDist r.cons (ringWritten s c n r) then modRing c n (fun r => { r with cons := v }) s
    else record 0x5122 1 0 (some c) true [⟨2, n⟩, ⟨4, v⟩] { s with serve := { s.serve with badWrites := satAdd 64 s.serve.badWrites 1 } }

/-- R405: the consumer-index words of REMOTE rings are read; a word not seen before is a returned index. -/
def readCons (c : Nat) (s : State) : State :=
  (serveOf s c).rings.foldl (fun s p => match ringOf s c p.1 with
    | some r =>
      if r.par.kind ≠ 2 then s
      else
        let v := leNat (consumeBytes s r.par.consWord 8)
        let s := squareReads [(r.par.consWord, 8)] s
        if v = r.seen || rangeBad s r.par.consWord 8 then s else returnIndex c p.1 (v % 2 ^ 32) (modRing c p.1 (fun r => { r with seen := v }) s)
    | none => s) s

/-- R406, R408, R686: hold a DECODE request whose ring is full or unreachable, or whose journal is. -/
def holdRing (c x : Nat) (s : State) : State :=
  let r := reqOf s x
  if r.state ≠ .decode then modReq x (fun r => { r with ringHold := false }) s
  else match r.ring with
    | none => s
    | some n =>
      match ringOf s c n with
      | none => s
      | some g =>
        let full := ringFree g < 2
        let dead := ringDead s c n g
        let jour := journalDead s c
        let s := if full then record 0x5120 1 0 (some c) true [⟨2, x⟩, ⟨2, n⟩] s else s
        let s := if dead then record 0x5121 2 0 (some c) true [⟨2, x⟩, ⟨2, n⟩] s else s
        let s := if jour then record 0xA110 2 0 (some c) true [⟨2, x⟩] s else s
        let s := if full then modServe c (fun y => { y with ringHolds := satAdd 64 y.ringHolds 1 }) s else s
        modReq x (fun r => { r with ringHold := full || dead || jour }) s

/-- R408: a final record that waits for an unreachable ring is reported at each boundary. -/
def heldFinals (c : Nat) (s : State) : State :=
  (serveOf s c).pend.foldl (fun s p => match ringOf s c p.ring with
    | some g => if p.final && ringDead s c p.ring g then record 0x5121 2 0 (some c) true [⟨2, p.req⟩, ⟨2, p.ring⟩] s else s
    | none => s) s

/-! ### Steps 3 to 6: pages -/

/-- R345, R393: a victim gives up its pages, and starts again or ends. -/
def evictRequest (c x v : Nat) (s : State) : State :=
  let r := reqOf s v
  let s := freeRequestPages c v .allocated s
  let s := modServe c (fun y => { y with evictions := satAdd 64 y.evictions 1 }) s
  let s := record 0x5104 1 0 (some c) false [⟨2, x⟩, ⟨2, v⟩] s
  let s := modReq v (fun r => { r with evictions := r.evictions + 1 }) s
  if r.noRecompute || 8 ≤ r.evictions + 1 then
    let s := record 0x5141 1 0 (some c) false [⟨2, v⟩] s
    let t := issueStamp s
    endRequest c v ⟨5, t.1⟩ false t.2
  else modReq v (fun r => { r with state := .admitted, recompute := true, kept := 0, out := [], draftLag := 0 }) s

/-- R345: the victim of a requester. -/
def victimFor (s : State) (c x : Nat) : Option Nat :=
  let l := (allocOrder s c).filter fun q => q.2.state = .decode && q.1 ≠ x && allocLe (x, reqOf s x) q
  l.getLast?.map (·.1)

/-- R342, R345: secure the pages of a request's coming step, evicting while that helps. -/
def secureEvicting (c x n : Nat) (evict : Bool) : Nat → State → Bool × State
  | 0, s => (false, s)
  | fuel + 1, s =>
    match securePages c x n .allocated 2048 s with
    | some s => (true, s)
    | none =>
      if !evict then (false, s)
      else match victimFor s c x with
        | none => (false, s)
        | some v => secureEvicting c x n evict fuel (evictRequest c x v s)

/-- R344: a request parks, or stays PARKED. -/
def parkRequest (c x : Nat) (s : State) : State :=
  record 0x5102 1 0 (some c) true [⟨2, x⟩]
    (modReq x (fun r => if r.state = .parked then r else { r with state := .parked, parkedFrom := r.state }) s)

/-- A request that needs pages for a coming step: one in PREFILL with positions left, or in DECODE and not held, or PARKED from there. -/
def needsPages (r : Request) : Bool := (stepState r = .prefill && r.kept < prefillTarget r) || (stepState r = .decode && !r.ringHold)

/-- R342: the page sets of a request's coming step stand in its list. -/
def pagesSecured (s : State) (c x : Nat) : Bool :=
  let r := reqOf s x
  (modelOf s c r.model).elim false fun m => setsFor m.att (r.kept + stepRows s c r) * setPages s c m ≤ r.list.length

/-- R340 step 3: one request's pages for the coming step. -/
def secureRequest (c x : Nat) (s : State) : State :=
  let r := reqOf s x
  if needsPages r then (secureEvicting c x (r.kept + stepRows s c r) (serveOf s c).evict 4096 s).2 else s

/-- R340 step 6, R344: a request without the pages of its coming step parks; a PARKED one that has them goes on, held if its ring holds it
(R406, R408). -/
def parkOrReturn (c x : Nat) (s : State) : State :=
  let r := reqOf s x
  if !needsPages r then s
  else if !pagesSecured s c x then parkRequest c x s
  else if r.state = .parked then holdRing c x (modReq x (fun r => { r with state := r.parkedFrom, starved := false }) s)
  else s

/-- R340 step 4: an ADMITTED request starts when its first chunk can be secured. -/
def startAdmitted (c x : Nat) (s : State) : State :=
  let r := reqOf s x
  if r.state ≠ .admitted then s
  else
    match modelOf s c r.model with
    | none => s
    | some m =>
      match securePages c x (min m.att.chunk (prefillTarget r)) .allocated 2048 s with
      | some s => modReq x (fun r => { r with state := .prefill, kept := 0 }) s
      | none => s

/-- R342, R343: reserve the look-ahead of a request that steps. -/
def lookAhead (c x : Nat) (s : State) : State :=
  let r := reqOf s x
  if needsPages r && pagesSecured s c x then
    match securePages c x (r.kept + 2 * stepRows s c r) .allocated 2048 s with
    | some s => s
    | none => record 0x5107 0 0 (some c) true [⟨2, x⟩] (modServe c (fun y => { y with lookMisses := satAdd 64 y.lookMisses 1 }) s)
  else s

/-- R346: a PARKED request is starved while no other request of the context holds a page or is in WAIT_KV. -/
def markStarved (c x : Nat) (s : State) : State :=
  let r := reqOf s x
  if r.state ≠ .parked then s
  else
    let other := (liveReqs s c).any fun q => q.1 ≠ x && (!q.2.list.isEmpty || q.2.state = .waitKv)
    if other then modReq x (fun r => { r with starved := false }) s
    else
      let s := if r.starved then s
        else
          let room := match r.ring.bind (ringOf s c) with
            | some g => decide (2 ≤ ringFree g)
            | none => false
          let t := issueStamp s
          if room then placeNote c x (noteToken s r) (4 + switchedBit r) t.1 t.2 else s
      record 0x5103 2 0 (some c) true [⟨2, x⟩] (modReq x (fun r => { r with starved := true }) s)

/-- R335: the identity of the pool fails: the context's serving halts and returns no page. -/
def haltPool (c : Nat) (s : State) : State :=
  let y := serveOf s c
  let s := record 0x5101 3 0 (some c) false
    [⟨4, y.poolSize⟩, ⟨4, freeCount y⟩, ⟨4, y.allocated⟩, ⟨4, y.inTransit⟩] s
  let s := modCtx c (fun x => { x with state := .halted }) (modServe c (fun y => { y with halted := true, step := none }) s)
  let s := { s with net := { s.net with ships := s.net.ships.filter fun h => (reqOf s h.req).ctx ≠ c } }
  let s := (liveReqs s c).foldl (fun s q => modReq q.1 (fun r => { r with list := [], blocks := [] }) s) s
  notify 2 0x5101 0 (endAll c 7 (fun _ => true) s)

/-- R334. -/
def checkPool (c : Nat) (s : State) : State := if poolBalanced (serveOf s c) then s else haltPool c s

/-! ### Step 7: attention work -/

/-- R361: the bucket of a key count. -/
def bucketOf (cuts : List Nat) (n : Nat) : Nat := (cuts.filter (· < n)).length

/-- R361, R363: the bucket of a request that steps `q` rows. -/
def reqBucket (s : State) (c x q : Nat) : Nat :=
  let r := reqOf s x
  bucketOf (serveOf s c).cuts (if r.generated = 0 || r.recompute then min 1048576 (r.promptLen + r.maxNew) else r.kept + q)

/-- R361, R363: a request's items, and its place in bucket order. -/
def workItems (s : State) (c : Nat) (x q : Nat) : List WorkItem :=
  (keyRanges (serveOf s c).pool.split ((reqOf s x).kept + q)).map fun k => ⟨x, q, k, reqBucket s c x q⟩

/-- R362: items in descending keys, each to the bench with the least rows × keys so far, ties to the lower rank; each bench in
ascending bucket. -/
def assignWork (benches : List Nat) (items : List WorkItem) : Tab (List WorkItem) :=
  let load (t : Tab (List WorkItem)) (b : Nat) : Nat := ((tget t b []).map fun w => w.rows * w.keys).foldl (· + ·) 0
  let t := (sortBy (fun a b => decide (b.keys ≤ a.keys)) items).foldl (fun t w =>
    match benches with
    | [] => t
    | b :: r => tmod t (r.foldl (fun a b => if load t b < load t a then b else a) b) [] (· ++ [w])) []
  t.map fun p => (p.1, sortBy (fun a b => decide (a.bucket ≤ b.bucket)) p.2)

/-- R360, R362: the attention work of a step, by bench rank: the group sets split the attention benches evenly, and each set
handles every item for its group. -/
def attentionWork (s : State) (c : Nat) (m : Model) (items : List (Nat × Nat)) : Tab (List WorkItem) :=
  let g := max 1 (attG m.att)
  let per := m.plan.attBenches / g
  let w := items.flatMap fun i => workItems s c i.1 i.2
  foldN g (fun k t => (assignWork ((List.range per).map (k * per + ·)) w).foldl (fun t p => tset t p.1 p.2) t) []

/-- R338: a tail-table entry for a request's pages of one page-set entry. -/
def tailFor (s : State) (c x e : Nat) : Nat :=
  match modelOf s c (reqOf s x).model with
  | none => 0
  | some m =>
    let r := reqOf s x
    let n := max 1 (setPages s c m)
    let a := (setEntry s c m e).1
    let t := max 1 (pageT m.att)
    let pages := (List.range 4).map fun i => r.list.getD ((r.kept / t + i) * n + e) 0xFFFFFF
    tailEntry pages a.fmt (pageT a) (r.kept % t)

/-- R338: the serving units write the tail tables; where each request's entry stands (bench, index, request, page-set entry) is
told by the command (log entry 19). -/
def writeTails (c : Nat) (tails : List (Nat × Nat × Nat × Nat)) (s : State) : State :=
  tails.foldl (fun s p =>
    let x := p.2.2.1
    if 252 ≤ p.1 || 8192 ≤ p.2.1 || (reqOf s x).ctx ≠ c || blockOwner s (blockOf p.1) ≠ some c then s
    else sendSquare (.tail p.2.1 (tailFor s c x p.2.2.2)) p.1 s) s

/-! ### The next step -/

/-- The context may run a step now (R618: unless its turn ends); in SERVICE state none does (R60), and none that FW_ACTIVATE holds (R128). -/
def mayStep (s : State) (c : Nat) : Bool :=
  s.boot.phase ≠ .service && (funcOf s (fidContext c)).state = .running && (ctxOf s c).state = .resident && !(isConf s c && (ctxOf s c).tdi ≠ .run)
    && roleSteps s c && !(redOf s c).unsent && s.red.drain = .none && !(serveOf s c).halted && !mustYield s c && !heldForUpdate s c

/-- R373: the run entries of a phase for a kind of step, one launch for each. -/
def phaseLaunches (s : State) (m : Model) (kind phase layer : Nat) (isLayer : Bool) (pass : Option Nat) (p1 p2 p3 : Nat) : List Launch :=
  (m.plan.runs.filter fun e => e.2.1 = phase && bitOf e.2.2.1 kind).map fun e =>
    let b := consumeBytes s (e.2.2.2 + (if isLayer then 256 * layer else 0)) 240
    let v := (List.range 30).map fun i => fieldAt b (8 * i) 8
    let v := ((v.set 1 p1).set 2 p2).set 3 p3
    ⟨pass, e.1, if isLayer then v.set 0 layer else v⟩

/-- R373: FIRST, then LAYER once for each layer, then LAST; `base` is 0 for the main phases and 3 for the draft's. -/
def passLaunches (s : State) (m : Model) (kind base layers : Nat) (pass : Option Nat) (p1 p2 p3 : Nat) : List Launch :=
  phaseLaunches s m kind base 0 false pass p1 p2 p3
    ++ (List.range layers).flatMap (fun l => phaseLaunches s m kind (base + 1) l true pass p1 p2 p3)
    ++ phaseLaunches s m kind (base + 2) 0 false pass p1 p2 p3

/-- R373: what the serving units read for the launches of a step and its requests' masks: parameter blocks, those of a LAYER entry once for each layer, and
mask entries (R351). -/
def stepReads (s : State) (c : Nat) (m : Model) (kind : Nat) (reqs : List Nat) : List (Nat × Nat) :=
  let layers (phase : Nat) : Nat :=
    if phase = 1 then m.rec_.layers else if phase = 4 then (draftOf s c m).elim 0 (·.rec_.layers) else 1
  ((m.plan.runs.filter fun e => bitOf e.2.2.1 kind).flatMap fun e => (List.range (layers e.2.1)).map fun l => (e.2.2.2 + 256 * l, 240))
    ++ (if (serveOf s c).pool.maskLot = 0 then [] else reqs.map fun x => ((serveOf s c).pool.maskLot + 64 * x, 64))

/-- R373: every launch of a step: the draft passes first, then the main phases. The address of the batch table is not stated: it
is a free value (log entry 6); its content, the request indices in bucket order, stands in the step. -/
def stepLaunches (s : State) (c : Nat) (m : Model) (kind passes : Nat) (items : List (Nat × Nat)) : List Launch :=
  let p1 := Config.freeValue s.free
  let p3 := (items.head?).elim 0 fun i => (reqOf s i.1).kept
  let draft := match draftOf s c m with
    | some d => (List.range passes).flatMap fun i => passLaunches s m kind 3 d.rec_.layers (some i) p1 items.length p3
    | none => []
  draft ++ passLaunches s m kind 0 m.rec_.layers none p1 items.length p3

/-- The next launch of a step goes to the benches of its plan; it waits while a launch queue of theirs is full (R173). -/
def launchNext (c : Nat) (s : State) : State :=
  match (serveOf s c).step with
  | none => s
  | some p =>
    match p.todo, modelOf s c p.model with
    | l :: r, some m =>
      if queueFull s c (blocksOf m.plan.blocks) then modServe c (fun y => { y with step := some { p with run := none } }) s
      else
        let q := queueRun c l.slot (blocksOf m.plan.blocks) l.params s
        modServe c (fun y => { y with step := some { p with todo := r, run := some (q.1, l.pass) } }) q.2
    | _, _ => modServe c (fun y => { y with step := some { p with run := none } }) s

/-- R340 step 7, R360–R363, R373: a step is prepared: its requests in bucket order, its launches, its attention work, with the group sets of the main
model's plan and of the draft's, and its masks. A structure that does not read whole ends it FAULTED (R242). -/
def prepareStep (c : Nat) (kind : StepKind) (code model passes : Nat) (items : List (Nat × Nat)) (s : State) : Option Step × State :=
  match modelOf s c model with
  | none => (none, s)
  | some m =>
    let serving := kind ≠ .training
    let rows := if kind = .decode then items.map fun i => (i.1, i.2 + 1) else items
    let bucket (i : Nat × Nat) : Nat := reqBucket s c i.1 (if kind = .decode then i.2 + 1 else i.2)
    let order := if serving then sortBy (fun a b => decide (bucket a ≤ bucket b)) items else items
    let reads := stepReads s c m code (if serving then items.map (·.1) else [])
    let bad := reads.find? fun a => rangeBad s a.1 a.2
    (some { kind := kind, model := model, items := order, startNs := now s
            todo := if bad.isSome then [] else stepLaunches s c m code passes order
            fault := bad.map fun _ => 0x4104, faultAddr := bad.elim 0 (·.1)
            assigned := if serving then attentionWork s c m rows else []
            draftWork := if serving && 0 < passes then (draftOf s c m).elim [] fun d => attentionWork s c d rows else []
            masks := if serving then items.map fun i => (i.1, maskEntry s c i.1) else [] },
      squareReads reads { s with free := s.free + 1 })

/-- R380, R382: choose the next step, if one may follow. -/
def planStep (c : Nat) (s : State) : Option Step × State :=
  let y := serveOf s c
  if !mayStep s c || y.step.isSome then (none, s)
  else
    let order := allocOrder s c
    let pre := order.find? fun q => q.2.state = .prefill && q.2.kept < prefillTarget q.2
    let dec := order.filter fun q => q.2.state = .decode && !q.2.ringHold
    let prefill (q : Nat × Request) : Option Step × State := prepareStep c .prefill 1 q.2.model 1 [(q.1, stepRows s c q.2)] s
    match pre, dec with
    | some q, [] => prefill q
    | some q, d :: r => if y.policy.decodePerPrefill ≤ y.decodeSince then prefill q else decodeStep c (d :: r) s
    | none, d :: r => decodeStep c (d :: r) s
    | none, [] =>
      match y.training with
      | [] => (none, s)
      | (id, slot) :: _ => prepareStep c .training 2 (venOf s slot).model 0 [(id, slot)] s
where
  /-- R382: at most b_max requests of one model, in allocation order. -/
  decodeStep (c : Nat) (l : List (Nat × Request)) (s : State) : Option Step × State :=
    match l with
    | [] => (none, s)
    | d :: _ =>
      let same := l.filter fun q => q.2.model = d.2.model
      let b := (modelOf s c d.2.model).elim 1 (·.plan.bMax)
      let items := (same.take b).map fun q => (q.1, draftLen s c q.2)
      prepareStep c .decode 0 d.2.model (items.foldl (fun a i => max a i.2) 0) items s

/-- The step that was prepared starts, if the context may still step. -/
def startPlanned (c : Nat) (st : Option Step) (s : State) : State :=
  match st with
  | none => s
  | some st =>
    if !mayStep s c || (serveOf s c).step.isSome then s
    else launchNext c (modServe c (fun y => { y with
      step := some { st with startNs := now s }
      decodeSince := match st.kind with
        | .prefill => 0
        | .decode => y.decodeSince + 1
        | .training => y.decodeSince }) s)

/-- R380: the next step is chosen and starts. -/
def chooseStep (c : Nat) (s : State) : State := let q := planStep c s; startPlanned c q.1 q.2

/-! ### The boundary -/

/-- R465: what peers refused with NAK STOPPED is sent again. -/
def retryHeld (c : Nat) (s : State) : State :=
  s.net.lanes.foldl (fun s l =>
    if l.2.ctx ≠ c || l.2.modlane || l.2.held.isEmpty then s
    else drainLane l.1 1024 (modLane l.1 (fun q => { q with waiting := q.held ++ q.waiting, held := [] }) s)) s

/-- R85, R128, R130, R659, R670, R688: the context performs no boundary: its function is stopped, its side is fenced or follows, the
module has drained, or FW_ACTIVATE holds it. -/
def boundaryHeld (s : State) (c : Nat) : Bool :=
  !((funcOf s (fidContext c)).state = .running || (funcOf s (fidContext c)).state = .stopping)
    || !mayPublish s c || !(ctxDefined s c) || heldForUpdate s c

/-- R340: a boundary of a context. A context that is not resident or has halted does only the work of steps 1 and 2 (R620). -/
def boundary (c : Nat) (tails : List (Nat × Nat × Nat × Nat)) (s : State) : State :=
  if boundaryHeld s c || (serveOf s c).step.isSome then s
  else
    drainProgress (trySwap c (atBoundary c tails s))
where
  /-- R340: the work of the boundary itself. -/
  atBoundary (c : Nat) (tails : List (Nat × Nat × Nat × Nat)) (s : State) : State :=
    let s := (serveOf s c).waste.foldl (fun s p => wasteSlots p.1 p.2 s) s
    let s := modServe c (fun y => { y with boundaryDue := false, waste := [], boundaryNs := now s, lastBoundary := s.time.t }) s
    let each (f : Nat → Nat → State → State) (s : State) : State := (allocOrder s c).foldl (fun s q => f c q.1 s) s
    let s := each receiveShipment (readCons c (applyChanges c (retryHeld c (each moveTail s))))
    let s := flushPend c (each announceShip (each settleRequest (each adaptDraft s)))
    if (ctxOf s c).state ≠ .resident || (serveOf s c).halted then heldFinals c s
    else
      let s := heldFinals c (each holdRing s)
      let s := each lookAhead (each startAdmitted (each secureRequest s))
      let s := each markStarved (each parkOrReturn s)
      let q := planStep c s
      let s := checkPool c (writeTails c tails q.2)
      if (serveOf s c).halted then flushPend c s
      else startPlanned c q.1 (dueSwap c (commitBoundary c (flushPend c s)))

end Sys2Proof.Machine
end

