-- ==== Sys2Proof/Machine/TdiOps.lean ====
section
/-! DEFINITION. A TDI that enters ERROR (R625) and staging by a context's own mailbox (R624, R86). -/
namespace Sys2Proof.Machine

/-- R625: the context halts, its requests end FAULTED, its content keys are erased, its enc lots and its blocks are zeroed, and 0x9501
is made. -/
def tdiError (c : Nat) (s : State) : State :=
  if !tdiLocked s c then s
  else
    let s := stopRuns c (modServe c (fun y => { y with step := none, training := [] }) s)
    let s := endAll c 7 (fun _ => true) (modCtx c (fun x => { x with state := .halted, tdi := .error, contentKeys := [] }) s)
    let s := flushPend c s
    let s := (ctxOf s c).lots.foldl (fun s e =>
      if lotValid e.2 && lotEnc e.2 then clearRange (lotBase e.2) (lotLimit e.2) s else s) s
    let s := (blocksOf (ctxOf s c).blocks).foldl (fun s k => if blockOwner s k = some c then clearBlock k s else s) s
    record 0x9501 2 0 (some c) false [] s

/-- R86, R624: a staged command of a CONTEXT function; from the context's own mailbox it takes a locked TDI to ERROR. -/
def stageCtx (c : Nat) (x : Staged) (call : Call) (s : State) : Ans :=
  if !ctxDefined s c then no s (noCtx c)
  else stage (fidContext c) x call (if tdiLocked s c && speaksFor s call.mb c then tdiError c s else s)

end Sys2Proof.Machine
end

