-- ==== Sys2Proof/Machine/Serve.lean ====
section
/-! DEFINITION. The request, model, sampler and veneer commands, and the events of the serving units (chapters 09 and 10). -/
namespace Sys2Proof.Machine

/-! ### Shared checks -/

/-- A row of R366, R423 or R424; R369, R425: CONFIDENTIAL from another mailbox than the context's own. -/
def serveSpec (op c : Nat) (staging reads : Bool) : Spec :=
  { op := op, who := who0Own, ctx := some c, conf := true, staging := staging, reads := reads }

/-- R660: the commands a following side refuses. -/
def ifActive (c : Nat) (body : Call → State → Ans) (call : Call) (s : State) : Ans :=
  if !ctxDefined s c then no s (noCtx c)
  else if notActive s c then noData s .badState [⟨2, 0xB7⟩]
  else body call s

/-- R611: an index of the request table lies in a context's slice. -/
def inSlice (s : State) (c x : Nat) : Bool :=
  x < 4096 && (ctxOf s c).sliceBase ≤ x && x < (ctxOf s c).sliceBase + (ctxOf s c).sliceCount

/-- A table change arrives (R381). -/
def noteChange (c : Nat) (s : State) : State := modServe c (fun y => { y with changed := true }) s

/-- One lot of the context covers a range and satisfies a test. -/
def lotHas (s : State) (c a len : Nat) (p : Word → Bool) : Bool :=
  (ctxOf s c).lots.any fun e => lotCovers e.2 a len && p e.2

/-- The context has a request that is not FREE. -/
def hasLive (s : State) (c : Nat) : Bool := !(liveReqs s c).isEmpty

/-! ### Requests -/

/-- R377. -/
def stateCode : ReqState → Nat
  | .free => 0
  | .admitted => 1
  | .prefill => 2
  | .waitKv => 3
  | .decode => 4
  | .parked => 5
  | .done => 6
  | .cancelled => 7

/-- R376. -/
def reqFlags (r : Request) : Nat :=
  bit r.cancel.isSome + 2 * bit r.recompute + 4 * bit r.noRecompute + 8 * bit r.starved + 16 * bit r.shipOut
    + 32 * bit r.waitKv + 64 * bit r.resume + 128 * bit r.ringHold + 256 * bit r.switched

/-- R375: an entry as its fields. -/
def entryFields (r : Request) : List Fld :=
  [⟨1, stateCode r.state⟩, ⟨1, r.ctx⟩, ⟨1, r.priority⟩, ⟨1, r.status⟩, ⟨4, reqFlags r⟩, ⟨8, r.seed⟩, ⟨8, r.tag⟩, ⟨4, r.promptLen⟩,
   ⟨4, r.maxNew⟩, ⟨4, r.generated⟩, ⟨4, r.kept⟩, ⟨8, r.blocks.headD 0⟩, ⟨4, r.list.length⟩, ⟨10, r.deadline.elim 0 stampNat⟩,
   ⟨10, stampNat r.admitStamp⟩, ⟨1, r.model⟩, ⟨1, r.stopSet⟩, ⟨2, r.sampler⟩, ⟨2, r.ring.getD 0xFFFF⟩,
   ⟨2, r.veneer.elim 0xFFFF (·.1)⟩, ⟨4, r.veneer.elim 0 (·.2)⟩, ⟨1, r.k + 16 * r.kInit⟩, ⟨1, r.probeIn % 32 + 32 * r.zeroStreak⟩,
   ⟨1, r.fullStreak⟩, ⟨1, r.evictions⟩, ⟨8, r.histAddr⟩, ⟨2, r.shipModule⟩, ⟨2, r.shipId⟩, ⟨4, r.expected⟩, ⟨4, r.arrived⟩,
   ⟨10, stampNat r.lastStamp⟩, ⟨10, 0⟩]

/-- R351, R352: the prefix length of a request index. -/
def prefixLen (s : State) (c x : Nat) : Nat :=
  let m := (serveOf s c).pool.maskLot
  if m = 0 then 0 else leNat (consumeBytes s (m + 64 * x) 4)

/-- The FREE entries of a context's slice. -/
def freeEntries (s : State) (c : Nat) : List Nat :=
  ((List.range (ctxOf s c).sliceCount).map ((ctxOf s c).sliceBase + ·)).filter fun x => (reqOf s x).state = .free

/-- R413: the LIVE slot of a name in a context. -/
def liveSlot (s : State) (c name : Nat) : Option (Nat × Veneer) :=
  s.serve.veneers.find? fun v => v.2.state = .live && v.2.owner = c && v.2.name = name

/-- A ring is bound to a request that is not FREE. -/
def ringBound (s : State) (c n : Nat) : Option (Nat × Request) := (liveReqs s c).find? fun q => q.2.ring = some n

/-- R384, checks 2 to 12 for a model, in order: the status and reason of the first that fails; `x` is the entry the request would
take. -/
def admitRefused (s : State) (c x : Nat) (p : AdmitPar) (cmd : Stamp) (m : Model) : Option (Status × Nat) :=
  let y := serveOf s c
  let v := liveSlot s c p.veneer
  let bad (b : Bool) (st : Status) (r : Nat) : List (Status × Nat) := if b then [(st, r)] else []
  let noRing := p.ring = 0xFFFF
  let sampler := (tget y.samplers p.sampler none).isSome || (tget y.newSamplers p.sampler none).isSome
  let anyVen := s.serve.veneers.any fun v => v.2.state = .live && v.2.owner = c && v.2.name = p.veneer
  let draft := (draftOf s c m).isSome
  (bad m.faulted .faulted 0x62
    ++ bad (p.promptLen < 1 || p.maxNew < 1 || m.rec_.maxLen < p.promptLen + p.maxNew || p.maxNew ≤ p.resumed) .badArg 0x63
    ++ bad (!lotHas s c p.histAddr (4 * (p.promptLen + p.maxNew)) fun e => lotRead e && lotWrite e) .badArg 0x64
    ++ bad (!sampler || (tget y.stops p.stopSet none).isNone) .badArg 0x65
    ++ bad (if noRing then !p.shipOut else (ringOf s c p.ring).isNone || (ringBound s c p.ring).isSome) .busy 0x66
    ++ bad (p.veneer ≠ 0 && !anyVen) .badArg 0x67
    ++ bad (p.veneer ≠ 0 && v.elim false fun v => v.2.model ≠ p.model) .incompatible 0x68
    ++ bad (p.kInit ≠ 0 && !(draft && p.kInit ≤ y.policy.kMax)) .badArg 0x69
    ++ bad (m.att.mask = 3 && m.att.chunk < prefixLen s c x) .badArg 0x6A
    ++ bad ((p.deadline ≠ ⟨0, 0⟩ && !stampLt cmd p.deadline) || (p.shipOut && p.waitKv)
        || ((p.shipOut || p.waitKv) && (p.shipModule = 0xFFFF || (isConf s c && !(ctxOf s c).plainNet)))) .badArg 0x6B).head?

/-- R383, R385: the entry of an admitted request. -/
def admitted (s : State) (c : Nat) (p : AdmitPar) (cmd : Stamp) : Request :=
  { state := if p.waitKv then .waitKv else .admitted
    ctx := c, priority := p.priority, recompute := p.resume, noRecompute := p.noRecompute, shipOut := p.shipOut, waitKv := p.waitKv
    resume := p.resume, seed := p.seed, tag := p.tag, promptLen := p.promptLen, maxNew := p.maxNew
    generated := if p.resume then p.resumed else 0
    deadline := if p.deadline = ⟨0, 0⟩ then none else some p.deadline
    admitStamp := cmd, model := p.model, stopSet := p.stopSet, sampler := p.sampler
    ring := if p.ring = 0xFFFF then none else some p.ring
    veneer := if p.veneer = 0 then none else (liveSlot s c p.veneer).map fun v => (v.1, v.2.version)
    k := p.kInit, kInit := p.kInit, histAddr := p.histAddr
    shipModule := if p.shipOut || p.waitKv then p.shipModule else 0xFFFF
    shipId := if p.shipOut || p.waitKv then p.shipId else 0
    entry := some p }

/-- R383–R385, R660, R685, R688: `REQ_ADMIT`. Which FREE entry it takes is not stated: a free value chooses (log entry 6). -/
def execReqAdmit (h : Hdr) (c : Nat) (p : AdmitPar) (s : State) : Host.Outcome State Fault Refusal :=
  .next (command h (serveSpec 0x0500 c false false) (fun call s =>
    let bad (st : Status) (r : Nat) : Ans := noData s st [⟨2, r⟩]
    if 8 ≤ p.priority then no s .badArg
    else if s.red.drain ≠ .none then bad .badState 0xB8
    else if notActive s c then bad .badState 0xB7
    else if (funcOf s (fidContext c)).state ≠ .running || !ctxDefined s c then bad .badState 0x60
    else match modelOf s c p.model with
      | none => bad .badArg 0x61
      | some m =>
        if m.rec_.role ≠ 1 then bad .badArg 0x61
        else
          let l := freeEntries s c
          let f := takeFree s
          let x := l.getD (f.1 % max 1 l.length) (ctxOf s c).sliceBase
          let mask := [((serveOf s c).pool.maskLot + 64 * x, if m.att.mask = 3 && (serveOf s c).pool.maskLot ≠ 0 then 4 else 0)].filter (·.2 ≠ 0)
          match admitRefused s c x p call.stamp m with
          | some q => bad q.1 q.2
          | none =>
            if mask.any fun a => rangeBad s a.1 a.2 then no (squareReads mask s) .faulted
            else
            if l.isEmpty then bad .noResource 0x6C
            else
              let s := noteChange c (modReq x (fun _ => admitted s c p call.stamp) (squareReads mask f.2))
              let s := if restartable s c then
                  journalWrite c x 0 (p.promptLen + (if p.resume then p.resumed else 0))
                    (((reqOf s x).ring.bind (ringOf s c)).elim 0 (·.prod)) 1 s
                else s
              okData s [⟨2, x⟩]) s)

/-- R389, R423: `REQ_CANCEL`. -/
def execReqCancel (h : Hdr) (c x : Nat) (s : State) : Host.Outcome State Fault Refusal :=
  .next (command h (serveSpec 0x0501 c false false) (ifActive c fun call s =>
    if !inSlice s c x then no s .badArg
    else match (reqOf s x).state with
      | .free => no s .badState
      | .done => ok s
      | .cancelled => ok s
      | _ => ok (noteChange c (modReq x (fun r => { r with cancel := r.cancel.orElse fun _ => some call.stamp }) s))) s)

/-- R423: `REQ_UPDATE`; `deadline` of zero is none. -/
def execReqUpdate (h : Hdr) (c x : Nat) (priority : Option Nat) (deadline : Option Stamp) (s : State) :
    Host.Outcome State Fault Refusal :=
  .next (command h (serveSpec 0x0502 c false false) (ifActive c fun call s =>
    if !inSlice s c x || 8 ≤ priority.getD 0 then no s .badArg
    else if (reqOf s x).state = .free then no s .badState
    else if (match deadline with
      | some d => decide (d ≠ Stamp.mk 0 0) && !stampLt call.stamp d
      | none => false) then no s .badArg
    else
      let d := deadline.map fun d => if d = Stamp.mk 0 0 then none else some d
      ok (noteChange c (modReq x (fun r => { r with
        newPriority := priority.orElse fun _ => r.newPriority
        newDeadline := d.orElse fun _ => r.newDeadline }) s))) s)

/-- R423: `REQ_GET`. -/
def execReqGet (h : Hdr) (c x : Nat) (s : State) : Host.Outcome State Fault Refusal :=
  .next (command h (serveSpec 0x0503 c false true) (fun _ s =>
    if !ctxDefined s c then no s (noCtx c) else if !inSlice s c x then no s .badArg else okData s (entryFields (reqOf s x))) s)

/-! ### Models, policy, stop sets, rings, statistics -/

/-- R370, R638: `REQ_MODEL_SET`. -/
def execReqModelSet (h : Hdr) (c : Nat) (r : ModelRec) (s : State) : Host.Outcome State Fault Refusal :=
  .next (command h (serveSpec 0x0510 c true false) (fun call s =>
    if isConf s c && r.role ≠ 0 && !(ctxOf s c).unsealed.contains r.weights then no s .badArg
    else stageCtx c (.modelSet r) call s) s)

/-- R423: `REQ_SET_POLICY`. -/
def execReqSetPolicy (h : Hdr) (c decodePerPrefill kMax grow : Nat) (s : State) : Host.Outcome State Fault Refusal :=
  .next (command h (serveSpec 0x0511 c false false) (fun _ s =>
    if !ctxDefined s c then no s (noCtx c)
    else if 256 ≤ decodePerPrefill || 9 ≤ kMax || grow = 0 || 9 ≤ grow then no s .badArg
    else ok (noteChange c (modServe c (fun y => { y with newPolicy := some ⟨decodePerPrefill, kMax, grow⟩ }) s))) s)

/-- R396, R423: `REQ_STOP_SET`. -/
def execReqStopSet (h : Hdr) (c set_ : Nat) (tokens : List Nat) (seqs : List (List Nat)) (s : State) :
    Host.Outcome State Fault Refusal :=
  .next (command h (serveSpec 0x0512 c false false) (ifActive c fun _ s =>
    if 256 ≤ set_ || 32 < tokens.length || 4 < seqs.length || seqs.any (fun q => q.length < 2 || 8 < q.length) then no s .badArg
    else if (liveReqs s c).any fun q => q.2.stopSet = set_ then no s .busy
    else ok (modServe c (fun y => { y with stops := tset y.stops set_ (some ⟨tokens, seqs⟩) }) s)) s)

/-- R403, R639: the parameters of a ring are in range. -/
def ringParOk (s : State) (c : Nat) (p : RingPar) : Bool :=
  inSlice s c p.ring && p.irqEvery < 256 && (match p.kind with
    | 0 => true
    | 1 => (p.vector < 120 || p.vector = 0xFFFF) && p.addr % 4096 = 0 && p.mirror % 8 = 0 && p.consWord = 0
    | 2 => (p.vector < 120 || p.vector = 0xFFFF) && p.addr % 4096 = 0 && p.mirror % 16 = 0 && p.consWord % 8 = 0
        && lotHas s c p.consWord 8 (fun e => lotWrite e && lotExport e) && !(isConf s c && !(ctxOf s c).plainNet)
    | _ => false)

/-- R403, R408: `REQ_RING_SET`. -/
def execReqRingSet (h : Hdr) (c : Nat) (p : RingPar) (s : State) : Host.Outcome State Fault Refusal :=
  .next (command h (serveSpec 0x0513 c false false) (ifActive c fun _ s =>
    if !ringParOk s c p then no s .badArg
    else
      let held := (serveOf s c).pend.find? fun q => q.ring = p.ring && q.final
      match ringBound s c p.ring, held with
      | some (x, r), some _ =>
        let dead := (ringOf s c p.ring).elim false (ringDead s c p.ring)
        if (r.state = .done || r.state = .cancelled) && dead then define p (freeEntry x s) else no s .busy
      | some _, none => no s .busy
      | none, _ => define p s) s)
where
  /-- Both indices are 0; records that wait for the old ring are dropped. -/
  define (p : RingPar) (s : State) : Ans :=
    ok (modServe c (fun y => { y with
      rings := if p.kind = 0 then tdel y.rings p.ring else tset y.rings p.ring (some { par := p })
      pend := y.pend.filter fun q => q.ring ≠ p.ring }) s)

/-- R423: `REQ_GET_STATS`. -/
def execReqGetStats (h : Hdr) (c : Nat) (s : State) : Host.Outcome State Fault Refusal :=
  .next (command h (serveSpec 0x0514 c false true) (fun _ s =>
    if !ctxDefined s c then no s (noCtx c)
    else
      let y := serveOf s c
      let n (k : Nat) : Nat :=
        if k = 0 then (freeEntries s c).length else ((liveReqs s c).filter fun q => stateCode q.2.state = k).length
      okData s ((List.range 8).map (fun k => ⟨4, n k⟩)
        ++ [⟨8, y.steps⟩, ⟨8, y.tokens⟩, ⟨8, y.drafted⟩, ⟨8, y.accepted⟩, ⟨8, y.ringHolds⟩, ⟨8, y.stepNs⟩])) s)

/-! ### Samplers -/

/-- R395: a parameter set is in range. -/
def samplerOk (p : SamplerPar) : Bool :=
  let v (x : Nat) : Num := ofF32 x
  let zero : Num := .fin false 0 0
  let one : Num := .fin false 1 0
  let finite (x : Nat) : Bool := bitsOf x 30 23 ≠ 255
  p.mode ≤ 1 && p.repWindow ≤ 65536 && p.biasCount ≤ 1024 && finite p.repPenalty && numLt zero (v p.repPenalty)
    && (p.mode = 0 || (p.topK ≤ 1024 && finite p.temperature && numLt zero (v p.temperature)
      && numLt zero (v p.topP) && !numLt one (v p.topP) && finite p.topP
      && !numLt (v p.minP) zero && numLt (v p.minP) one && finite p.minP))

/-- R395: the bias list, as the Square copies it. -/
def biasList (s : State) (p : SamplerPar) : List (Nat × Nat) :=
  (pieces 8 p.biasCount (consumeBytes s p.biasAddr (8 * p.biasCount))).map fun b => (fieldAt b 0 4, fieldAt b 4 4)

/-- R395, R423: `SMP_SET`. -/
def execSmpSet (h : Hdr) (c set_ : Nat) (p : SamplerPar) (s : State) : Host.Outcome State Fault Refusal :=
  .next (command h (serveSpec 0x0520 c false false) (ifActive c fun _ s =>
    if 4096 ≤ set_ || !samplerOk p || (p.biasCount ≠ 0 && !lotHas s c p.biasAddr (8 * p.biasCount) lotRead) then no s .badArg
    else
      let v : Option SamplerSet := some ⟨p, biasList s p⟩
      let bad := rangeBad s p.biasAddr (8 * p.biasCount)
      let s := if p.biasCount = 0 then s else squareReads [(p.biasAddr, 8 * p.biasCount)] s
      if p.biasCount ≠ 0 && bad then no s .faulted
      else if hasLive s c then ok (noteChange c (modServe c (fun y => { y with newSamplers := tset y.newSamplers set_ v }) s))
      else ok (modServe c (fun y => { y with samplers := tset y.samplers set_ v, newSamplers := tdel y.newSamplers set_ }) s)) s)

/-- R395: a parameter set as its 64 bytes. -/
def samplerFields (p : SamplerPar) : List Fld :=
  [⟨1, p.mode⟩, ⟨1, 0⟩, ⟨2, p.topK⟩, ⟨4, p.temperature⟩, ⟨4, p.topP⟩, ⟨4, p.minP⟩, ⟨4, p.repPenalty⟩, ⟨4, p.repWindow⟩,
   ⟨2, p.biasCount⟩, ⟨6, 0⟩, ⟨8, p.biasAddr⟩, ⟨24, 0⟩]

/-- R423: `SMP_GET`. -/
def execSmpGet (h : Hdr) (c set_ : Nat) (s : State) : Host.Outcome State Fault Refusal :=
  .next (command h (serveSpec 0x0521 c false true) (fun _ s =>
    let y := serveOf s c
    if !ctxDefined s c then no s (noCtx c)
    else match tget y.samplers set_ none, tget y.newSamplers set_ none with
      | some v, w => okData s (samplerFields v.par ++ [⟨4, bit w.isSome⟩])
      | none, some w => okData s (samplerFields w.par ++ [⟨4, 1⟩])
      | none, none => no s .badArg) s)

/-! ### The pool -/

/-- R366, R367: `KV_POOL_SET`. -/
def execKvPoolSet (h : Hdr) (c : Nat) (p : PoolCfg) (s : State) : Host.Outcome State Fault Refusal :=
  .next (command h (serveSpec 0x0580 c true false) (fun call s =>
    if p.lots.isEmpty || 16 < p.lots.length || p.split < 8192 || 1048576 < p.split then no s .badArg
    else stageCtx c (.kvPool p) call s) s)

/-- R366: `KV_POOL_GET`. -/
def execKvPoolGet (h : Hdr) (c : Nat) (s : State) : Host.Outcome State Fault Refusal :=
  .next (command h (serveSpec 0x0581 c false true) (fun _ s =>
    if !ctxDefined s c then no s (noCtx c)
    else
      let y := serveOf s c
      let parked := (liveReqs s c).filter fun q => q.2.state = .parked
      okData s [⟨4, y.poolSize⟩, ⟨4, freeCount y⟩, ⟨4, y.allocated⟩, ⟨4, y.inTransit⟩, ⟨4, y.blockPages.length⟩, ⟨4, parked.length⟩,
        ⟨4, (parked.filter fun q => q.2.starved).length⟩, ⟨8, y.evictions⟩, ⟨8, y.lookMisses⟩, ⟨8, y.saturations⟩]) s)

/-- R366, R624: `KV_SET_POLICY`. -/
def execKvSetPolicy (h : Hdr) (c : Nat) (evict : Bool) (s : State) : Host.Outcome State Fault Refusal :=
  .next (command h { serveSpec 0x0582 c false false with conf := false } (fun call s =>
    if !ctxDefined s c then no s (noCtx c)
    else if tdiLocked s c && !speaksFor s call.mb c then no s .confidential
    else ok (noteChange c (modServe c (fun y => { y with newEvict := some evict }) s))) s)

/-- R361, R366: `ATT_SET_BUCKETS`. -/
def execAttSetBuckets (h : Hdr) (c : Nat) (cuts : List Nat) (s : State) : Host.Outcome State Fault Refusal :=
  .next (command h (serveSpec 0x0583 c true false) (fun call s =>
    if cuts.length ≠ 7 then no s .badArg else stageCtx c (.attBuckets cuts) call s) s)

/-- R766: the scale records that `KV_READ_LIST` reads. -/
def listScales (s : State) (c : Nat) (r : Request) : List (Nat × Nat) :=
  if (modelOf s c r.model).elim false fun m => m.att.fmt = 1 then r.list.filterMap fun p => (scaleAddr (serveOf s c) p).map fun a => (a, 64) else []

/-- R766: what `KV_READ_LIST` writes at a destination, and the offset of its scale records (0 for none), which begin at the next 64-byte boundary. -/
def listImage (s : State) (c : Nat) (r : Request) (dest : Nat) : List Byte × Nat :=
  let words := r.list.flatMap fun p => leBytes 4 (p % 2 ^ 24)
  let fp8 := (modelOf s c r.model).elim false fun m => m.att.fmt = 1
  if fp8 && !r.list.isEmpty then
    let off := ceilDiv (dest + words.length) 64 * 64 - dest
    let recs := r.list.flatMap fun p => match scaleAddr (serveOf s c) p with
      | some a => consumeBytes s a 64
      | none => List.replicate 64 0
    (words ++ List.replicate (off - words.length) 0 ++ recs, off)
  else (words, 0)

/-- R366, R766: `KV_READ_LIST`. The bytes between the words and the next 64-byte boundary are left as they stand. -/
def execKvReadList (h : Hdr) (c x dest : Nat) (s : State) : Host.Outcome State Fault Refusal :=
  .next (command h (serveSpec 0x0584 c false false) (fun _ s =>
    if !ctxDefined s c then no s (noCtx c) else if !inSlice s c x then no s .badArg
    else
      let r := reqOf s x
      if r.state = .free then no s .badState
      else
        let im := listImage s c r dest
        let scales := listScales s c r
        let bad := scales.any fun a => rangeBad s a.1 a.2
        if !lotHas s c dest im.1.length lotWrite then no s .badArg
        else if bad then no (squareReads scales s) .faulted
        else
          let n := 4 * r.list.length
          let s := squareWrite dest (im.1.take n) (squareReads scales s)
          let s := if im.2 = 0 then s else squareWrite (dest + im.2) (im.1.drop im.2) s
          okData s [⟨4, r.list.length⟩, ⟨4, im.2⟩]) s)

/-! ### Veneers -/

/-- The FREE slots, and how many a context holds. -/
def freeSlots (s : State) : List Nat := (List.range 1024).filter fun i => (venOf s i).state = .free
def slotsHeld (s : State) (c : Nat) : Nat := (s.serve.veneers.filter fun v => v.2.state ≠ .free && v.2.owner = c).length

/-- R631: what a package's header says of a veneer: kind, name, version and rank. -/
def packHeader (s : State) (a : Nat) : Nat × Nat × Nat × Nat :=
  let b := consumeBytes s a 128
  (fieldAt b 6 1, fieldAt b 56 8, fieldAt b 24 4, fieldAt b 64 2)

/-- R638: the package lies in a readable lot, written by `WGT_UNSEAL` for a confidential context. -/
def packageOk (s : State) (c : Nat) (p : VenPar) : Bool :=
  128 ≤ p.len && (match lotAt s c p.addr p.len with
    | some e => lotRead e.2 && (!isConf s c || (ctxOf s c).unsealed.contains (lotBase e.2))
    | none => false)

/-- A slot starts to load. Which FREE slot it is is not stated: a free value chooses (log entry 6). -/
def startVen (c : Nat) (v : Veneer) (s : State) : Ans :=
  let l := freeSlots s
  if l.isEmpty || (ctxOf s c).quota ≤ slotsHeld s c then no s .noResource
  else
    let f := takeFree s
    let i := l.getD (f.1 % l.length) 0
    { accepted (modVen i (fun _ => { v with state := if v.trains then .training else .loading, owner := c }) f.2) .venLoad i with data := [⟨2, i⟩] }

/-- R424, R414: `VEN_LOAD` and `VEN_REPLACE`. -/
def loadVen (c : Nat) (p : VenPar) (replace : Bool) (s : State) : Ans :=
  if !packageOk s c p || (modelOf s c p.model).isNone then no s .badArg
  else
    let q := packHeader s p.addr
    let bad := rangeBad s p.addr 128
    let s := squareReads [(p.addr, 128)] s
    if bad then no s .faulted else
    let v : Veneer :=
      { name := q.2.1, version := q.2.2.1, model := p.model, rank := q.2.2.2, addr := p.addr, len := p.len, replaces := replace }
    if q.1 ≠ 1 || q.2.1 = 0 || q.2.2.2 = 0 || 256 < q.2.2.2 then no s .badArg
    else match liveSlot s c q.2.1, replace with
      | some _, false => no s .busy
      | none, false => startVen c v s
      | some o, true => if q.2.2.1 ≤ o.2.version then no s .badArg else startVen c v s
      | none, true => no s .badState

def execVenLoad (h : Hdr) (c : Nat) (p : VenPar) (s : State) : Host.Outcome State Fault Refusal :=
  .next (command h (serveSpec 0x0600 c false false) (ifActive c fun _ s => loadVen c p false s) s)

/-- R414. -/
def execVenReplace (h : Hdr) (c : Nat) (p : VenPar) (s : State) : Host.Outcome State Fault Refusal :=
  .next (command h (serveSpec 0x0601 c false false) (ifActive c fun _ s => loadVen c p true s) s)

/-- R415: `VEN_UNLOAD`. -/
def execVenUnload (h : Hdr) (c slot : Nat) (s : State) : Host.Outcome State Fault Refusal :=
  .next (command h (serveSpec 0x0602 c false false) (ifActive c fun _ s =>
    let v := venOf s slot
    if 1024 ≤ slot || (v.state ≠ .free && v.owner ≠ c) then no s .badArg
    else if v.state ≠ .live then no s .badState
    else if veneerRefs s slot v.version ≠ 0 then no s .busy
    else ok (modVen slot (fun _ => {}) s)) s)

/-- R412. -/
def venCode : VenState → Nat
  | .free => 0
  | .loading => 1
  | .live => 2
  | .retiring => 3
  | .training => 4

/-- R424: `VEN_GET`. -/
def execVenGet (h : Hdr) (c : Nat) (s : State) : Host.Outcome State Fault Refusal :=
  .next (command h (serveSpec 0x0603 c false true) (ifActive c fun _ s =>
    okData s ((s.serve.veneers.filter fun v => v.2.state ≠ .free && v.2.owner = c).flatMap fun v =>
      [⟨2, v.1⟩, ⟨1, venCode v.2.state⟩, ⟨8, v.2.name⟩, ⟨4, v.2.version⟩, ⟨1, v.2.model⟩, ⟨2, v.2.rank⟩,
       ⟨4, veneerRefs s v.1 v.2.version⟩])) s)

/-- R417, R424: `VEN_TRAIN_BEGIN`: from a package, or from zeros with a rank. -/
def execVenTrainBegin (h : Hdr) (c : Nat) (package : Option VenPar) (model rank desc stateLot : Nat) (s : State) :
    Host.Outcome State Fault Refusal :=
  .next (command h (serveSpec 0x0610 c false false) (ifActive c fun _ s =>
    let lots := (ctxOf s c).lots.any fun e => lotValid e.2 && lotBase e.2 = stateLot && lotRead e.2 && lotWrite e.2
    if !lots || !lotHas s c desc 1 lotRead || (modelOf s c model).isNone then no s .badArg
    else match package with
      | none =>
        if rank = 0 || 256 < rank then no s .badArg
        else startVen c { model := model, rank := rank, trains := true, descAddr := desc, stateLot := stateLot } s
      | some p =>
        let q := packHeader s p.addr
        if !packageOk s c p then no s .badArg
        else if rangeBad s p.addr 128 then no (squareReads [(p.addr, 128)] s) .faulted
        else if q.1 ≠ 1 then no s .badArg
        else startVen c { name := q.2.1, version := q.2.2.1, model := model, rank := q.2.2.2, addr := p.addr, len := p.len,
                          trains := true, descAddr := desc, stateLot := stateLot } s) s)

/-- R417, R424: `VEN_TRAIN_STEP`: the step is queued; its batch lies in a lot. -/
def execVenTrainStep (h : Hdr) (c slot batch : Nat) (s : State) : Host.Outcome State Fault Refusal :=
  .next (command h (serveSpec 0x0611 c false false) (ifActive c fun _ s =>
    let v := venOf s slot
    if 1024 ≤ slot || v.owner ≠ c || !lotHas s c batch 1 lotRead then no s .badArg
    else if v.state ≠ .training || v.trains then no s .badState
    else
      let q := freshId s
      accepted (noteChange c (modServe c (fun y => { y with training := y.training ++ [(q.1, slot)] }) q.2)) .venTrain q.1) s)

/-- R414: the old LIVE slot of a name becomes RETIRING, or FREE when nothing refers to it. -/
def retireOld (c slot name : Nat) (s : State) : State :=
  match s.serve.veneers.find? fun v => v.1 ≠ slot && v.2.state = .live && v.2.owner = c && v.2.name = name with
  | some v => retireVeneer v.1 (modVen v.1 (fun x => { x with state := .retiring }) s)
  | none => s

/-- R417: `VEN_PUBLISH`. -/
def execVenPublish (h : Hdr) (c slot name version : Nat) (s : State) : Host.Outcome State Fault Refusal :=
  .next (command h (serveSpec 0x0612 c false false) (ifActive c fun _ s =>
    let v := venOf s slot
    if 1024 ≤ slot || v.owner ≠ c || name = 0 then no s .badArg
    else if v.state ≠ .training || v.trains || (serveOf s c).training.any (fun t => t.2 = slot) then no s .badState
    else if (liveSlot s c name).elim false fun o => version ≤ o.2.version then no s .badArg
    else ok (retireOld c slot name (modVen slot (fun v => { v with
      state := .live, name := name, version := version, trains := false }) s))) s)

/-- R412, R414, R424: the filling of a slot ends, once its final response can be written. A package that no longer reads whole leaves the slot FREE, with FAULTED. -/
def execVeneerLoadDone (dt slot : Nat) (s : State) : Host.Outcome State Fault Refusal :=
  .next (event dt (fun s =>
    let v := venOf s slot
    if (v.state ≠ .loading && !v.trains) || !rspRoom s .venLoad slot then s
    else if v.len ≠ 0 && rangeBad s v.addr v.len then
      finish .venLoad slot .faulted [⟨2, 0x4104⟩] (modVen slot (fun _ => {}) (consumeCount v.addr v.len s))
    else
      let image := if v.len = 0 then [] else consumeBytes s v.addr v.len
      let s := if v.len = 0 then s else squareReads [(v.addr, v.len)] s
      if v.trains then finish .venLoad slot .ok [⟨2, slot⟩] (modVen slot (fun v => { v with trains := false, factors := image }) s)
      else
      let s := modVen slot (fun v => { v with state := .live, replaces := false, factors := image }) s
      finish .venLoad slot .ok [⟨2, slot⟩] (if v.replaces then retireOld v.owner slot v.name s else s)) s)

/-! ### Rings from outside -/

/-- The context that has defined a ring. -/
def ringCtx (s : State) (n : Nat) : Option Nat := (List.range 16).find? fun c => (ringOf s c n).isSome

/-- R405, R427: a write of `REQ_RING_CONS` by PF0 (`fn` 0) or a VF. -/
def execReqRingConsWrite (dt fn n v : Nat) (ideT : Bool) (s : State) : Host.Outcome State Fault Refusal :=
  .next (event dt (fun s =>
    let count (s : State) : State := { s with serve := { s.serve with badWrites := satAdd 64 s.serve.badWrites 1 } }
    if !s.tray.linkUp then s
    else if ideRefused s fn ideT then countIdeDrop s
    else match ringCtx s n with
    | none => count s
    | some c =>
      let sees := if isConf s c then fn = c + 1 else fn = 0 || fn = c + 1
      if !sees || (ringOf s c n).elim true fun r => r.par.kind ≠ 1 then count s
      else returnIndex c n (v % 2 ^ 32) s) s)

/-! ### The end of a step -/

/-- R397, R409: the tokens of one request in a decode step: accepted draft tokens, then the main model's own; the number accepted, and
the sampler fault that stopped it. `seq` is the sequence before the next position. -/
def pickTokens (p : SamplerPar) (bias : List (Nat × Nat)) (seed tag : Nat) :
    Nat → Nat → List Nat → List Logits → List Logits → State → List TokenRec × Nat × Option Nat × State
  | 0, _, _, _, _, s => ([], 0, none, s)
  | _, _, _, [], _, s => ([], 0, none, s)
  | fuel + 1, pos, seq, m :: ms, ds, s =>
    match pickToken p bias seed tag pos seq m with
    | .fault c => ([], 0, some c, s)
    | .token t =>
      let q := issueStamp s
      match ds with
      | [] => ([⟨t, pos, q.1, 0⟩], 0, none, q.2)
      | d :: dr =>
        if pickToken p bias seed tag pos seq d = .token t then
          let r := pickTokens p bias seed tag fuel (pos + 1) (seq ++ [t]) ms dr q.2
          (⟨t, pos, q.1, 16⟩ :: r.1, r.2.1 + 1, r.2.2.1, r.2.2.2)
        else ([⟨t, pos, q.1, 0⟩], 0, none, q.2)

/-- R397, R399: the draft's own samples meet a fault. -/
def draftFault (p : SamplerPar) (bias : List (Nat × Nat)) (seed tag : Nat) : Nat → List Nat → List Logits → Option Nat
  | _, _, [] => none
  | pos, seq, d :: r =>
    match pickToken p bias seed tag pos seq d with
    | .fault c => some c
    | .token t => draftFault p bias seed tag (pos + 1) (seq ++ [t]) r

/-- R397, R399, R409: the main model samples every position, also those after the first at which it differs from the draft, over the draft's tokens:
the first fault. -/
def mainFault (p : SamplerPar) (bias : List (Nat × Nat)) (seed tag : Nat) : Nat → List Nat → List Logits → List Logits → Option Nat
  | _, _, [], _ => none
  | pos, seq, m :: ms, ds =>
    match pickToken p bias seed tag pos seq m with
    | .fault c => some c
    | .token _ =>
      match ds with
      | [] => none
      | d :: dr => match pickToken p bias seed tag pos seq d with
        | .fault c => some c
        | .token t => mainFault p bias seed tag (pos + 1) (seq ++ [t]) ms dr

/-- R399: a request's sampling faults. -/
def samplerFault (c x code : Nat) (s : State) : State :=
  let t := issueStamp (record code 2 0 (some c) false [⟨2, x⟩] s)
  addEnding x ⟨7, t.1⟩ t.2

/-- R348, R409–R411: one request after a decode step with draft length `k`; its tail and its draft length move at the boundary. -/
def settleDecode (c x k : Nat) (o : StepOut) (s : State) : State :=
  let r := reqOf s x
  match tget (serveOf s c).samplers r.sampler none with
  | some v =>
    let seq := historyTail s r (r.promptLen + r.generated) (r.promptLen + r.generated)
    let ds := o.draft.take k
    match draftFault v.par v.bias r.seed r.tag (r.kept + 1) seq ds with
    | some code => samplerFault c x code s
    | none =>
      let q := pickTokens v.par v.bias r.seed r.tag (k + 1) (r.kept + 1) seq o.main ds s
      let a := q.2.1
      let s := modReq x (fun r => { r with out := q.1, verified := some (k, a) }) q.2.2.2
      let s := modServe c (fun y => { y with drafted := y.drafted + k, accepted := y.accepted + a }) s
      match q.2.2.1.orElse fun _ => mainFault v.par v.bias r.seed r.tag (r.kept + 1) seq (o.main.take (k + 1)) ds with
      | some code => samplerFault c x code s
      | none => s
  | none => s

/-- R378, R394: one request after a prefill chunk: the last chunk's end samples the first token. -/
def settlePrefill (c x n : Nat) (o : StepOut) (s : State) : State :=
  let s := modReq x (fun r => { r with kept := r.kept + n }) s
  let r := reqOf s x
  if r.kept < prefillTarget r then s
  else match tget (serveOf s c).samplers r.sampler none, o.main with
    | some v, l :: _ =>
      let seq := historyTail s r r.kept r.kept
      match pickToken v.par v.bias r.seed r.tag r.kept seq l with
      | .fault code => samplerFault c x code s
      | .token t => let q := issueStamp s; modReq x (fun r => { r with out := [⟨t, r.kept, q.1, 0⟩] }) q.2
    | _, _ => s

/-- The lot that holds a model's weights covers an address (R392). -/
def inWeights (s : State) (c : Nat) (m : Model) (a : Nat) : Bool :=
  (ctxOf s c).lots.any fun e => lotValid e.2 && lotBase e.2 = m.rec_.weights && lotCovers e.2 a 1

def modModel (c m : Nat) (f : Model → Model) (s : State) : State :=
  modServe c (fun y => { y with models := tmod y.models m none fun q => q.map f }) s

/-- R391, R392: the run of a step ended FAULTED. -/
def stepFaults (c code addr : Nat) (p : Step) (s : State) : State :=
  let s := record 0x5113 2 0 (some c) false [⟨2, code⟩, ⟨6, addr⟩] s
  let t := issueStamp s
  let own := p.items.find? fun i => (reqOf t.2 i.1).list.contains (addr / 65536)
  let hit := match own with
    | some i => [i]
    | none => p.items
  let s := if p.kind = .training then t.2
    else hit.foldl (fun s i => addEnding i.1 ⟨7, t.1⟩ s) t.2
  match modelOf s c p.model with
  | none => s
  | some m =>
    if !inWeights s c m addr then modModel c p.model (fun m => { m with faultRun := 0 }) s
    else if m.faultRun + 1 < 3 then modModel c p.model (fun m => { m with faultRun := m.faultRun + 1 }) s
    else
      let s := modModel c p.model (fun m => { m with faultRun := m.faultRun + 1, faulted := true }) s
      let s := (liveReqs s c).foldl (fun s q =>
        if q.2.model = p.model && serving_ q.2 then addEnding q.1 ⟨7, t.1⟩ s else s) s
      notify 2 0x5112 0 (record 0x5112 2 0 (some c) false [⟨1, p.model⟩] s)

/-- R699: the slots that verification wasted: those of draft passes that no request accepted, and a share of the main phases'. -/
def wastedSlots (k a : Nat) (done : List (Option Nat × Tab Nat)) : Tab Nat :=
  if k ≤ a then []
  else done.foldl (fun t d =>
    match d.1 with
    | some i => if a ≤ i then d.2.foldl (fun t p => tmod t p.1 0 (· + p.2)) t else t
    | none => d.2.foldl (fun t p => tmod t p.1 0 (· + (k - a) * p.2 / (k + 1))) t) []

/-- The requests' results, for a step that ended normally. -/
def settleStep (c : Nat) (p : Step) (outs : List StepOut) (s : State) : State :=
  p.items.foldl (fun s i =>
    match outs.find? fun o => o.request = i.1 with
    | none => s
    | some o => if p.kind = .decode then settleDecode c i.1 i.2 o s else settlePrefill c i.1 i.2 o s) s

/-- R430: the number of a kind of step. -/
def kindCode : StepKind → Nat
  | .decode => 0
  | .prefill => 1
  | .training => 2

/-- R416: a training step updates the slot's A and B, and its master copies and optimiser state in their lot, where the lot still grants it (R44). -/
def trainSlot (slot : Nat) (u : Option (List Byte × List Byte)) (s : State) : State :=
  let v := venOf s slot
  match u with
  | some (ab, st) =>
    if v.state ≠ .training then s
    else
      let l := st.take ((lotByBase s v.owner v.stateLot).elim 0 lotSize)
      let s := modVen slot (fun v => { v with factors := ab }) s
      if lotPasses s v.owner v.stateLot l.length .w false then squareWrite v.stateLot l s
      else record 0x9101 2 0 (some v.owner) true [⟨8, v.stateLot⟩] s
  | none => s

/-- R244: a run of a step that is not followed op by op has consumed a poisoned word: which of the plan's jigs and which op it was is free (log entry 18). -/
def stepPoison (c : Nat) (p : Step) (addr : Nat) (s : State) : State :=
  let bs := (modelOf s c p.model).elim [] fun m => benchesOf (blocksOf m.plan.blocks)
  useFree 2 (recordPoison (bs.headD 0) (some c) (Config.freeValue s.free) (Config.freeValue (s.free + 1) % 4096) addr s)

/-- R357, R391: what a step's attention runs leave, and how the step then ends: FAULTED where one of them met a fault. -/
def workDone (c : Nat) (p : Step) (l : List AttRun) (fate : StepFate) (s : State) : StepFate × State :=
  let a := attRuns c p l s
  let s := foldN a.nan (fun _ s => record 0x5106 1 0 (some c) true [] s) (modServe c (fun y => { y with nanRows := y.nanRows + a.nan }) a.s)
  match a.fault with
  | some f =>
    let s := if f.1 = 0x4104 then stepPoison c p f.2 s else s
    (if fate = .ok then .faulted f.1 f.2 else fate, record f.1 2 0 (some c) (f.1 = 0x9101) [⟨8, f.2⟩] s)
  | none => (fate, s)

/-- R391: the context's step is over, before its runs' results are looked at. -/
def stepOver (c : Nat) (p : Step) (s : State) : State :=
  let s := p.run.elim s fun q => stopRun q.1 s
  modServe c (fun y => { y with
    step := none, boundaryDue := true, endedAt := nextStamp s, steps := wrapAdd 64 y.steps 1, stepNs := now s - p.startNs
    lastKind := kindCode p.kind, batch := if p.kind = .training then y.batch else p.items.length }) s

/-- R392, R397: the histories that the settlement of a step reads. -/
def stepHist (p : Step) (s : State) : List (Nat × Nat) :=
  if p.kind = .training then [] else p.items.map fun i => ((reqOf s i.1).histAddr, 4 * ((reqOf s i.1).promptLen + (reqOf s i.1).generated))

/-- R391, R397, R409, R410: a context's step ends: `work` says what its runs did besides the logits (R349–R359, R364, R416). An
attention run that meets a fault ends the step FAULTED. -/
def execStepEnd (dt c : Nat) (outs : List StepOut) (fate : StepFate) (work : StepWork) (s : State) :
    Host.Outcome State Fault Refusal :=
  .next (event dt (fun s =>
    match (serveOf s c).step with
    | none => s
    | some p =>
      let w := workDone c p work.att fate (stepOver c p s)
      let fate := w.1
      let s := w.2
      let end_ (s : State) (code : Nat) (st : Status) : State :=
        match p.kind, p.items with
        | .training, (id, _) :: _ =>
          finish .venTrain id st (if code = 0 then [] else [⟨2, code⟩])
            (modServe c (fun y => { y with training := y.training.filter fun t => t.1 ≠ id }) s)
        | _, _ => s
      let hist := stepHist p s
      let badHist := hist.find? fun a => rangeBad s a.1 a.2
      match fate, p.fault, badHist with
      | .faulted code addr, f, _ =>
        let s := if code = 0x4104 && f.isNone && work.att.isEmpty then stepPoison c p addr s else s
        end_ (stepFaults c (f.getD code) addr p s) (f.getD code) .faulted
      | .ok, some code, _ => end_ (stepFaults c code p.faultAddr p s) code .faulted
      | .ok, none, some a => end_ (stepFaults c 0x4104 a.1 p (squareReads hist s)) 0x4104 .faulted
      | .ok, none, none =>
        let s := squareReads hist s
        let s := modModel c p.model (fun m => { m with faultRun := 0 }) s
        let most (s : State) : Nat := p.items.foldl (fun a i => max a ((reqOf s i.1).out.filter fun t => bitOf t.flags 4).length) 0
        if p.kind = .training then end_ ((p.items.head?).elim s fun i => trainSlot i.2 work.update s) 0 .ok
        else
          let s := settleStep c p outs s
          let k := p.items.foldl (fun a i => max a i.2) 0
          if p.kind = .decode then modServe c (fun y => { y with waste := wastedSlots k (most s) p.done }) s else s) s)

/-- R21: of the contexts whose steps have ended and that may perform their boundaries, this one comes first: by the stamp at which its
step ended, then by its number. -/
def boundaryFirst (s : State) (c : Nat) : Bool :=
  (List.range 16).all fun d =>
    let x := serveOf s c
    let y := serveOf s d
    d = c || !y.boundaryDue || boundaryHeld s d || y.step.isSome
      || stampLt x.endedAt y.endedAt || (x.endedAt = y.endedAt && decide (c < d))

/-- R340: the boundary that follows a step. -/
def execStepBoundary (dt c : Nat) (tails : List (Nat × Nat × Nat × Nat)) (s : State) : Host.Outcome State Fault Refusal :=
  .next (event dt (fun s => if (serveOf s c).boundaryDue && boundaryFirst s c then boundary c tails s else s) s)

/-- R21: a boundary of the context that is not its step's may be performed now; where its step's is due, it is that one, in its turn. -/
def inTurn (s : State) (c : Nat) : Bool := !(serveOf s c).boundaryDue || boundaryFirst s c

/-- R381: every 1 ms a context with requests and no step performs a boundary. -/
def execIdleBoundaryTimer (dt c : Nat) (tails : List (Nat × Nat × Nat × Nat)) (s : State) : Host.Outcome State Fault Refusal :=
  .next (event dt (fun s =>
    let y := serveOf s c
    if hasLive s c && y.step.isNone && inTurn s c && y.boundaryNs + 1000000 ≤ now s then boundary c tails s else s) s)

/-- R381: a boundary follows a table change of a context that has no step running. -/
def execTableChangeBoundary (dt c : Nat) (tails : List (Nat × Nat × Nat × Nat)) (s : State) : Host.Outcome State Fault Refusal :=
  .next (event dt (fun s =>
    let y := serveOf s c
    if y.changed && y.step.isNone && inTurn s c then boundary c tails s else s) s)

/-- R373, R391: a run of a step has ended: the next one is launched, unless it ended FAULTED. -/
def stepRunEnded (r : Run) (s : State) : State :=
  match (serveOf s r.ctx).step with
  | none => s
  | some p =>
    match p.run with
    | none => s
    | some q =>
      if q.1 ≠ r.id then s
      else if r.stopped then
        modServe r.ctx (fun y => { y with step := some { p with todo := [], run := none, fault := r.fault.map (·.1) } }) s
      else launchNext r.ctx (modServe r.ctx (fun y => { y with step := some { p with done := p.done ++ [(q.2, r.retired)] } }) s)

/-- R174, R373: every bench of a run has ended. -/
def execRunEnd (dt id : Nat) (s : State) : Host.Outcome State Fault Refusal :=
  .next (event dt (fun s =>
    let t := endRun id s
    match runOf s id with
    | some r => if (runOf t id).isNone then stepRunEnded r t else t
    | none => t) s)

/-! ### Registers -/

/-- R428: `REQ_RING_PROD`. -/
def ringProdReg (s : State) (n : Nat) : Nat :=
  match (ringCtx s n).bind fun c => (ringOf s c n).map fun r => (c, r) with
  | none => 0xFFFF * 2 ^ 32
  | some (c, r) => r.par.kind * 2 ^ 48 + (ringBound s c n).elim 0xFFFF (·.1) * 2 ^ 32 + ringWritten s c n r

/-- R430: `REQ_CTX_STATUS`. -/
def reqCtxStatus (s : State) (c : Nat) : Nat :=
  let y := serveOf s c
  let faulted := (List.range 8).foldl (fun m i => if (modelOf s c i).elim false (·.faulted) then maskSet m i else m) 0
  let parked := ((liveReqs s c).filter fun q => q.2.state = .parked).length
  let mode := if y.halted then 3 else if y.step.isSome then 1 else if quiesced s (fidContext c) then 2 else 0
  mode + y.lastKind * 2 ^ 4 + y.batch * 2 ^ 16 + parked * 2 ^ 32 + faulted * 2 ^ 48

/-- R431: `VEN_SLOT`, as a 128-bit number. -/
def venSlotReg (s : State) (i : Nat) : Nat :=
  let v := venOf s i
  venCode v.state + v.rank * 2 ^ 7 + v.owner * 2 ^ 16 + v.model * 2 ^ 20 + v.name % 2 ^ 32 * 2 ^ 32
    + veneerRefs s i v.version * 2 ^ 64 + v.version * 2 ^ 96

end Sys2Proof.Machine
end

