-- ==== Sys2Proof/Machine/Xlt.lean ====
section
/-! DEFINITION. The receiving and recovering side of the lane transport: acknowledgement (R457–R460, R463), lanes that go DOWN and
reopen (R461, R462), operations that complete or fail (R465), peers, violations and quarantine (R451–R454, R472–R474). -/
namespace Sys2Proof.Machine

/-! ### Operations that end -/

/-- The operation with a tag on a lane. -/
def opOn (s : State) (lane tag : Nat) : Option NetOp := s.net.ops.find? fun o => o.tag = tag && o.lane = lane

/-- An operation gives its tag back (R464). -/
def dropOp (o : NetOp) (s : State) : State := retryTags { s with net := { s.net with ops := s.net.ops.filter (· ≠ o) } }

/-- A request of a context changes outside a boundary: one follows (R381). -/
def endWith (c x : Nat) (e : Ending) (s : State) : State :=
  noteChange c (addEnding x e s)

/-- R465: the operation ends with a fault code, and a NAK's reason. -/
def failOp (o : NetOp) (code : Nat) (reason : Option Nat) (s : State) : State :=
  let bench (b u i : Nat) : State :=
    settleDrains (ackOp (b, u, i) (benchFault b u i code (reason.elim [] fun r => [⟨1, r⟩]) (dropOp o s)))
  match o.purpose with
  | .benchWrite b u i => bench b u i
  | .benchRead b u i _ => bench b u i
  | .benchList b u i _ _ => bench b u i
  | .benchAtomic b u i => bench b u i
  | .ring c n =>
    match reason with
    | none => s
    | some _ =>
      let s := dropOp o s
      match ringBound s c n with
      | some (x, _) => let t := issueStamp s; endWith c x ⟨7, t.1⟩ t.2
      | none => s
  | .ship x => let s := dropOp o s; noteChange (reqOf s x).ctx (failShip x false s)
  | .control => if reason.isSome then dropOp o s else s
  | .dowel _ => if reason.isSome then dropOp o s else s
  | .journal _ _ _ => s

/-- R459: a message has been acknowledged: an operation that its acknowledgement completes is done. -/
def completeOpOf (lane : Nat) (x : Sent) (s : State) : State :=
  match opOn s lane x.msg.tag with
  | none => s
  | some o =>
    match o.purpose with
    | .benchWrite b u i => answerRemote (laneOf s o.lane).peer b { op := .ack, from_ := (b, u, i), module := some (laneOf s o.lane).peer } (dropOp o s)
    | .benchRead _ _ _ _ => s
    | .benchList _ _ _ _ _ => s
    | .benchAtomic _ _ _ => s
    | .journal c _ _ => drainProgress (flushPend c (dropOp o s))
    | _ => dropOp o s

/-! ### Lanes -/

/-- R457, R463: an acknowledgement arrives: messages below `ack` are done, credit is granted, and an echo halves the window. -/
def ackLane (n ack credit : Nat) (echo : Bool) (s : State) : State :=
  let l := laneOf s n
  let una := (l.sndNext + 2 ^ 32 - l.unacked.length) % 2 ^ 32
  let k := if seqDist una ack ≤ l.unacked.length then seqDist una ack else 0
  let gone := l.unacked.take k
  let f := takeFree s
  let cut := echo && l.lastCut + l.srtt ≤ now s
  let s := modLane n (fun l =>
    let rest := l.unacked.drop k
    let lim := (ack + credit) % 2 ^ 32
    { l with
      unacked := rest
      sndLimit := if seqDist l.sndLimit lim < 2 ^ 31 then lim else l.sndLimit
      ackedCount := l.ackedCount + k
      window := if cut then max 4 (min l.window credit / 2)
        else if credit ≤ l.window then l.window else min credit (l.window + ((l.ackedCount + k) / 64 - l.ackedCount / 64))
      lastCut := if cut then now s else l.lastCut
      srtt := if k = 0 then l.srtt else f.1 % 2 ^ 32
      retries := if k = 0 then l.retries else 0
      deadline := if rest.isEmpty then none else if k = 0 then l.deadline else some (now s + laneTimeout { l with retries := 0 })
      stoppedNak := if k = 0 then l.stoppedNak else false
      idleAt := now s }) (if k = 0 then s else f.2)
  drainLane n 1024 (gone.foldl (fun s x => completeOpOf n x s) s)

/-- R459: send a PROBE ACK. -/
def sendAck (n : Nat) (s : State) : State :=
  let l := laneOf s n
  transmit ⟨0x02, l.peer, { withAck l { blankMsg with op := 0, port := l.port, srcC := l.ctx, dstC := l.peerCtx } with modlane := l.modlane }⟩
    (modLane n (fun l => { l with announced := wrapAdd 32 l.rcvNext l.depth, ackDue := none, ecnEcho := false }) s)

/-- R460: send every unacknowledged message of a lane again. -/
def resendLane (n : Nat) (s : State) : State :=
  let l := laneOf s n
  let s := { s with net := { s.net with retransmits := satAdd 64 s.net.retransmits l.unacked.length } }
  let s := l.unacked.foldl (fun s x => transmit { x with msg := { withAck l x.msg with seq := x.msg.seq, port := l.port, retransmit := true } } s) s
  modLane n (fun l => { l with deadline := if l.unacked.isEmpty then none else some (now s + laneTimeout l), ackDue := none
                               announced := if l.unacked.isEmpty then l.announced else wrapAdd 32 l.rcvNext l.depth }) s

/-- R465: what an operation is for ends with its lane; the serving units' records wait for the lane instead. -/
def endsWithLane : OpFor → Bool
  | .ring _ _ => false
  | .control => false
  | .dowel _ => false
  | .journal _ _ _ => false
  | _ => true

/-- The bench operations and shipments outstanding on a lane, or waiting for a tag of it (R464, R465). A waiting one has no tag: 16,384 is
none. -/
def failLaneOps (n code : Nat) (s : State) : State :=
  let gone := s.net.tagWait.filter fun w => w.1 = n && endsWithLane w.2.1
  let s := { s with net := { s.net with tagWait := s.net.tagWait.filter fun w => !(w.1 = n && endsWithLane w.2.1) } }
  let s := (s.net.ops.filter fun o => o.lane = n).foldl (fun s o => failOp o code none s) s
  gone.foldl (fun s w => failOp ⟨16384, n, w.2.1⟩ code none s) s

/-- R461, R473: a lane goes DOWN. -/
def laneDown (n : Nat) (s : State) : State :=
  let l := laneOf s n
  if l.state = .closed || l.state = .down then s
  else failLaneOps n 0x6121 (modLane n (fun l => { l with state := .down, probeAt := now s + 100000000, deadline := none }) s)

/-- A lane closes: what is outstanding on it fails. -/
def closeLane (n code : Nat) (s : State) : State :=
  modLane n (fun _ => {}) (failLaneOps n code s)

/-- R462: reopen a lane under R455. -/
def reopenLane (n : Nat) (s : State) : State := sendOpen n (modLane n (fun l => { l with state := .reopening, retries := 0 }) s)

/-- R462: the messages that a reopened lane sends again. -/
def resendable (x : Sent) : Bool := x.typ = 0x10 || x.typ = 0x11 || x.typ = 0x15 || x.typ = 0x16

/-- R455, R462: a lane is open: its counts start at 0, its limit is the credit granted; a reopened lane sends its messages again, and
its atomics and collectives end with 0x6123. -/
def laneUp (n theirs credit : Nat) (s : State) : State :=
  let l := laneOf s n
  let again := l.state = .reopening
  let lost := l.unacked.filter fun x => !resendable x
  let s := modLane n (fun l => { l with
    state := .up, theirs := theirs, sndNext := 0, sndLimit := credit, window := max 4 credit, rcvNext := 0, announced := l.depth
    waiting := l.unacked.filter resendable ++ l.waiting, unacked := [], retries := 0, deadline := none, idleAt := now s }) s
  let s := lost.foldl (fun s x => match opOn s n x.msg.tag with
    | some o => failOp o 0x6123 none s
    | none => s) s
  let s := if again then record 0x6113 1 0 none false [⟨2, n⟩] s else s
  drainLane n 1024 s

/-! ### Peers -/

/-- R473: quarantine a peer for 30 s. -/
def quarantinePeer (m : Nat) (s : State) : State :=
  let s := record 0x6110 2 0 none false [⟨2, m⟩] (modPeer m (fun p => { p with quarantineEnd := some (now s + 30000000000) }) s)
  (lanesTo s m).foldl (fun s l => laneDown l.1 s) s

/-- R472–R474: one violation charged to a peer; `code` is its recorder entry, and XLT_VIOLATIONS counts it when `counted`. -/
def peerViolation (m code sev : Nat) (counted : Bool) (s : State) : State :=
  let s := if counted then { s with net := { s.net with violations := satAdd 64 s.net.violations 1 } } else s
  let s := modPeer m (fun p => { p with
    violations := satAdd 32 p.violations 1
    violTimes := (p.violTimes.filter fun t => now s < t + 1000000000) ++ [now s] }) (record code sev 0 none true [⟨2, m⟩] s)
  let n := (peerOf s m).elim 0 fun p => p.violTimes.length
  if 10 ≤ n && !isTrusted s m && !peerQuarantined s m then quarantinePeer m s else s

/-- R436, R476: a frame is dropped and counted at its port; on the sister port with 0x6108. -/
def dropFrame (port : Nat) (s : State) : State :=
  let s := modPort port (fun p => { p with rxDrops := satAdd 64 p.rxDrops 1 }) s
  if port = 32 then record 0x6108 2 0 none true [] s else s

/-- R450, R472: a malformed message is dropped without answer. -/
def dropMalformed (srcM : Nat) (s : State) : State :=
  let s := { s with net := { s.net with malformed := satAdd 64 s.net.malformed 1 } }
  if (peerOf s srcM).isSome then peerViolation srcM 0x6101 1 false s else record 0x6101 1 0 none true [⟨2, srcM⟩] s

/-- R454, R472: a message from a module that is not known is answered NAK UNKNOWN_PEER, once per millisecond and source. -/
def unknownPeer (m : XMsg) (s : State) : State :=
  let s := record 0x6107 1 0 none true [⟨2, m.srcM⟩] { s with net := { s.net with unknownPeer := satAdd 64 s.net.unknownPeer 1 } }
  let last := tget s.net.unknownNaks m.srcM 0
  if last ≠ 0 && now s < last + 1000000 then s
  else sendNak 0x08 m m.lane { s with net := { s.net with unknownNaks := tset s.net.unknownNaks m.srcM (now s) } }

/-- What every message meets on arrival, in this order: its port, the source of a sister frame (R476), quarantine (R473). -/
def portTakes (m : XMsg) (s : State) : Bool × State :=
  if portState s m.port ≠ .up then (false, s)
  else if m.port = 32 && s.net.sister ≠ some m.srcM then (false, dropFrame 32 s)
  else
    let s := modPort m.port (fun p => { p with
      rxFrames := wrapAdd 64 p.rxFrames 1, rxBytes := wrapAdd 64 p.rxBytes (48 + m.data.length + 2 * m.chks.length) }) s
    (!peerQuarantined s m.srcM, s)

/-- R449: what a message type asks of its check bits: nothing, check bits, or check bits at an aligned address. -/
inductive CheckRule where
  | none | words | aligned
  deriving DecidableEq, Repr, Inhabited

/-- R450: the payload agrees with the header, and check bits stand where the type requires data under them. -/
def wellFormedMsg (s : State) (m : XMsg) (rule : CheckRule) (hasData : Bool) : Bool :=
  let words := m.check && m.length % 16 = 0 && m.chks.length = m.length / 16
  m.length ≤ (portOf s m.port).cfg.maxData && (!hasData || m.data.length = m.length) && (match rule with
    | .none => true
    | .words => words
    | .aligned => words && m.addr % 16 = 0)

/-- R27, R454, R26: the sender is known, its stamp is within the skew limit, and L moves past it; `none` when the message is
dropped. DESIGN CHOICE (the manual gives these checks no order): the sender first, then the skew, then the sequence number (log entry 26). -/
def acceptMsg (m : XMsg) (s : State) : Bool × State :=
  if (peerOf s m.srcM).isNone then (false, unknownPeer m s)
  else if s.time.t + s.time.skewLimit < m.stamp.ns then
    (false, peerViolation m.srcM 0x6130 2 false { s with time := { s.time with skewDrops := satAdd 64 s.time.skewDrops 1 } })
  else
    let q := issueStamp (causal m.stamp s)
    (true, modPeer m.srcM (fun p => { p with lastMsg := now q.2 }) q.2)

/-- A message of the module class, or about a lane: the checks, then the acknowledgement it carries, then what it does. It is an input of the
Square's cores (R56). -/
def receiveModule (m : XMsg) (body : State → State) (s : State) : State :=
  match portTakes m s with
  | (false, s) => s
  | (true, s) =>
    match acceptMsg m s with
    | (false, s) => s
    | (true, s) =>
      let s := takeInput (.network m.srcM) s
      body (if m.hasAck && (laneOf s m.lane).peer = m.srcM then ackLane m.lane m.ack m.credit m.ecnEcho s else s)

/-! ### Lane messages -/

/-- R458: what the sequence number of a lane message says. -/
inductive SeqCheck where
  | accept | duplicate | gap | overrun | window
  deriving DecidableEq, Repr, Inhabited

def checkSeq (l : Lane) (q : Nat) : SeqCheck :=
  let d := seqDist l.rcvNext q
  if 2 ^ 31 ≤ d then .duplicate
  else if l.depth ≤ d then .window
  else if seqDist l.rcvNext l.announced ≤ d then .overrun
  else if d = 0 then .accept
  else .gap

/-- R459: the effect of a message is complete: an acknowledgement is due within 2 µs, or at once. -/
def acknowledge (n : Nat) (atOnce : Bool) (s : State) : State :=
  if atOnce then sendAck n s else modLane n (fun l => { l with ackDue := some (l.ackDue.getD (now s + 2000)) }) s

/-- R458, R460, R473: a lane message whose sequence number its lane does not expect has no effect. -/
def refuseSeq (m : XMsg) (c : SeqCheck) (s : State) : State :=
  let n := m.lane
  let l := laneOf s n
  match c with
  | .accept => s
  | .duplicate => acknowledge n m.ackNow s
  | .gap =>
    if (match l.lastSeqNak with
      | some t => decide (now s < t + 10000)
      | none => false) then s
    else sendNak 0x01 { m with ack := l.rcvNext } l.theirs (modLane n (fun l => { l with lastSeqNak := some (now s) }) s)
  | .overrun => peerViolation m.srcM 0x6103 1 true (sendNak 0x03 m l.theirs s)
  | .window => peerViolation m.srcM 0x6102 1 true (sendNak 0x02 m l.theirs s)

/-- R459, R470: what follows an effect: an acknowledgement, after a NAK where the effect answers one. -/
def laneDone (m : XMsg) (r : Option Nat × State) : State :=
  match r with
  | (some reason, s) => acknowledge m.lane m.ackNow (sendNak reason m (laneOf s m.lane).theirs s)
  | (none, s) => acknowledge m.lane m.ackNow s

/-- A lane message's acknowledgement and congestion mark are taken. -/
def takeAck (m : XMsg) (s : State) : State :=
  let s := if m.hasAck then ackLane m.lane m.ack m.credit m.ecnEcho s else s
  if m.ce then modLane m.lane (fun l => { l with ecnEcho := true }) s else s

/-- R458: the lane of a message expects the next number. -/
def expectNext (m : XMsg) (s : State) : State := modLane m.lane (fun l => { l with rcvNext := wrapAdd 32 l.rcvNext 1, idleAt := now s }) s

/-- A lane message: the checks, the acknowledgement it carries, its sequence number, then its effect, which answers a NAK reason or
none (R458, R459). DESIGN CHOICE (the manual does not say whether a message that is then dropped counts as accepted): it does, so L moves past
its stamp (log entry 26). -/
def receiveLane (m : XMsg) (rule : CheckRule) (hasData : Bool) (effect : State → Option Nat × State) (s : State) : State :=
  match portTakes m s with
  | (false, s) => s
  | (true, s) =>
    if !wellFormedMsg s m rule hasData then dropMalformed m.srcM s
    else match acceptMsg m s with
      | (false, s) => s
      | (true, s) =>
        let l := laneOf s m.lane
        if l.state = .closed || l.peer ≠ m.srcM || l.modlane ≠ m.modlane then s
        else
          let s := takeAck m s
          match checkSeq (laneOf s m.lane) m.seq with
          | .accept => laneDone m (effect (expectNext m s))
          | c => refuseSeq m c s

/-- R47, R670: a remote operation's grant, and the state of the context it names. -/
def remoteAllowed (m : XMsg) (s : State) : Option Nat × State :=
  let c := m.dstC
  if !(tget s.net.grants c []).contains (m.srcM, m.srcC) then (some 0x06, peerViolation m.srcM 0x6105 1 true s)
  else if (funcOf s (fidContext c)).state ≠ .running || (mirrored s c && (redOf s c).role = .fenced) then (some 0x0C, s)
  else (none, s)

/-- R44, R472: a lot check of a remote operation fails. -/
def lotNak (m : XMsg) (s : State) : Option Nat × State :=
  (some 0x04, record 0x9102 2 0 (some m.dstC) true [⟨6, m.addr⟩, ⟨2, m.srcM⟩] s)

/-- The traffic class that a message asks for at the target's mesh (R447). -/
def msgClass (m : XMsg) : TrafficClass := if m.bulk then .bulk else .request

/-- R663: the context whose mirror lots take a write of the sister. Nothing names the history lot of a MIRRORED context: any of its lots with r
and w is taken for it (log entry 22). -/
def mirrorTarget (s : State) (a len : Nat) : Option Nat :=
  (List.range 16).find? fun c =>
    let p := (redOf s c).par
    let lots := (serveOf s c).pool.lots ++ [(serveOf s c).pool.scaleLot, p.histLot, p.mirrorLot]
    mirrored s c && ((redOf s c).role = .standby || (redOf s c).role = .resync)
      && (ctxOf s c).lots.any fun e => lotCovers e.2 a len
        && (lots.contains (lotBase e.2) || (lotGrants e.2 .r && lotGrants e.2 .w))

/-- R48, R663: the effect of a DATA_WRITE. -/
def effectWrite (m : XMsg) (s : State) : Option Nat × State :=
  let put (s : State) : State := writeBytes m.addr m.data m.chks (touchYard (.edge .net) m.addr m.length (msgClass m) .write s)
  if m.modlane then
    match mirrorTarget s m.addr m.length with
    | some _ => if s.net.sister = some m.srcM then (none, put s) else lotNak m s
    | none => lotNak m s
  else match remoteAllowed m s with
    | (some r, s) => (some r, s)
    | (none, s) => if lotPasses s m.dstC m.addr m.length .w true then (none, put s) else lotNak m s

/-- A response leaves on the lane that its request came on. -/
def respond (m : XMsg) (data : List Byte) (chks : List Nat) (s : State) : State :=
  sendLane m.lane ⟨0x12, m.srcM, { blankMsg with
    srcC := m.dstC, dstC := m.srcC, tag := m.tag, length := data.length, check := true, modlane := m.modlane
    data := data, chks := chks }⟩ s

/-- R459: the effect of a DATA_READ. -/
def effectRead (m : XMsg) (s : State) : Option Nat × State :=
  match remoteAllowed m s with
  | (some r, s) => (some r, s)
  | (none, s) =>
    if !lotPasses s m.dstC m.addr m.length .r true then lotNak m s
    else
      let s := touchYard (.edge .net) m.addr m.length (msgClass m) .read s
      let p := carryBytes s m.addr m.length
      (none, respond m p.1 p.2 s)

/-- R49, R466: the effect of an ATOMIC; CAS carries its compare value as data. -/
def effectAtomic (m : XMsg) (s : State) : Option Nat × State :=
  match remoteAllowed m s with
  | (some r, s) => (some r, s)
  | (none, s) =>
    let onBench := match windowOf m.addr with
      | .bench _ => true
      | _ => false
    if onBench || m.addr % 8 ≠ 0 || !lotPasses s m.dstC m.addr 8 .a true then lotNak m s
    else match doAtomic m.addr m.op m.operand (leNat m.data) (edgeTag m.addr (meshTraffic (.edge .net) m.addr 8 .request .atomic s)) with
      | (none, s) => (some 0x05, s)
      | (some old, s) => (none, respond m (leBytes 8 old ++ List.replicate 8 0) [0] s)

/-- R467: the bytes of an element of a collective. -/
def collBytes (op : Nat) : Nat := if op = 0 || op = 2 || op = 3 then 4 else 2

/-- R218, R467: an element combined into the target's. -/
def collElem (op old new : Nat) : Nat :=
  match op with
  | 0 => toF32 (round32 (numAdd (ofF32 old) (ofF32 new)))
  | 1 => (convert 1 false .nearest (round32 (numAdd (decodeElem 1 old) (decodeElem 1 new)))).bits
  | 2 => toF32 (numMax (ofF32 old) (ofF32 new))
  | 3 => toF32 (numMin (ofF32 old) (ofF32 new))
  | _ => new

/-- R467: the effect of a COLLECTIVE. -/
def effectCollective (m : XMsg) (s : State) : Option Nat × State :=
  match remoteAllowed m s with
  | (some r, s) => (some r, s)
  | (none, s) =>
    let g := m.op / 8 % 32
    let ok (a n : Nat) : Bool := lotPasses s m.dstC a n .w true && lotPasses s m.dstC a n .a true
    match tget s.net.groups (32 * m.dstC + g) none with
    | none => lotNak m s
    | some q =>
      if !ok m.addr m.length || !ok q.counter 8 then lotNak m s
      else if m.op % 8 ≠ 4 && (rangeBad s m.addr m.length || m.chks.any badWord) || rangeBad s q.counter 8 then
        (some 0x05, consumeCount m.addr m.length s)
      else
        let k := collBytes (m.op % 8)
        let s := touchYard (.edge .net) m.addr m.length (msgClass m) .atomic s
        let old := pieces k (m.length / k) (consumeBytes s m.addr m.length)
        let new := pieces k (m.length / k) m.data
        let l := (old.zipWith (fun a b => leBytes k (collElem (m.op % 8) (leNat a) (leNat b))) new).flatten
        let s := if m.op % 8 = 4 then writeBytes m.addr m.data m.chks s else writeBytes m.addr l [] s
        let s := touchYard (.edge .net) q.counter 8 (msgClass m) .atomic s
        let c := leNat (consumeBytes s q.counter 8)
        (none, writeBytes q.counter (leBytes 8 ((c + m.operand) % 2 ^ 64)) [] s)

/-- The bytes of a remote LOAD go to the bench whose op waits for them. -/
def returnRead (b u i pos : Nat) (m : XMsg) (s : State) : State :=
  match (benchOf s b).cur.bind fun r => r.inflight.find? fun f => f.unit = u && f.idx = i && 0 < f.waits with
  | none => s
  | some f =>
    answerRemote m.srcM b { op := .data, addr := m.addr, data := m.data.take m.length, chks := m.chks, from_ := (b, u, i), dst := f.d
                            pos := pos, bulk := m.bulk, module := some m.srcM } s

/-- R464: the effect of a READ_RESP: the operation of its tag completes. -/
def effectResp (m : XMsg) (s : State) : Option Nat × State :=
  match opOn s m.lane m.tag with
  | none => (none, s)
  | some o =>
    match o.purpose with
    | .benchRead b u i pos => (none, settleDrains (returnRead b u i pos m (dropOp o s)))
    | .benchList b u i left done_ =>
      (none, settleDrains (answerRemote m.srcM b
        { op := .listed left done_, data := m.data, chks := m.chks, from_ := (b, u, i), module := some m.srcM, bulk := m.bulk } (dropOp o s)))
    | .benchAtomic b u i => (none, answerRemote m.srcM b { op := .ack, from_ := (b, u, i), module := some m.srcM } (dropOp o s))
    | _ => (none, s)

/-- R98: the entries that arrive at a quarantined mailbox are lost, and their positions are found consumed (DEDUCED, log entry 27). -/
def loseEntries (mb : Nat) (data : List Byte) (s : State) : State :=
  modMbx mb (fun b =>
    let t := wrapAdd 32 b.cmdTail (ceilDiv data.length 64)
    { b with ring := writeRing b.cmdTail data b.ring, cmdTail := t, cmdHead := t }) s

/-- R468: the effect of a CONTROL message: its entries take their places in the mailbox's ring, and its commands are exposed. -/
def effectControl (m : XMsg) (s : State) : Option Nat × State :=
  let mb := m.addr % 256
  let n := m.length / 64
  let bound := 17 ≤ mb && mb ≤ 24 && (mbxOf s mb).binding.elim false fun b => b.peer = m.srcM
  if !m.modlane || m.length % 64 ≠ 0 || n = 0 || 4 < n || !bound then (some 0x07, peerViolation m.srcM 0x6104 1 true s)
  else if resetting s mb then (none, s)
  else if quarantined s mb then (none, loseEntries mb (m.data.take (64 * n)) s)
  else (none, takeEntries mb (m.data.take (64 * n)) s)

end Sys2Proof.Machine
end

