-- ==== Sys2Proof/Machine/Power.lean ====
section
/-! DEFINITION. Power, pace, droop and cooling (chapter 13) and the measurement of the input (R745, R746). -/
namespace Sys2Proof.Machine

/-- R530, R541: the fabric rail is up: the loops run. -/
def fabricOn (s : State) : Bool := s.tray.pwrGood && !s.tray.thermTrip

/-! ### Halts (R564, R579–R597) -/

/-- R564: a coolant stop, a supply halt or a thermal trip overrides the confidential epochs. -/
def overrides (s : State) : State := if confMode s then recordSq 0x8205 1 [] s else s

/-- R586, R593: the gates close, the pace target is 0 and video pauses; the pace group is told. -/
def haltFabric (s : State) : State :=
  let s := modPace (fun p => { p with limiter := 5, deferred := false }) (setTarget 0 (pauseVideo (applyBlocks s)))
  lagBehind (overrides s)

/-- R586, R597: a coolant stop. -/
def coolantStop (s : State) : State :=
  if s.pwr.cool.stop then s
  else
    let s := haltFabric (modCool (fun c => { c with stop := true }) s)
    let s := raiseAlert .coolantStop (record 0x8403 3 0x8000 none false [] s)
    releaseAll (notify 4 0x8403 0x8000 s)

/-- R593: a supply halt, with the code of its cause; the recorder is flushed from input power. -/
def supplyHalt (code : Nat) (s : State) : State :=
  if supplyHalted s then s
  else
    let s := haltFabric (modInput (fun i => { i with halt := some (now s), released := false }) s)
    let s := raiseAlert .supplyHalt (record code 2 0x8000 none false [] s)
    if frozen s then s else startFlush s

/-- R596: what a halt held resumes when no cause is left. -/
def resumeFabric (s : State) : State := pauseVideo (applyBlocks s)

/-- R579, R580: a thermal trip: the fabric rail is removed, 0x8320 ends a freeze and is flushed, and ALERT_N asserts. -/
def thermTrip (s : State) : State :=
  if s.tray.thermTrip then s
  else
    let s := overrides { s with tray := { s.tray with thermTrip := true } }
    raiseAlert .thermTrip (record 0x8320 3 0x8000 none false [] s)

/-! ### The pace loop (R553–R565) -/

/-- R554: a detector of an ASSIGNED block has fired within the last 10 µs. -/
def droopRecent (s : State) : Bool :=
  (assignedBlocks s).any fun k => match (heatOf s k).fired with
    | some t => now s < t + 10000
    | none => false

/-- R557: the level wanted at a pace tick and what sets it. -/
def wantedLevel (s : State) : Nat × Nat :=
  let a := allowedLevel s
  if groupLimit s < a.1 then (groupLimit s, 2) else a

/-- R561, R562: the level chosen at a confidential epoch. -/
def epochLevel (s : State) : Nat :=
  let mask := (assignedBlocks s).foldl (fun m k => m + 2 ^ k) 0
  let fits (l : Nat) : Bool := l ≤ ceilingOf s && l ≤ groupLimit s && Config.fullPower l mask ≤ s.pwr.pace.ps * 97 / 100
  ((s.pwr.pace.confLevels.filter fits).foldl max (s.pwr.pace.confLevels.headD 0))

/-- R554, R555, R558: move the target: down at once, up by at most `most` levels, and not within 10 µs of a droop. -/
def moveTarget (w : Nat × Nat) (most : Nat) (s : State) : State :=
  let t := s.pwr.pace.target
  if w.1 ≤ t then modPace (fun p => { p with limiter := w.2, deferred := false }) (setTarget w.1 s)
  else if droopRecent s then recordSq8202 (modPace (fun p => { p with deferred := true }) s)
  else modPace (fun p => { p with limiter := w.2, deferred := false }) (setTarget (min w.1 (t + most)) s)
where
  /-- R554: a deferral is counted. -/
  recordSq8202 (s : State) : State := record 0x8202 0 0 none true [] s

/-- R556, R565: a block whose gates droop held closed for more than 5 % of the interval lowers pace by one level for 100 ms. -/
def droopCheck (s : State) : State :=
  let shut (h : BlockHeat) : Nat := h.shutNs + h.shut.elim 0 (now s - ·)
  let past := s.pwr.blocks.any fun x => 50000 < shut x.2
  let s := { s with pwr := { s.pwr with blocks := s.pwr.blocks.map fun x =>
    (x.1, { x.2 with shutNs := 0, shut := x.2.shut.map fun _ => now s }) } }
  if !past then s
  else
    let s := record 0x8201 1 0 none true [] s
    if confMode s then s else modPace (fun p => { p with droopCeil := some (p.target - 1, now s + 100000000) }) s

/-- R545, R556–R558, R561, R568: the pace tick. -/
def execPaceTick (dt : Nat) (s : State) : Host.Outcome State Fault Refusal :=
  .next (event dt (fun s =>
    if !fabricOn s then s
    else
      let s := droopCheck (renewLimit s)
      if s.pwr.cool.stop || supplyHalted s then modPace (fun p => { p with limiter := 5, deferred := false }) (setTarget 0 s)
      else if paceHeld s then s
      else if confMode s then lagBehind s
      else lagBehind (moveTarget (wantedLevel s) 4 s)) s)

/-- R554: 10 µs have passed without a firing: an increase that is still wanted starts. -/
def execDeferredPaceIncrease (dt : Nat) (s : State) : Host.Outcome State Fault Refusal :=
  .next (event dt (fun s =>
    if !s.pwr.pace.deferred || droopRecent s || paceHeld s then s
    else if confMode s then moveTarget (epochLevel s, 4) 31 s
    else if (wantedLevel s).1 ≤ s.pwr.pace.target then modPace (fun p => { p with deferred := false }) s
    else moveTarget (wantedLevel s) 4 s) s)

/-- R534: the rail moves one level towards the target, one microsecond after its last step. -/
def execRailLevelStep (dt : Nat) (s : State) : Host.Outcome State Fault Refusal :=
  .next (event dt (fun s =>
    let p := s.pwr.pace
    if !fabricOn s || p.level = p.target || now s < p.stepAt + 1000 then s
    else modPace (fun p => { p with
      level := if p.level < p.target then p.level + 1 else p.level - 1, stepAt := now s, ramped := true }) s) s)

/-- R533, R608: the pace meter's interval ends with a measured rate, in 1,000 events/s; R532 bounds what it can measure (`rateBand`). -/
def execPaceMeterInterval (dt rate : Nat) (s : State) : Host.Outcome State Fault Refusal :=
  .next (event dt (modPace (fun p => { p with
    rate := rate % 2 ^ 32, rateLevel := p.level, rateRamp := p.ramped, ramped := decide (p.level ≠ p.target) })) s)

/-- R556: the droop ceiling's 100 ms end. -/
def execDroopCeilingExpiry (dt : Nat) (s : State) : Host.Outcome State Fault Refusal :=
  .next (event dt (fun s =>
    match s.pwr.pace.droopCeil with
    | some (_, t) => if t ≤ now s then modPace (fun p => { p with droopCeil := none }) s else s
    | none => s) s)

/-- R561, R602: T reaches a multiple of 100 ms: the confidential level is chosen, and what others see of the energy of confidential contexts
advances. -/
def execConfEpoch (dt : Nat) (s : State) : Host.Outcome State Fault Refusal :=
  .next (event dt (fun s' =>
    if s'.time.t / 100000000 ≤ s.time.t / 100000000 then s'
    else
      let seen := s'.sec.ctxs.foldl (fun t x =>
        if x.2.confidential then tset t x.1 (((tget s'.pwr.input.ctxEnergy x.1 []).foldl (· + ·) 0) % 2 ^ 64) else t) s'.pwr.input.shown
      let s' := modInput (fun i => { i with shown := seen }) s'
      if !confMode s' || !fabricOn s' || paceHeld s' || s'.pwr.cool.stop || supplyHalted s' then s'
      else moveTarget (epochLevel s', 4) 31 s') s)

/-! ### The estimator and the power loop (R536–R544, R559, R563) -/

/-- R536: the dynamic energy of the last microsecond, in nJ. -/
def execEstimatorTick (dt d : Nat) (s : State) : Host.Outcome State Fault Refusal :=
  .next (event dt (fun s =>
    if fabricOn s then modPace (fun p => { p with dyn := (d :: p.dyn).take 1000, periodD := p.periodD + d }) s else s) s)

/-- R539: k rises until the estimate agrees with the measurement. -/
def raiseScale (s : State) : State :=
  let d := meanOf s.pwr.pace.dyn
  let m := measured1 s
  if powerHeld s || s.pwr.input.lost || d ≤ 0 || m ≤ pEstAvg s * 21 / 20 then s
  else
    let k := (m * 100 / (100 + guardOf s : Nat) - staticTerm s) * 1000 / d
    record 0x8103 1 0 none true [] (modPace (fun p => { p with kFit := some k }) s)

/-- R559: the largest whole percentage that keeps the prediction at or below a goal. -/
def percentFor (st dyn goal : Rat) : Nat :=
  if dyn ≤ 0 then 100 else min 100 ((100 * (goal - st) / dyn).floor.toNat)

/-- R559: set the uniform limit on every ASSIGNED block. -/
def setUniform (peak : Bool) (s : State) : State :=
  let goal := (if peak then peakOf s else s.pwr.pace.ps) * 97 / 100
  let d := dynamicNow s
  let st := staticTerm s
  let now_ := if s.pwr.pace.uniform.isSome then predicted s s.pwr.pace.level - st else d.1
  let x := percentFor st now_ goal
  let s := modPace (fun p => { p with fell := p.fell && peak, uniform := if x < 100 then some ⟨x, now_, p.level, peak⟩ else none }) s
  applyBlocks s

/-- R559: the limit is lifted once the pace reached makes it unnecessary. -/
def liftUniform (s : State) : State :=
  match s.pwr.pace.uniform with
  | none => s
  | some u =>
    let goal := (if u.peak then peakOf s else s.pwr.pace.ps) * 97 / 100
    if s.pwr.pace.level = s.pwr.pace.target && predicted s s.pwr.pace.level ≤ goal then
      applyBlocks (modPace (fun p => { p with uniform := none }) s)
    else s

/-- R539, R545, R568: what the power loop looks at first: the limit, the scale, and whether the rail lags behind a fall. -/
def loopStart (s : State) : State :=
  let s := raiseScale (reporting lowerLimit s)
  if paceHeld s then s else lagBehind s

/-- R543, R544, R559, R563, R568: the power loop, which sees within 1 µs that the allowed level has fallen. A fall of P_S is answered at once; while R561 applies an excess of the estimate alone is not. -/
def execPowerLoopTick (dt : Nat) (s : State) : Host.Outcome State Fault Refusal :=
  .next (event dt (fun s =>
    if !fabricOn s then s
    else
      let s := loopStart s
      if s.pwr.pace.fell then setUniform false s
      else if powerHeld s then s
      else if !confMode s && peakOf s < pEstAvg s && s.pwr.pace.uniform.isNone then setUniform true s
      else liftUniform s) s)

/-- R538: the sums of a least-squares fit over pairs (x, y): n, Σx, Σy, Σx², Σxy. -/
def fitSums (l : List (Rat × Rat)) : Rat × Rat × Rat × Rat × Rat :=
  l.foldl (fun a p => (a.1 + 1, a.2.1 + p.1, a.2.2.1 + p.2, a.2.2.2.1 + p.1 * p.1, a.2.2.2.2 + p.1 * p.2)) (0, 0, 0, 0, 0)

/-- R538: S in W and k fitted to periods of 10 ms with measured energy (10 pJ) and dynamic energy (nJ); none where the fit has no
single solution. -/
def fitPower (l : List (Nat × Nat)) : Option (Rat × Rat) :=
  let a := fitSums (l.map fun p => (((p.2 : Nat) : Rat), ((p.1 : Nat) : Rat) / 100))
  let den := a.1 * a.2.2.2.1 - a.2.1 * a.2.1
  if den = 0 then none
  else
    let k := (a.1 * a.2.2.2.2 - a.2.1 * a.2.2.1) / den
    some ((a.2.2.1 - k * a.2.1) / a.1 / 10000000, k)

/-- R540: a fitted value lies within 50–200 % of the stored one. -/
def fitNear (stored x : Rat) : Bool := stored / 2 ≤ x && x ≤ 2 * stored

/-- R538, R540: the calibration of every 10 ms, over the last 200 periods; frozen while POWER is not RUNNING. -/
def execCalibrationFit (dt : Nat) (s : State) : Host.Outcome State Fault Refusal :=
  .next (event dt (fun s =>
    if !fabricOn s then s
    else
      let s := modPace (fun p => { p with periods := ((p.periodE, p.periodD) :: p.periods).take 200, periodE := 0, periodD := 0 }) s
      if powerHeld s || s.pwr.pace.periods.length < 200 then s
      else match fitPower s.pwr.pace.periods with
        | none => s
        | some (st, k) =>
          if fitNear (Config.staticTerm (calSource s)) st && fitNear (Config.dynamicScale (calSource s)) k then
            modPace (fun p => { p with sFit := some st, kFit := some k, calibrated := true, badFit := false }) s
          else recordSq 0x8102 2 [] (modPace (fun p => { p with badFit := true }) s)) s)

/-! ### The input (R537, R593, R745, R746) -/

/-- R593: ordered shutdown of a module that runs or is booting. -/
def shutDown (s : State) : State :=
  if s.boot.running || s.boot.phase ≠ .booting then orderedShutdown { s with boot := { s.boot with running := true } } else s

/-- R593: consecutive samples at a threshold of the ordered shutdown. -/
def shutSamples (x : InputRead) (i : InputSt) : Nat :=
  if x.mv < 38000 || 63000 < x.mv || x.mv + 2000 ≤ x.bank then i.shut + 1 else 0

/-- R537: the sample joins the averages and the energy of the periods in progress. -/
def takeSample (x : InputRead) (s : State) : State :=
  let s := modInput (fun i => { i with
    mv := x.mv, ma := x.ma, rails := x.rails, samples := (x.mv * x.ma :: i.samples).take 10000, sampleAt := now s, fine := i.fine + x.mv * x.ma
    low := if x.mv < 44000 then i.low + 1 else 0, high := if 60000 < x.mv then i.high + 1 else 0
    shut := shutSamples x i
    goodSince := if 46000 ≤ x.mv && x.mv ≤ 59000 then some (i.goodSince.getD (now s)) else none
    backAt := if i.sampleAt + 10000000 < now s then now s else i.backAt }) s
  modPace (fun p => { p with periodE := p.periodE + x.mv * x.ma }) s

/-- R746: samples have arrived for 1 s. -/
def endLoss (s : State) : State :=
  if s.pwr.input.lost && s.pwr.input.backAt + 1000000000 ≤ now s then
    clearAlert .measurement (modInput (fun i => { i with lost := false }) s)
  else s

/-- R99, R537, R593, R594: a sample of the input: the averages, the supply halt, the ordered shutdown, the boot condition, and the end of the
keep-alive supply below 30 V (R743). A sample that does not reach the Square meets the board controller's comparators alone (R746). -/
def execInputSample (dt : Nat) (x : InputRead) (s : State) : Host.Outcome State Fault Refusal :=
  .next (event dt (fun s =>
    let s := if x.reaches then endLoss (takeSample x s) else modInput (fun i => { i with shut := shutSamples x i }) s
    let s := { s with tray := { s.tray with inputGood := decide (44000 ≤ x.mv && x.mv ≤ 60000) } }
    let i := s.pwr.input
    let s :=
      if 3 ≤ i.shut then shutDown s
      else if !fabricOn s || !x.reaches then s
      else if i.low = 3 then reporting (supplyHalt 0x8501) s
      else if i.high = 3 then reporting (supplyHalt 0x8504) s
      else s
    tryBoot (endBoot (if x.mv < 30000 then { s with tray := { s.tray with keepAlive := false } } else s))) s)

/-- R593: the input has stayed within 46–59 V for 1 s. -/
def execSupplyRecovered (dt : Nat) (s : State) : Host.Outcome State Fault Refusal :=
  .next (event dt (reporting (fun s =>
    match s.pwr.input.halt, s.pwr.input.goodSince with
    | some _, some t =>
      if now s < t + 1000000000 then s
      else clearAlert .supplyHalt (record 0x8502 1 0x8000 none false [] (resumeFabric (modInput (fun i => { i with halt := none }) s)))
    | _, _ => s)) s)

/-- R597: a supply halt has lasted 100 ms. -/
def execSupplyHalt100ms (dt : Nat) (s : State) : Host.Outcome State Fault Refusal :=
  .next (event dt (fun s =>
    match s.pwr.input.halt with
    | some t =>
      if s.pwr.input.released || now s < t + 100000000 then s
      else releaseAll (modInput (fun i => { i with released := true }) s)
    | none => s) s)

/-- R746: no sample has reached the Square for 10 ms. -/
def execMeasurementLoss (dt : Nat) (s : State) : Host.Outcome State Fault Refusal :=
  .next (event dt (fun s =>
    if s.pwr.input.lost || now s < s.pwr.input.sampleAt + 10000000 then s
    else record 0xB120 2 0x8000 none false [] (raiseAlert .measurement (modInput (fun i => { i with lost := true }) s))) s)

/-! ### Energy (R598–R602) -/

/-- R599, R601: the parts of a context's energy in a period of `e` µJ whose whole estimate is `a`: STEP, RUN, VIDEO and NET rounded down, and
IDLE with the remainder. -/
def energyParts (e a : Nat) (x : EnergyShare) : List Nat :=
  let whole := e * x.parts.foldl (· + ·) 0 / a
  let l := (List.range 4).map fun i => e * x.parts.getD i 0 / a
  l ++ [whole - l.foldl (· + ·) 0]

/-- R599: what the contexts receive of a period's energy. -/
def energyGiven (e a : Nat) (l : List EnergyShare) : Nat :=
  (l.map fun x => e * x.parts.foldl (· + ·) 0 / a).foldl (· + ·) 0

/-- Add to the sub-counters of a context. -/
def addEnergy (x : Nat) (parts : List Nat) (t : Tab (List Nat)) : Tab (List Nat) :=
  let old := tget t x (List.replicate 5 0)
  tset t x ((List.range 5).map fun i => old.getD i 0 + parts.getD i 0)

/-- R598–R600: the end of a 10 ms attribution period. `rest` is the share of the estimate that no context has. -/
def execAttributionPeriod (dt : Nat) (shares : List EnergyShare) (rest : Nat) (s : State) : Host.Outcome State Fault Refusal :=
  .next (event dt (fun s =>
    let e := s.pwr.input.fine / 100000
    let a := (shares.map fun x => x.parts.foldl (· + ·) 0).foldl (· + ·) 0 + rest
    let p := issueStamp s
    modInput (fun i => { i with
      fine := i.fine % 100000, energy := i.energy + e, unattributed := i.unattributed + (e - energyGiven e a shares)
      periodStamp := p.1.ns
      ctxEnergy := shares.foldl (fun t x => addEnergy x.ctx (energyParts e a x) t) i.ctxEnergy }) p.2) s)

/-- R602: the energy of a context as one function sees it: the sub-counters, or for others of a confidential context the value of the last
epoch and zeros. -/
def energyRegs (s : State) (viewer : Option Nat) (c : Nat) : List Nat :=
  let l := tget s.pwr.input.ctxEnergy c (List.replicate 5 0)
  if isConf s c && viewer ≠ some c then tget s.pwr.input.shown c 0 :: List.replicate 5 0
  else (l.foldl (· + ·) 0 % 2 ^ 64) :: l.map (· % 2 ^ 64)

/-- R603: `PWR_GET_ENERGY`; a context mailbox receives only its own. -/
def execPwrGetEnergy (h : Hdr) (s : State) : Host.Outcome State Fault Refusal :=
  .next (command h { op := 0x0912, who := whoAll, reads := true } (fun c s =>
    let regs (v : Option Nat) (l : List Nat) : List Fld := l.flatMap fun k => (energyRegs s v k).map fun n => ⟨8, n⟩
    match viewerOf s c.mb with
    | some k => okData s (regs (some k) [k])
    | none => okData s ([⟨8, s.pwr.input.energy % 2 ^ 64⟩, ⟨8, s.pwr.input.unattributed % 2 ^ 64⟩, ⟨8, s.pwr.input.periodStamp⟩]
        ++ regs none (List.range 16))) s)

/-! ### Registers (R605–R610) -/

/-- A non-negative number of watts in 0.1 W, as a field of 16 bits. -/
def tenths (x : Rat) : Nat := min 65535 (x * 10).floor.toNat

/-- R587: the used flow has stayed above 1.2 L/min for so many seconds. -/
def aboveSeconds (s : State) : Nat := s.pwr.cool.above.elim 0 fun t => min 65535 ((now s - t) / 1000000000)

/-- R607: `PWR_STATUS`. -/
def pwrStatus (s : State) : Nat :=
  let p := s.pwr.pace
  let c := s.pwr.cool
  let g := p.group
  let halted := s.pwr.blocks.any fun x => x.2.halted.isSome
  let hot := (List.range 16).any fun g => admitShare s g < 100
  p.level + 2 ^ 5 * p.target + 2 ^ 10 * ceilingOf s + 2 ^ 15 * bit (p.level ≠ p.target) + 2 ^ 16 * bit (confMode s)
    + 2 ^ 17 * bit p.calibrated + 2 ^ 18 * bit (loneNow s) + 2 ^ 19 * bit p.hbHold + 2 ^ 20 * bit c.flowLow
    + 2 ^ 21 * bit c.flowCritical + 2 ^ 22 * bit c.stop + 2 ^ 23 * bit (5 ≤ aboveSeconds s) + 2 ^ 24 * bit (supplyHalted s)
    + 2 ^ 25 * bit c.leak + 2 ^ 26 * bit c.inletHot + 2 ^ 27 * bit hot + 2 ^ 28 * bit (!s.benches.limits.isEmpty)
    + 2 ^ 29 * bit halted + 2 ^ 30 * bit (g.elim false (·.agreed)) + 2 ^ 31 * bit (powerHeld s) + 2 ^ 32 * p.limiter
    + 2 ^ 40 * bit (g.elim false (·.mismatch))

/-- R608: `PWR_PACE_RATE`. -/
def pwrPaceRate (s : State) : Nat :=
  let p := s.pwr.pace
  p.rate + 2 ^ 32 * p.rateLevel + 2 ^ 37 * bit p.rateRamp

/-- R605: `PWR_LIMITS`, `PWR_INPUT` and `PWR_ESTIMATE`. -/
def pwrLimits (s : State) : Nat :=
  s.pwr.pace.ps.floor.toNat + 2 ^ 16 * (peakOf s).floor.toNat + 2 ^ 32 * capTerm s + 2 ^ 48 * s.nv.localCap.getD 750
def pwrInput (s : State) : Nat :=
  let i := s.pwr.input
  min 65535 (i.mv / 10) + 2 ^ 16 * min 65535 (i.ma / 10) + 2 ^ 32 * tenths (measured1 s) + 2 ^ 48 * tenths (measured100 s)
def pwrEstimate (s : State) : Nat :=
  tenths (pEstAvg s) + 2 ^ 16 * tenths (staticTerm s) + 2 ^ 32 * min 65535 (dynScale s * 4096).floor.toNat + 2 ^ 48 * guardOf s

/-- R610: `THM_BLOCK`. -/
def thmBlock (s : State) (k : Nat) : Nat :=
  let h := heatOf s k
  h.a + 2 ^ 10 * h.b + 2 ^ 20 * min 1023 (h.model * 4).floor.toNat + 2 ^ 30 * h.used
    + 2 ^ 41 * bit (h.halted.isSome || fabricHalted s) + 2 ^ 42 * bit h.suspectA + 2 ^ 43 * bit h.suspectB + 2 ^ 44 * h.source
    + 2 ^ 48 * issueLimit s k

/-- R605: `THM_STATUS`: the hottest block is the lowest-numbered of equals. -/
def thmStatus (s : State) : Nat :=
  let hot := (List.range 63).foldl (fun a k => if (heatOf s a).used < (heatOf s k).used then k else a) 0
  let count (p : Nat → Bool) : Nat := ((List.range 63).filter p).length
  hot + 2 ^ 8 * (heatOf s hot).used + 2 ^ 18 * count (fun k => issueLimit s k < 100)
    + 2 ^ 24 * count (fun k => (heatOf s k).halted.isSome || fabricHalted s)
    + 2 ^ 30 * count (fun k => (heatOf s k).suspectA || (heatOf s k).suspectB) + 2 ^ 36 * bit s.pwr.cool.settled

/-- R609: `THM_COOLANT`; R605: `THM_FLOW`. -/
def thmCoolant (s : State) : Nat :=
  let c := s.pwr.cool
  c.tin % 4096 + 2 ^ 12 * (c.tout % 4096) + 2 ^ 24 * (c.dp % 65536) + 2 ^ 40 * (c.used % 65536) + 2 ^ 56 * bit c.moist + 2 ^ 57 * bit c.disagree
def thmFlow (s : State) : Nat :=
  min 65535 s.pwr.cool.qdp + 2 ^ 16 * min 65535 s.pwr.cool.qheat + 2 ^ 32 * aboveSeconds s

/-- R606: the block's `THM_BLOCK` as one function sees it. -/
def thmView (s : State) (viewer : Option Nat) (k : Nat) : Nat :=
  match blockOwner s k, viewer with
  | some o, some v => if o = v then thmBlock s k else 0
  | none, some _ => 0
  | some o, none => if isConf s o then 0 else thmBlock s k
  | none, none => thmBlock s k

/-- R603: `PWR_GET_STATE`: the registers that the mailbox may see and the last 8 changes of P_S (log entry 9). -/
def execPwrGetState (h : Hdr) (s : State) : Host.Outcome State Fault Refusal :=
  .next (command h { op := 0x0900, who := whoAll, reads := true } (fun c s =>
    let v := viewerOf s c.mb
    let head := [pwrStatus s, pwrPaceRate s, pwrLimits s]
    let all := if v.isSome then [] else
      [pwrInput s, pwrEstimate s, s.pwr.input.energy % 2 ^ 64, s.pwr.input.unattributed % 2 ^ 64, s.pwr.input.periodStamp,
       s.pwr.pace.droopEvents, s.pwr.pace.changes, s.pwr.roWrites, thmStatus s]
    let regs := head ++ all ++ [thmCoolant s, thmFlow s] ++ (List.range 63).map (thmView s v)
    let log := s.pwr.pace.psLog.flatMap fun x => [Fld.mk 8 x.ns, Fld.mk 2 x.watts.floor.toNat, Fld.mk 1 x.cause]
    okData s (regs.map (Fld.mk 8) ++ log)) s)

/-! ### Caps and settings (R542–R551, R561, R603) -/

/-- R548: `PWR_SET_LOCAL_CAP`. -/
def execPwrSetLocalCap (h : Hdr) (watts : Nat) (s : State) : Host.Outcome State Fault Refusal :=
  .next (command h { op := 0x0901, who := who0Side } (needFlash fun _ s =>
    if watts < 200 || 750 < watts then no s .badArg
    else ok (lowerLimit (setLocal .localCap watts s))) s)

/-- R548: `PWR_SET_LONE_CAP`. -/
def execPwrSetLoneCap (h : Hdr) (watts : Nat) (s : State) : Host.Outcome State Fault Refusal :=
  .next (command h { op := 0x0902, who := who0Side } (needFlash fun _ s =>
    if watts < 200 || 750 < watts then no s .badArg
    else ok (lowerLimit (setLocal .loneCap watts s))) s)

/-- R546, R547, R570: a cap heartbeat: the value is clamped to 200–750 W, and both states of a silent manager end. -/
def capHeartbeat (watts : Nat) (s : State) : State :=
  let w := max 200 (min 750 watts)
  let s := if w = watts then s else record 0x8113 1 0 none true [] s
  let s := if w = s.pwr.pace.cab then s else modPaceGroup (fun g => { g with giveBack := true }) s
  lowerCap (modPace (fun p => { p with cab := w, hbAt := now s, hbHold := false, lone := false }) s)

/-- R546: `PWR_CAB_CAP`. -/
def execPwrCabCap (h : Hdr) (watts : Nat) (s : State) : Host.Outcome State Fault Refusal :=
  .next (command h { op := 0x0903, who := who0Side } (fun _ s => ok (reporting (capHeartbeat watts) s)) s)

/-- R535: `PWR_SET_CEILING`. -/
def execPwrSetCeiling (h : Hdr) (level : Nat) (s : State) : Host.Outcome State Fault Refusal :=
  .next (command h { op := 0x0904, who := who0Side } (needFlash fun _ s =>
    if 31 < level then no s .badArg else ok (setLocal .ceiling level s)) s)

/-- R551, R86: `PWR_SET_DROOP`; FUNC_START checks the margin (R604). -/
def execPwrSetDroop (h : Hdr) (margin : Nat) (s : State) : Host.Outcome State Fault Refusal :=
  .next (command h { op := 0x0905, who := who0Side } (fun c s => stage fidPower (.pwrDroop margin) c s) s)

/-- R561, R86: `PWR_SET_CONF_LEVELS`. -/
def execPwrSetConfLevels (h : Hdr) (levels : List Nat) (s : State) : Host.Outcome State Fault Refusal :=
  .next (command h { op := 0x0906, who := who0Side } (fun c s => stage fidPower (.pwrConf (levels.take 4)) c s) s)

/-- R587, R588: `PWR_RESUME`. -/
def execPwrResume (h : Hdr) (s : State) : Host.Outcome State Fault Refusal :=
  .next (command h { op := 0x0907, who := who0Side } (fun _ s =>
    if aboveSeconds s < 5 then no s .badState
    else if !s.pwr.cool.stop then ok s
    else ok (reporting (fun s =>
      clearAlert .coolantStop (record 0x8404 1 0x8000 none false []
        (foldN 63 (softOpen true) (resumeFabric (modCool (fun c => { c with stop := false }) s))))) s)) s)

/-- R590: `PWR_CLEAR_LEAK`. -/
def execPwrClearLeak (h : Hdr) (s : State) : Host.Outcome State Fault Refusal :=
  .next (command h { op := 0x0908, who := who0Side } (fun _ s =>
    if s.pwr.cool.moist then no s .badState
    else ok (reporting (fun s => clearAlert .leak (modCool (fun c => { c with leak := false }) s)) s)) s)

/-- R471, R472: a module-class message from a sender that is not entitled. -/
def notEntitled (m : XMsg) (s : State) : State := peerViolation m.srcM 0x6106 1 true s

/-- R546, R549, R550: `CAP_SET`: a SET from the manager. -/
def execCapSet (dt : Nat) (m : XMsg) (s : State) : Host.Outcome State Fault Refusal :=
  .next (event dt (receiveModule m (fun s =>
    if s.nv.manager ≠ some m.srcM then notEntitled m s
    else if 1 < m.op || (m.op = 0 && 2 ^ 48 ≤ m.operand) then dropMalformed m.srcM s
    else if m.op = 1 then s
    else sendReport (capHeartbeat (m.operand % 65536) (modPace (fun p => { p with lastSet := m.operand / 65536 % 2 ^ 32 }) s)))) s)

/-- R547: no heartbeat for 500 ms. -/
def execCapHeartbeatTimeout (dt : Nat) (s : State) : Host.Outcome State Fault Refusal :=
  .next (event dt (fun s =>
    let p := s.pwr.pace
    if p.lone || p.hbHold || now s < p.hbAt + 500000000 then s
    else recordSq 0x8111 1 [] (modPace (fun p => { p with hbHold := true }) s)) s)

/-- R547: 60 s more without one: the lone cap applies. -/
def execLoneCapTimeout (dt : Nat) (s : State) : Host.Outcome State Fault Refusal :=
  .next (event dt (fun s =>
    let p := s.pwr.pace
    if p.lone || !p.hbHold || now s < p.hbAt + 60500000000 then s
    else recordSq 0x8112 1 [] (reporting (fun s => lowerLimit (modPace (fun p => { p with lone := true }) s)) s)) s)

/-- R550: REPORT every second. -/
def execReportTimer (dt : Nat) (s : State) : Host.Outcome State Fault Refusal := .next (event dt sendReport s)

/-! ### Droop (R551–R553) -/

/-- R552, R553: a detector of a bench sees a voltage (0.1 mV): below the threshold the MX gates of its block close. -/
def execDroopDetect (dt bench v : Nat) (s : State) : Host.Outcome State Fault Refusal :=
  .next (event dt (fun s =>
    if !fabricOn s || 252 ≤ bench || !droopFires s v then s
    else
      let k := blockOf bench
      let s := modPace (fun p => { p with droopEvents := satAdd 64 p.droopEvents 1 }) s
      applyBlock k (modHeat k (fun h => { h with fired := some (now s), shut := some (h.shut.getD (now s)) }) s)) s)

/-- R553: 50 ns have passed and no detector of the block sees too little: the gates release, over 200 ns. -/
def execDroopGateRelease (dt k : Nat) (s : State) : Host.Outcome State Fault Refusal :=
  .next (event dt (fun s =>
    match (heatOf s k).shut, (heatOf s k).fired with
    | some t, some f =>
      if now s < f + 50 then s
      else softOpen false k (applyBlock k (modHeat k (fun h => { h with shut := none, shutNs := h.shutNs + (now s - t) }) s))
    | _, _ => s) s)

/-! ### Block temperature (R574–R580) -/

/-- R574: T_m: what the lag gives of T_in + 0.5 ΔT_c + R_k P_k. Without flow ΔT_c has no value: it is free. -/
def blockModel (s : State) (x : HeatRead) : Rat × State :=
  let tin : Rat := (if s.pwr.cool.settled then s.pwr.cool.tin else 450 : Nat) / 10
  let f := takeFree s
  let dtc : Rat × State := if s.pwr.cool.used = 0 then (((f.1 : Nat) : Rat), f.2)
    else (pEst s * 60000 / (4020 * (s.pwr.cool.used : Nat)), s)
  let goal := tin + dtc.1 / 2 + Config.thermalResistance x.block * (x.share : Nat) / 1000
  (Config.thermalLag (heatOf s x.block).model goal 20000, dtc.2)

/-- Two temperatures (°C) differ by more than `d`. -/
def apartBy (a b d : Rat) : Bool := d < a - b || d < b - a

/-- R575: used temperature (0.25 °C), floor and source. -/
def usedTemp (a b : Nat) (sa sb : Bool) : Nat × Nat × Nat :=
  if sa && sb then (max a b, 25, 3)
  else if sa then (b + 12, 100, 2)
  else if sb then (a + 12, 100, 1)
  else (max a b, 100, 0)

/-- R576: the thermal limit of a used temperature in 0.25 °C. -/
def thermalLimit (u : Nat) : Nat := if u < 420 then 100 else if u < 448 then (2800 - 50 * (u - 420)) / 28 else 50

/-- R574–R578, R585: a sample of a block's sensors. -/
def heatSample (x : HeatRead) (s : State) : State :=
  let k := x.block
  let old := heatOf s k
  let q := blockModel s x
  let s := q.2
  let m := q.1
  let a : Rat := (x.a : Nat) / 4
  let b : Rat := (x.b : Nat) / 4
  let sa := old.suspectA || (apartBy a b 3 && apartBy a m 8)
  let sb := old.suspectB || (apartBy a b 3 && apartBy b m 8)
  let u := usedTemp x.a x.b sa sb
  let recent := (old.recent.filter fun p => now s ≤ p.1 + 500000) ++ [(now s, u.1)]
  let halted := if 472 ≤ u.1 then some (old.halted.getD (now s)) else if u.1 < 440 then none else old.halted
  let h : BlockHeat := { old with
    a := min 1023 x.a, b := min 1023 x.b, model := m, suspectA := sa, suspectB := sb
    okA := if apartBy a m 3 then none else some (old.okA.getD (now s))
    okB := if apartBy b m 3 then none else some (old.okB.getD (now s))
    used := min 1023 u.1, floor := u.2.1, source := u.2.2, thermal := thermalLimit u.1, halted := halted
    told := old.told && halted.isSome, recent := recent }
  let s := applyBlock k (modHeat k (fun _ => h) s)
  let s := if sa && !old.suspectA then record 0x8310 1 0x8000 none false [⟨1, k⟩, ⟨1, 0⟩] s else s
  let s := if sb && !old.suspectB then record 0x8310 1 0x8000 none false [⟨1, k⟩, ⟨1, 1⟩] s else s
  let s := if sa && sb && !(old.suspectA && old.suspectB) then notify 4 0x8311 0x8000 (record 0x8311 2 0x8000 none false [⟨1, k⟩] s) else s
  let s := if min h.thermal h.floor < 100 then record 0x8301 0 0x8000 none true [⟨1, k⟩] s else s
  let s := if halted.isSome && old.halted.isNone then record 0x8302 2 0x8000 none false [⟨1, k⟩] s else s
  if recent.any fun p => p.2 + 10 < u.1 then coolantStop s else s

/-- R574–R579: the thermal loop's sample of one block. -/
def execThermalSample (dt : Nat) (x : HeatRead) (s : State) : Host.Outcome State Fault Refusal :=
  .next (event dt (fun s =>
    if !fabricOn s || 63 ≤ x.block then s
    else
      let s := reporting (heatSample x) s
      if 500 ≤ x.a || 500 ≤ x.b then thermTrip s else s) s)

/-- R577: a block's halt has lasted 1 s. -/
def execBlockHalt1s (dt k : Nat) (s : State) : Host.Outcome State Fault Refusal :=
  .next (event dt (fun s =>
    match (heatOf s k).halted with
    | some t =>
      if (heatOf s k).told || now s < t + 1000000000 then s
      else notify 4 0x8302 0x8000 (modHeat k (fun h => { h with told := true }) s)
    | none => s) s)

/-- R575: a suspect sensor (`second`: B) has stayed within 3 °C of the model for 1 s. -/
def execSuspectClear (dt k : Nat) (second : Bool) (s : State) : Host.Outcome State Fault Refusal :=
  .next (event dt (fun s =>
    match (if second then (heatOf s k).okB else (heatOf s k).okA) with
    | some t =>
      if now s < t + 1000000000 then s
      else modHeat k (fun h => if second then { h with suspectB := false } else { h with suspectA := false }) s
    | none => s) s)

/-- R579, R580: a sensor of the die reads 125 °C or more (0.25 °C units). -/
def execThermTrip (dt reading : Nat) (s : State) : Host.Outcome State Fault Refusal :=
  .next (event dt (fun s => if fabricOn s && 500 ≤ reading then thermTrip s else s) s)

/-! ### Coolant (R581–R591) -/

/-- R581: Q_heat in mL/min, where it is valid. -/
def heatFlow (s : State) (x : CoolRead) : Option Nat :=
  if 200 ≤ pEst s && x.tin + 20 ≤ x.tout then some (pEst s * 600000 / (4020 * (x.tout - x.tin : Nat))).floor.toNat else none

/-- R582: two flows differ by more than 25 % (of Q_dp; log entry 21). -/
def flowsApart (qdp qheat : Nat) : Bool := qdp < 4 * (qheat - qdp) || qdp < 4 * (qdp - qheat)

/-- R581, R582, R585, R587: the flows of a tick and the times that its rules measure. -/
def takeFlows (x : CoolRead) (s : State) : State :=
  let c := s.pwr.cool
  let qdp := Config.flowCurve x.dp x.tin
  let qh := heatFlow s x
  let apart := qh.elim false (flowsApart qdp)
  let together := qh.elim false fun q => !flowsApart qdp q
  let tog := if together then some (c.together.getD (now s)) else none
  let disagree := c.disagree && !(tog.elim false fun t => t + 1000000000 ≤ now s)
  let used := if disagree then min qdp (qh.getD qdp) else qdp
  let flows := (used :: c.flows).take 10
  let past (n : Nat) (old : Option Nat) : Option Nat := if (n : Rat) ≤ meanOf flows then some (old.getD (now s)) else none
  let near (r : Nat) : Bool := x.tin ≤ r + 5 && r ≤ x.tin + 5
  modCool (fun c => { c with
    tin := x.tin, tout := x.tout, dp := x.dp, qdp := qdp, qheat := qh.getD 0, used := used, flows := flows, moist := x.moist
    highAt := if 300 < x.dpMost then some (now s) else c.highAt
    apart := if apart then some (c.apart.getD (now s)) else none, together := tog, disagree := disagree
    lowOver := past 1150 c.lowOver, criticalOver := past 650 c.criticalOver
    above := if 1200 < used then some (c.above.getD (now s)) else none
    inletAt := match c.inletAt with
      | some (r, t) => if near r then some (r, t) else some (x.tin, now s)
      | none => some (x.tin, now s) }) s

/-- R583: the flow ranges that the average enters. -/
def flowRanges (s : State) : State :=
  let q := meanOf s.pwr.cool.flows
  if q < 600 then
    if s.pwr.cool.flowCritical then s
    else raiseAlert .flowCritical (record 0x8402 2 0x8000 none false [] (modCool (fun c => { c with flowCritical := true }) s))
  else if q < 1100 && !s.pwr.cool.flowLow && !s.pwr.cool.flowCritical then
    record 0x8401 1 0x8000 none false [] (modCool (fun c => { c with flowLow := true }) s)
  else s

/-- R589: the inlet's ranges. -/
def inletRanges (s : State) : State :=
  let c := s.pwr.cool
  let s := if 450 < c.tin && !c.inletHot then record 0x8406 2 0x8000 none false [] s else s
  let s := if c.tin < 150 && !c.inletCold then record 0x8407 1 0x8000 none false [] s else s
  modCool (fun c => { c with inletHot := decide (450 < c.tin), inletCold := decide (c.tin < 150) }) s

/-- R585: a flow tick shows a coolant stop. -/
def flowFails (x : CoolRead) (s : State) : Bool :=
  s.pwr.cool.used < 200 || (x.dpLeast < 100 && s.pwr.cool.highAt.elim false fun t => now s ≤ t + 100000000)

/-- R581–R589: the flow loop. -/
def execFlowTick (dt : Nat) (x : CoolRead) (s : State) : Host.Outcome State Fault Refusal :=
  .next (event dt (fun s =>
    if !fabricOn s then s
    else reporting (fun s =>
      let s := lowerLimit (inletRanges (flowRanges (takeFlows x s)))
      if flowFails x s then coolantStop s else s) s) s)

/-- R582: the flows have differed by more than 25 % for 1 s. -/
def execFlowsDisagree (dt : Nat) (s : State) : Host.Outcome State Fault Refusal :=
  .next (event dt (fun s =>
    match s.pwr.cool.apart with
    | some t =>
      if s.pwr.cool.disagree || now s < t + 1000000000 then s
      else record 0x8405 1 0x8000 none false [] (modCool (fun c => { c with disagree := true, used := min c.qdp c.qheat }) s)
    | none => s) s)

/-- R584: a flow range has been left by 0.05 L/min for 1 s. -/
def execFlowRangeRecovered (dt : Nat) (s : State) : Host.Outcome State Fault Refusal :=
  .next (event dt (reporting (fun s =>
    let done (t : Option Nat) : Bool := t.elim false fun t => t + 1000000000 ≤ now s
    let s := if s.pwr.cool.flowCritical && done s.pwr.cool.criticalOver then
        flowRanges (clearAlert .flowCritical (modCool (fun c => { c with flowCritical := false }) s))
      else s
    if s.pwr.cool.flowLow && done s.pwr.cool.lowOver then modCool (fun c => { c with flowLow := false }) s else s)) s)

/-- R574: the inlet readings have stayed within ±0.5 °C for 1 s. -/
def execInletSettled (dt : Nat) (s : State) : Host.Outcome State Fault Refusal :=
  .next (event dt (fun s =>
    match s.pwr.cool.inletAt with
    | some (_, t) => if t + 1000000000 ≤ now s then modCool (fun c => { c with settled := true }) s else s
    | none => s) s)

/-- R590: the leak sensor reports moisture. -/
def execLeakDetected (dt : Nat) (s : State) : Host.Outcome State Fault Refusal :=
  .next (event dt (reporting (fun s =>
    let s := modCool (fun c => { c with moist := true }) s
    if s.pwr.cool.leak then s
    else lowerLimit (raiseAlert .leak (record 0x8408 2 0x8000 none false [] (modCool (fun c => { c with leak := true }) s))))) s)

/-! ### Pace groups (R566–R573) -/

/-- R566: `PACE_GROUP_SET`; FUNC_START checks the settings (R604). -/
def execPaceGroupSet (h : Hdr) (cfg : PaceCfg) (s : State) : Host.Outcome State Fault Refusal :=
  .next (command h { op := 0x0910, who := who0Side } (fun c s => stage fidPace (.paceGroup cfg) c s) s)

/-- R603: `PACE_GROUP_GET`: settings, group level, and each member's last beacon and liveness. -/
def execPaceGroupGet (h : Hdr) (s : State) : Host.Outcome State Fault Refusal :=
  .next (command h { op := 0x0911, who := whoAll, reads := true } (fun _ s =>
    match s.pwr.pace.group with
    | none => okData s [⟨4, 0⟩]
    | some g =>
      let one (m : Nat) : List Fld :=
        let x := memberOf g m
        [⟨2, m⟩, ⟨8, x.at_⟩, ⟨1, x.allowed⟩, ⟨1, x.level⟩, ⟨2, x.need⟩, ⟨2, x.spare⟩, ⟨2, x.epoch⟩, ⟨1, bit (memberLive s g m)⟩]
      okData s ([⟨4, g.cfg.id⟩, ⟨1, bit g.cfg.lend⟩, ⟨1, g.cfg.interval⟩, ⟨1, g.level⟩, ⟨1, bit g.agreed⟩]
        ++ (others s g).flatMap one)) s)

/-- R567: only the power prediction limits the allowed level. -/
def powerLimited (s : State) : Bool := (allowedLevel s).2 = 1

/-- R570: what the module would lack, or has to spare, at G + 1, in whole watts. -/
def needAt (s : State) (g : GroupPace) : Nat :=
  let goal := s.pwr.pace.ps * 97 / 100
  let p := predicted s (g.level + 1)
  if powerLimited s && g.level + 1 ≤ min (ceilingOf s) (droopLevel s) && goal < p then (p - goal).ceil.toNat else 0
def spareAt (s : State) (g : GroupPace) : Nat :=
  if g.level + 1 ≤ (allowedLevel s).1 then (s.pwr.pace.ps * 97 / 100 - predicted s (g.level + 1)).floor.toNat else 0

/-- R567: send PACE_BEACON to every other member. -/
def sendBeacons (g : GroupPace) (s : State) : State :=
  let x : XMsg := { blankMsg with
    addr := g.cfg.id + 2 ^ 32 * groupDigest g.cfg
    operand := (allowedLevel s).1 + 2 ^ 5 * s.pwr.pace.level + 2 ^ 10 * bit (powerLimited s) + 2 ^ 11 * bit g.agreed
      + 2 ^ 16 * min 65535 (needAt s g) + 2 ^ 32 * min 65535 (spareAt s g) + 2 ^ 48 * groupEpoch s g }
  foldS (others s g) (fun m s => sendModule 0x20 0 m x s) s

/-- R567, R570: the beacon of an interval; lent watts that are due return to zero. -/
def execBeaconTimer (dt : Nat) (s : State) : Host.Outcome State Fault Refusal :=
  .next (event dt (fun s =>
    match s.pwr.pace.group with
    | none => s
    | some g =>
      if now s < g.beaconAt + g.cfg.interval * 1000000 then s
      else
        let s := modPaceGroup (fun g => { g with
          beaconAt := now s, lent := if g.giveBack then 0 else g.lent, giveBack := false }) s
        sendBeacons g (if g.giveBack then lowerLimit s else s)) s)

/-- R569, R570: the group level may rise only on beacons of one epoch from every member that is not left out. -/
def oneEpoch (s : State) (g : GroupPace) : Bool :=
  (others s g).all fun m => (memberOf g m).out || (memberLive s g m && (memberOf g m).epoch = groupEpoch s g)

/-- R569: the least allowed level among the live members and the module itself. -/
def leastAllowed (s : State) (g : GroupPace) : Nat :=
  ((others s g).filter (memberLive s g)).foldl (fun a m => min a (memberOf g m).allowed) (allowedLevel s).1

/-- R570: under LEND, the rise to G + 1 that needs and spares allow; the module's own watts change with it. -/
def lendRise (s : State) (g : GroupPace) : Option Rat :=
  let l := (others s g).filter fun m => !(memberOf g m).out
  let n := needAt s g
  let need := n + sumNat (l.map fun m => if (memberOf g m).allowed ≤ g.level then (memberOf g m).need else 0)
  let sp := spareAt s g
  let spare := sp + sumNat (l.map fun m => if g.level < (memberOf g m).allowed then (memberOf g m).spare else 0)
  let able := l.all fun m => let x := memberOf g m; g.level < x.allowed || (x.limited && 0 < x.need)
  if !oneEpoch s g || g.rose = some (groupEpoch s g) || 31 ≤ g.level || !able || !(g.level < (allowedLevel s).1 || 0 < n) || spare < need then none
  else if 0 < n then some (n : Nat)
  else if spare = 0 then some 0
  else some (-((sp : Nat) * (need : Nat) / (spare : Nat)))
where
  /-- The sum of a list. -/
  sumNat (l : List Nat) : Nat := l.foldl (· + ·) 0

/-- R569, R570, R573: the group level after what the members have said. Under LEND it falls by LAG_NOTICE alone (log entry 21). -/
def groupCompute (s : State) : State :=
  match s.pwr.pace.group with
  | none => s
  | some g =>
    if !g.agreed then
      let l := ((others s g).filter fun m => (memberOf g m).heard && !(memberOf g m).bad).foldl
        (fun a m => min a (memberOf g m).level) (allowedLevel s).1
      modPaceGroup (fun g => { g with level := l }) s
    else
      let a := leastAllowed s g
      if g.cfg.lend then
        match lendRise s g with
        | some w => lowerLimit (modPaceGroup (fun g => { g with level := g.level + 1, lent := g.lent + w, rose := some (groupEpoch s g) }) s)
        | none => s
      else if a < g.level then modPaceGroup (fun g => { g with level := a, giveBack := true }) s
      else if oneEpoch s g && g.level < a then modPaceGroup (fun g => { g with level := a }) s
      else s

/-- R573: the group agrees: beacons of one interval from every member with one current level. -/
def groupAgree (s : State) : State :=
  match s.pwr.pace.group with
  | none => s
  | some g =>
    if g.agreed then s
    else if (others s g).all fun m =>
        let x := memberOf g m
        memberLive s g m && x.epoch = groupEpoch s g && x.level = s.pwr.pace.level then
      recordSq 0x8602 0 [] (modPaceGroup (fun g => { g with agreed := true, level := s.pwr.pace.level }) s)
    else s

/-- R572: the digest of a sender differs. -/
def digestDiffers (m : Nat) (s : State) : State :=
  let s := modPaceGroup (fun g => { g with mismatch := true, members := tmod g.members m {} fun x => { x with bad := true } }) s
  notify 4 0x8604 0 (record 0x8604 2 0 none true [⟨2, m⟩] s)

/-- R572: the mismatch ends once every live member's digest has matched for 10 intervals. -/
def endMismatch (s : State) : State :=
  modPaceGroup (fun g =>
    if g.mismatch && (others s g).all fun m =>
        let x := memberOf g m
        !x.heard || x.out || (!x.bad && x.okSince + 10 * g.cfg.interval * 1000000 ≤ now s) then { g with mismatch := false }
    else g) s

/-- R471, R572: a message of the group: from a member, of this group, and with this module's digest. -/
def groupMsg (m : XMsg) (body : GroupPace → State → State) (s : State) : State :=
  match s.pwr.pace.group with
  | none => notEntitled m s
  | some g =>
    if !(others s g).contains m.srcM then notEntitled m s
    else if m.op ≠ 0 then dropMalformed m.srcM s
    else if m.addr % 2 ^ 32 ≠ g.cfg.id then s
    else if m.addr / 2 ^ 32 ≠ groupDigest g.cfg then digestDiffers m.srcM s
    else body g s

/-- R567, R569–R573: `PACE_BEACON`. -/
def execPaceBeacon (dt : Nat) (m : XMsg) (s : State) : Host.Outcome State Fault Refusal :=
  .next (event dt (receiveModule m (groupMsg m fun g s =>
    if bitsOf m.operand 15 12 ≠ 0 then dropMalformed m.srcM s
    else
      let old := memberOf g m.srcM
      let x : Member :=
        { at_ := now s, heard := true, allowed := bitsOf m.operand 4 0, level := bitsOf m.operand 9 5, limited := bitOf m.operand 10
          agreed := bitOf m.operand 11, need := bitsOf m.operand 31 16, spare := bitsOf m.operand 47 32, epoch := bitsOf m.operand 63 48
          okSince := if old.bad || !old.heard then now s else old.okSince }
      let s := modPaceGroup (fun g => { g with members := tset g.members m.srcM x }) s
      endMismatch (groupCompute (groupAgree s)))) s)

/-- R565, R568: `LAG_NOTICE`: the module ramps down to the level named, at once or at its next confidential epoch. -/
def execLagNotice (dt : Nat) (m : XMsg) (s : State) : Host.Outcome State Fault Refusal :=
  .next (event dt (receiveModule m (groupMsg m fun g s =>
    if 2 ^ 8 ≤ m.operand || 4 < bitsOf m.operand 7 5 then dropMalformed m.srcM s
    else
      let l := bitsOf m.operand 4 0
      let s := record 0x8603 0 0 none true [⟨2, m.srcM⟩, ⟨1, m.operand⟩] s
      let s := modPaceGroup (fun g => { g with
        level := min g.level l, giveBack := g.giveBack || decide (l < g.level)
        members := tmod g.members m.srcM {} fun x => { x with allowed := l } }) s
      if confMode s || paceHeld s || groupAlone s g || s.pwr.pace.target ≤ l then s
      else modPace (fun p => { p with limiter := 2, deferred := false }) (setTarget l s))) s)

/-- R571: a member's last beacon becomes 10 intervals old. -/
def execMemberStale (dt m : Nat) (s : State) : Host.Outcome State Fault Refusal :=
  .next (event dt (fun s =>
    match s.pwr.pace.group with
    | none => s
    | some g =>
      let x := memberOf g m
      if !(others s g).contains m || x.out || now s < x.at_ + 10 * g.cfg.interval * 1000000 then s
      else
        let s := modPaceGroup (fun g => { g with members := tmod g.members m {} fun x => { x with out := true } }) s
        groupCompute (recordSq 0x8601 1 [⟨2, m⟩] s)) s)

end Sys2Proof.Machine
end

