-- ==== Sys2Proof/Machine/Red.lean ====
section
/-! DEFINITION. Mirrored serving, the dowel and tray service (chapter 15), and FW_ACTIVATE (R126, R763), which an active mirrored side refuses. -/
namespace Sys2Proof.Machine

/-! ### The standby's copy (R663–R666) -/

/-- A named page leaves the free list for a mirrored list. -/
def takePage (p : Nat) (x : ServeCtx) : ServeCtx :=
  { x with free := tmod x.free (pageGroup p) [] (fun l => l.filter (· ≠ p)), allocated := x.allocated + 1 }

/-- A named page-list block is taken; its page becomes a block page with it. -/
def takeBlock (a : Nat) (x : ServeCtx) : ServeCtx :=
  let p := a / 65536
  let x := if x.blockPages.any fun y => y.page = p then x
    else { takePage p x with blockPages := x.blockPages ++ [⟨p, 0⟩] }
  { x with blockPages := mapIf (fun y => y.page = p) (fun y => { y with used := maskSet y.used (a % 65536 / 256) }) x.blockPages }

/-- R664: one request entry, its page list and its blocks become those of the active. -/
def applyRequest (c x : Nat) (r : Request) (s : State) : State :=
  let old := reqOf s x
  let s := modServe c (fun y =>
    let y := foldS (old.list.filter fun p => !r.list.contains p) (fun p y => { pushPage p y with allocated := y.allocated - 1 }) y
    let y := foldS (old.blocks.filter fun a => !r.blocks.contains a) pushBlock y
    let y := foldS (r.list.filter fun p => !old.list.contains p) takePage y
    foldS (r.blocks.filter fun a => !old.blocks.contains a) takeBlock y) s
  { s with serve := { s.serve with reqs := if r.state = .free then tdel s.serve.reqs x else tset s.serve.reqs x { r with ctx := c } } }

/-- R664: the standby applies a delta; its free-list identity is checked after it (R334, R666). -/
def applyDelta (c : Nat) (d : Delta) (s : State) : State :=
  let s := d.reqs.foldl (fun s q => applyRequest c q.1 q.2 s) s
  let s := modServe c (fun y => { y with
    rings := d.rings.foldl (fun t q => tset t q.1 q.2) y.rings
    samplers := d.samplers.foldl (fun t q => tset t q.1 q.2) y.samplers
    stops := d.stops.foldl (fun t q => tset t q.1 q.2) y.stops }) s
  let s := d.veneers.foldl (fun s v => modVen v.1 (fun _ => { v.2 with owner := c }) s) s
  checkPool c (modRed c (fun r => { r with records := d.records }) s)

/-- R659: a STALE or RESYNC side holds no valid state: its requests are gone and its pool is whole again. -/
def forget (c : Nat) (s : State) : State :=
  let s := stopRuns c (modServe c (fun y => { y with step := none, training := [], pend := [], boundaryDue := false, waste := [] }) s)
  let s := (liveReqs s c).foldl (fun s q => freeEntry q.1 (freeRequestPages c q.1 .allocated s)) s
  modRed c (fun r => { r with records := [] }) s

/-! ### Taking the dowel (R673, R676, R677) -/

/-- R676: every request carried across a change of holder is marked switched, and has a SWITCHED record before its next token. -/
def switchRequests (c : Nat) (s : State) : State :=
  (liveReqs s c).foldl (fun s q =>
    if serving_ q.2 then
      placeSwitched c q.1 (modReq q.1 (fun r => { r with switched := true, switchDue := true }) s)
    else s) s

/-- R673, R677: the side takes the dowel at an epoch: it sends TAKEN, publishes what the last commit left pending, and steps on from it. -/
def takeDowel (c epoch : Nat) (solo : Bool) (code sev : Nat) (s : State) : State :=
  let s := modRed c (fun r => { r with
    epoch := epoch % 2 ^ 32, role := if solo then .activeSolo else .active, prevRole := .active, requestAt := none
    giving := none, givingSent := none, lastChange := now s, swapDue := false, renewed := now s, heldAt := 0, sent := []
    acked := r.boundary, unsent := false }) s
  let s := toArbiter c 7 (redOf s c).boundary (toSister c 7 (redOf s c).boundary s)
  let l := (redOf s c).records
  let s := modServe c (fun y => { y with pend := l.map fun p => { p with gate := .open_ } }) s
  let s := record code sev (0x6000 + c) (some c) false [] (modRed c (fun r => { r with records := [], sentCopy := copyOf s c, ackedCopy := copyOf s c }) s)
  chooseStep c (flushPend c (switchRequests c (flushPend c s)))

/-- R674, R682: a side learns that it is STALE. -/
def becomeStale (c epoch : Nat) (s : State) : State :=
  let s := forget c (modRed c (fun r => { r with
    role := .stale, epoch := max r.epoch epoch, giving := none, givingSent := none, copying := false, unsent := false, requestAt := none
    soloAt := none }) s)
  finish .redSwap c .timeout [] (finish .redRelease c .timeout [] (record 0xA108 2 (0x6000 + c) (some c) false [] s))

/-- R677, R679: the fabric runs. -/
def fabricRuns (s : State) : Bool := !fabricHalted s && !s.tray.thermTrip

/-- R674, R677, R679: TAKEN answers the side's own SWAP or RELEASE: it takes the new epoch and becomes STANDBY, or FENCED where its fabric does
not run. -/
def gaveDowel (c epoch : Nat) (s : State) : State :=
  let rel := (redOf s c).giving = some .release
  let back := if fabricRuns s then RedRole.standby else .fenced
  let pub := fun (p : PendRec) => recordAcked s c p
  let s := modServe c (fun y => { y with pend := y.pend.filter pub }) s
  let s := modRed c (fun r => { r with
    epoch := epoch % 2 ^ 32, role := back, prevRole := back, giving := none, givingSent := none, drainRelease := false
    lastChange := now s, heldAt := now s, boundary := r.acked, records := (serveOf s c).pend }) s
  let s := modServe c (fun y => { y with pend := [] }) s
  let s := record 0xA103 0 (0x6000 + c) (some c) false [] s
  drainProgress (if rel then finish .redRelease c .ok [] s else finish .redSwap c .ok [] s)

/-! ### Messages (R667–R682) -/

/-- The side holds the dowel: it acts, or has fenced as a holder. -/
def holdsDowel (s : State) (c : Nat) : Bool :=
  acting s c || (mirrored s c && (redOf s c).role = .fenced && ((redOf s c).prevRole = .active || (redOf s c).prevRole = .activeSolo))

/-- R671, R681: the arbiter has left a REQUEST unanswered for 20 ms at a time. -/
def unanswered (r : RedCtx) (t : Nat) : Bool := r.requestAt.isSome && decide (r.askedAt + 20000000 ≤ t)

/-- R672, R681: the arbiter cannot be reached: none is named, no port leads to it, it has renewed no HOLD of the holder for 200 ms, or
it has not answered the standby's REQUEST in its time. -/
def arbiterLost (s : State) (c : Nat) : Bool :=
  let r := redOf s c
  match s.nv.manager with
  | none => true
  | some m => (portTo s m).isNone || peerUnreachable s m
    || (if holdsDowel s c then r.arbiterAt + 200000000 ≤ now s else unanswered r (now s))

/-- R471, R667, R674: a DOWEL message: from the arbiter or the sister, about the context that its pair_id names. An acting or fenced side that
hears a higher epoch becomes STALE, unless it is the TAKEN that it waits for. -/
def dowelMsg (m : DowelMsg) (taken : Bool) (body : Nat → State → State) (s : State) : State :=
  let x : XMsg := { blankMsg with port := m.port, srcM := m.srcM, srcC := m.ctx, dstC := m.ctx, stamp := m.stamp }
  receiveModule x (fun s =>
    if m.rsvd then dropMalformed m.srcM s
    else if s.net.sister ≠ some m.srcM && s.nv.manager ≠ some m.srcM then notEntitled x s
    else
      let s := if s.net.sister = some m.srcM then { s with red := { s.red with sisterAt := now s } } else s
      let c := m.ctx
      let r := redOf s c
      if 16 ≤ c || !mirrored s c || r.par.pairId ≠ m.pairId then s
      else
        let s := if s.nv.manager = some m.srcM then modRed c (fun r => { r with arbiterAt := now s }) s else s
        let answers := taken && r.giving.isSome && m.epoch = r.epoch + 1
        let holds := r.role = .active || r.role = .activeSolo || r.role = .fenced
        if holds && r.epoch < m.epoch && !answers then becomeStale c m.epoch s else body c s) s

/-- The message comes from the sister, or from the arbiter. -/
def fromSister (s : State) (m : DowelMsg) : Bool := s.net.sister = some m.srcM
def fromArbiter (s : State) (m : DowelMsg) : Bool := s.nv.manager = some m.srcM

/-- R669: `DOWEL_HOLD`: a STANDBY or RESYNC side renews it, unless it has sent REQUEST. -/
def execDowelHold (dt : Nat) (m : DowelMsg) (s : State) : Host.Outcome State Fault Refusal :=
  .next (event dt (dowelMsg m false fun c s =>
    let r := redOf s c
    if !fromSister s m || !(r.role = .standby || r.role = .resync) || m.epoch < r.epoch then s
    else
      let s := modRed c (fun r => { r with epoch := m.epoch, heldAt := now s }) s
      if r.requestAt.isSome then s else sendDowel c 1 m.srcM m.field [] s) s)

/-- R668, R670: `DOWEL_RENEW`: the lease counts from the send time of the HOLD renewed; a FENCED side that fenced as a holder returns. -/
def execDowelRenew (dt : Nat) (m : DowelMsg) (s : State) : Host.Outcome State Fault Refusal :=
  .next (event dt (dowelMsg m false fun c s =>
    let r := redOf s c
    if m.epoch ≠ r.epoch then s
    else
      let s := match r.sent.find? fun p => p.1 = m.field with
        | some p => modRed c (fun r => { r with renewed := max r.renewed p.2 }) s
        | none => s
      if r.role = .fenced && (r.prevRole = .active || r.prevRole = .activeSolo) then
        drainProgress (trySwap c (chooseStep c (flushPend c (modRed c (fun r => { r with role := r.prevRole }) s))))
      else s) s)

/-- R673: `DOWEL_GRANT`. -/
def execDowelGrant (dt : Nat) (m : DowelMsg) (s : State) : Host.Outcome State Fault Refusal :=
  .next (event dt (dowelMsg m false fun c s =>
    let r := redOf s c
    if !fromArbiter s m || r.role ≠ .standby || r.requestAt.isNone || m.epoch ≤ r.epoch then s
    else takeDowel c m.epoch true 0xA102 1 s) s)

/-- R671: `DOWEL_REFUSE` answers a REQUEST or a SOLO_REQUEST. -/
def execDowelRefuse (dt : Nat) (m : DowelMsg) (s : State) : Host.Outcome State Fault Refusal :=
  .next (event dt (dowelMsg m false fun c s =>
    if fromArbiter s m then modRed c (fun r => { r with requestAt := none, soloAt := none }) s else s) s)

/-- R677, R679: RELEASE and SWAP: the standby takes epoch + 1 and becomes ACTIVE; a side that has taken it answers TAKEN again. -/
def takeOffer (m : DowelMsg) (c : Nat) (s : State) : State :=
  let r := redOf s c
  if !fromSister s m then s
  else if r.role = .standby && m.epoch = r.epoch then takeDowel c (r.epoch + 1) false 0xA103 0 s
  else if acting s c && m.epoch + 1 = r.epoch then toArbiter c 7 r.boundary (toSister c 7 r.boundary s)
  else s

/-- R679: `DOWEL_RELEASE`. -/
def execDowelRelease (dt : Nat) (m : DowelMsg) (s : State) : Host.Outcome State Fault Refusal :=
  .next (event dt (dowelMsg m false (takeOffer m)) s)

/-- R677: `DOWEL_SWAP`. -/
def execDowelSwap (dt : Nat) (m : DowelMsg) (s : State) : Host.Outcome State Fault Refusal :=
  .next (event dt (dowelMsg m false (takeOffer m)) s)

/-- R674: `DOWEL_TAKEN`. -/
def execDowelTaken (dt : Nat) (m : DowelMsg) (s : State) : Host.Outcome State Fault Refusal :=
  .next (event dt (dowelMsg m true fun c s =>
    let r := redOf s c
    if r.giving.isSome && m.epoch = r.epoch + 1 then gaveDowel c m.epoch s
    else if r.epoch < m.epoch then modRed c (fun r => { r with epoch := m.epoch }) s
    else s) s)

/-- R664: `DOWEL_COMMIT`: the delta is applied and answered; a commit that is already applied is only answered. -/
def execDowelCommit (dt : Nat) (m : DowelMsg) (d : Delta) (s : State) : Host.Outcome State Fault Refusal :=
  .next (event dt (dowelMsg m false fun c s =>
    let r := redOf s c
    if !fromSister s m || !(r.role = .standby || r.role = .resync) || m.epoch ≠ r.epoch then s
    else
      let s := if m.field = r.boundary then s else modRed c (fun r => { r with boundary := m.field }) (applyDelta c d s)
      if (serveOf s c).halted then s else sendDowel c 9 m.srcM m.field [] s) s)

/-- R665, R666: `DOWEL_COMMIT_ACK`: the boundary's records are published, the commit that waits is sent, and the context steps on. -/
def execDowelCommitAck (dt : Nat) (m : DowelMsg) (s : State) : Host.Outcome State Fault Refusal :=
  .next (event dt (dowelMsg m false fun c s =>
    let r := redOf s c
    if !fromSister s m || !(r.role = .active || r.copying) || m.epoch ≠ r.epoch || m.field ≤ r.acked || r.boundary < m.field then s
    else
      let s := flushPend c (modRed c (fun r => { r with acked := m.field, ackedCopy := r.sentCopy }) s)
      let s := if (redOf s c).unsent then sendCommit c s else s
      drainProgress (trySwap c (chooseStep c s))) s)

/-- R681, R682: `DOWEL_SOLO_GRANT`: the holder goes on alone and publishes. -/
def execDowelSoloGrant (dt : Nat) (m : DowelMsg) (s : State) : Host.Outcome State Fault Refusal :=
  .next (event dt (dowelMsg m false fun c s =>
    let r := redOf s c
    if !fromArbiter s m || m.epoch ≠ r.epoch || r.soloAt.isNone then s
    else if r.role = .active then
      drainProgress (chooseStep c (flushPend c (modRed c (fun r => { r with role := .activeSolo, soloAt := none, unsent := false }) s)))
    else if r.role = .fenced && r.prevRole = .active then modRed c (fun r => { r with prevRole := .activeSolo, soloAt := none, unsent := false }) s
    else s) s)

/-! ### Timers of the dowel -/

/-- R667: HOLD every 50 ms, to the sister and the arbiter. -/
def execHoldTimer (dt c : Nat) (s : State) : Host.Outcome State Fault Refusal :=
  .next (event dt (fun s =>
    let r := redOf s c
    if !holdsDowel s c || now s < r.heldAt + 50000000 then s
    else
      let n := wrapAdd 32 r.holdSeq 1
      let s := modRed c (fun r => { r with holdSeq := n, heldAt := now s, sent := ((n, now s) :: r.sent).take 8 }) s
      toArbiter c 0 n (toSister c 0 n s)) s)

/-- R681: both the sister and the arbiter are lost. -/
def bothLost (c : Nat) (s : State) : State :=
  if sisterLost s && arbiterLost s c then record 0xA10A 2 (0x6000 + c) (some c) false [] s else s

/-- R668, R670: the lease ends, 200 ms after the send of the latest HOLD renewed. -/
def execLeaseExpiry (dt c : Nat) (s : State) : Host.Outcome State Fault Refusal :=
  .next (event dt (fun s =>
    let r := redOf s c
    if !acting s c || now s < r.renewed + 200000000 then s
    else bothLost c (record 0xA101 2 (0x6000 + c) (some c) false [] (modRed c (fun r => { r with role := .fenced, prevRole := r.role }) s))) s)

/-- R671, R672: a standby has had no HOLD for 200 ms: REQUEST; with the arbiter out of reach it waits, with 0xA106. -/
def execHoldSilence (dt c : Nat) (s : State) : Host.Outcome State Fault Refusal :=
  .next (event dt (fun s =>
    let r := redOf s c
    if !mirrored s c || r.role ≠ .standby || r.requestAt.isSome || now s < r.heldAt + 200000000 then s
    else
      let s := toArbiter c 2 0 (modRed c (fun r => { r with requestAt := some (now s), askedAt := now s }) s)
      if arbiterLost s c then bothLost c (record 0xA106 1 (0x6000 + c) (some c) true [] s) else s) s)

/-- R667, R672: REQUEST is sent again; a standby that finds the arbiter out of reach waits, with 0xA106. -/
def resendRequest (c : Nat) (s : State) : State :=
  let r := redOf s c
  let before := unanswered r (r.requestAt.getD 0)
  let s := toArbiter c 2 0 (modRed c (fun r => { r with requestAt := some (now s) }) s)
  if !arbiterLost s c then s
  else
    let s := record 0xA106 1 (0x6000 + c) (some c) true [] s
    if before then s else bothLost c s

/-- R667: REQUEST and SOLO_REQUEST are sent again every 5 ms until answered. -/
def execDowelRequestResend (dt c : Nat) (s : State) : Host.Outcome State Fault Refusal :=
  .next (event dt (fun s =>
    let due (t : Option Nat) : Bool := t.elim false fun t => t + 5000000 ≤ now s
    let s := if due (redOf s c).requestAt then resendRequest c s else s
    if due (redOf s c).soloAt then toArbiter c 10 0 (modRed c (fun r => { r with soloAt := some (now s) }) s) else s) s)

/-- R664: COMMIT is sent again every millisecond until it is acknowledged. -/
def execCommitResend (dt c : Nat) (s : State) : Host.Outcome State Fault Refusal :=
  .next (event dt (fun s =>
    let r := redOf s c
    let n := if r.unsent then r.boundary - 1 else r.boundary
    if !mirrored s c || !(r.role = .active || r.copying) || n ≤ r.acked || now s < r.commitAt + 1000000 then s
    else match s.net.sister with
      | some m => sendDowel c 8 m n (leBytes 8 r.commit.1 ++ leBytes 8 r.commit.2) (modRed c (fun r => { r with commitAt := now s }) s)
      | none => s) s)

/-- R667: RELEASE and SWAP are sent again every millisecond until TAKEN. -/
def execReleaseResend (dt c : Nat) (s : State) : Host.Outcome State Fault Refusal :=
  .next (event dt (fun s =>
    let r := redOf s c
    match r.giving, r.givingSent with
    | some g, some t =>
      if now s < t + 1000000 then s
      else
        let s := modRed c (fun r => { r with givingSent := some (now s) }) s
        if g = .swap then toSister c 6 r.acked s else toArbiter c 5 r.acked (toSister c 5 r.acked s)
    | _, _ => s) s)

/-- R689, R692: no TAKEN within 100 ms of a release: RED_RELEASE ends TIMEOUT, and a drain's side becomes FENCED with 0xA10B. -/
def execReleaseTimeout (dt c : Nat) (s : State) : Host.Outcome State Fault Refusal :=
  .next (event dt (fun s =>
    let r := redOf s c
    if r.giving ≠ some .release || now s < r.givingAt + 100000000 then s
    else
      let s := finish .redRelease c .timeout [] s
      if !r.drainRelease then s
      else
        let s := modRed c (fun r => { r with
          role := .fenced, prevRole := .fenced, giving := none, givingSent := none, drainRelease := false }) s
        drainProgress (record 0xA10B 2 (0x6000 + c) (some c) false [] s)) s)

/-- R677: swap_h hours have passed since the last change of holder. -/
def execSwapDue (dt c : Nat) (s : State) : Host.Outcome State Fault Refusal :=
  .next (event dt (fun s =>
    let r := redOf s c
    if !acting s c || r.par.swapH = 0 || now s < r.lastChange + r.par.swapH * 3600000000000 then s
    else modRed c (fun r => { r with swapDue := true }) s) s)

/-- R680, R681, R689: the sister link is lost: 0xA105 and a notification of class bit 5; an active side asks to go on alone, and one whose swap
a drain awaits releases at once. -/
def execSisterLinkLost (dt : Nat) (s : State) : Host.Outcome State Fault Refusal :=
  .next (event dt (fun s =>
    if s.red.linkLost || !sisterLost s || s.net.sister.isNone then s
    else
      let s := notify 5 0xA105 0x4020 (record 0xA105 2 0x4020 none false [] { s with red := { s.red with linkLost := true } })
      foldN 16 (fun c s =>
        if !mirrored s c then s
        else
          let s := if (redOf s c).role = .active then
              toArbiter c 10 0 (modRed c (fun r => { r with soloAt := some (now s) }) s)
            else s
          let s := if s.red.drain = .handing && (redOf s c).giving = some .swap then releaseDowel true c s else s
          bothLost c s) s) s)

/-- R683: the holder copies its whole state: pages with scale records, page lists and histories. -/
def sendWhole (c : Nat) (s : State) : State :=
  sendCommit c (modRed c (fun r => { r with copying := true, sentCopy := {}, acked := r.boundary, boundary := r.boundary + 1 }) s)

/-- R682, R683: the sister link returns. An ACTIVE_SOLO side copies its state; its sister becomes RESYNC, by way of STALE where it had not heard
(`peerSolo`: the other side is ACTIVE_SOLO; log entry 7). -/
def execSisterLinkReturn (dt : Nat) (peerSolo : List Nat) (s : State) : Host.Outcome State Fault Refusal :=
  .next (event dt (fun s =>
    if portState s 32 ≠ .up then s
    else
      let s := { s with red := { s.red with linkLost := false, sisterAt := now s } }
      foldN 16 (fun c s =>
        let r := redOf s c
        if !mirrored s c then s
        else match r.role with
          | .activeSolo => if r.copying then s else sendWhole c s
          | .active => modRed c (fun r => { r with soloAt := none }) s
          | .stale => modRed c (fun r => { r with role := .resync, heldAt := now s }) s
          | .standby =>
            if peerSolo.contains c then modRed c (fun r => { r with role := .resync, heldAt := now s }) (becomeStale c r.epoch s) else s
          | _ => s) s) s)

/-- R683: the copy and the commits queued behind it are applied: ACTIVE and STANDBY again, with 0xA109 on both sides. On the side that received it
the row brings what the copy holds, with its boundary. -/
def execResyncCopyDone (dt c boundary epoch : Nat) (d : Delta) (s : State) : Host.Outcome State Fault Refusal :=
  .next (event dt (fun s =>
    let r := redOf s c
    if !mirrored s c then s
    else if r.role = .activeSolo && r.copying then
      let s := modRed c (fun r => { r with role := .active, prevRole := .active, copying := false, acked := r.boundary, unsent := false
                                           sentCopy := copyOf s c, ackedCopy := copyOf s c }) s
      record 0xA109 0 (0x6000 + c) (some c) false [] s
    else if r.role = .resync then
      let s := applyDelta c d (modRed c (fun r => { r with role := .standby, boundary := boundary, epoch := epoch, heldAt := now s }) s)
      record 0xA109 0 (0x6000 + c) (some c) false [] s
    else s) s)

/-! ### Commands (R656, R677–R679, R687–R693) -/

/-- R659: the value of a role. -/
def roleCode : RedRole → Nat
  | .active => 0
  | .activeSolo => 1
  | .fenced => 2
  | .standby => 3
  | .resync => 4
  | .stale => 5

/-- R692: what is left of the swap period, in seconds; 0 for none. -/
def nextSwap (s : State) (r : RedCtx) : Nat :=
  if r.par.mode = 1 && r.par.swapH ≠ 0 then (r.lastChange + r.par.swapH * 3600000000000 - now s) / 1000000000 else 0

/-- R692: `RED_GET`. -/
def execRedGet (h : Hdr) (c : Nat) (s : State) : Host.Outcome State Fault Refusal :=
  .next (command h { op := 0x0B00, who := whoAll, ctx := some c, reads := true } (fun _ s =>
    if !ctxDefined s c then no s (noCtx c)
    else
      let r := redOf s c
      okData s [⟨1, r.par.mode⟩, ⟨1, roleCode r.role⟩, ⟨4, r.epoch⟩, ⟨4, r.par.pairId⟩, ⟨4, r.acked⟩, ⟨1, bit (!sisterLost s)⟩,
        ⟨1, bit (!arbiterLost s c)⟩, ⟨4, nextSwap s r⟩, ⟨1, bit (r.copying || r.role = .resync)⟩]) s)

/-- R693: a locked TDI refuses the command from every mailbox. -/
def unlocked (c : Nat) (body : Call → State → Ans) (call : Call) (s : State) : Ans :=
  if tdiLocked s c then no s .confidential else body call s

/-- R656: the parameters are in range; a lot that they name is a lot of the context. -/
def protectOk (s : State) (c : Nat) (p : ProtectPar) : Bool :=
  match p.mode with
  | 0 => p.role = 0
  | 1 =>
    p.role ≤ 1 && p.swapH ≤ 168 && 1 ≤ p.pairId && p.pairId < 2 ^ 32
      && (lotByBase s c p.mirrorLot).elim false fun e => lotRead e && lotWrite e && 0x4000000 ≤ lotSize e
  | 2 => p.role = 0 && p.journal % 4096 = 0 && (lotByBase s c p.histLot).isSome
  | _ => false

/-- R656, R693: `RED_SET_PROTECT`. -/
def execRedSetProtect (h : Hdr) (c : Nat) (p : ProtectPar) (s : State) : Host.Outcome State Fault Refusal :=
  .next (command h { op := 0x0B01, who := who0Side, ctx := some c, staging := true } (unlocked c fun call s =>
    if 16 ≤ c then no s .badArg
    else if ctxDefined s c && !protectOk s c p then no s .badArg
    else stageCtx c (.redProtect p) call s) s)

/-- R677, R678: `RED_SWAP`. -/
def execRedSwap (h : Hdr) (c : Nat) (s : State) : Host.Outcome State Fault Refusal :=
  .next (command h { op := 0x0B02, who := who0Side, ctx := some c } (unlocked c fun _ s =>
    if !ctxDefined s c then no s (noCtx c)
    else if !acting s c || swapDeferred s c || (redOf s c).giving.isSome then no s .badState
    else accepted (startSwap c s) .redSwap c) s)

/-- R679: `RED_RELEASE`. -/
def execRedRelease (h : Hdr) (c : Nat) (s : State) : Host.Outcome State Fault Refusal :=
  .next (command h { op := 0x0B03, who := who0Side, ctx := some c } (unlocked c fun _ s =>
    if !ctxDefined s c then no s (noCtx c)
    else if !acting s c || (redOf s c).giving = some .release then no s .badState
    else accepted (releaseDowel false c s) .redRelease c) s)

/-- R687, R692: `RED_RING_ADOPT`. -/
def execRedRingAdopt (h : Hdr) (c ring prod : Nat) (s : State) : Host.Outcome State Fault Refusal :=
  .next (command h { op := 0x0B04, who := who0Admin, ctx := some c } (fun _ s =>
    if !ctxDefined s c then no s (noCtx c) else
    match ringOf s c ring with
    | none => no s .badArg
    | some r =>
      if r.par.kind = 1 then no s .badArg
      else if (liveReqs s c).any fun q => q.2.ring = some ring then no s .badState
      else ok (modRing c ring (fun r => { r with prod := prod % 2 ^ 32 }) s)) s)

/-- R688: `TRAY_DRAIN`; a second one waits for the drain in progress, or finds it complete. -/
def execTrayDrain (h : Hdr) (s : State) : Host.Outcome State Fault Refusal :=
  .next (command h { op := 0x0B10, who := who0Side } (fun _ s =>
    if s.red.drain = .none then
      accepted (drainProgress { s with red := { s.red with drain := .stepping, drainAt := now s } }) .trayDrain 0
    else if s.red.drain = .drained then ok s
    else accepted s .trayDrain 0) s)

/-- The state of the drain as TRAY_GET reports it (log entry 9). -/
def drainCode : Drain → Nat
  | .none => 0
  | .stepping => 1
  | .handing => 2
  | .closing => 3
  | .flushing => 4
  | .drained => 5

/-- R692: `TRAY_GET`. -/
def execTrayGet (h : Hdr) (s : State) : Host.Outcome State Fault Refusal :=
  .next (command h { op := 0x0B11, who := whoAll, reads := true } (fun _ s =>
    okData s [⟨1, drainCode s.red.drain⟩, ⟨1, bit s.tray.drainOk⟩, ⟨1, bit s.tray.latch⟩, ⟨10, stampNat s.red.lastDrain⟩]) s)

/-- R99, R690: TRAY_LATCH_N deasserts: a boot ends; a module that has started and has not drained does what R690 says. -/
def execTrayLatchDeassert (dt : Nat) (s : State) : Host.Outcome State Fault Refusal :=
  .next (event dt (fun s =>
    let s := { s with tray := { s.tray with latch := false } }
    if s.boot.running && s.boot.phase = .booting then endBoot s
    else if s.red.drain = .drained || !s.tray.pwrGood then s
    else
      let s := shutGates (releaseAll { s with red := { s.red with drain := .closing, removal := true } })
      drainFlush (record 0xB102 2 0x8000 none false [] s)) s)

/-- R763: a mirrored side that acts refuses an activation. -/
def mirroredActive (s : State) : Bool := !(actingCtxs s).isEmpty

/-- R126: `FW_ACTIVATE`. -/
def execFwActivate (h : Hdr) (s : State) : Host.Outcome State Fault Refusal := .next (execFwActivateOn mirroredActive h s)

end Sys2Proof.Machine
end

