-- ==== Sys2Proof/Machine/Opr.lean ====
section
/-! DEFINITION. Operator planning, chains and triggers (R289–R299). -/
namespace Sys2Proof.Machine

/-! ### Planning -/

/-- The lot of the context that holds a range with a right. -/
def inLot (s : State) (c a len : Nat) (need : Right) : Bool := 0 < len && (ctxOf s c).lots.any fun e => lotCovers e.2 a len && lotGrants e.2 need

/-- The bytes from an address to its lot's limit. -/
def lotRoom (s : State) (c a : Nat) : Nat := ((lotAt s c a 1).map fun e => lotLimit e.2 - a).getD 0

/-- R286: the reference names the issuing module, and its bytes lie whole in one lot with the right. -/
def tensorInLot (s : State) (c : Nat) (t : Tensor) (need : Right) : Bool :=
  isSelf s (t.addr / 2 ^ 44) && inLot s c (tensorBase t) (tensorSpan t) need

/-- R290 check 4. -/
def tensorsInLots (s : State) (c : Nat) (r : OprRec) : Bool :=
  tensorInLot s c r.src .r && tensorInLot s c r.dst .w
    && (match r.kind with
      | 1 => tensorInLot s c r.aux .r
      | 3 => r.mode = 0 || tensorInLot s c r.aux .w
      | 4 => isSelf s (r.aux.addr / 2 ^ 44) && inLot s c (tensorBase r.aux) (16 + 32 * oprParam r 4 4) .r
      | _ => true)
    && (!bitOf r.flags 2 || inLot s c (r.biasAddr % 2 ^ 44) (4 * r.aux.n) .r)
    && (r.kind ≠ 4 || inLot s c (r.flagsAddr % 2 ^ 44) (oprParam r 4 4) .w)

/-- R171: the jig of a library container. -/
def libraryJig (s : State) (path : Nat) : Option Jig :=
  let b := Config.library (jiglib s).version (Config.operatorJig path)
  if b.isEmpty then none else some (containerOf b)

/-- R290 check 10: the slot is empty on every bench, or holds the path's operator jig, with no run queued in it. -/
def planSlotOk (s : State) (c : Nat) (ks : List Nat) (slot path : Nat) : Bool :=
  !slotBusy s c ks slot && (benchesOf ks).all fun b =>
    match (benchFor s c b).slots.getD slot none with
    | none => true
    | some j => j.jigId = Config.operatorJig path

/-- R290: the first check that fails, as its status and reason. -/
def planRefusal (s : State) (c slot mask recAddr planAddr : Nat) (r : OprRec) (x : PlanShape) : Option (Status × Nat) :=
  let o := outShape r
  let chk (b : Bool) (st : Status) (n : Nat) : Option (Status × Nat) := if b then none else some (st, n)
  [ chk (inLot s c recAddr 256 .r && ((ctxOf s c).lots.any fun e => lotCovers e.2 planAddr 1 && lotRead e.2 && lotWrite e.2)) .badArg 0x20,
    chk (kindOk r) .badArg 0x21,
    chk ((runBlocksRefused s c slot mask).isNone) .denied 0x22,
    chk (tensorsInLots s c r) .badArg 0x23,
    chk (formatsOk r) .badArg 0x24,
    chk (limitsOk r) .badArg 0x25,
    chk (reflectOk r) .badArg 0x26,
    chk (o.1 = 0 || o.2 = 0 || dstOk r) .badArg 0x27,
    chk (x.code.length ≤ lotRoom s c planAddr) .noResource 0x28,
    chk (planSlotOk s c (blocksOf mask) slot (pathOf r)) .busy 0x29 ].findSome? id

/-- R291: the weights of a CONV as element patterns, packed at planning time. -/
def packWeights (s : State) (r : OprRec) : List Nat :=
  if r.kind ≠ 1 then []
  else forTensor r.aux.n r.aux.h r.aux.w r.aux.c fun n h w c =>
    leNat (consumeBytes s (tensorBase r.aux + elemOffset r.aux n h w c) (elemBytes r.aux.fmt))

/-- The row of the relative-throughput table (R290); a YUV420 source has none, so its value is free. -/
def layoutPath (s : State) (t : Tensor) : Nat :=
  match t.layout with
  | 0 => 0
  | 1 => if t.c % 32 = 0 then 1 else 2
  | 2 => 3
  | 3 => 4
  | _ => Config.freeValue s.free % 256

/-- The data of a successful OPR_PLAN (R290, log entry 9). -/
def planAnswer (s : State) (r : OprRec) (x : PlanShape) : List Fld :=
  let o := outShape r
  let t := tileData r x
  let empty := o.1 = 0 || o.2 = 0
  [⟨1, bit empty⟩, ⟨2, o.1⟩, ⟨2, o.2⟩, ⟨1, pathOf r⟩, ⟨1, layoutPath s r.src⟩, ⟨4, t.1⟩, ⟨2, t.2.1⟩, ⟨2, t.2.2.1⟩, ⟨4, t.2.2.2⟩,
   ⟨8, x.code.length⟩, ⟨8, x.events⟩]

/-- R242, R290: the refusal of a planning: a record or weights with a word that is not usable answer FAULTED where they are read. -/
def planChecked (s : State) (c slot mask recAddr planAddr : Nat) (r : OprRec) (x : PlanShape) : Option (Status × Nat) :=
  if inLot s c recAddr 256 .r && rangeBad s recAddr 256 then some (.faulted, 0)
  else match planRefusal s c slot mask recAddr planAddr r x with
    | some q => some q
    | none => if r.kind = 1 && rangeBad s (tensorBase r.aux) (tensorSpan r.aux) then some (.faulted, 0) else none

/-- R243, R251: what a planning reads from memory: the record, and the weights of a plan that is made. -/
def planTouch (c recAddr : Nat) (r : OprRec) (made : Bool) (s : State) : State :=
  let read (a len : Nat) (s : State) : State := touchYard .square a len .request .read (consumeCount a len s)
  let s := if inLot s c recAddr 256 .r then read recAddr 256 s else s
  if made && r.kind = 1 then read (tensorBase r.aux) (tensorSpan r.aux) s else s

/-- R289, R290: `OPR_PLAN`: the checks are made as planning starts; plan or refusal come at OPR_PLAN_DONE. -/
def execOprPlan (h : Hdr) (c slot mask recAddr planAddr : Nat) (x : PlanShape) (s : State) : Host.Outcome State Fault Refusal :=
  .next (command h { op := 0x0410, who := whoCtx, ctx := some c, conf := true } (fun k s =>
    if 16 ≤ c || 4 ≤ slot || mask = 0 || 2 ^ 63 ≤ mask then no s .badArg
    else if confMask s k.mb mask then no s .confidential
    else if !ctxDefined s c then no s .badState
    else
      let r := oprRecOf (consumeBytes s recAddr 256)
      let o := outShape r
      let p := freshId s
      let bad := planChecked s c slot mask recAddr planAddr r x
      let plan : Plan :=
        { ctx := c, rec_ := r, blocks := blocksOf mask, slot := slot, path := pathOf r, weights := packWeights s r
          offSums := offCentreSums r (packWeights s r) (s.free + 1), hExt := x.hExt, wExt := x.wExt
          epoch := (jiglib s).epoch, empty := o.1 = 0 || o.2 = 0, code := x.code }
      let y : Planning :=
        ⟨p.1, c, planAddr, if bad.isSome then none else some plan, bad, planAnswer s r x, bad = some (.badArg, 0x21) && !reservedZero r⟩
      accepted (planTouch c recAddr r bad.isNone { p.2 with
        opr := { p.2.opr with planning := p.2.opr.planning ++ [y] }, free := p.2.free + 1 + r.aux.n }) .oprPlan p.1) s)

/-- R290: planning ends: the plan is written, the operator jig loaded if the slot is empty, and the final response given. -/
def execOprPlanDone (dt id : Nat) (s : State) : Host.Outcome State Fault Refusal :=
  .next (event dt (fun s =>
    match takeFirst (fun y => y.id = id) s.opr.planning with
    | none => s
    | some (y, rest) =>
      let s := { s with opr := { s.opr with planning := rest } }
      match y.plan, y.refusal with
      | some p, none =>
        if !ctxDefined s y.ctx || (ctxOf s y.ctx).state = .destroying then finish .oprPlan id .badState [] s
        else match libraryJig s p.path with
          | none => finish .oprPlan id .busy [⟨2, 0x29⟩] s
          | some j =>
            if !jigFits s p.ctx p.blocks p.slot j then finish .oprPlan id .noResource [⟨2, 0x0D⟩] s
            else
              let load (s : State) (b : Nat) : State := modBenchFor p.ctx b (fun q =>
                if (q.slots.getD p.slot none).isSome then q
                else { q with slots := q.slots.set p.slot (some j), badLines := q.badLines.filter (· ≠ p.slot) }) s
              let s := (benchesOf p.blocks).foldl load (writeBytes y.addr p.code [] (touchYard .square y.addr p.code.length .request .write s))
              finish .oprPlan id .ok y.answer { s with opr := { s.opr with plans := tset s.opr.plans y.addr (some p) } }
      | _, some (st, reason) => finishBad y.viol .oprPlan id st [⟨2, reason⟩] s
      | none, none => s) s)

/-- The plan that stands at an address: its bytes are still there (log entry 18). -/
def planAt (s : State) (c a : Nat) : Option Plan :=
  match tget s.opr.plans a none with
  | some p => if p.ctx = c && consumeBytes s a p.code.length = p.code then some p else none
  | none => none

/-! ### Chains -/

/-- R296: the operator jig is resident in the plan's slot under the plan's epoch, and the blocks are the context's. -/
def stageReady (s : State) (p : Plan) : Bool :=
  (jiglib s).epoch = p.epoch && (runBlocksRefused s p.ctx p.slot (p.blocks.foldl maskSet 0)).isNone
    && (benchesOf p.blocks).all fun b =>
      match (benchFor s p.ctx b).slots.getD p.slot none with
      | some j => j.jigId = Config.operatorJig p.path && !(benchFor s p.ctx b).badLines.contains p.slot
      | none => false

/-- R294: the chain outcome and the index of the stage that gave it. -/
def chainOutcome (l : List StageEnd) : Nat × Nat :=
  match findIdx (fun e => e.outcome ≠ 0) l 0 with
  | some i => ((l.getD i ⟨0, 0, 0, 0⟩).outcome, i)
  | none => (0, l.length - 1)

def sumOf {α : Type} (f : α → Nat) (l : List α) : Nat := (l.map f).foldl (· + ·) 0

def modTrigger (id : Nat) (f : Trigger → Trigger) (s : State) : State :=
  { s with opr := { s.opr with triggers := mapIf (fun t => t.id = id) f s.opr.triggers } }

/-- R299: a triggered chain's completion record. -/
def completionRecord (x : Chain) (t : Trigger) (end_ : Stamp) : List Byte :=
  let o := chainOutcome x.ends
  fieldBytes [⟨10, stampNat x.picture⟩, ⟨10, stampNat end_⟩, ⟨1, o.1⟩, ⟨1, o.2⟩, ⟨2, t.seq⟩, ⟨2, min t.newSkips 65535⟩,
    ⟨2, sumOf (·.flagged) x.ends⟩, ⟨2, sumOf (·.dropped) x.ends⟩, ⟨2, 0⟩]

/-- R294, R299: a chain ends: the final response of an immediate run, or the completion record and the message of a
triggered one. -/
def endChain (x : Chain) (s : State) : State :=
  let p := issueStamp { s with opr := { s.opr with chains := s.opr.chains.filter fun y => y.id ≠ x.id } }
  let o := chainOutcome x.ends
  match x.trigger.bind fun i => p.2.opr.triggers.find? fun t => t.id = i with
  | none =>
    finish .oprRun x.id .ok [⟨1, o.1⟩, ⟨1, o.2⟩, ⟨10, stampNat p.1⟩, ⟨4, sumOf (·.flagged) x.ends⟩, ⟨4, sumOf (·.dropped) x.ends⟩,
      ⟨4, sumOf (·.emptyWindows) x.ends⟩] p.2
  | some t =>
    let a := t.ring + 32 * (t.seq % max 1 t.records)
    let s := if lotPasses p.2 t.ctx a 32 .w false then writeBytes a (completionRecord x t p.1) [] p.2
      else record 0x9101 2 0 (some t.ctx) true [⟨8, a⟩] p.2
    let s := modTrigger t.id (fun t => { t with seq := wrapAdd 16 t.seq 1, newSkips := 0, completed := t.completed + 1 }) s
    let s := match t.vector with
      | some v => sendMsix (t.ctx + 1) v s
      | none => s
    if t.ending then { s with opr := { s.opr with triggers := s.opr.triggers.filter fun y => y.id ≠ t.id } } else s

/-- R293, R294: a stage ends FAULTED: those after it are not run. -/
def faultedAt (e : StageEnd) (x : Chain) : Chain :=
  { x with ends := x.ends ++ e :: List.replicate (x.plans.length - x.ends.length - 1) ⟨4, 0, 0, 0⟩ }

/-- R294, R296: the next stage of a chain starts, or ends FAULTED because its jig is not there; it waits while a launch queue of its
benches is full (R173). -/
def startStage (x : Chain) (s : State) : State :=
  let put (y : Chain) (s : State) : State :=
    { s with opr := { s.opr with chains := s.opr.chains.filter (fun z => z.id ≠ y.id) ++ [y] } }
  match x.plans[x.ends.length]? with
  | none => endChain x s
  | some p =>
    if queueFull s x.ctx p.blocks then put { x with run := 0 } s
    else if stageReady s p then
      let q := queueRun x.ctx p.slot p.blocks [] s
      put { x with run := q.1 } q.2
    else
      endChain (faultedAt ⟨3, 0, 0, 0⟩ x)
        (record 0x4403 2 0 (some x.ctx) false [⟨1, x.ends.length⟩] s)

/-- The run of a stage has ended on every bench: it leaves the benches and the runs. -/
def retireRun (id : Nat) (s : State) : State :=
  match runOf s id with
  | none => s
  | some r =>
    let s := stopRun id s
    let s := r.live.foldl (fun s b => modBench b (fun x =>
      { x with cur := x.cur.filter fun c => c.run ≠ id, faulted := x.faulted && !(x.cur.elim false fun c => c.run = id) }) s) s
    { s with benches := { s.benches with runs := s.benches.runs.filter fun y => y.id ≠ id, ended := (id, r.ctx) :: s.benches.ended } }

/-- R242–R244, R44: what a stage's run meets in memory, and on which bench: a lot that no longer passes, or a poisoned word. -/
def stageFault (s : State) (p : Plan) : Option (Nat × PlanAccess) :=
  let lot := (planReads p).find? fun x => !lotPasses s p.ctx x.addr x.len .r false
  let out := (planWrites p).find? fun x => !lotPasses s p.ctx x.addr x.len .w false
  match lot, out, (planReads p).find? fun x => rangeBad s x.addr x.len with
  | some x, _, _ => some (0x9101, x)
  | _, some x, _ => some (0x9101, x)
  | _, _, some x => some (0x4104, x)
  | _, _, _ => none

/-- The bench that writes an address of a plan's outputs. -/
def writerOf (p : Plan) (a : Nat) : Nat := ((planWrites p).find? fun x => x.addr ≤ a && a < x.addr + x.len).elim (leadBench p) (·.bench)

/-- What a stage writes, from the state at its end, with the conversions counted on the benches that make them (R217). -/
def writeStage (p : Plan) (boxes : Nat) (limit : Option Nat) (s : State) : StageEnd × State :=
  let o := stageOutput s p s.free boxes
  let l := match limit with
    | some n => o.1.take n
    | none => o.1
  let l := l.mapIdx fun i x => (x, convElem p.rec_.flags (s.free + stageFree p + i) x)
  let flags := if limit.isSome then [] else o.2.1.map fun x => (x.1, [BitVec.ofNat 8 x.2])
  let s := (planReads p).foldl (fun s x => yardAccess x.addr x.len .request .read (consumeCount x.addr x.len s)) s
  let s := (planWrites p).foldl (fun s x => yardAccess x.addr x.len .request .write s) s
  let s := (joinPieces ((l.map fun x => (x.1.addr, leBytes (elemBytes x.1.fmt) x.2.bits)) ++ flags)).foldl (fun s x => writeBytes x.1 x.2 [] s) s
  let s := (benchesOf p.blocks).foldl (fun s b => countConvs b ((l.filter fun x => writerOf p x.1.addr = b).map (·.2)) s) s
  (o.2.2, { s with free := s.free + 2 * stageFree p })

/-- A stage that faults writes what its output pieces hold up to the fault (`n` of them; R293). -/
def stageFaulted (x : Chain) (p : Plan) (n : Option Nat) (s : State) : StageEnd × State :=
  (⟨3, 0, 0, 0⟩, match n with
    | some n => if p.empty then s else (writeStage p x.boxes (some n) s).2
    | none => s)

/-- R293: a stage's outcome, and what it writes. A faulted operand makes 0x3104 beside the fault's own record (R244). -/
def stageResult (x : Chain) (p : Plan) (faulted : Option Nat) (runFault : Bool) (s : State) : StageEnd × State :=
  if runFault then stageFaulted x p faulted s
  else match faulted, stageFault s p with
    | some n, none => stageFaulted x p (some n) s
    | _, some (code, a) =>
      if p.empty then (if faulted.isSome then stageFaulted x p none s else (⟨1, 0, 0, 0⟩, s))
      else
        let s := if code = 0x9101 then s else
          useFree 1 (recordPoison a.bench (some x.ctx) (Config.operatorJig p.path) (Config.freeValue s.free % 4096) a.addr s)
        stageFaulted x p faulted (record code 2 (0x1000 + a.bench) (some x.ctx) (code = 0x9101) [⟨8, a.addr⟩] s)
    | none, none => if p.empty then (⟨1, 0, 0, 0⟩, s) else writeStage p x.boxes none s

/-- R293, R294, R174: a stage ends. `faulted` gives, for a run that ends FAULTED, how many output elements it had written. -/
def stageEnds (x : Chain) (p : Plan) (faulted : Option Nat) (s : State) : State :=
  let q := stageResult x p faulted ((runOf s x.run).elim true fun r => r.stopped || r.fault.isSome) (retireRun x.run s)
  let s := if q.1.dropped = 0 then q.2 else record 0x4404 1 0 (some x.ctx) true [⟨4, q.1.dropped⟩] q.2
  let s := foldN q.1.flagged (fun _ s => record 0x4402 1 0 (some x.ctx) true [] s) s
  let x := if q.1.outcome = 3 then faultedAt q.1 x else { x with ends := x.ends ++ [q.1] }
  if q.1.outcome = 3 || x.plans.length ≤ x.ends.length then endChain x s
  else startStage x { s with opr := { s.opr with chains := mapIf (fun y => y.id = x.id) (fun _ => x) s.opr.chains } }

/-- R310: a run is still to start on a bench, or a halo block of it to cross the mesh. -/
def runPending (s : State) (id : Nat) : Bool := haloUnderWay s id || (runOf s id).elim false fun r => !r.waiting.isEmpty && !r.stopped

/-- R294: a stage of a chain ends with its outcome, once its run has started everywhere and its halos have crossed the mesh (R310); the next one starts, or the chain ends. -/
def execChainStageEnd (dt id : Nat) (faulted : Option Nat) (s : State) : Host.Outcome State Fault Refusal :=
  .next (event dt (fun s =>
    match s.opr.chains.find? fun x => x.id = id with
    | none => s
    | some x =>
      match x.plans[x.ends.length]? with
      | none => s
      | some p => if nonResident s x.ctx || x.run = 0 || runPending s x.run then s else stageEnds x p faulted s) s)

/-- R295: why an immediate run is refused. -/
def runRefused (s : State) (c : Nat) (l : List Plan) : Option Status :=
  if (funcOf s (fidContext c)).state = .stopping || quiesced s (fidContext c) then some .badState
  else if l.any fun p => p.blocks.any (servedBlock s c) then some .busy
  else if (match l with
    | p :: _ => queueFull s c p.blocks
    | [] => false) then some .busy
  else none

/-- R296: why a trigger is refused. -/
def triggerRefused (s : State) (c : Nat) (t : TriggerPar) : Option Status :=
  let open_ := match tget s.vid.dec t.session none with
    | some d => d.base.ctx = c && !d.base.closing
    | none => false
  let sizes : List Nat := [16, 32, 64, 128, 256, 512, 1024, 2048, 4096]
  if 128 ≤ t.session || !sizes.contains t.records || !inLot s c t.ring (32 * t.records) .w || 120 ≤ t.vector.getD 0 then some .badArg
  else if !open_ then some .badState
  else if 8 ≤ (s.opr.triggers.filter fun y => y.ctx = c && !y.ending).length then some .noResource
  else none

/-- R294–R296: `OPR_RUN`: runs a chain at once, or arms a trigger, whose number the answer gives (log entry 9). -/
def execOprRun (h : Hdr) (c : Nat) (plans : List Nat) (trigger : Option TriggerPar) (s : State) : Host.Outcome State Fault Refusal :=
  .next (command h { op := 0x0411, who := whoCtx, ctx := some c, conf := true } (fun _ s =>
    if 16 ≤ c || plans.isEmpty || 64 < plans.length then no s .badArg
    else if !ctxDefined s c then no s .badState
    else
      let l := plans.filterMap (planAt s c)
      if l.length ≠ plans.length then no s .badArg
      else
        let p := freshId s
        match trigger with
        | none =>
          (match runRefused s c l with
          | some st => no s st
          | none =>
            let x : Chain := ⟨p.1, c, l, [], 0, none, 0, 0, ⟨0, 0⟩, 0⟩
            accepted { p.2 with opr := { p.2.opr with chains := p.2.opr.chains ++ [x] } } .oprRun p.1)
        | some t =>
          match triggerRefused s c t with
          | some st => no s st
          | none =>
            let x : Trigger :=
              { id := p.1, ctx := c, session := t.session, plans := l, ring := t.ring, records := t.records, vector := t.vector }
            okData { p.2 with opr := { p.2.opr with triggers := p.2.opr.triggers ++ [x] } } [⟨4, p.1⟩]) s |> startNew)
where
  /-- The first stages of chains just accepted start once their command has been answered. -/
  startNew (s : State) : State :=
    s.opr.chains.foldl (fun s x => if x.run = 0 && x.ends.isEmpty && x.trigger.isNone then startStage x s else s) s

/-- R522, R289: a trigger ends; a chain in progress finishes. -/
def endTrigger (id : Nat) (s : State) : State :=
  if s.opr.chains.any fun x => x.trigger = some id then modTrigger id (fun t => { t with ending := true }) s
  else { s with opr := { s.opr with triggers := s.opr.triggers.filter fun t => t.id ≠ id } }

/-- R289: `OPR_UNTRIGGER`. -/
def execOprUntrigger (h : Hdr) (c id : Nat) (s : State) : Host.Outcome State Fault Refusal :=
  .next (command h { op := 0x0412, who := whoCtx, ctx := some c, conf := true } (fun _ s =>
    if 16 ≤ c then no s .badArg
    else if !ctxDefined s c then no s .badState
    else if s.opr.triggers.any fun t => t.id = id && t.ctx = c && !t.ending then ok (endTrigger id s)
    else no s .badArg) s)

/-- R289: `OPR_STATUS`: each trigger's number, session, whether its chain runs, and its skipped and completed counts. -/
def execOprStatus (h : Hdr) (c : Nat) (s : State) : Host.Outcome State Fault Refusal :=
  .next (command h { op := 0x0413, who := whoCtx, ctx := some c, conf := true, reads := true } (fun _ s =>
    if 16 ≤ c then no s .badArg
    else if !ctxDefined s c then no s .badState
    else okData s ((s.opr.triggers.filter fun t => t.ctx = c).flatMap fun t =>
      [⟨4, t.id⟩, ⟨1, t.session⟩, ⟨1, bit (s.opr.chains.any fun x => x.trigger = some t.id)⟩, ⟨8, t.skipped⟩, ⟨8, t.completed⟩])) s)

/-- R297: a picture of a session is complete: each of its triggers starts its chain, or skips the picture. -/
def fireTriggers (session buffer : Nat) (stamp : Stamp) (s : State) : State :=
  (s.opr.triggers.filter fun t => t.session = session && !t.ending).foldl (fun s t =>
    let busy := s.opr.chains.any (fun x => x.trigger = some t.id)
      || (match t.plans with
        | p :: _ => queueFull s t.ctx p.blocks
        | [] => true)
      || (funcOf s (fidContext t.ctx)).state ≠ .running || nonResident s t.ctx
    if busy then
      record 0x4401 1 0 (some t.ctx) true [⟨4, t.id⟩] (modTrigger t.id (fun t =>
        { t with skipped := t.skipped + 1, newSkips := t.newSkips + 1 }) s)
    else
      let p := freshId s
      startStage ⟨p.1, t.ctx, t.plans, [], 0, some t.id, session, buffer, stamp, 0⟩ p.2) s

/-- R173: the launches that waited for room in a queue: those of steps, and the stages of chains. -/
def retryLaunches (s : State) : State :=
  let s := foldN 16 (fun c s => if ((serveOf s c).step.elim false fun p => p.run.isNone && !p.todo.isEmpty) then launchNext c s else s) s
  s.opr.chains.foldl (fun s x => if x.run = 0 then startStage x s else s) s

/-- R310, R317: a bench starts its part of an operator's run: it sends the halo blocks that it owns, and the bench of rank 0 reads the box count. -/
def startOperator (b : Nat) (s : State) : State :=
  match (benchOf s b).cur with
  | none => s
  | some r =>
    match s.opr.chains.find? fun x => x.run = r.run && r.run ≠ 0 with
    | none => s
    | some x =>
      match x.plans[x.ends.length]? with
      | none => s
      | some p =>
        let s := if p.rec_.kind = 4 && b = leadBench p then
            { s with opr := { s.opr with chains := mapIf (fun y => y.id = x.id) (fun y => { y with boxes := boxCount s p.rec_ }) s.opr.chains } }
          else s
        (haloSends p b).foldl (fun s q => sendHalo r.run b q s) s

/-- R173: a bench starts its next queued run, which leaves room in its queue. -/
def execRunStart (dt b : Nat) (s : State) : Host.Outcome State Fault Refusal :=
  .next (event dt (fun s => retryLaunches (if (benchOf s b).cur.isNone then startOperator b (startRun b s) else s)) s)

/-- R298: a trigger holds an output buffer of a session. -/
def bufferHeld (s : State) (session buffer : Nat) : Bool :=
  s.opr.chains.any fun x => x.trigger.isSome && x.session = session && x.buffer = buffer && x.ends.isEmpty

end Sys2Proof.Machine
end

