-- ==== Sys2Proof/Machine/Video.lean ====
section
/-! DEFINITION. The video engine: sessions, pictures, damaged streams, rate control and refresh (chapter 12); its recorder codes are those of R525. -/
namespace Sys2Proof.Machine

/-! ### Sessions and pipes -/

def decOf (s : State) (i : Nat) : Option DecSession := tget s.vid.dec i none
def encOf (s : State) (i : Nat) : Option EncSession := tget s.vid.enc i none

def modDec (i : Nat) (f : DecSession → DecSession) (s : State) : State :=
  { s with vid := { s.vid with dec := tmod s.vid.dec i none (·.map f) } }

def modEnc (i : Nat) (f : EncSession → EncSession) (s : State) : State :=
  { s with vid := { s.vid with enc := tmod s.vid.enc i none (·.map f) } }

/-- A session by its kind and number. -/
def vidBase (s : State) (enc : Bool) (i : Nat) : Option VidBase :=
  if enc then (encOf s i).map (·.base) else (decOf s i).map (·.base)

def modVid (enc : Bool) (i : Nat) (f : VidBase → VidBase) (s : State) : State :=
  if enc then modEnc i (fun x => { x with base := f x.base }) s else modDec i (fun x => { x with base := f x.base }) s

/-- The open sessions, as (encode, number, pipe, declared luma samples a second). -/
def openSessions (s : State) : List (Bool × Nat × Nat × Nat) :=
  (s.vid.dec.filterMap fun p => p.2.map fun x => (false, p.1, x.base.pipe, x.par.maxW * x.par.maxH * x.par.rate))
    ++ (s.vid.enc.filterMap fun p => p.2.map fun x => (true, p.1, x.base.pipe, x.par.width * x.par.height * x.par.rate))

/-- R486: the pipe is available. -/
def pipeAvailable (s : State) (p : Nat) : Bool := if p < 4 then bitOf s.boot.decPipes p else p < 6 && bitOf s.boot.encPipes (p - 4)

/-- R488: what the pipe's sessions declare. -/
def declaredOn (s : State) (p : Nat) : Nat := sumOf (fun x => x.2.2.2) ((openSessions s).filter fun x => x.2.2.1 = p)

/-- The sessions of a pipe. -/
def sessionsOn (s : State) (p : Nat) : Nat := ((openSessions s).filter fun x => x.2.2.1 = p).length

/-- R128: VIDFW is being activated on a pipe. -/
def vidActivating (s : State) (p : Nat) : Bool := activatingUnit s 3 p

/-- R521, R490, R112: the sessions of a pipe are HELD. -/
def pipeHeld (s : State) (p : Nat) : Bool :=
  (funcOf s (fidVideo p)).state ≠ .running || vidActivating s p || s.vid.paused || s.vid.coreUp.all (! ·) || inService s

/-- R491: the state of a session. -/
def vidState (s : State) (b : Option VidBase) : Nat :=
  match b with
  | none => 0
  | some b => if b.closing then 5 else if b.faulted then 4 else if pipeHeld s b.pipe && !b.busy then 3 else if b.busy then 2 else 1

/-- R528: the state of a pipe. -/
def pipeState (s : State) (p : Nat) : Nat :=
  if !pipeAvailable s p then 0
  else match (funcOf s (fidVideo p)).state with
    | .stopping => 2
    | .stopped => 3
    | .startFailed => 3
    | .starting => 3
    | .running => if vidActivating s p then 4 else if s.vid.paused then 5 else 1

/-- R528: `VID_PIPE`. -/
def vidPipeReg (s : State) (p : Nat) : Nat :=
  pipeState s p + 2 ^ 8 * sessionsOn s p + 2 ^ 16 * (declaredOn s p % 2 ^ 32)

/-- R529: `VID_DEC_SESS` and `VID_ENC_SESS`, as one 128-bit number. -/
def vidSessReg (s : State) (enc : Bool) (i : Nat) : Nat :=
  match vidBase s enc i with
  | none => 0
  | some b =>
    let codec := if enc then (encOf s i).elim 0 (·.par.codec) else (decOf s i).elim 0 (·.par.codec)
    vidState s (some b) + 2 ^ 32 * codec + 2 ^ 40 * b.pipe + 2 ^ 44 * b.ctx + 2 ^ 48 * b.badIndex + 2 ^ 64 * b.skipped
      + 2 ^ 80 * b.limited + 2 ^ 96 * b.pictures

/-- R526: `VID_STATUS`. -/
def vidStatus (s : State) : Nat :=
  let n (e : Bool) : Nat := ((openSessions s).filter fun x => x.1 = e).length
  n false + 2 ^ 8 * n true + 2 ^ 16 * (s.vid.coreUp.filter id).length

/-! ### Rings (R491–R493) -/

/-- The rings of a session: input ring and its index block, record ring and its index block, with their sizes, and the vector. -/
structure VidRings where
  inRing : Nat
  inWords : Nat
  inSize : Nat
  recRing : Nat
  recWords : Nat
  recSize : Nat
  vector : Nat
  deriving DecidableEq, Repr, Inhabited

def ringsOf (s : State) (enc : Bool) (i : Nat) : VidRings :=
  if enc then
    match encOf s i with
    | some x => ⟨x.par.inRing, x.par.inWords, 2 ^ x.par.inLog, x.par.recRing, x.par.recWords, 2 ^ x.par.slotLog, x.par.vector⟩
    | none => default
  else
    match decOf s i with
    | some x => ⟨x.par.inRing, x.par.inWords, 2 ^ x.par.inLog, x.par.recRing, x.par.recWords, 2 ^ x.par.recLog, x.par.vector⟩
    | none => default

/-- The signed distance between two 32-bit indices. -/
def idxDist (a b : Nat) : Int := toSigned 32 (ofSigned 32 ((b : Int) - a))

/-- R493: the index may be taken. -/
def idxOk (cur pair size v : Nat) : Bool := 0 ≤ idxDist cur v && idxDist pair v ≤ size

/-- R493: an index is ignored, counted and recorded; a value already ignored is not counted again. -/
def ignoreIndex (enc : Bool) (i : Nat) (s : State) : State :=
  let c := (vidBase s enc i).map (·.ctx)
  record 0x7106 1 (0x5000 + ((vidBase s enc i).elim 0 (·.pipe))) c true [⟨1, i⟩]
    (modVid enc i (fun b => { b with badIndex := satAdd 16 b.badIndex 1 }) s)

/-- A session stops under R44 or R242 (R491). -/
def faultVid (enc : Bool) (i code addr : Nat) (s : State) : State :=
  match vidBase s enc i with
  | none => s
  | some b => record code 2 (0x5000 + b.pipe) (some b.ctx) (code = 0x9101) [⟨8, addr⟩]
      (modVid enc i (fun b => { b with faulted := true, busy := false }) s)

/-- R251: the video engine writes bytes. -/
def videoWrite (a : Nat) (l : List Byte) (s : State) : State := writeBytes a l [] (touchYard (.edge .video) a l.length .request .write s)

/-- R242, R243, R251: the video engine reads a range. -/
def videoRead (a len : Nat) (s : State) : State := touchYard (.edge .video) a len .request .read (consumeCount a len s)

/-- R492: the engine reads the indices that the host side writes: the input producer and the record consumer. -/
def readIndices (enc : Bool) (i : Nat) (s : State) : State :=
  match vidBase s enc i with
  | none => s
  | some b =>
    let r := ringsOf s enc i
    if !lotPasses s b.ctx r.inWords 16 .r false then faultVid enc i 0x9101 r.inWords s
    else if !lotPasses s b.ctx r.recWords 16 .r false then faultVid enc i 0x9101 r.recWords s
    else
      let p := leNat (consumeBytes s r.inWords 4)
      let c := leNat (consumeBytes s (r.recWords + 8) 4)
      let s := videoRead (r.recWords + 8) 4 (videoRead r.inWords 4 s)
      let s :=
        if idxOk b.prod b.cons r.inSize p then modVid enc i (fun b => { b with prod := p, badSeen := (none, b.badSeen.2) }) s
        else if b.badSeen.1 = some p then s
        else ignoreIndex enc i (modVid enc i (fun b => { b with badSeen := (some p, b.badSeen.2) }) s)
      if idxOk b.recCons b.recProd r.recSize c then modVid enc i (fun b => { b with recCons := c, badSeen := (b.badSeen.1, none) }) s
      else if b.badSeen.2 = some c then s
      else ignoreIndex enc i (modVid enc i (fun b => { b with badSeen := (b.badSeen.1, some c) }) s)

/-- A record has been consumed. -/
def recConsumed (b : VidBase) (idx : Nat) : Bool := 0 < idxDist idx b.recCons

/-- R501, R520: the buffer or slot that a record last named is free again. -/
def slotFree (b : VidBase) (named : Tab Nat) (k : Nat) : Bool :=
  match named.find? fun p => p.1 = k with
  | some p => recConsumed b p.2
  | none => true

/-- R501: an output buffer is free. -/
def bufferFree (s : State) (i : Nat) (d : DecSession) : Bool :=
  slotFree d.base d.named d.nextBuf && !bufferHeld s i d.nextBuf && d.held.all fun h => h.buffer ≠ some d.nextBuf

/-- R492, R44: the record and the index words of a session may be written: the address that fails its lot check, if any. -/
def recordBarred (s : State) (enc : Bool) (i : Nat) (b : VidBase) : Option Nat :=
  let r := ringsOf s enc i
  let a := r.recRing + 64 * (b.recProd % r.recSize)
  if !lotPasses s b.ctx a 64 .w false then some a
  else if !lotPasses s b.ctx r.recWords 16 .w false then some r.recWords
  else none

/-- R492: write one picture record, then the producer index, then the message. -/
def putPicRecord (enc : Bool) (i : Nat) (d : List Fld) (s : State) : State :=
  match vidBase s enc i with
  | none => s
  | some b =>
    let r := ringsOf s enc i
    let a := r.recRing + 64 * (b.recProd % r.recSize)
    match recordBarred s enc i b with
    | some a => faultVid enc i 0x9101 a s
    | none =>
      let p := wrapAdd 32 b.recProd 1
      let s := videoWrite r.recWords (leBytes 4 p) (videoWrite a (fieldBytes d) s)
      let s := modVid enc i (fun b => { b with recProd := p, lastRecord := d }) s
      if r.vector = 0xFFFF then s else sendMsix (b.ctx + 1) r.vector s

/-- R492: the entry's data has been read: the consumer index is written. -/
def consumeEntry (enc : Bool) (i : Nat) (s : State) : State :=
  match vidBase s enc i with
  | none => s
  | some b =>
    let r := ringsOf s enc i
    let c := wrapAdd 32 b.cons 1
    if !lotPasses s b.ctx r.inWords 16 .w false then faultVid enc i 0x9101 r.inWords s
    else modVid enc i (fun b => { b with cons := c, busy := false }) (videoWrite (r.inWords + 8) (leBytes 4 c) s)

/-- R504, R519: the input entry in progress. -/
def entryOf (s : State) (enc : Bool) (i : Nat) : List Byte :=
  let r := ringsOf s enc i
  consumeBytes s (r.inRing + 32 * (((vidBase s enc i).elim 0 (·.cons)) % max 1 r.inSize)) 32

/-- A session waits for a buffer or slot: recorded once for each wait. -/
def noteWait (enc : Bool) (i code : Nat) (s : State) : State :=
  match vidBase s enc i with
  | none => s
  | some b => if b.waiting then s
      else record code 1 (0x5000 + b.pipe) (some b.ctx) true [⟨1, i⟩] (modVid enc i (fun b => { b with waiting := true }) s)

/-- R515: a changed window or cap restarts the window at the next picture. -/
def applyRc (x : EncSession) : EncSession :=
  match x.nextRc with
  | none => x
  | some rc =>
    { x with
      par := { x.par with rc := rc }, nextRc := none
      sizes := if rc.window = x.par.rc.window && rc.cap = x.par.rc.cap then x.sizes else [] }

/-- R491, R501, R520, R498: an IDLE session takes its next entry, when it has one, a record slot, and an output. -/
def tryStart (enc : Bool) (i : Nat) (s : State) : State :=
  match vidBase s enc i with
  | none => s
  | some b =>
    let r := ringsOf s enc i
    if b.faulted || b.closing || b.busy || pipeHeld s b.pipe || b.prod = b.cons || r.recSize ≤ seqDist b.recCons b.recProd then s
    else if !lotPasses s b.ctx (r.inRing + 32 * (b.cons % max 1 r.inSize)) 32 .r false then faultVid enc i 0x9101 r.inRing s
    else
    let s := videoRead (r.inRing + 32 * (b.cons % max 1 r.inSize)) 32 s
    if enc then
      match encOf s i with
      | none => s
      | some x =>
        if slotFree x.base x.named x.nextSlot then
          modEnc i (fun x => applyRc { x with base := { x.base with busy := true, waiting := false, startedAt := now s } }) s
        else noteWait enc i 0x7202 s
    else
      match decOf s i with
      | none => s
      | some x =>
        if x.par.wait && !bufferFree s i x then noteWait enc i 0x7107 s
        else
          let disc := bitOf (fieldAt (entryOf s enc i) 12 1) 0
          modDec i (fun x => { x with
            base := { x.base with busy := true, waiting := false, startedAt := now s }
            bound := false
            bufs := if disc then x.bufs.map fun f => { f with mark := .unused } else x.bufs }) s

/-- R492: every 100 µs an IDLE session reads its input ring's producer index. -/
def execInputPoll (dt : Nat) (enc : Bool) (i : Nat) (s : State) : Host.Outcome State Fault Refusal :=
  .next (event dt (fun s =>
    match vidBase s enc i with
    | none => s
    | some b => if b.faulted || b.closing || b.busy then s else tryStart enc i (readIndices enc i s)) s)

/-! ### Closing -/

/-- The number that a session has among accepted work. -/
def vidWork (enc : Bool) (i : Nat) : Nat := if enc then 1024 + i else i

/-- R522: the triggers of a session end. -/
def endSessionTriggers (i : Nat) (s : State) : State :=
  (s.opr.triggers.filter fun t => t.session = i).foldl (fun s t => endTrigger t.id s) s

/-- The record of R503 for a status without a picture. -/
def plainRecord (s : State) (i status reasons : Nat) : List Fld :=
  match decOf s i with
  | none => []
  | some x =>
    let e := entryOf s false i
    let p := nextStamp s
    [⟨10, stampNat p⟩, ⟨10, fieldAt e 16 10⟩, ⟨4, x.base.cons⟩, ⟨2, 0xFFFF⟩, ⟨1, status⟩, ⟨1, x.par.maxDepth⟩, ⟨2, 0⟩, ⟨2, 0⟩,
     ⟨4, 0⟩, ⟨1, 0⟩, ⟨1, 2⟩, ⟨1, 0⟩, ⟨1, reasons⟩, ⟨4, 0⟩, ⟨2, min x.skips 65535⟩, ⟨18, 0⟩]

/-- A record without a picture is written (R503, R508). -/
def putPlain (i status reasons : Nat) (s : State) : State :=
  let d := plainRecord s i status reasons
  modDec i (fun x => { x with skips := 0 }) (putPicRecord false i d (issueStamp s).2)

/-- R502, R297: a held or finished picture's record is written, and with it its triggers fire. `outputs_skipped` counts up to here. -/
def putPicture (i : Nat) (h : HeldPic) (stamp : Stamp) (s : State) : State :=
  match decOf s i with
  | none => s
  | some x =>
    let d := h.data ++ [⟨2, min x.skips 65535⟩, ⟨18, 0⟩]
    let idx := x.base.recProd
    let written := (recordBarred s false i x.base).isNone
    let s := putPicRecord false i d s
    let s := modDec i (fun x => { x with
      skips := 0
      named := match h.buffer with
        | some b => tset x.named b idx
        | none => x.named
      base := { x.base with pictures := wrapAdd 32 x.base.pictures 1 } }) s
    let s := gauge (0x5000 + x.base.pipe) 0 1 s
    match h.buffer, written with
    | some b, true => fireTriggers i b stamp s
    | _, _ => s

/-- Every held picture is output, in order. -/
def putHeld (i : Nat) (s : State) : State :=
  match decOf s i with
  | none => s
  | some x => x.held.foldl (fun s h => let p := issueStamp s; putPicture i h p.1 p.2) (modDec i (fun x => { x with held := [] }) s)

/-- R522: a closing session with no picture in progress ends, and its final response is written. -/
def finishClosing (enc : Bool) (i : Nat) (s : State) : State :=
  match vidBase s enc i with
  | none => s
  | some b =>
    if !b.closing || b.busy then s
    else
      let s := if !enc && b.drain && !b.faulted then putPlain i 4 0 (putHeld i s) else s
      let s := if enc then s else endSessionTriggers i s
      let s := if enc then { s with vid := { s.vid with enc := tset s.vid.enc i none } }
        else { s with vid := { s.vid with dec := tset s.vid.dec i none } }
      finish .vidClose (vidWork enc i) .ok [] s

/-- R616: a session is closed without drain, with whatever was in progress (the destruction of its context). -/
def dropSession (enc : Bool) (i : Nat) (s : State) : State :=
  finishClosing enc i (modVid enc i (fun b => { b with closing := true, drain := false, busy := false }) s)

/-! ### Opening (R494, R495, R510) -/

/-- R495 check 1: the context exists and the mailbox may act for it. -/
def mayActFor (s : State) (m c : Nat) : Bool :=
  ctxDefined s c && match speaker s m with
    | .management => true
    | .admin => true
    | .context d => d = c
    | _ => false

/-- The pipe a session asks for: the one named, or the available one with the least declared rate. -/
def pickPipe (s : State) (p lo n : Nat) : Option Nat :=
  if p ≠ 0xFF then some p
  else
    let l := ((List.range n).map (lo + ·)).filter (pipeAvailable s)
    match l with
    | [] => none
    | x :: r => some (r.foldl (fun a y => if declaredOn s y < declaredOn s a then y else a) x)

/-- R486, R488: the pipe takes a session of a declared rate. -/
def pipeTakes (s : State) (p rate : Nat) : Bool :=
  pipeAvailable s p && sessionsOn s p < (if p < 4 then 32 else 16)
    && declaredOn s p + rate ≤ (if p < 4 then 995328000 else 497664000)

/-- R759: a vector of the context's function, or none. -/
def vectorOk (v : Nat) : Bool := v < 120 || v = 0xFFFF

/-- R500, R496: the strides of output buffers and of the reference pool. -/
def outStride (w h depth : Nat) : Nat := ceilDiv (yuvSize w h (if depth = 10 then 2 else 1)) 65536 * 65536

def refStride (w h depth : Nat) : Nat :=
  let wa := ceilDiv w 64 * 64
  let ha := ceilDiv h 64 * 64
  let e := if depth = 10 then 2 else 1
  ceilDiv (3 * wa * ha * e / 2 + 64 * wa * ha / 256) 0x200000 * 0x200000

def decFieldsOk (p : DecPar) : Bool :=
  p.rsvd && p.session < 128 && (p.pipe < 4 || p.pipe = 0xFF) && p.codec ≤ 2 && 16 ≤ p.maxW && p.maxW ≤ 8192 && 16 ≤ p.maxH
    && p.maxH ≤ 8192 && (p.maxDepth = 8 || p.maxDepth = 10) && 1 ≤ p.rate && p.rate ≤ 240 && 4 ≤ p.inLog && p.inLog ≤ 12
    && 2 ≤ p.outCount && p.outCount ≤ 64 && 4 ≤ p.recLog && p.recLog ≤ 12 && vectorOk p.vector

/-- A lot of the context holds a range with read and write rights. -/
def inLotRw (s : State) (c a len : Nat) : Bool :=
  0 < len && (ctxOf s c).lots.any fun e => lotCovers e.2 a len && lotRead e.2 && lotWrite e.2

def decLotsOk (s : State) (p : DecPar) : Bool :=
  inLot s p.ctx p.inRing (32 * 2 ^ p.inLog) .r && inLotRw s p.ctx p.inWords 16 && inLotRw s p.ctx p.recWords 16
    && inLotRw s p.ctx p.refBase (32 * refStride p.maxW p.maxH p.maxDepth)
    && inLot s p.ctx p.outBase (p.outCount * outStride p.maxW p.maxH p.maxDepth) .w
    && inLot s p.ctx p.recRing (64 * 2 ^ p.recLog) .w

/-- R495: the checks common to both opens; the pipe on success. -/
def openChecks (s : State) (m c : Nat) (closed fields lots : Bool) (pipe lo n rate : Nat) : Status × Nat :=
  if !mayActFor s m c then (.denied, 0x80)
  else if isConf s c && !speaksFor s m c then (.confidential, 0)
  else if !closed then (.busy, 0x81)
  else if !fields then (.badArg, 0x82)
  else if !lots then (.badArg, 0x83)
  else match pickPipe s pipe lo n with
    | some p => if pipeTakes s p rate then (.ok, p) else (.noResource, 0x84)
    | none => (.noResource, 0x84)

/-- R494, R495: `VID_DEC_OPEN`. -/
def execVidDecOpen (h : Hdr) (p : DecPar) (s : State) : Host.Outcome State Fault Refusal :=
  .next (command h { op := 0x0800, who := who0Own } (fun k s =>
    let r := openChecks s k.mb p.ctx ((decOf s p.session).isNone) (decFieldsOk p) (decLotsOk s p) p.pipe 0 4 (p.maxW * p.maxH * p.rate)
    match r.1 with
    | .ok =>
      let x : DecSession := { base := { ctx := p.ctx, pipe := r.2 }, par := p }
      okData (releaseWord { s with vid := { s.vid with dec := tset s.vid.dec p.session (some x) } })
        [⟨8, outStride p.maxW p.maxH p.maxDepth⟩, ⟨8, 32 * refStride p.maxW p.maxH p.maxDepth⟩]
    | .confidential => no s .confidential
    | st => { noData s st [⟨2, r.2⟩] with viol := decide (r.2 = 0x82) && !p.rsvd }) s)

/-- R512: the smallest picture of an encode session. -/
def headerMax (p : EncPar) : Nat := Config.headerBytes p.codec p.depth p.width p.height
def skipSize (p : EncPar) : Nat := Config.skipBytes p.codec p.depth p.width p.height
def ctbRows (p : EncPar) : Nat := ceilDiv p.height 64
def minPicture (p : EncPar) : Nat := headerMax p + ctbRows p * skipSize p

/-- R510: the quantisers of a rate control setting. -/
def quantOk (codec depth : Nat) (rc : RateCtl) : Bool :=
  let top := if codec = 2 then 255 else if depth = 10 then 63 else 51
  rc.qMax ≤ top && rc.qIntra ≤ rc.qMax && rc.qInter ≤ rc.qMax && 1 ≤ rc.window && rc.window ≤ 600 && rc.cap ≤ 268435456

/-- R511: the scale factor of one axis lies within 1/8–2. -/
def scaleOk (from_ dest : Nat) : Bool := from_ ≤ 8 * dest && dest ≤ 2 * from_

def encFieldsOk (p : EncPar) : Bool :=
  let turned := p.rotation % 2 = 1
  p.session < 32 && (p.pipe = 4 || p.pipe = 5 || p.pipe = 0xFF) && (p.codec = 1 || p.codec = 2) && (p.depth = 8 || p.depth = 10)
    && p.inKind ≤ 1 && p.rotation ≤ 3 && p.refresh ≤ 1 && 64 ≤ p.width && p.width ≤ 4096 && 64 ≤ p.height && p.height ≤ 2304
    && 16 ≤ p.inW && p.inW ≤ 8192 && 16 ≤ p.inH && p.inH ≤ 8192 && quantOk p.codec p.depth p.rc
    && (if p.refresh = 1 then 2 ≤ p.refreshN && p.refreshN ≤ 64 && p.keyInterval = 0
        else p.refreshN = 0 && 1 ≤ p.keyInterval && p.keyInterval ≤ 65535)
    && 1 ≤ p.rate && p.rate ≤ 240 && (p.refs = 1 || p.refs = 2) && 4 ≤ p.inLog && p.inLog ≤ 12 && 1 ≤ p.slotLog && p.slotLog ≤ 8
    && vectorOk p.vector && scaleOk (if turned then p.inH else p.inW) p.width && scaleOk (if turned then p.inW else p.inH) p.height

def encLotsOk (s : State) (p : EncPar) : Bool :=
  inLot s p.ctx p.inRing (32 * 2 ^ p.inLog) .r && inLotRw s p.ctx p.inWords 16 && inLotRw s p.ctx p.recWords 16
    && inLotRw s p.ctx p.refBase (32 * refStride p.width p.height p.depth)
    && inLot s p.ctx p.bsBase (2 ^ p.slotLog * p.slotBytes) .w && inLot s p.ctx p.recRing (64 * 2 ^ p.slotLog) .w

/-- R510, R495: `VID_ENC_OPEN`. -/
def execVidEncOpen (h : Hdr) (p : EncPar) (s : State) : Host.Outcome State Fault Refusal :=
  .next (command h { op := 0x0801, who := who0Own } (fun k s =>
    let r := openChecks s k.mb p.ctx ((encOf s p.session).isNone) (encFieldsOk p) (encLotsOk s p) p.pipe 4 2 (p.width * p.height * p.rate)
    match r.1 with
    | .ok =>
      if p.rc.cap < p.rc.window * minPicture p || p.slotBytes < p.rc.cap then noData s .badArg [⟨2, 0x85⟩]
      else
        let x : EncSession := { base := { ctx := p.ctx, pipe := r.2 }, par := p }
        okData (releaseWord { s with vid := { s.vid with enc := tset s.vid.enc p.session (some x) } })
          [⟨8, 0⟩, ⟨8, 32 * refStride p.width p.height p.depth⟩, ⟨4, headerMax p⟩, ⟨4, skipSize p⟩, ⟨4, minPicture p⟩]
    | .confidential => no s .confidential
    | st => noData s st [⟨2, r.2⟩]) s)

/-- The context of a session, for the rights of R523 and R524 (CONFIDENTIAL from another mailbox than its own). -/
def vidCtx (s : State) (enc : Bool) (i : Nat) : Option Nat := (vidBase s enc i).map (·.ctx)

/-- R522: `VID_CLOSE`. -/
def execVidClose (h : Hdr) (enc : Bool) (i : Nat) (drain : Bool) (s : State) : Host.Outcome State Fault Refusal :=
  .next (finishClosing enc i (command h { op := 0x0802, who := who0Own, ctx := vidCtx s enc i, conf := true } (fun _ s =>
    if (if enc then 32 else 128) ≤ i then no s .badArg
    else match vidBase s enc i with
      | none => no s .badState
      | some b =>
        if b.closing then no s .badState
        else accepted (modVid enc i (fun b => { b with closing := true, drain := drain }) s) .vidClose (vidWork enc i)) s))

/-- R515: `VID_ENC_SET_RC`. -/
def execVidEncSetRc (h : Hdr) (i : Nat) (rc : RateCtl) (s : State) : Host.Outcome State Fault Refusal :=
  .next (command h { op := 0x0803, who := who0Own, ctx := vidCtx s true i, conf := true } (fun _ s =>
    if 32 ≤ i then no s .badArg
    else match encOf s i with
      | none => no s .badState
      | some x =>
        if !quantOk x.par.codec x.par.depth rc || rc.cap < rc.window * minPicture x.par || x.par.slotBytes < rc.cap then no s .badArg
        else ok (modEnc i (fun x => { x with nextRc := some rc }) s)) s)

/-- R516, R523: `VID_ENC_FORCE_KEY`. -/
def execVidEncForceKey (h : Hdr) (i : Nat) (s : State) : Host.Outcome State Fault Refusal :=
  .next (command h { op := 0x0804, who := who0Own, ctx := vidCtx s true i, conf := true } (fun _ s =>
    if 32 ≤ i then no s .badArg
    else if (encOf s i).isNone then no s .badState
    else ok (modEnc i (fun x => { x with forceKey := true }) s)) s)

/-- R523: `VID_GET`. -/
def execVidGet (h : Hdr) (enc : Bool) (i : Nat) (s : State) : Host.Outcome State Fault Refusal :=
  .next (command h { op := 0x0805, who := who0Own, ctx := vidCtx s enc i, conf := true, reads := true } (fun _ s =>
    if (if enc then 32 else 128) ≤ i then no s .badArg
    else match vidBase s enc i with
      | none => okData s [⟨1, 0⟩, ⟨1, 0⟩]
      | some b => okData s ([⟨1, vidState s (some b)⟩, ⟨1, b.pipe⟩, ⟨4, b.pictures⟩, ⟨2, b.limited⟩, ⟨2, b.skipped⟩, ⟨2, b.badIndex⟩]
          ++ b.lastRecord)) s)

/-! ### Decoding -/

/-- R509: the picture that stands for a missing reference and for concealed areas. -/
def substitute (x : DecSession) (w h depth : Nat) : Picture :=
  match x.usable with
  | some p => if p.w = w && p.h = h && p.depth = depth then p else grey
  | none => grey
where
  /-- Every sample at 2^(bit depth − 1). -/
  grey : Picture :=
    let v := 2 ^ (depth - 1)
    let c := ceilDiv w 2 * ceilDiv h 2
    ⟨w, h, depth, List.replicate (w * h) v, List.replicate c v, List.replicate c v⟩

/-- R509: a usable picture of the size and depth exists. -/
def hasUsable (x : DecSession) (w h depth : Nat) : Bool :=
  match x.usable with
  | some p => p.w = w && p.h = h && p.depth = depth
  | none => false

/-- R509: concealed 16 × 16 luma units are copied from the co-located blocks of the substitute. -/
def conceal (sub : Picture) (units : List (Nat × Nat)) (p : Picture) : Picture :=
  let plane (w n : Nat) (l q : List Nat) : List Nat := l.mapIdx fun k v =>
    if units.contains (k % max 1 w / n, k / max 1 w / n) then q.getD k v else v
  let cw := ceilDiv p.w 2
  { p with y := plane p.w 16 p.y sub.y, cb := plane cw 8 p.cb sub.cb, cr := plane cw 8 p.cr sub.cr }

/-- R499, R500: the rows of a picture in an output buffer, as (address, bytes). -/
def pictureRows (base : Nat) (p : Picture) : List (Nat × List Byte) :=
  let e := if p.depth = 10 then 2 else 1
  let cw := ceilDiv p.w 2
  let ch := ceilDiv p.h 2
  let rows (off w h : Nat) (l : List Nat) : List (Nat × List Byte) := (List.range h).map fun r =>
    (base + off + r * yuvStride w e, (List.range w).flatMap fun k => leBytes e (l.getD (r * w + k) 0))
  rows 0 p.w p.h p.y ++ rows (yuvCb p.w p.h e) cw ch p.cb ++ rows (yuvCr p.w p.h e) cw ch p.cr

/-- Write rows, each checked under R43; the address that fails. -/
def writeRows (c : Nat) : List (Nat × List Byte) → State → Option Nat × State
  | [], s => (none, s)
  | (a, l) :: r, s =>
    if lotPasses s c a l.length .w false then writeRows c r (videoWrite a l s)
    else (some a, s)

/-- R487: a monochrome AV1 picture is output with both chroma planes at 2^(bit depth − 1). -/
def withChroma (mono : Bool) (p : Picture) : Picture :=
  let c := List.replicate (ceilDiv p.w 2 * ceilDiv p.h 2) (2 ^ (p.depth - 1))
  if mono then { p with cb := c, cr := c } else p

/-- R497: a mark by its number; the reference frame slots of AV1 (codec 2) are kept as short-term marks. -/
def markOf (codec : Nat) : Nat → RefMark
  | 1 => .shortTerm
  | 2 => if codec = 2 then .shortTerm else .longTerm
  | _ => .unused

/-- R497: the frame buffer that a new picture takes: one marked unused; which, is left open. -/
def takeFrame (x : DecSession) (key : Nat) : Option Nat :=
  let l := (List.range 32).filter fun i => (x.bufs.getD i {}).mark = .unused
  if l.isEmpty then none else l[Config.freeValue key % l.length]?

/-- R508: the reasons of a picture's record. -/
def reasonBits (missing grey slice bound poison : Bool) : Nat := bit missing + 2 * bit grey + 4 * bit slice + 8 * bit bound + 64 * bit poison

/-- R503: a picture's record up to its concealed blocks. -/
def picRecord (s : State) (i : Nat) (done : Stamp) (buffer : Nat) (d : Decoded) (reasons concealed : Nat) : List Fld :=
  let e := entryOf s false i
  let flags := bit d.key + 2 * bit (reasons ≠ 0 || concealed ≠ 0) + 4 * bit d.reference + 8 * bit d.grained.isSome
  [⟨10, stampNat done⟩, ⟨10, fieldAt e 16 10⟩, ⟨4, (decOf s i).elim 0 (·.base.cons)⟩, ⟨2, buffer⟩, ⟨1, 0⟩, ⟨1, d.pic.depth⟩, ⟨2, d.pic.w⟩,
   ⟨2, d.pic.h⟩, ⟨4, d.order⟩, ⟨1, flags⟩, ⟨1, d.matrix.getD 2⟩, ⟨1, bit d.fullRange⟩, ⟨1, reasons⟩, ⟨4, concealed⟩]

/-- The access unit in progress ends (R492): its entry is consumed, the end of the stream outputs what is held, and the next
entry is taken if there is one. -/
def endAu (i : Nat) (s : State) : State :=
  match decOf s i with
  | none => s
  | some x =>
    let e := entryOf s false i
    let s := gauge (0x5000 + x.base.pipe) 2 (fieldAt e 8 4) (gauge (0x5000 + x.base.pipe) 4 (now s - x.base.startedAt) s)
    let s := if bitOf (fieldAt e 12 1) 1 then putPlain i 4 0 (putHeld i s) else s
    let s := consumeEntry false i s
    finishClosing false i (tryStart false i (readIndices false i s))

/-- R508, R489, R490: an access unit is dropped. -/
def dropAu (i status reasons code sev : Nat) (s : State) : State :=
  match decOf s i with
  | none => s
  | some x =>
    let s := record code sev (0x5000 + x.base.pipe) (some x.base.ctx) true [⟨1, i⟩, ⟨4, x.base.cons⟩] s
    endAu i (putPlain i status reasons s)

/-- R507, R508, R242: a decode session stops, with a FAULTED record. -/
def faultDec (i code addr : Nat) (s : State) : State :=
  finishClosing false i (faultVid false i code addr (putPlain i 3 0 s))

/-- R497, R496: the reconstruction is stored in a frame buffer and the marks are set. The failing address, if any. -/
def storeFrame (i : Nat) (x : DecSession) (d : Decoded) (s : State) : Option Nat × State :=
  let p := takeFree s
  let bufs := d.marks.foldl (fun l m => l.modify m.1 fun f => { f with mark := markOf x.par.codec m.2 }) x.bufs
  match takeFrame x s.free with
  | none => (none, modDec i (fun x => { x with bufs := bufs }) p.2)
  | some k =>
    let stride := refStride x.par.maxW x.par.maxH x.par.maxDepth
    let w := writeRows x.base.ctx [(x.par.refBase + k * stride, d.frame.take stride)] p.2
    (w.1, modDec i (fun x => { x with bufs := bufs.modify k fun _ => ⟨markOf x.par.codec d.mark, true⟩ }) w.2)

/-- R500–R502: a shown picture is output: skipped, written and recorded, or written and held. -/
def outputPicture (i : Nat) (d : Decoded) (pic : Picture) (reasons concealed : Nat) (s : State) : State :=
  match decOf s i with
  | none => s
  | some x =>
    let u := 0x5000 + x.base.pipe
    if !bufferFree s i x then
      record 0x7105 1 u (some x.base.ctx) true [⟨1, i⟩] (modDec i (fun x => { x with
        skips := x.skips + 1, base := { x.base with skipped := satAdd 16 x.base.skipped 1 } }) s)
    else
      let b := x.nextBuf
      let base := x.par.outBase + b * outStride x.par.maxW x.par.maxH x.par.maxDepth
      let w := writeRows x.base.ctx (pictureRows base pic) s
      match w.1 with
      | some a => faultDec i 0x9101 a w.2
      | none =>
        let s := gauge u 3 (yuvSize pic.w pic.h (if pic.depth = 10 then 2 else 1)) w.2
        let p := issueStamp s
        let h : HeldPic := ⟨picRecord p.2 i p.1 b d reasons concealed, some b, pic.depth⟩
        let s := modDec i (fun x => { x with nextBuf := (b + 1) % x.par.outCount }) p.2
        if x.par.display then modDec i (fun x => { x with held := x.held ++ [h] }) s else putPicture i h p.1 s

/-- R502: the output process releases held pictures, named by their positions. -/
def releaseHeld (i : Nat) (release : List Nat) (s : State) : State :=
  match decOf s i with
  | none => s
  | some x =>
    let out := release.filterMap fun k => x.held[k]?
    let keep := (x.held.mapIdx fun k h => (k, h)).filter fun q => !release.contains q.1
    out.foldl (fun s h => let p := issueStamp s; putPicture i h p.1 p.2) (modDec i (fun x => { x with held := keep.map (·.2) }) s)

/-- R242, R251: the pipe reads ranges, given by their addresses and lengths. -/
def videoReads (l : List (Nat × Nat)) (s : State) : State := l.foldl (fun s q => videoRead q.1 q.2 s) s

/-- The decoded picture is kept in its buffer, unless a reference of it could not be read. -/
def pictureKept (i : Nat) (x : DecSession) (d : Decoded) (unread : Option Nat) (s : State) : Option Nat × State :=
  match unread with
  | none => storeFrame i x d s
  | some a => (some a, s)

/-- R505–R509: one decoded picture of an access unit. -/
def pictureDone (i : Nat) (x : DecSession) (d : Decoded) (last : Bool) (s : State) : State :=
  let e := entryOf s false i
  let w := d.pic.w
  let h := d.pic.h
  let depth := d.pic.depth
  let u := 0x5000 + x.base.pipe
  let missing := d.refs.any fun r => match r with
    | some k => (x.bufs.getD k {}).mark = .unused || !(x.bufs.getD k {}).decoded
    | none => true
  let grey := missing && !hasUsable x w h depth
  let stride := refStride x.par.maxW x.par.maxH x.par.maxDepth
  let unread := d.refs.findSome? fun r => r.bind fun k =>
    if lotPasses s x.base.ctx (x.par.refBase + k * stride) stride .r false then none else some (x.par.refBase + k * stride)
  let poison := rangeBad s (fieldAt e 0 8) (fieldAt e 8 4)
  let s := videoReads ((if last then [(fieldAt e 0 8, fieldAt e 8 4)] else [])
    ++ d.refs.filterMap fun r => r.map fun k => (x.par.refBase + k * stride, stride)) s
  let units := (d.damaged.filter fun q => q.1 < ceilDiv w 16 && q.2 < ceilDiv h 16).eraseDups
  let greySub := !units.isEmpty && !hasUsable x w h depth
  let reasons := reasonBits missing (grey || greySub) d.sliceError x.bound poison
  let sub := substitute x w h depth
  let grain := x.par.grain && x.par.codec = 2
  let pic := conceal sub units (withChroma d.mono d.pic)
  let shown := conceal sub units (withChroma d.mono (if grain then d.grained.getD d.pic else d.pic))
  let d := if grain then d else { d with grained := none }
  let concealed := reasons ≠ 0 || !units.isEmpty
  let s := if concealed then record 0x7101 1 u (some x.base.ctx) true [⟨1, i⟩, ⟨4, units.length⟩] (gauge u 5 1 s) else s
  let s := gauge u 1 (min d.work (2 * ceilDiv w 16 * ceilDiv h 16)) s
  let f := pictureKept i x d unread s
  match f.1 with
  | some a => faultDec i 0x9101 a f.2
  | none =>
    let s := modDec i (fun x => { x with
      usable := some pic, bound := false
      base := { x.base with limited := if concealed then satAdd 16 x.base.limited 1 else x.base.limited } }) f.2
    let s := if d.shown then outputPicture i d shown reasons units.length s else s
    if (decOf s i).elim true (·.base.faulted) then s
    else
      let s := releaseHeld i d.release s
      if last then endAu i s else s

/-- R487: the picture fits the session and its codec. -/
def pictureFits (p : DecPar) (w h depth : Nat) : Bool :=
  1 ≤ w && 1 ≤ h && w ≤ p.maxW && h ≤ p.maxH && (depth = 8 || depth = 10) && depth ≤ p.maxDepth && (p.codec ≠ 0 || depth = 8)

/-- R502, R507, R508: a picture of the access unit in progress is complete, or the access unit ended otherwise. -/
def execPictureComplete (dt i : Nat) (r : AuResult) (s : State) : Host.Outcome State Fault Refusal :=
  .next (event dt (fun s =>
    match decOf s i with
    | none => s
    | some x =>
      let e := entryOf s false i
      if !x.base.busy || x.base.faulted then s
      else if !lotPasses s x.base.ctx (fieldAt e 0 8) (fieldAt e 8 4) .r false then faultDec i 0x9101 (fieldAt e 0 8) s
      else match r with
        | .noParamSet => dropAu i 1 16 0x7104 1 s
        | .syntaxError => dropAu i 1 4 0x7104 1 s
        | .unsupported => dropAu i 2 0 0x7103 2 s
        | .badReference =>
          if rangeBad s x.par.refBase (32 * refStride x.par.maxW x.par.maxH x.par.maxDepth) then faultDec i 0x3105 x.par.refBase s else s
        | .picture d last =>
          if !pictureFits x.par d.pic.w d.pic.h d.pic.depth then dropAu i 2 0 0x7103 2 s
          else if d.shown && x.par.wait && !bufferFree s i x then noteWait false i 0x7107 s
          else pictureDone i x d last s) s)

/-- R506: the picture in progress reaches its work bound. -/
def execWorkBoundReached (dt i : Nat) (s : State) : Host.Outcome State Fault Refusal :=
  .next (event dt (fun s =>
    match decOf s i with
    | none => s
    | some x =>
      if !x.base.busy || x.bound then s
      else record 0x7102 2 (0x5000 + x.base.pipe) (some x.base.ctx) true [⟨1, i⟩] (modDec i (fun x => { x with bound := true }) s)) s)

/-- R489: the watchdog ends a parse: the access unit is dropped. -/
def execParseWatchdog (dt i : Nat) (s : State) : Host.Outcome State Fault Refusal :=
  .next (event dt (fun s =>
    match decOf s i with
    | none => s
    | some x => if x.base.busy then dropAu i 1 4 0x7104 1 s else s) s)

/-- R490: a video core stops answering: it restarts, and the access unit it held is dropped. -/
def execVideoCoreUnresponsive (dt core : Nat) (held : Option Nat) (s : State) : Host.Outcome State Fault Refusal :=
  .next (event dt (fun s =>
    if !(s.vid.coreUp.getD core false) then s
    else
      let s := record 0x7301 2 0x5000 none false [⟨1, core⟩]
        { s with vid := { s.vid with coreUp := s.vid.coreUp.set core false } }
      match held.bind (decOf s) with
      | some x => if x.base.busy then dropAu (held.getD 0) 1 32 0x7104 1 s else s
      | none => s) s)

/-- R490: the restarted core parses again. -/
def execVideoCoreRestartDone (dt core : Nat) (s : State) : Host.Outcome State Fault Refusal :=
  .next (event dt (fun s =>
    if core < 2 then { s with vid := { s.vid with coreUp := s.vid.coreUp.set core true } } else s) s)

/-! ### Encoding (R512–R520) -/

/-- R513: the modes of a picture's rows. -/
inductive RowMode where
  | normal | maxQ | skip
  deriving DecidableEq, Repr, Inhabited

/-- R512: a skip row takes exactly `n` bytes. -/
def skipRow (n : Nat) (l : List Byte) : List Byte := (l ++ List.replicate n 0).take n

/-- R513: what a coded picture is: its bytes, what stands in its frame buffer, the mode it ends in, and the rows at q_max and skip rows. -/
structure CodedRows where
  bytes : List Byte
  frame : List Byte := []
  mode : RowMode := .normal
  maxRows : Nat := 0
  skipRows : Nat := 0
  deriving DecidableEq, Repr, Inhabited

/-- R513: code one row in the mode it falls to. A size exceeds `allow` when with what is spent and the skip rows still to come it exceeds
the budget. -/
def codeRow (budget skip left : Nat) (r : EncRow) (a : CodedRows) : CodedRows :=
  let past (n : Nat) : Bool := budget < a.bytes.length + skip * left + n
  let m1 : RowMode := if a.mode = .normal && past r.normal.length then .maxQ else a.mode
  let m2 : RowMode := if m1 = .maxQ && past r.atMax.length then .skip else m1
  match m2 with
  | .normal => { a with bytes := a.bytes ++ r.normal, frame := a.frame ++ r.normalFrame, mode := .normal }
  | .maxQ => { a with bytes := a.bytes ++ r.atMax, frame := a.frame ++ r.maxFrame, mode := .maxQ, maxRows := a.maxRows + 1 }
  | .skip => { a with
    bytes := a.bytes ++ skipRow skip r.skip, frame := a.frame ++ r.skipFrame, mode := .skip, skipRows := a.skipRows + 1 }

/-- R513: the loop over the rows; `left` is how many remain. -/
def codeRows (budget skip : Nat) (rows : Nat → EncRow) : Nat → Nat → CodedRows → CodedRows
  | 0, _, a => a
  | left + 1, r, a => codeRows budget skip rows left (r + 1) (codeRow budget skip left (rows r) a)

/-- R513: the budget of the next picture. -/
def pictureBudget (p : EncPar) (sizes : List Nat) : Nat :=
  let prev := sizes.drop (sizes.length + 1 - p.rc.window)
  p.rc.cap - prev.foldl (· + ·) 0 - minPicture p * (p.rc.window - 1 - prev.length)

/-- R513, R514: a picture coded under the hard cap. -/
def codePicture (p : EncPar) (sizes : List Nat) (header : List Byte) (rows : List EncRow) : CodedRows :=
  let h := header.take (headerMax p)
  codeRows (pictureBudget p sizes) (skipSize p) (fun r => rows.getD r { normal := [], atMax := [], skip := [] }) (ctbRows p) 0 { bytes := h }

/-- R516: the next picture is a key picture. -/
def keyNext (x : EncSession) (force : Bool) : Bool :=
  x.first || force || x.forceKey || (x.par.refresh = 0 && x.par.keyInterval ≤ x.sinceKey)

/-- R517: the intra columns of a sweep's picture are not empty. -/
def sweepColumns (x : EncSession) : Bool :=
  let c := ceilDiv x.par.width 64
  let n := max 1 x.par.refreshN
  x.sweep * c / n < (x.sweep + 1) * c / n

/-- The input picture's bytes (R510). -/
def encInput (p : EncPar) : Nat := if p.inKind = 0 then yuvSize p.inW p.inH (if p.depth = 10 then 2 else 1) else 3 * p.inW * p.inH

/-- R242, R44: an encode session stops, with a FAULTED record. -/
def faultEnc (i code addr : Nat) (s : State) : State :=
  match encOf s i with
  | none => s
  | some x =>
    let e := entryOf s true i
    let d : List Fld := [⟨10, stampNat (nextStamp s)⟩, ⟨10, fieldAt e 16 10⟩, ⟨4, x.base.cons⟩, ⟨2, x.nextSlot⟩, ⟨1, 1⟩, ⟨1, 0⟩, ⟨4, 0⟩, ⟨4, 0⟩, ⟨1, 0⟩,
      ⟨1, 0⟩, ⟨26, 0⟩]
    finishClosing true i (faultVid true i code addr (putPicRecord true i d (issueStamp s).2))

/-- R43: the address of the encoder's accesses that fails their lot check: the bytes coded, the reference that a picture other than a
key picture reads, and the frame buffer that its own reconstruction goes to (R496). -/
def encodeBarred (s : State) (x : EncSession) (bytes buf : Nat) (key : Bool) : Option Nat :=
  let stride := refStride x.par.width x.par.height x.par.depth
  [(x.par.bsBase + x.nextSlot * x.par.slotBytes, max 1 bytes, Right.w, true), (x.par.refBase + x.refBuf * stride, stride, .r, !key),
    (x.par.refBase + buf * stride, stride, .w, true)].findSome? fun q =>
      if q.2.2.2 && !lotPasses s x.base.ctx q.1 q.2.1 q.2.2.1 false then some q.1 else none

/-- R512–R519: the picture in progress is coded into its slot, its reconstruction into a frame buffer, and its record is written. Which
frame buffer is left open (R496). -/
def encodeDone (i : Nat) (x : EncSession) (header : List Byte) (rows : List EncRow) (s : State) : State :=
  let e := entryOf s true i
  let p := x.par
  let u := 0x5000 + x.base.pipe
  let key := keyNext x (bitOf (fieldAt e 8 1) 0)
  let budget := pictureBudget p x.sizes
  let c := codePicture p x.sizes header rows
  let a := p.bsBase + x.nextSlot * p.slotBytes
  let stride := refStride p.width p.height p.depth
  let f := takeFree s
  let buf := f.1 % 32
  match encodeBarred s x c.bytes.length buf key with
  | some q => faultEnc i 0x9101 q s
  | none =>
    let s := videoRead (fieldAt e 0 8) (encInput p) f.2
    let s := if key then s else videoRead (p.refBase + x.refBuf * stride) stride s
    let s := videoWrite a c.bytes s
    let rec_ := c.frame.take stride
    let s := videoWrite (p.refBase + buf * stride) rec_ s
    let st := issueStamp s
    let limited := c.mode ≠ .normal
    let gradual := p.refresh = 1 && !key
    let restart := gradual && 0 < c.skipRows && sweepColumns x
    let sweepDone := gradual && !restart && x.sweep + 1 = p.refreshN
    let flags := bit key + 2 * bit limited + 4 * bit (gradual && x.sweep = 0) + 8 * bit sweepDone
    let d : List Fld := [⟨10, stampNat st.1⟩, ⟨10, fieldAt e 16 10⟩, ⟨4, x.base.cons⟩, ⟨2, x.nextSlot⟩, ⟨1, 0⟩, ⟨1, flags⟩, ⟨4, c.bytes.length⟩,
      ⟨4, budget⟩, ⟨1, c.maxRows⟩, ⟨1, c.skipRows⟩, ⟨26, 0⟩]
    let idx := x.base.recProd
    let s := if limited then record 0x7201 0 u (some x.base.ctx) true [⟨1, i⟩] (gauge u 5 1 st.2) else st.2
    let s := if restart then record 0x7203 1 u (some x.base.ctx) true [⟨1, i⟩] s else s
    let s := putPicRecord true i d s
    let s := gauge u 0 1 (gauge u 2 (encInput p) (gauge u 3 c.bytes.length (gauge u 4 (now s - x.base.startedAt)
      (gauge u 1 (ceilDiv p.width 16 * ceilDiv p.height 16) s))))
    let s := modEnc i (fun y => { y with
      refBuf := buf
      named := tset y.named x.nextSlot idx
      nextSlot := (x.nextSlot + 1) % 2 ^ p.slotLog
      sizes := (x.sizes ++ [c.bytes.length]).drop (x.sizes.length + 1 - p.rc.window)
      first := false
      forceKey := if key then false else y.forceKey
      sinceKey := if key then 1 else x.sinceKey + 1
      sweep := if key || restart || sweepDone then 0 else if p.refresh = 1 then x.sweep + 1 else 0
      base := { y.base with
        pictures := wrapAdd 32 y.base.pictures 1
        limited := if limited then satAdd 16 y.base.limited 1 else y.base.limited } }) s
    let s := consumeEntry true i s
    finishClosing true i (tryStart true i (readIndices true i s))

/-- R513, R514, R518: an encoded picture is done. `header` and `rows` are what the coding tools produce, `badRef` that a reference word was bad. -/
def execEncodePictureDone (dt i : Nat) (header : List Byte) (rows : List EncRow) (badRef : Bool) (s : State) :
    Host.Outcome State Fault Refusal :=
  .next (event dt (fun s =>
    match encOf s i with
    | none => s
    | some x =>
      let a := fieldAt (entryOf s true i) 0 8
      let n := encInput x.par
      if !x.base.busy || x.base.faulted then s
      else if !lotPasses s x.base.ctx a n .r false then faultEnc i 0x9101 a s
      else if rangeBad s a n then faultEnc i 0x3105 a (videoRead a n s)
      else if badRef && rangeBad s x.par.refBase (32 * refStride x.par.width x.par.height x.par.depth) then
        faultEnc i 0x3105 x.par.refBase s
      else encodeDone i x header rows s) s)

end Sys2Proof.Machine
end

