-- ==== Sys2Proof/Machine/Ctx.lean ====
section
/-! DEFINITION. Contexts and lots (R611–R620, R640–R654, R40–R45): creation and destruction, the staged ownership commands,
time-sharing, lots, memory keys and their rotation. -/
namespace Sys2Proof.Machine

/-! ### Registers -/

def ctxStateCode : CtxState → Nat
  | .undefined => 0
  | .defined => 1
  | .resident => 2
  | .switching => 3
  | .halted => 4
  | .destroying => 5

def tdiCode : Tdi → Nat
  | .unlocked => 0
  | .locked => 1
  | .run => 2
  | .error => 3

/-- R653: the state and the flags of `CTX_STATUS`, which every permitted mailbox may see (R650). -/
def ctxStateBits (x : CtxSt) : Nat :=
  ctxStateCode x.state + 8 * (if x.confidential then tdiCode x.tdi else 0) + 64 * bit x.confidential + 128 * x.cipher
    + 256 * bit x.timeShare + 512 * bit x.plainNet

/-- R653: `CTX_STATUS`. -/
def ctxStatus (s : State) (c : Nat) : Nat :=
  let x := ctxOf s c
  if x.state = .undefined then 0
  else ctxStateBits x + 1024 * bit (x.state = .resident) + 2 ^ 16 * x.groups + 2 ^ 32 * (x.sliceBase / 64)
    + 2 ^ 38 * (x.sliceCount / 64) + 2 ^ 48 * popCount x.blocks 63

/-- R644: the pages still under the old epoch. -/
def oldPageCount (x : CtxSt) : Nat := (x.oldPages.map fun r => r.2 - r.1).foldl (· + ·) 0

/-- R636: the content-key entries held. -/
def heldKeys (x : CtxSt) : List (Nat × ContentKey) := x.contentKeys.filterMap fun p => p.2.map fun k => (p.1, k)

/-- R654: `CTX_KEY`. -/
def ctxKey (s : State) (c : Nat) : Nat :=
  let x := ctxOf s c
  if x.state = .undefined then 0
  else bit x.epoch + 2 * min 15 (heldKeys x).length + 2 ^ 8 * (x.sweepRate / 4) + 2 ^ 32 * oldPageCount x

/-- R651: `SEC_STATUS`. -/
def secStatus (s : State) : Nat :=
  (s.sec.sessions.filter fun p => p.2.isSome).length + 2 ^ 8 * s.sec.selective.length + 2 ^ 16 * bit s.sec.linkStream

/-! ### Creation -/

/-- R613: the new context: DEFINED, with two memory keys and no resources. -/
def newContext (flags gen : Nat) : CtxSt :=
  { state := .defined, confidential := bitOf flags 0, cipher := bit (bitOf flags 1), timeShare := bitOf flags 2
    plainNet := bitOf flags 3, keyCur := gen, keyOld := gen + 1 }

/-- R613, R121: `CTX_CREATE`. -/
def execCtxCreate (h : Hdr) (c flags : Nat) (s : State) : Host.Outcome State Fault Refusal :=
  .next (command h { op := 0x0300, who := who0Admin, ctx := some c } (fun call s =>
    if 16 ≤ c || 256 ≤ flags then no s .badArg
    else if 16 ≤ flags then badReserved s
    else if s.boot.phase = .booting || ctxDefined s c then no s .badState
    else ok { s with
      sec := { s.sec with ctxs := tset s.sec.ctxs c (newContext flags s.sec.keyGen), keyGen := s.sec.keyGen + 2 }
      sq := { s.sq with funcs := tset s.sq.funcs (fidContext c) { state := .stopped, holder := some call.mb } } }) s)

/-! ### Destruction -/

/-- The work of an ACCEPTED command concerns a context (R616). -/
def concerns (s : State) (c : Nat) (w : Work) : Bool :=
  match w.kind with
  | .funcStop => w.id = fidContext c
  | .funcStart => w.id = fidContext c
  | .funcRevert => w.id = fidContext c
  | .jigLoad => s.benches.loads.any fun l => l.id = w.id && l.ctx = c
  | .jigRun => (runOf s w.id).elim false fun r => r.ctx = c
  | .jigAbort => (runOf s w.id).elim false fun r => r.ctx = c
  | .oprPlan => s.opr.planning.any fun y => y.id = w.id && y.ctx = c
  | .oprRun => s.opr.chains.any fun x => x.id = w.id && x.ctx = c
  | .venLoad => (venOf s w.id).state ≠ .free && (venOf s w.id).owner = c
  | .venTrain => (serveOf s c).training.any fun t => t.1 = w.id
  | .vidClose => (vidBase s (1024 ≤ w.id) (w.id % 1024)).elim false fun b => b.ctx = c
  | .unseal => s.sec.unseals.any fun u => u.id = w.id && u.ctx = c
  | .redSwap => w.id = c
  | .redRelease => w.id = c
  | .spdm => w.id = c
  | .lotDrain => s.benches.drains.any fun d => d.id = w.id && d.ctx = c
  | .snapshot => s.gau.snaps.any fun q => q.id = w.id && q.ctx = some c
  | _ => false

/-- R616: every command that concerns the context ends with BAD_STATE; the JIG_RUN of a run waits for that run to stop. -/
def answerPending (c : Nat) (s : State) : State :=
  let l := s.sq.work.filter fun w => concerns s c w && w.kind ≠ .jigRun
  let rest := s.sq.work.filter fun w => !(concerns s c w && w.kind ≠ .jigRun)
  l.foldl (fun s w => skipUnknown w.mb (finishWork w .badState [] s)) { s with sq := { s.sq with work := rest } }

/-- The sessions of a context. -/
def ctxSessions (s : State) (c : Nat) : List (Bool × Nat) :=
  (openSessions s).filterMap fun q =>
    if (vidBase s q.1 q.2.1).elim false (fun b => b.ctx = c) then some (q.1, q.2.1) else none

/-- R616 step 1: every request ends CANCELLED and its final record is published; a record no longer waits for a sister's or a
journal's acknowledgement, because nothing of the context goes on. -/
def cancelAll (c : Nat) (s : State) : State :=
  let s := endAll c 4 (fun _ => true) (modServe c (fun y => { y with step := none, training := [] }) s)
  flushPend c (modServe c (fun y => { y with pend := y.pend.map fun p => { p with gate := .open_ } }) s)

/-- R616 steps 2 to 4: video sessions, veneer slots, lots and content keys. -/
def dropResources (c : Nat) (s : State) : State :=
  let s := (ctxSessions s c).foldl (fun s q => dropSession q.1 q.2 s) s
  let s := (s.serve.veneers.filter fun v => v.2.owner = c && v.2.state ≠ .free).foldl (fun s v => modVen v.1 (fun _ => {}) s) s
  modCtx c (fun x => { x with lots := [], unsealed := [], contentKeys := [], oldPages := [] }) s

/-- A context's jig loads, plannings, chains, triggers, plans, unsealings and snapshots go with it. -/
def dropWork (c : Nat) (s : State) : State :=
  { s with
    benches := { s.benches with
      loads := s.benches.loads.filter fun l => l.ctx ≠ c
      drains := s.benches.drains.filter fun d => d.ctx ≠ c
      saved := tdel s.benches.saved c }
    opr := { s.opr with
      plans := s.opr.plans.filter fun p => p.2.elim true fun q => q.ctx ≠ c
      planning := s.opr.planning.filter fun y => y.ctx ≠ c
      chains := s.opr.chains.filter fun x => x.ctx ≠ c
      triggers := s.opr.triggers.filter fun t => t.ctx ≠ c }
    sec := { s.sec with unseals := s.sec.unseals.filter fun u => u.ctx ≠ c }
    gau := { s.gau with snaps := s.gau.snaps.filter fun q => q.ctx ≠ some c } }

/-- R615: a channel group leaves a context. Until GROUP_RELEASE_DONE it is available to nobody. -/
def releaseGroup (c g : Nat) (s : State) : State :=
  modCtx c (fun x => { x with groups := maskClear x.groups g })
    { s with sec := { s.sec with releasing := tset s.sec.releasing g c } }

/-- R616 steps 5 and 6: the blocks and groups leave the context, and its memory keys are erased. -/
def dropOwnership (c : Nat) (s : State) : State :=
  let x := ctxOf s c
  let s := if holdsBlocks x then (blocksOf x.blocks).foldl (fun s k => releaseBlock k s) s else s
  let s := (maskBits x.groups 16).foldl (fun s g => releaseGroup c g s) s
  modCtx c (fun x => { x with state := .destroying, keyCur := 0, keyOld := 0 }) s

/-- Nothing of the context is left to clear: its blocks, its groups and its runs. -/
def destroyReady (s : State) (c : Nat) : Bool :=
  (ctxOf s c).state = .destroying
    && (s.benches.scrubbing.all fun k => !bitOf (ctxOf s c).blocks k) && (s.sec.releasing.all fun p => p.2 ≠ c)
    && s.benches.runs.all fun r => r.ctx ≠ c || (r.waiting.isEmpty && r.live.isEmpty)

/-- R636: the session ends: the content keys bound to it are erased, and a TDI that it locked enters ERROR (R625). -/
def endSession (sid : Nat) (s : State) : State :=
  let bound (k : ContentKey) : Bool := k.sessionBound && k.session = sid
  let erase (x : CtxSt) : CtxSt := { x with contentKeys := x.contentKeys.filter fun p => p.2.elim false fun k => !bound k }
  let s := { s with sec := { s.sec with
    ctxs := s.sec.ctxs.map fun p => (p.1, erase p.2)
    sessions := tset s.sec.sessions sid none } }
  foldN 16 (fun c s => if (ctxOf s c).lockSession = some sid then tdiError c s else s) s

/-- The SPDM sessions that are bound to a context end with it. -/
def endBoundSessions (c : Nat) (s : State) : State :=
  (s.sec.sessions.filter fun p => p.2.elim false fun x => x.path = .context c).foldl (fun s p => endSession p.1 s) s

/-- R616: the context becomes UNDEFINED, after every response that its commands were owed. -/
def destroyProgress (c : Nat) (s : State) : State :=
  if !destroyReady s c then s
  else
    let s := (s.benches.runs.filter fun r => r.ctx = c).foldl (fun s r => endRun r.id s) s
    let s := endBoundSessions c s
    let s := { s with
      sec := { s.sec with ctxs := tdel s.sec.ctxs c }
      serve := { s.serve with
        ctxs := tdel s.serve.ctxs c
        reqs := s.serve.reqs.filter fun p => p.2.ctx ≠ c }
      red := { s.red with ctxs := tdel s.red.ctxs c }
      gau := { s.gau with sampling := tdel s.gau.sampling c }
      net := { s.net with grants := tdel s.net.grants c }
      sq := { s.sq with funcs := tdel s.sq.funcs (fidContext c) } }
    finish .ctxDestroy c .ok [] s

/-- R616: `CTX_DESTROY`: the stopped runs drain, and the clearing of blocks and groups follows. -/
def destroyCtx (c : Nat) (s : State) : State :=
  let s := answerPending c (stopRuns c s)
  dropOwnership c (dropWork c (dropResources c (cancelAll c (modFunc (fidContext c) (fun _ => { state := .stopped }) s))))

/-- R616: `CTX_DESTROY`. A context that has nothing to clear is destroyed at once. -/
def execCtxDestroy (h : Hdr) (c : Nat) (s : State) : Host.Outcome State Fault Refusal :=
  let s' := command h { op := 0x0301, who := who0Admin, ctx := some c } (fun _ s =>
    if !ctxDefined s c then no s (noCtx c)
    else if (ctxOf s c).state = .destroying then no s .badState
    else accepted (destroyCtx c s) .ctxDestroy c) s
  .next (destroyProgress c s')

/-- R188: the clearing of a block ends and it becomes UNASSIGNED; a run that has stopped must have left its benches. -/
def execBlockScrubDone (dt k : Nat) (s : State) : Host.Outcome State Fault Refusal :=
  .next (event dt (fun s =>
    if s.benches.scrubbing.contains k && (blockBenches k).all fun b => (benchOf s b).cur.isNone then
      let s := clearBlock k { s with benches := { s.benches with
        scrubbing := s.benches.scrubbing.filter (· ≠ k), leftBy := tdel s.benches.leftBy k } }
      foldN 16 (fun c s => destroyProgress c s) s
    else s) s)

/-- R615, R257: a released group is clean: its yard written back, invalidated and zeroed, its memory zeroed with valid check
bits, and its yard in cache mode, or all slab where the group is excluded. -/
def cleanGroup (g : Nat) (s : State) : State :=
  let s := flushYard g (fun _ => true) s
  let s := modYard g (fun y => { y with slab := if slabOnly s g then 15 else 0, prefetches := [], tags := 0 }) s
  let s := clearRange (slabBase g) (slabBase g + 0x800000) s
  if groupExcluded s g then s else clearRange (g * 2 ^ 36) ((g + 1) * 2 ^ 36) s

/-- R615: the zeroing of a released group completes. -/
def execGroupReleaseDone (dt g : Nat) (s : State) : Host.Outcome State Fault Refusal :=
  .next (event dt (fun s =>
    match s.sec.releasing.find? fun p => p.1 = g with
    | none => s
    | some p => destroyProgress p.2 (cleanGroup g { s with sec := { s.sec with releasing := tdel s.sec.releasing g } })) s)

/-! ### Staged ownership -/

/-- R648: `CTX_SET_BLOCKS`; bit 63 is reserved. -/
def execCtxSetBlocks (h : Hdr) (c mask saveLot : Nat) (s : State) : Host.Outcome State Fault Refusal :=
  .next (command h { op := 0x0302, who := who0Admin, ctx := some c, conf := true, staging := true } (fun call s =>
    if 2 ^ 64 ≤ mask then no s .badArg
    else if 2 ^ 63 ≤ mask then badReserved s
    else stageCtx c (.ctxBlocks mask saveLot) call s) s)

/-- R648: `CTX_SET_GROUPS`. -/
def execCtxSetGroups (h : Hdr) (c mask : Nat) (s : State) : Host.Outcome State Fault Refusal :=
  .next (command h { op := 0x0303, who := who0Admin, ctx := some c, conf := true, staging := true } (fun call s =>
    if 2 ^ 16 ≤ mask then no s .badArg else stageCtx c (.ctxGroups mask) call s) s)

/-- R648, R611: `CTX_SET_SLICE`. -/
def execCtxSetSlice (h : Hdr) (c base count quota : Nat) (s : State) : Host.Outcome State Fault Refusal :=
  .next (command h { op := 0x0304, who := who0Admin, ctx := some c, conf := true, staging := true } (fun call s =>
    if base % 64 ≠ 0 || count % 64 ≠ 0 || 1024 < quota then no s .badArg
    else stageCtx c (.ctxSlice base count quota) call s) s)

/-- R618, R624: `CTX_SET_QUANTUM`, in force from the next turn. -/
def execCtxSetQuantum (h : Hdr) (c ms : Nat) (s : State) : Host.Outcome State Fault Refusal :=
  .next (command h { op := 0x0305, who := who0Admin, ctx := some c } (fun _ s =>
    if ms < 10 || 1000 < ms then no s .badArg
    else if !ctxDefined s c then no s (noCtx c)
    else if tdiLocked s c then no s .confidential
    else ok (modCtx c (fun x => { x with quantum := ms }) s)) s)

/-- R648, R650: `CTX_GET`; of a confidential context another mailbox receives only the state and the flags. -/
def execCtxGet (h : Hdr) (c : Nat) (s : State) : Host.Outcome State Fault Refusal :=
  .next (command h { op := 0x0306, who := whoCtx, ctx := some c, reads := true } (fun call s =>
    if 16 ≤ c then no s .badArg
    else if isConf s c && !speaksFor s call.mb c then okData s [⟨8, ctxStateBits (ctxOf s c)⟩, ⟨8, 0⟩]
    else okData s [⟨8, ctxStatus s c⟩, ⟨8, ctxKey s c⟩]) s)

/-! ### Memory keys -/

/-- R271: the page ranges of a lot table's enc lots over LPDDR5X. -/
def encRanges (lots : Tab Word) : List (Nat × Nat) :=
  lots.filterMap fun e =>
    if lotValid e.2 && lotEnc e.2 && lotLimit e.2 ≤ 0x10000000000 then some (pageOf (lotBase e.2), pageOf (lotLimit e.2)) else none

/-- R644: what is left of the old-epoch ranges in a new lot table. -/
def keepPages (old new : List (Nat × Nat)) : List (Nat × Nat) :=
  old.flatMap fun a => new.filterMap fun b =>
    if max a.1 b.1 < min a.2 b.2 then some (max a.1 b.1, min a.2 b.2) else none

/-- R641, R645: `SEC_ROTATE_KEY`; a rate of 0 asks for the default. -/
def execSecRotateKey (h : Hdr) (c rate : Nat) (s : State) : Host.Outcome State Fault Refusal :=
  .next (command h { op := 0x0A01, who := who0Own, ctx := some c, conf := true } (fun _ s =>
    let r := if rate = 0 then 1024 else rate
    if r < 64 || 8192 < r then no s .badArg
    else if !ctxDefined s c || (ctxOf s c).state = .destroying then no s (noCtx c)
    else if !(ctxOf s c).oldPages.isEmpty then no s .busy
    else
      let s := { s with sec := { s.sec with keyGen := s.sec.keyGen + 1 } }
      ok (sweepEnded c true (modCtx c (fun x => { x with
        keyCur := s.sec.keyGen - 1, keyOld := x.keyCur, epoch := !x.epoch, sweepRate := r, oldPages := encRanges x.lots }) s))) s)

/-- R642: the lowest page that is still under the old epoch. -/
def sweepPage (x : CtxSt) : Option Nat :=
  x.oldPages.foldl (fun a r => match a with
    | some p => some (min p r.1)
    | none => some r.1) none

/-- R642, R645: the background sweep re-encrypts the next page, in ascending address. -/
def execKeySweepPage (dt c : Nat) (s : State) : Host.Outcome State Fault Refusal :=
  .next (event dt (fun s =>
    match sweepPage (ctxOf s c) with
    | none => s
    | some p => sweepEnded c true (sweepOne c p s)) s)

/-! ### Lots -/

/-- R39, R41: the window [base, limit) lies in one window that lots may reach; a lot over bench stores covers whole strides. -/
def lotReachable (base limit : Nat) : Bool :=
  limit ≤ 0x10000000000
    || (0x80000000000 ≤ base && limit ≤ 0x80008000000)
    || (0x90000000000 ≤ base && limit ≤ 0x9001F800000)

/-- The 2 MiB units of a window. -/
def lotUnits (base limit : Nat) : List Nat := (List.range ((limit - base) / 0x200000)).map fun i => base + i * 0x200000

/-- R256: every slab quarter of the window is in slab mode. -/
def lotInSlab (s : State) (base limit : Nat) : Bool :=
  if 0x80000000000 ≤ base && limit ≤ 0x80008000000 then
    (lotUnits base limit).all fun a => match windowOf a with
      | .slab g q => bitOf (slabMask s g) q
      | _ => false
  else true

/-- R42, R267: the context owns every channel group, yard slab and bench store of the window. -/
def lotOwned (s : State) (c base limit : Nat) : Bool :=
  if limit ≤ 0x10000000000 then
    (List.range 16).all fun g =>
      !(base < (g + 1) * 2 ^ 36 && g * 2 ^ 36 < limit) || (groupOwner s g = some c && !groupExcluded s g)
  else (lotUnits base limit).all fun a => addrOwner s a = some c

/-- R41: another valid lot of the context overlaps the window. -/
def lotOverlaps (s : State) (c idx base limit : Nat) : Bool :=
  (ctxOf s c).lots.any fun e => e.1 ≠ idx && lotValid e.2 && lotBase e.2 < limit && base < lotLimit e.2

/-- R639, R640: what a confidential context may not ask for: a plain LPDDR5X lot, or remote export outside that window while
plain_net is 0. -/
def lotConfBad (s : State) (c : Nat) (e : Word) : Bool :=
  let data := decide (lotLimit e ≤ 0x10000000000)
  isConf s c && ((data && !lotEnc e) || (!data && lotExport e && !(ctxOf s c).plainNet))

/-- R41, R42, R640: why a valid lot entry is refused. -/
def lotRefused (s : State) (c idx : Nat) (e : Word) : Option Status :=
  let b := lotBase e
  let l := lotLimit e
  if l ≤ b || !lotReachable b l || lotOverlaps s c idx b l || lotConfBad s c e then some .badArg
  else if !lotOwned s c b l then some .denied
  else if !lotInSlab s b l then some .badArg
  else none

/-- Write a lot entry: the old-epoch pages that it no longer covers leave the count (R644), and a lot that is no longer within
what `WGT_UNSEAL` wrote loses that mark (R638). -/
def putLot (c idx : Nat) (e : Word) (s : State) : State :=
  let x := ctxOf s c
  let old := tget x.lots idx 0
  let lots := tset x.lots idx e
  let kept := lotValid e && lotBase e = lotBase old && lotLimit e ≤ lotLimit old
  let s := modCtx c (fun x => { x with
    lots := lots
    oldPages := keepPages x.oldPages (encRanges lots)
    unsealed := if lotValid old && !kept then x.unsealed.filter (· ≠ lotBase old) else x.unsealed }) s
  sweepEnded c (!x.oldPages.isEmpty) s

/-- R45: the answer of a lot entry that has been written: a narrower one withholds it while accesses admitted under the old entry are
under way. -/
def lotAnswer (c : Nat) (old e : Word) (s : State) : Ans :=
  let p := freshId s
  let d := admittedAccesses p.2 c old p.1
  if !narrows old e || drainOver p.2 d then ok s
  else withheld { p.2 with benches := { p.2.benches with drains := p.2.benches.drains ++ [d] } } .lotDrain p.1

/-- R40–R42, R45, R640: `LOT_SET`. Every access admitted under the old entry has completed when its response is written. -/
def execLotSet (h : Hdr) (c idx : Nat) (e : Word) (s : State) : Host.Outcome State Fault Refusal :=
  .next (command h { op := 0x0310, who := who0Own, ctx := some c, conf := true } (fun _ s =>
    if 256 ≤ idx then no s .badArg
    else if e.extractLsb' 56 8 ≠ 0 || e.extractLsb' 46 3 ≠ 0 then badReserved s
    else if !ctxDefined s c || (ctxOf s c).state = .destroying then no s (noCtx c)
    else if !lotValid e then lotAnswer c (tget (ctxOf s c).lots idx 0) e (putLot c idx e s)
    else match lotRefused s c idx e with
      | some st => no s st
      | none => lotAnswer c (tget (ctxOf s c).lots idx 0) e (putLot c idx e s)) s)

/-- R648: `LOT_GET`: up to 16 entries. -/
def execLotGet (h : Hdr) (c idx n : Nat) (s : State) : Host.Outcome State Fault Refusal :=
  .next (command h { op := 0x0311, who := who0Own, ctx := some c, conf := true, reads := true } (fun _ s =>
    if n = 0 || 16 < n || 256 ≤ idx then no s .badArg
    else if !ctxDefined s c then no s (noCtx c)
    else okData s ((List.range (min n (256 - idx))).map fun i => ⟨8, (tget (ctxOf s c).lots (idx + i) 0).toNat⟩)) s)

/-! ### Time-sharing -/

/-- R618: the quantum of the resident context of a share set ends. -/
def execQuantumExpiry (dt c : Nat) (s : State) : Host.Outcome State Fault Refusal :=
  .next (event dt (fun s =>
    if (ctxOf s c).state = .resident && (ctxOf s c).timeShare && (ctxOf s c).turnEnd ≤ now s then
      modCtx c (fun x => { x with quantumDue := true }) s
    else s) s)

/-- R619: 1,664 KiB of the save lot for each bench; the bytes of its store stand first in it (log entry 23). -/
def savePlace (x : CtxSt) (i : Nat) : Nat := x.saveLot + i * 0x1A0000

/-- R619: a bench store goes to the save lot, or comes back from it, where the lot still grants it (R44). -/
def moveStore (c from_ dest save : Nat) (need : Right) (s : State) : State :=
  if lotPasses s c save 0x180000 need false then
    let store (a : Nat) (use : YardUse) (s : State) : State := touchYard .square a 0x180000 .bulk use s
    let s := store dest .write (store from_ .read s)
    let p := carryBytes s from_ 0x180000
    writeBytes dest p.1 p.2 s
  else record 0x9101 2 0 (some c) true [⟨8, save⟩] s

/-- R619 step 1: what the module keeps of a bench for its context. -/
def keepBench (c b : Nat) (s : State) : State :=
  { s with benches := { s.benches with saved := tmod s.benches.saved c [] fun t => tset t b (benchOf s b) } }

/-- R619 step 1: the benches of the outgoing context. -/
def saveBenches (c : Nat) (s : State) : State :=
  let x := ctxOf s c
  (benchesOf (blocksOf x.blocks)).foldl (fun s b =>
    let i := (findIdx (· = b) (benchesOf (blocksOf x.blocks)) 0).getD 0
    keepBench c b (moveStore c (benchBase b) (savePlace x i) (savePlace x i) .w s)) s

/-- R619 step 3: the benches of the incoming context; what it has not used before is clear. A bench's last fault stays (R196). -/
def loadBenches (c : Nat) (s : State) : State :=
  let x := ctxOf s c
  let t := tget s.benches.saved c []
  let s := (benchesOf (blocksOf x.blocks)).foldl (fun s b =>
    let i := (findIdx (· = b) (benchesOf (blocksOf x.blocks)) 0).getD 0
    let y := tget t b {}
    let s := modBench b (fun z => lastFault z { y with
      events := z.events, roWrites := z.roWrites, mxGate := z.mxGate, vxGate := z.vxGate }) s
    if !t.isEmpty then moveStore c (savePlace x i) (benchBase b) (savePlace x i) .r s else s) s
  { s with benches := { s.benches with saved := tdel s.benches.saved c } }

/-- R612, R618: a context of a share set becomes RESIDENT and its quantum starts. -/
def takeTurn (c : Nat) (s : State) : State :=
  modCtx c (fun x => { x with
    state := .resident, quantumDue := false, turnEnd := now s + 1000000 * x.quantum, switches := wrapAdd 64 x.switches 1 }) s

/-- R619: nothing of the context runs: no step, no run on a bench, no chain. -/
def mayLeave (s : State) (c : Nat) : Bool :=
  (serveOf s c).step.isNone && (s.benches.runs.all fun r => r.ctx ≠ c || (r.live.isEmpty && r.retired.isEmpty))
    && s.opr.chains.all fun x => x.ctx ≠ c

/-- R618: no member of the context's share set is resident, its blocks are clear, and the context has work: the blocks are given
to it. -/
def freeTurn (s : State) (c : Nat) : Bool :=
  (ctxOf s c).state = .defined && (shareSet s c).all (fun d => (ctxOf s d).state = .defined) && (shareSet s c).contains c
    && hasWork s c && (blocksOf (ctxOf s c).blocks).all fun k => blockState s k = 0

/-- R618, R619: the switch of a share set from its resident context `c`: saved, scrubbed, loaded; or `c` itself takes its turn when the
resident one has gone. `overran` says that it took longer than its bound. -/
def execContextSwitch (dt c : Nat) (overran : Bool) (s : State) : Host.Outcome State Fault Refusal :=
  .next (event dt (fun s =>
    if freeTurn s c then takeTurn c (loadBenches c s)
    else match nextTurn s c with
    | none => s
    | some d =>
      if (ctxOf s c).state ≠ .resident || !(ctxOf s c).quantumDue || !mayLeave s c then s
      else
        let s := modCtx c (fun x => { x with state := .switching }) (saveBenches c s)
        let s := (blocksOf (ctxOf s c).blocks).foldl (fun s k => clearBlock k s) s
        let s := takeTurn d (loadBenches d (modCtx d (fun x => { x with state := .switching }) s))
        let s := modCtx c (fun x => { x with state := .defined, quantumDue := false }) s
        if overran then record 0x1501 1 0 (some d) true [] s else s) s)

end Sys2Proof.Machine
end

