-- ==== Sys2Proof/Machine/FuncOps.lean ====
section
/-! DEFINITION. What a start of a function validates and applies, class by class (R88, R89, R368, R374, R477, R604, R614, R657, R767). -/
namespace Sys2Proof.Machine

/-- R89: why a start fails: the status, the opcode of the first failing staged command, and its reason code. -/
structure StartFail where
  status : Status
  op : Nat
  reason : Nat
  deriving DecidableEq, Repr, Inhabited

/-- The last staged command of a kind; a later one replaces an earlier one. -/
def lastStaged {α : Type} (f : Staged → Option α) (l : List Staged) : Option α := l.foldl (fun a x => (f x).orElse fun _ => a) none

/-- The first failure of a list of checks in their order. -/
def firstFail : List (Bool × StartFail) → Option StartFail
  | [] => none
  | (bad, f) :: r => if bad then some f else firstFail r

/-! ### Ownership (R614) -/

/-- What a context owns once a start succeeds. -/
structure Ownership where
  blocks : Nat
  saveLot : Nat
  groups : Nat
  base : Nat
  count : Nat
  quota : Nat
  deriving DecidableEq, Repr, Inhabited

def stagedBlocks : Staged → Option (Nat × Nat)
  | .ctxBlocks m l => some (m, l)
  | _ => none

def stagedGroups : Staged → Option Nat
  | .ctxGroups m => some m
  | _ => none

def stagedSlice : Staged → Option (Nat × Nat × Nat)
  | .ctxSlice b n q => some (b, n, q)
  | _ => none

def newOwnership (x : CtxSt) (l : List Staged) : Ownership :=
  let b := (lastStaged stagedBlocks l).getD (x.blocks, x.saveLot)
  let v := (lastStaged stagedSlice l).getD (x.sliceBase, x.sliceCount, x.quota)
  ⟨b.1, b.2, (lastStaged stagedGroups l).getD x.groups, v.1, v.2.1, v.2.2⟩

/-- The other contexts that exist. -/
def otherCtxs (s : State) (c : Nat) : List Nat := (List.range 16).filter fun d => d ≠ c && ctxDefined s d

/-- R617: another context forms a share set with a staged set of blocks. -/
def sharesWith (s : State) (c mask d : Nat) : Bool :=
  (ctxOf s c).timeShare && (ctxOf s d).timeShare && (ctxOf s d).blocks = mask && (ctxOf s d).state ≠ .destroying

/-- R614 0x30, R617. -/
def blocksBad (s : State) (c mask : Nat) : Bool :=
  let own (k : Nat) : Bool := bitOf (ctxOf s c).blocks k && bitOf s.boot.capBlocks k
  ((otherCtxs s c).any fun d => maskMeets mask (ctxOf s d).blocks 63 && !sharesWith s c mask d)
    || (blocksOf mask).any fun k => !own k && blockState s k ≠ 0 && !((otherCtxs s c).any fun d => sharesWith s c mask d && blockState s k = 1)

/-- R614 0x31, R257, R615. -/
def groupsBad (s : State) (c mask : Nat) : Bool :=
  (maskBits mask 16).any fun g =>
    (groupExcluded s g && !slabOnly s g) || (s.sec.releasing.any fun p => p.1 = g) || (groupOwner s g).elim false (· ≠ c)

/-- R614 0x32, R611: the slices and the quotas. -/
def sliceBad (s : State) (c : Nat) (o : Ownership) : Bool :=
  4096 < o.base + o.count
    || ((otherCtxs s c).any fun d =>
      let y := ctxOf s d
      o.count ≠ 0 && y.sliceCount ≠ 0 && o.base < y.sliceBase + y.sliceCount && y.sliceBase < o.base + o.count)
    || 1024 < o.quota + ((otherCtxs s c).map fun d => (ctxOf s d).quota).foldl (· + ·) 0

/-- The groups and windows that a lot reaches. -/
def lotMeetsGroup (e : Word) (g : Nat) : Bool :=
  let meets (lo hi : Nat) : Bool := lotBase e < hi && lo < lotLimit e
  lotValid e && (meets (g * 2 ^ 36) ((g + 1) * 2 ^ 36) || meets (slabBase g) (slabBase g + 0x800000))

/-- R614 0x33: a group that leaves holds a valid lot. -/
def groupsInUse (s : State) (c mask : Nat) : Bool :=
  (maskBits (ctxOf s c).groups 16).any fun g => !bitOf mask g && (ctxOf s c).lots.any fun e => lotMeetsGroup e.2 g

/-- R614 0x33: a slice entry that leaves holds a request or a defined ring. -/
def sliceInUse (s : State) (c base count : Nat) : Bool :=
  let leaves (i : Nat) : Bool := !(base ≤ i && i < base + count)
  (liveReqs s c).any (fun q => leaves q.1) || (serveOf s c).rings.any fun r => leaves r.1 && r.2.isSome

/-- R614 0x35: 6.5 MiB for each block. -/
def saveLotBad (s : State) (c : Nat) (o : Ownership) : Bool :=
  (ctxOf s c).timeShare && o.blocks ≠ 0 && !((lotByBase s c o.saveLot).elim false fun e =>
    lotRead e && lotWrite e && popCount o.blocks 63 * 0x680000 ≤ lotSize e)

/-- R614. DESIGN CHOICE (R89 lists BAD_ARG, NO_RESOURCE and INCOMPATIBLE for a failed start, and R614 and R657 give BAD_STATE for some of
their checks): the status of the check's own table, here and in `checkPoolCfg` and `checkProtect` (log entry 25). -/
def checkOwnership (s : State) (c : Nat) (l : List Staged) : Option StartFail :=
  let o := newOwnership (ctxOf s c) l
  let b := (lastStaged stagedBlocks l).isSome
  let g := (lastStaged stagedGroups l).isSome
  let v := (lastStaged stagedSlice l).isSome
  firstFail
    [(b && blocksBad s c o.blocks, ⟨.badArg, 0x0302, 0x30⟩),
     (g && groupsBad s c o.groups, ⟨.badArg, 0x0303, 0x31⟩),
     (v && sliceBad s c o, ⟨.badArg, 0x0304, 0x32⟩),
     (g && groupsInUse s c o.groups, ⟨.badState, 0x0303, 0x33⟩),
     (v && sliceInUse s c o.base o.count, ⟨.badState, 0x0304, 0x33⟩),
     (b && ((otherCtxs s c).any fun d => maskMeets o.blocks (ctxOf s d).blocks 63 && (isConf s c || isConf s d)), ⟨.badArg, 0x0302, 0x34⟩),
     (b && saveLotBad s c o, ⟨.noResource, 0x0302, 0x35⟩)]

/-! ### Models (R370–R374) -/

/-- The latest staged record of each model number. -/
def stagedModels (l : List Staged) : Tab ModelRec :=
  l.foldl (fun t x => match x with
    | .modelSet r => tset t r.model r
    | _ => t) []

/-- R371: the bytes of a step plan with their run entries. -/
def planLen (b : List Byte) : Nat := 64 + 16 * fieldAt b 10 2

/-- R371, R372. -/
def planOf (b : List Byte) : StepPlan :=
  let f := fieldAt b
  let n := f 10 2
  let one (i : Nat) : Nat × Nat × Nat × Nat := (f (64 + 16 * i) 1, f (65 + 16 * i) 1, f (66 + 16 * i) 1, f (68 + 16 * i) 8)
  { blocks := f 0 8, attBenches := f 8 2, bMax := f 12 2, runs := (List.range n).map one
    rsvd := (b.drop 14).take 50 |>.all (· = 0)
      |> (· && (List.range n).all fun i => f (67 + 16 * i) 1 = 0 && f (76 + 16 * i) 4 = 0) }

/-- R371, R372: every field of a step plan is in range. -/
def planValid (p : StepPlan) : Bool :=
  p.rsvd && p.blocks < 2 ^ 63 && 1 ≤ p.runs.length && p.runs.length ≤ 256 && 1 ≤ p.bMax && p.bMax ≤ 4096
    && p.runs.all fun r => r.1 < 4 && r.2.1 ≤ 5 && r.2.2.1 < 8

/-- R370, R224: every field of a model record is in range. -/
def modelFieldsOk (r : ModelRec) : Bool :=
  let rho := ofF32 r.rho
  r.rsvd && r.model < 8 && r.role ≤ 2 && (r.role ≠ 1 || r.draft < 8 || r.draft = 0xFF)
    && (r.role = 0 || (1 ≤ r.layers && r.layers ≤ 256 && 2 ≤ r.vocab && r.vocab ≤ 262144 && 1 ≤ r.maxLen && r.maxLen ≤ 1048576
      && numLt (.fin false 0 0) rho && !numLt (.fin false 2 0) rho))

/-- A record of a context can be read: it lies in a lot with r, and no word of it is unreadable. -/
def recordReadable (s : State) (c a n : Nat) : Bool := lotPasses s c a n .r false && !rangeBad s a n

/-- R374 0x50: a staged model with its attention record and step plan; `none` where a field is out of range. -/
def readModel (s : State) (c : Nat) (r : ModelRec) : Option Model :=
  if !modelFieldsOk r || !recordReadable s c r.attAddr 64 || !recordReadable s c r.planAddr 64 then none
  else
    let n := planLen (consumeBytes s r.planAddr 64)
    let a := attOf (consumeBytes s r.attAddr 64)
    let p := planOf (consumeBytes s r.planAddr n)
    -- R374 checks T ≥ 16 apart, as 0x54: the bound 3T of the prefill chunk then plays no part
    let chunkFree := { a with chunk := if pageT a < 16 then 1 else a.chunk }
    if recordReadable s c r.planAddr n && attValid chunkFree && planValid p && (lotByBase s c r.weights).isSome then
      some { rec_ := r, att := a, plan := p }
    else none

/-- R96, R374: a staged model has a reserved field that is not zero, in its record or in what can be read at its addresses. -/
def modelReserved (s : State) (c : Nat) (l : List Staged) : Bool :=
  (stagedModels l).any fun r =>
    let n := planLen (consumeBytes s r.2.planAddr 64)
    !r.2.rsvd || (r.2.role ≠ 0
      && ((recordReadable s c r.2.attAddr 64 && !(attOf (consumeBytes s r.2.attAddr 64)).rsvd)
        || (recordReadable s c r.2.planAddr 64 && recordReadable s c r.2.planAddr n && !(planOf (consumeBytes s r.2.planAddr n)).rsvd)))

/-- The models that are in service once a start succeeds. -/
def newModels (s : State) (c : Nat) (l : List Staged) : Tab (Option Model) :=
  (stagedModels l).foldl (fun t r => tset t r.1 (if r.2.role = 0 then none else readModel s c r.2)) (serveOf s c).models

def modelList (t : Tab (Option Model)) : List (Nat × Model) := t.filterMap fun p => p.2.map fun m => (p.1, m)

/-- R374 0x51. -/
def planBlocksBad (blocks : Nat) (m : Model) : Bool :=
  !maskWithin m.plan.blocks blocks 63 || m.plan.attBenches < attG m.att
    || (benchesOf (blocksOf m.plan.blocks)).length < m.plan.attBenches

/-- R374 0x52: a block that the context does not hold yet has been cleared, so it holds no jig. -/
def planSlotBad (s : State) (c : Nat) (m : Model) : Bool :=
  m.plan.runs.any fun r => !(maskWithin m.plan.blocks (ctxOf s c).blocks 63 && slotValid s c (blocksOf m.plan.blocks) r.1)

/-- R374 0x53, R323. -/
def draftBad (t : Tab (Option Model)) (m : Model) : Bool :=
  m.rec_.role = 1 && m.rec_.draft ≠ 0xFF && match tget t m.rec_.draft none with
    | some d => d.rec_.role ≠ 2 || d.att.d ≠ m.att.d || d.att.hb ≠ m.att.hb || d.att.fmt ≠ m.att.fmt
    | none => true

/-- R374 0x55: a request names a model that the staged set removes or changes. -/
def modelInUse (s : State) (c : Nat) (t : Tab (Option Model)) : Bool :=
  (liveReqs s c).any fun q =>
    let same (a b : Option Model) : Bool := match a, b with
      | some a, some b => a.rec_ = b.rec_ && a.att = b.att && a.plan = b.plan && a.faulted = b.faulted
      | none, none => true
      | _, _ => false
    !same (tget t q.2.model none) (modelOf s c q.2.model)

/-- R374: the staged models, and the models in service over a staged block set. -/
def checkModels (s : State) (c : Nat) (l : List Staged) : Option StartFail :=
  let st := stagedModels l
  let t := newModels s c l
  let ms := (modelList t).map (·.2)
  let o := newOwnership (ctxOf s c) l
  let fail (st : Status) (r : Nat) : StartFail := ⟨st, 0x0510, r⟩
  if st.isEmpty && (lastStaged stagedBlocks l).isNone then none
  else firstFail
    [(st.any fun r => !modelFieldsOk r.2 || (r.2.role ≠ 0 && (readModel s c r.2).isNone), fail .badArg 0x50),
     (ms.any (planBlocksBad o.blocks), fail .badArg 0x51),
     (ms.any (planSlotBad s c), fail .badArg 0x52),
     (ms.any (draftBad t), fail .incompatible 0x53),
     (ms.any fun m => pageT m.att < 16, fail .badArg 0x54),
     (modelInUse s c t, fail .badArg 0x55),
     (s.serve.veneers.any fun v => v.2.state ≠ .free && v.2.owner = c && (tget t v.2.model none).isNone, fail .badArg 0x56)]

/-! ### The pool (R367, R368) -/

def stagedPool : Staged → Option PoolCfg
  | .kvPool p => some p
  | _ => none

def stagedCuts : Staged → Option (List Nat)
  | .attBuckets l => some l
  | _ => none

/-- The pages of a lot, as (first page, count). -/
def lotPages (e : Word) : Nat × Nat := (lotBase e / 65536, lotSize e / 65536)

/-- R367: the pool lots in use. -/
def poolLots (s : State) (c : Nat) (p : PoolCfg) : List (Option Word) := p.lots.map (lotByBase s c)

def poolRanges (s : State) (c : Nat) (p : PoolCfg) : List (Nat × Nat) := (poolLots s c p).filterMap (·.map lotPages)

def rangesSize (l : List (Nat × Nat)) : Nat := (l.map (·.2)).foldl (· + ·) 0

/-- R368 0x40. -/
def poolLotBad (s : State) (c : Nat) (p : PoolCfg) : Bool :=
  let companions := [p.scaleLot, p.slabLot, p.maskLot].filter (· ≠ 0)
  !decide (p.lots.Nodup) || (p.lots.any companions.contains)
    || (poolLots s c p).any fun e => !(e.elim false fun e => lotRead e && lotWrite e && lotLimit e ≤ 0x10000000000)

/-- The pages that the context's requests and page-list blocks hold. -/
def heldPages (s : State) (c : Nat) : List Nat :=
  ((liveReqs s c).flatMap fun q => q.2.list) ++ (serveOf s c).blockPages.map (·.page)

/-- R368 0x42, R335. -/
def poolInUse (s : State) (c : Nat) (ranges : List (Nat × Nat)) : Bool :=
  !(serveOf s c).halted && (heldPages s c).any fun p => (poolIndex ranges p).isNone

/-- A companion lot that is named and does not hold what it must. -/
def companionBad (s : State) (c base need : Nat) (write : Bool) : Bool :=
  base ≠ 0 && !((lotByBase s c base).elim false fun e => lotRead e && (!write || lotWrite e) && need ≤ lotSize e)

/-- R368 0x43. -/
def scaleLotBad (s : State) (c : Nat) (p : PoolCfg) (size : Nat) (ms : List Model) : Bool :=
  let fp8 := ms.any fun m => m.att.fmt = 1
  companionBad s c p.scaleLot (if fp8 then 64 * size else 0) true || (fp8 && p.scaleLot = 0)

/-- R368 0x44: a model needs more slab than it finds. -/
def slabShort (s : State) (c : Nat) (p : PoolCfg) (m : Model) : Bool :=
  let y := yardSlab p m
  let mb := memorySlab s c p m
  8192 < p.split && min 131072 (y / 4) < p.split && mb < 4 * p.split

/-- R368 0x44. -/
def slabBad (s : State) (c groups : Nat) (p : PoolCfg) (ms : List Model) : Bool :=
  companionBad s c p.slabLot 0 true
    || ((maskBits p.quarters 64).any fun i => !(bitOf groups (i / 4) && bitOf (slabMask s (i / 4)) (i % 4)))
    || ms.any (slabShort s c p)

/-- R368 0x45. -/
def cutsBad (l : List Nat) : Bool :=
  l.headD 0 < 1 || 1048576 < l.getLastD 0 || (l.zip (l.drop 1)).any fun q => q.2 ≤ q.1

/-- R368: the staged pool, or the pool in force beside staged models. A check whose table row gives BAD_STATE answers BAD_STATE, which R89
does not list (log entry 25). -/
def checkPoolCfg (s : State) (c : Nat) (l : List Staged) : Option StartFail :=
  let applied := if (stagedModels l).isEmpty || (serveOf s c).pool.lots.isEmpty then none else some (serveOf s c).pool
  let pool := (lastStaged stagedPool l).orElse fun _ => applied
  let staged := (lastStaged stagedPool l).isSome
  let ms := (modelList (newModels s c l)).map (·.2)
  let fail (st : Status) (r : Nat) : StartFail := ⟨st, 0x0580, r⟩
  let cuts := ((lastStaged stagedCuts l).elim false cutsBad, (⟨.badArg, 0x0583, 0x45⟩ : StartFail))
  match pool with
  | none => firstFail [cuts]
  | some p =>
    let r := poolRanges s c p
    let n := rangesSize r
    firstFail
      [(poolLotBad s c p, fail .badArg 0x40),
       (n < 1 || 16777216 < n, fail .badArg 0x41),
       (staged && poolInUse s c r, fail .badState 0x42),
       (scaleLotBad s c p n ms, fail .noResource 0x43),
       (slabBad s c (newOwnership (ctxOf s c) l).groups p ms, fail .noResource 0x44),
       cuts,
       (companionBad s c p.maskLot 0x40000 false, fail .noResource 0x46)]

/-! ### Protection (R656–R658) -/

def stagedProtect : Staged → Option ProtectPar
  | .redProtect p => some p
  | _ => none

/-- R370: a model record as bytes. -/
def modelFields (m : Model) : List Fld :=
  let r := m.rec_
  [⟨1, r.model⟩, ⟨1, r.role⟩, ⟨2, r.draft⟩, ⟨4, r.layers⟩, ⟨4, r.vocab⟩, ⟨4, r.maxLen⟩, ⟨8, r.attAddr⟩, ⟨8, r.planAddr⟩,
   ⟨8, r.weights⟩, ⟨4, r.rho⟩, ⟨20, 0⟩]

/-- R658: the hash of a step plan. -/
def planHash (p : StepPlan) : Nat :=
  Config.sm3 (fieldBytes ([⟨8, p.blocks⟩, ⟨2, p.attBenches⟩, ⟨2, p.runs.length⟩, ⟨2, p.bMax⟩]
    ++ p.runs.flatMap fun r => [⟨1, r.1⟩, ⟨1, r.2.1⟩, ⟨2, r.2.2.1⟩, ⟨8, r.2.2.2⟩]))

/-- R658: the configuration digest of what the context holds once the start succeeds. -/
def configDigest (s : State) (c : Nat) (p : ProtectPar) (l : List Staged) : Nat :=
  let o := newOwnership (ctxOf s c) l
  let q := (lastStaged stagedPool l).getD (serveOf s c).pool
  let ms := (modelList (newModels s c l)).map (·.2)
  Config.sm3 (fieldBytes ([⟨4, o.base⟩, ⟨4, o.count⟩, ⟨2, o.groups⟩] ++ q.lots.map (⟨8, ·⟩)
    ++ [⟨8, q.scaleLot⟩, ⟨8, q.slabLot⟩, ⟨8, p.histLot⟩, ⟨8, q.maskLot⟩]
    ++ (ms.flatMap fun m => modelFields m ++ [⟨32, planHash m.plan⟩]) ++ [⟨8, p.mirrorLot⟩, ⟨4, p.pairId⟩]))

/-- What the sister says during validation (R658): its digest, and whether its staged role is ACTIVE. -/
structure PeerSays where
  digest : Nat
  active : Bool
  deriving DecidableEq, Repr, Inhabited

/-- R657. A start that ends does not ask the sister again: `peer` is then absent. Check 0xB0 answers BAD_STATE, which R89 does not list
(log entry 25). -/
def checkProtect (s : State) (c : Nat) (l : List Staged) (peer : Option PeerSays) : Option StartFail :=
  match lastStaged stagedProtect l with
  | none => none
  | some p =>
    let m := p.mode = 1
    let r := p.mode = 2
    let journal := targetModule p.journal
    let fail (st : Status) (r : Nat) : StartFail := ⟨st, 0x0B01, r⟩
    firstFail
      [(m && ((funcOf s (fidPort 4)).state ≠ .running || s.net.sister.isNone), fail .badState 0xB0),
       (m && peer.elim false (fun q => q.digest ≠ configDigest s c p l), fail .incompatible 0xB1),
       (m && peer.elim false (fun q => q.active = decide (p.role = 0)), fail .incompatible 0xB2),
       (m && (serveOf s c).rings.any (fun q => q.2.elim false fun q => q.par.kind ≠ 2), fail .badArg 0xB3),
       ((m || r) && isConf s c && !(ctxOf s c).plainNet, fail .badArg 0xB4),
       (r && (!holdsPort s c || isSelf s journal || s.net.sister = some journal), fail .badArg 0xB5),
       (p.mode ≠ (redOf s c).par.mode && !(liveReqs s c).isEmpty, fail .badState 0xB6)]

/-- R614, R368, R374, R657, in this order. -/
def checkContext (s : State) (c : Nat) (l : List Staged) (peer : Option PeerSays) : Option StartFail :=
  ((checkOwnership s c l).orElse fun _ => checkPoolCfg s c l).orElse fun _ =>
    (checkModels s c l).orElse fun _ => checkProtect s c l peer

/-! ### Ports (R477) -/

def stagedMode : Staged → Option Nat
  | .netMode m => some m
  | _ => none

def stagedSister : Staged → Option Nat
  | .netSister m => some m
  | _ => none

/-- The staged settings of each port. -/
def stagedPorts (l : List Staged) : Tab PortCfg :=
  l.foldl (fun t x => match x with
    | .netPort p c => tset t p c
    | _ => t) []

/-- The staged assignments, as (port, exclusive, contexts). -/
def stagedAssigns (l : List Staged) : List (Nat × Bool × Nat) :=
  l.filterMap fun x => match x with
    | .netAssign p e m => some (p, e, m)
    | _ => none

/-- R432, R83: the port exists in a mode, as one of the ports of the group. -/
def groupHasPort (mode g p : Nat) : Bool :=
  if p = 32 then g = 4 else p < modePorts mode && p * lanesPer mode / 8 = g

/-- The address is none, or one that a port can have: no multicast and no broadcast address. -/
def addressOk (c : PortCfg) : Bool := c.ip4 < 0xE0000000 && c.ip6 < 0xFF * 2 ^ 120

/-- The gateway is none, or lies in the prefix of the address. -/
def gatewayOk (w a n g : Nat) : Bool := g = 0 || (g < 2 ^ w && a / 2 ^ (w - n) = g / 2 ^ (w - n))

/-- R477 0x71. -/
def addressBad (s : State) (mode g : Nat) (ports : Tab PortCfg) : Bool :=
  let cfg (p : Nat) : PortCfg := tget ports p (portOf s p).cfg
  ports.any fun p =>
    !groupHasPort mode g p.1 || !addressOk p.2 || !gatewayOk 32 p.2.ip4 p.2.len4 p.2.gw4 || !gatewayOk 128 p.2.ip6 p.2.len6 p.2.gw6
      || (List.range 33).any fun q => q ≠ p.1
        && ((p.2.ip4 ≠ 0 && (cfg q).ip4 = p.2.ip4) || (p.2.ip6 ≠ 0 && (cfg q).ip6 = p.2.ip6))

/-- R438. -/
def mtuBad (c : PortCfg) : Bool :=
  (c.ip4 ≠ 0 && c.mtu < 76 + 9 * c.maxData / 8) || (c.ip6 ≠ 0 && c.mtu < 96 + 9 * c.maxData / 8)

/-- R477. -/
def checkPorts (s : State) (g : Nat) (l : List Staged) : Option StartFail :=
  let mode := (lastStaged stagedMode l).getD (portMode s)
  let ports := stagedPorts l
  firstFail
    [(mode ≠ portMode s && (List.range 4).any (fun i => (funcOf s (fidPort i)).state = .running), ⟨.incompatible, 0x0701, 0x70⟩),
     (addressBad s mode g ports, ⟨.badArg, 0x0702, 0x71⟩),
     (ports.any fun p => mtuBad p.2, ⟨.badArg, 0x0702, 0x72⟩),
     ((stagedAssigns l).any fun a => !groupHasPort mode g a.1 || (a.2.1 && popCount a.2.2 16 ≠ 1), ⟨.badArg, 0x0705, 0x73⟩),
     (g = 4 && (lastStaged stagedSister l).elim false fun m => 4094 < m || isSelf s m, ⟨.badArg, 0x0707, 0x74⟩)]

/-! ### Power, pace and time (R604, R767) -/

def stagedMargin : Staged → Option Nat
  | .pwrDroop m => some m
  | _ => none

def stagedConf : Staged → Option (List Nat)
  | .pwrConf l => some l
  | _ => none

def stagedPace : Staged → Option PaceCfg
  | .paceGroup c => some c
  | _ => none

def stagedPtp : Staged → Option PtpConfig
  | .timPtp c => some c
  | _ => none

/-- R604. -/
def checkPower (l : List Staged) : Option StartFail :=
  firstFail
    [((lastStaged stagedMargin l).elim false fun m => m < 4 || 15 < m, ⟨.badArg, 0x0905, 0x90⟩),
     ((lastStaged stagedConf l).elim false fun v =>
        v.length ≠ 4 || v.any (31 < ·) || (v.zip (v.drop 1)).any fun q => q.2 ≤ q.1, ⟨.badArg, 0x0906, 0x91⟩)]

/-- R604. -/
def checkPace (s : State) (l : List Staged) : Option StartFail :=
  match lastStaged stagedPace l with
  | none => none
  | some c => firstFail
    [(!decide (c.members.Nodup) || c.members.length < 2 || 64 < c.members.length || c.members.any (4094 < ·)
        || !c.members.contains (moduleNo s), ⟨.badArg, 0x0910, 0x92⟩),
     (c.id = 0 || 2 ^ 32 ≤ c.id || c.interval < 1 || 100 < c.interval, ⟨.badArg, 0x0910, 0x93⟩)]

/-- R767; the manual gives the reason no number, so it is a free value (log entry 6). -/
def checkTime (s : State) (l : List Staged) : Option StartFail :=
  match lastStaged stagedPtp l with
  | none => none
  | some c =>
    if portState s c.port = .absent || portState s c.port = .excluded then some ⟨.badArg, 0x0D02, Config.freeValue s.free % 65536⟩
    else none

/-- R88: validate the staged set of a function. -/
def checkStart (s : State) (fid : Nat) (peer : Option PeerSays) : Option StartFail :=
  let l := (funcOf s fid).staged
  match fid / 2 ^ 24 with
  | 1 => checkContext s (fid % 2 ^ 24) l peer
  | 2 => checkPorts s (fid % 2 ^ 24) l
  | 4 => checkPace s l
  | 5 => checkTime s l
  | 6 => checkPower l
  | _ => none

/-! ### Applying -/

/-- R612, R617: the state of a context once a start succeeds; `healed` that the start ends a halt under R335. -/
def residency (s : State) (c mask : Nat) (healed : Bool) : CtxState :=
  if (ctxOf s c).state = .halted && !healed then .halted
  else if mask = 0 then .defined
  else if (otherCtxs s c).any (fun d => holdsBlocks (ctxOf s d) && maskMeets mask (ctxOf s d).blocks 63) then .defined
  else if (blocksOf mask).any s.benches.scrubbing.contains then .defined
  else .resident

/-- R188: the blocks that a start takes from the context. -/
def leavingBlocks (s : State) (c : Nat) (l : List Staged) (healed : Bool) : List Nat :=
  let x := ctxOf s c
  let o := newOwnership x l
  let st := residency s c o.blocks healed
  (blocksOf x.blocks).filter fun k => holdsBlocks x && !(bitOf o.blocks k && (st = .resident || st = .halted))

/-- R188, R615, R618: blocks and groups leave and join the context, and its slice changes. -/
def applyOwnership (c : Nat) (l : List Staged) (healed : Bool) (s : State) : State :=
  let x := ctxOf s c
  let o := newOwnership x l
  let st := residency s c o.blocks healed
  let s := (leavingBlocks s c l healed).foldl (fun s k => releaseBlock k s) s
  let s := ((maskBits x.groups 16).filter fun g => !bitOf o.groups g).foldl (fun s g => releaseGroup c g s) s
  let saved := if o.blocks = x.blocks then s.benches.saved else tdel s.benches.saved c
  let turn := if x.state = .resident && o.blocks = x.blocks then x.turnEnd else now s + 1000000 * x.quantum
  modCtx c (fun y => { y with
    state := st, blocks := o.blocks, saveLot := o.saveLot, groups := o.groups, sliceBase := o.base, sliceCount := o.count
    quota := o.quota, turnEnd := turn, quantumDue := if st = .resident then y.quantumDue else false })
    { s with benches := { s.benches with saved := saved } }

/-- R765, R335: the pool of a context; a pool that follows a halt starts empty of pages in use. -/
def applyPool (c : Nat) (p : PoolCfg) (s : State) : State :=
  let y := serveOf s c
  let r := poolRanges s c p
  let used := if y.halted then [] else heldPages s c
  let free := (buildFree r).map fun g => (g.1, g.2.filter fun q => !used.contains q)
  modServe c (fun y => { y with
    pool := p, ranges := r, poolSize := rangesSize r, free := free.filter fun g => !g.2.isEmpty, lastGroup := none
    evict := p.evict, newEvict := none, halted := false
    allocated := if y.halted then 0 else y.allocated
    inTransit := if y.halted then 0 else y.inTransit
    blockPages := if y.halted then [] else y.blockPages }) s

/-- R655–R659: the protection of a context; a new mode or pair starts in its staged role. -/
def applyProtect (c : Nat) (p : ProtectPar) (s : State) : State :=
  let r := redOf s c
  let role := if p.mode = 1 && p.role = 1 then RedRole.standby else .active
  let same := r.par.mode = p.mode && r.par.pairId = p.pairId
  modRed c (fun r => { r with
    par := p, role := if same then r.role else role, renewed := if same then r.renewed else now s
    heldAt := if same then r.heldAt else now s, lastChange := if same then r.lastChange else now s
    sentCopy := if same then r.sentCopy else copyOf s c, ackedCopy := if same then r.ackedCopy else copyOf s c }) s

/-- R335: the start ends a halt of the context. -/
def healsHalt (s : State) (c : Nat) (l : List Staged) : Bool :=
  (serveOf s c).halted && (lastStaged stagedPool l).isSome && (ctxOf s c).tdi ≠ .error

/-- R188: a start that takes blocks away waits for the runs that were queued on them since it was accepted. -/
def startWaits (s : State) (c : Nat) : Bool :=
  let l := (funcOf s (fidContext c)).staged
  s.benches.runs.any fun r => r.ctx = c
    && (r.waiting ++ r.live).any fun b => (leavingBlocks s c l (healsHalt s c l)).contains (blockOf b)

/-- R88: the CONTEXT function. -/
def applyContext (c : Nat) (l : List Staged) (s : State) : State :=
  let models := newModels s c l
  let healed := healsHalt s c l
  let s := modServe c (fun y => { y with models := models, cuts := (lastStaged stagedCuts l).getD y.cuts }) s
  let s := (lastStaged stagedPool l).elim s fun p => applyPool c p s
  let s := applyOwnership c l healed s
  noteChange c ((lastStaged stagedProtect l).elim s fun p => applyProtect c p s)

/-- R432, R437–R439, R478: one staged command of a PORT_GROUP. -/
def applyNet (x : Staged) (s : State) : State :=
  match x with
  | .netMode m =>
    if m = portMode s then s
    else { s with net := { s.net with
      modes := [(0, m), (1, m), (2, m), (3, m)]
      ports := s.net.ports.map fun p => (p.1, if p.1 = 32 then p.2 else { p.2 with up := false }) } }
  | .netPort p c => modPort p (fun q => { q with cfg := c }) s
  | .netPlan v4 v6 => { s with net := { s.net with plan4 := v4, plan6 := v6 } }
  | .netUdp p => { s with net := { s.net with udpPort := p } }
  | .netAssign p e m => modPort p (fun q => { q with exclusive := e, contexts := m }) s
  | .netSister m => { s with net := { s.net with sister := some m } }
  | _ => s

/-- R566: the staged pace group; its members have not agreed on a level yet. -/
def applyPace (c : PaceCfg) (s : State) : State :=
  let level := (allowedLevel s).1
  modPace (fun p => { p with group := some { cfg := c, level := level } }) s

/-- R92: the staged power settings, and the limit that cap increases waited to raise. -/
def applyPower (l : List Staged) (s : State) : State :=
  modPace (fun p => { p with
    margin := (lastStaged stagedMargin l).getD p.margin
    confLevels := (lastStaged stagedConf l).getD p.confLevels }) s

/-- R32, R36, R767: the staged PTP settings; on another port or in another domain no sync message has arrived yet, and the servo counts its
good intervals anew. -/
def applyTime (c : PtpConfig) (s : State) : State :=
  let moved := !(c.port = s.time.ptp.port && c.domain = s.time.ptp.domain)
  { s with time := { s.time with
    ptp := c
    ppsIn := s.time.ppsIn && c.pps
    lastSync := if moved then none else s.time.lastSync
    listenAt := if moved then now s else s.time.listenAt
    awaitFollowUp := s.time.awaitFollowUp && !moved
    goodSyncs := if moved then 0 else s.time.goodSyncs
    sync := if moved && s.time.sync = .locked then .holdover else s.time.sync } }

/-- R88: every staged setting of a function applies. -/
def applyStart (fid : Nat) (s : State) : State :=
  let l := (funcOf s fid).staged
  match fid / 2 ^ 24 with
  | 1 => applyContext (fid % 2 ^ 24) l s
  | 2 => l.foldl (fun s x => applyNet x s) s
  | 4 => (lastStaged stagedPace l).elim s fun c => applyPace c s
  | 5 => (lastStaged stagedPtp l).elim s fun c => applyTime c s
  | 6 => applyPower l s
  | _ => s

end Sys2Proof.Machine
end

