-- ==== Sys2Proof/Machine/Net.lean ====
section
/-! DEFINITION. The network commands, the messages of the lane transport, and the timers of the Ethernet node (chapter 11). -/
namespace Sys2Proof.Machine

/-! ### Registers -/

/-- R482: `NET_PORT_STATUS`. -/
def portStatusReg (s : State) (p : Nat) : Nat :=
  let code : Nat := match portState s p with
    | .absent => 0
    | .excluded => 1
    | .stopped => 2
    | .training => 3
    | .down => 4
    | .up => 5
  let ptp := if s.time.ptp.port = p then 1 else if p = 32 && s.time.ptp.mode = .boundary then 2 else 0
  let lanes := if code = 0 then 0 else if p = 32 then 2 else lanesPer (portMode s)
  code + portSpeed s p * 2 ^ 4 + lanes * 2 ^ 8 + ptp * 2 ^ 16 + bit (portOf s p).exclusive * 2 ^ 25 + (portOf s p).contexts * 2 ^ 32

/-- R483: `XLT_STATUS`. -/
def xltStatus (s : State) : Nat :=
  (s.net.lanes.filter fun l => l.2.state ≠ .closed).length + s.net.peers.length * 2 ^ 16
    + (s.net.peers.filter fun p => peerQuarantined s p.module).length * 2 ^ 32 + s.net.udpPort * 2 ^ 48

/-- R480: `XLT_TAGS`: initiator tags of lanes, and system tags of MODLANE lanes. -/
def xltTags (s : State) : Nat :=
  let sys := (s.net.ops.filter fun o => (laneOf s o.lane).modlane).length
  (s.net.ops.length - sys) + sys * 2 ^ 32

/-- R484: `XLT_PEER`, as a 128-bit number. -/
def peerReg (s : State) (n : Nat) : Nat :=
  match s.net.peers[n]? with
  | none => 0
  | some p =>
    let q := match p.quarantineEnd with
      | some e => (e - now s) / 500000
      | none => 0
    let code := if peerQuarantined s p.module then 2 else if peerUnreachable s p.module then 3 else 1
    p.module + code * 2 ^ 12 + bit (s.net.sister = some p.module) * 2 ^ 17 + bit (s.nv.manager = some p.module) * 2 ^ 18
      + bit p.pinned * 2 ^ 19 + (lanesTo s p.module).length * 2 ^ 24 + min q 0xFFFF * 2 ^ 48 + p.violations * 2 ^ 64
      + min ((now s - p.lastMsg) / 1000000) 0xFFFFFFFF * 2 ^ 96

/-- R485: `XLT_LANE`, as a 128-bit number. -/
def laneReg (s : State) (n : Nat) : Nat :=
  let l := laneOf s n
  let code : Nat := match l.state with
    | .closed => 0
    | .opening => 1
    | .up => 2
    | .down => 3
    | .reopening => 4
  code + bit l.modlane * 2 ^ 3 + l.peer * 2 ^ 14 + l.peerCtx * 2 ^ 26 + l.ctx * 2 ^ 30 + l.port * 2 ^ 34 + l.retries * 2 ^ 40
    + laneCredits l * 2 ^ 48 + l.unacked.length * 2 ^ 64 + l.depth * 2 ^ 80 + l.srtt * 2 ^ 96

/-- R481: the ports that a context uses. -/
def portVisible (s : State) (m p : Nat) : Bool :=
  match viewerOf s m with
  | some c => bitOf (portOf s p).contexts c
  | none => true

/-- R480: the registers of a port. -/
def portRegs (s : State) (p : Nat) : List Fld :=
  let q := portOf s p
  [⟨8, portStatusReg s p⟩, ⟨8, q.rxFrames⟩, ⟨8, q.txFrames⟩, ⟨8, q.rxDrops⟩, ⟨8, q.fecCorr⟩, ⟨8, q.fecUncorr⟩, ⟨8, q.txBytes⟩,
   ⟨8, q.rxBytes⟩]

/-! ### Commands -/

/-- R478: `NET_GET_STATE`. -/
def execNetGetState (h : Hdr) (s : State) : Host.Outcome State Fault Refusal :=
  .next (command h { op := 0x0700, who := whoAll, reads := true } (fun c s =>
    let ports := ((List.range 33).filter fun p => portState s p ≠ .absent && portVisible s c.mb p).flatMap fun p => ⟨1, p⟩ :: portRegs s p
    let xlt := if (viewerOf s c.mb).isSome then []
      else [⟨8, xltStatus s⟩, ⟨8, xltTags s⟩, ⟨8, s.net.malformed⟩, ⟨8, s.net.violations⟩, ⟨8, s.net.retransmits⟩, ⟨8, s.net.naksSent⟩,
        ⟨8, s.net.unknownPeer⟩, ⟨8, s.net.roWrites⟩]
    okData s (ports ++ xlt)) s)

/-- A staged command of a PORT_GROUP (R86, R478). -/
def stageNet (op : Nat) (h : Hdr) (g : Nat) (good : Bool) (x : Staged) (s : State) : State :=
  command h { op := op, who := who0Admin } (fun c s => if 4 < g || !good then no s .badArg else stage (fidPort g) x c s) s

/-- R432: `NET_SET_MODE`. -/
def execNetSetMode (h : Hdr) (g mode : Nat) (s : State) : Host.Outcome State Fault Refusal :=
  .next (stageNet 0x0701 h g (g < 4 && mode < 4) (.netMode mode) s)

/-- R478: `NET_SET_PORT`. -/
def execNetSetPort (h : Hdr) (g port : Nat) (p : PortCfg) (s : State) : Host.Outcome State Fault Refusal :=
  .next (stageNet 0x0702 h g (port ≤ 32 && (p.maxData = 256 || p.maxData = 1024 || p.maxData = 4096) && p.len4 ≤ 32
    && p.len6 ≤ 128 && p.dscpCtl < 64 && p.dscpData < 64 && (p.vlan.elim true (· < 4096))) (.netPort port p) s)

/-- R437: `NET_SET_PLAN`. -/
def execNetSetPlan (h : Hdr) (g v4 v6 : Nat) (s : State) : Host.Outcome State Fault Refusal :=
  .next (stageNet 0x0703 h g (g < 4) (.netPlan v4 v6) s)

/-- R445, R478: `NET_SET_UDP_PORT`. -/
def execNetSetUdpPort (h : Hdr) (g port : Nat) (s : State) : Host.Outcome State Fault Refusal :=
  .next (stageNet 0x0704 h g (g < 4 && 1024 ≤ port && port < 49152) (.netUdp port) s)

/-- R439: `NET_ASSIGN`. -/
def execNetAssign (h : Hdr) (g port : Nat) (exclusive : Bool) (contexts : Nat) (s : State) : Host.Outcome State Fault Refusal :=
  .next (stageNet 0x0705 h g (g < 4 && contexts < 65536) (.netAssign port exclusive contexts) s)

/-- R471, R478: `NET_SET_MANAGER`, kept in a LOCAL record. -/
def execNetSetManager (h : Hdr) (m : Nat) (s : State) : Host.Outcome State Fault Refusal :=
  .next (command h { op := 0x0706, who := who0Side } (needFlash fun _ s =>
    if 4094 < m then no s .badArg else ok (setLocal .manager m s)) s)

/-- R476: `NET_SET_SISTER`. -/
def execNetSetSister (h : Hdr) (m : Nat) (s : State) : Host.Outcome State Fault Refusal :=
  .next (stageNet 0x0707 h 4 true (.netSister m) s)

/-- R454, R478: `NET_PEER_PIN`. -/
def execNetPeerPin (h : Hdr) (m : Nat) (pin : Bool) (addrs : List Nat) (s : State) : Host.Outcome State Fault Refusal :=
  .next (command h { op := 0x0708, who := who0Admin } (fun _ s =>
    if 4094 < m || m = moduleNo s then no s .badArg
    else match peerOf s m with
      | some _ => ok (modPeer m (fun p => { p with pinned := pin, addrs := if pin then addrs else p.addrs }) s)
      | none =>
        if !pin then no s .badArg
        else if 8192 ≤ s.net.peers.length then no s .noResource
        else ok { s with net := { s.net with peers := s.net.peers ++ [{ module := m, pinned := true, addrs := addrs }] } }) s)

/-- R478: `NET_PEER_GET`: up to 8 entries from an index. -/
def execNetPeerGet (h : Hdr) (idx : Nat) (s : State) : Host.Outcome State Fault Refusal :=
  .next (command h { op := 0x0709, who := who0Side, reads := true } (fun _ s =>
    if 8192 ≤ idx then no s .badArg
    else okData s ((List.range 8).map fun i => ⟨16, peerReg s (idx + i)⟩)) s)

/-- R478, R479: `NET_LANE_GET`: the context's lanes from an index, as many as a response holds. -/
def execNetLaneGet (h : Hdr) (c idx : Nat) (s : State) : Host.Outcome State Fault Refusal :=
  .next (command h { op := 0x070A, who := who0Own, ctx := some c, conf := true, reads := true } (fun _ s =>
    if !ctxDefined s c then no s (noCtx c) else if 16384 ≤ idx then no s .badArg
    else okData s (((s.net.lanes.filter fun l =>
      idx ≤ l.1 && l.2.state ≠ .closed && !l.2.modlane && l.2.ctx = c).take 12).flatMap fun l => [⟨2, l.1⟩, ⟨16, laneReg s l.1⟩])) s)

/-- R47, R639: `XLT_GRANT_SET`. -/
def execXltGrantSet (h : Hdr) (c : Nat) (l : List (Nat × Nat)) (s : State) : Host.Outcome State Fault Refusal :=
  .next (command h { op := 0x070B, who := who0Own, ctx := some c, conf := true } (fun _ s =>
    if !ctxDefined s c then no s (noCtx c)
    else if 64 < l.length || l.any (fun p => 4094 < p.1 || 15 < p.2) then no s .badArg
    else if isConf s c && !(ctxOf s c).plainNet then no s .badState
    else ok { s with net := { s.net with grants := tset s.net.grants c l } }) s)

/-- R456: `XLT_SET_LANE_DEPTH`. -/
def execXltSetLaneDepth (h : Hdr) (c depth : Nat) (s : State) : Host.Outcome State Fault Refusal :=
  .next (command h { op := 0x070C, who := who0Own, ctx := some c, conf := true } (fun _ s =>
    if !ctxDefined s c then no s (noCtx c) else if depth < 16 || 512 < depth then no s .badArg
    else ok { s with net := { s.net with depths := tset s.net.depths c depth } }) s)

/-- R467: `XLT_COLL_SET`. -/
def execXltCollSet (h : Hdr) (c g counter : Nat) (s : State) : Host.Outcome State Fault Refusal :=
  .next (command h { op := 0x070D, who := who0Own, ctx := some c, conf := true } (fun _ s =>
    if !ctxDefined s c then no s (noCtx c) else if 31 < g || counter % 8 ≠ 0
        || !lotHas s c counter 8 (fun e => lotWrite e && lotAtomic e && lotExport e) then no s .badArg
    else ok { s with net := { s.net with groups := tset s.net.groups (32 * c + g) (some ⟨counter⟩) } }) s)

/-- R473: a peer's quarantine ends. -/
def endPeerQuarantine (m : Nat) (s : State) : State :=
  record 0x6111 1 0 none false [⟨2, m⟩] (modPeer m (fun p => { p with quarantineEnd := none, violTimes := [] }) s)

/-- R478: `NET_UNQUARANTINE`. -/
def execNetUnquarantine (h : Hdr) (m : Nat) (s : State) : Host.Outcome State Fault Refusal :=
  .next (command h { op := 0x070E, who := who0 } (fun _ s =>
    if (peerOf s m).isNone then no s .badArg else if peerQuarantined s m then ok (endPeerQuarantine m s) else ok s) s)

/-! ### Frames -/

/-- R436, R443, R476: a frame that no rule of its port accepts is dropped and counted, whatever it was. -/
def execFrameDrop (dt port : Nat) (kind : FrameKind) (s : State) : Host.Outcome State Fault Refusal :=
  .next (event dt (fun s => match kind, portState s port with
    | _, .up => dropFrame port s
    | _, _ => s) s)

/-- R450, R472: a malformed message. -/
def execXltMalformed (dt port srcM : Nat) (s : State) : Host.Outcome State Fault Refusal :=
  .next (event dt (fun s =>
    match portTakes { blankMsg with port := port, srcM := srcM } s with
    | (false, s) => s
    | (true, s) => dropMalformed srcM s) s)

/-- R444: a Delay_Req on the sister port is answered while the module is master there. -/
def execPtpDelayReq (dt : Nat) (s : State) : Host.Outcome State Fault Refusal :=
  .next (event dt (fun s =>
    if portState s 32 ≠ .up then s
    else if s.time.ptp.mode = .boundary && s.time.ptp.port ≠ 32 then
      modPort 32 (fun p => { p with rxFrames := wrapAdd 64 p.rxFrames 1, txFrames := wrapAdd 64 p.txFrames 1 })
        { s with time := { s.time with delayResps := s.time.delayResps + 1 } }
    else dropFrame 32 s) s)

/-- R444: in BOUNDARY mode a two-step Sync leaves on the sister port each 125 ms. -/
def execPtpMasterSyncTimer (dt : Nat) (s : State) : Host.Outcome State Fault Refusal :=
  .next (event dt (fun s =>
    if s.time.ptp.mode = .boundary && s.time.ptp.port ≠ 32 && portState s 32 = .up && s.net.sisterSync + 125000000 ≤ now s then
      modPort 32 (fun p => { p with txFrames := wrapAdd 64 p.txFrames 2 })
        { s with time := { s.time with masterSyncs := s.time.masterSyncs + 1 }, net := { s.net with sisterSync := now s } }
    else s) s)

/-! ### HELLO -/

/-- R451, R452, R453: what a valid HELLO teaches; answers whether its sender is now known. -/
def learnPeer (m : XMsg) (p : HelloPar) (s : State) : Bool × State :=
  let put (q : Peer) : Peer :=
    { q with addrs := p.addrs, serial := p.serial, epoch := p.epoch, maxData := p.maxData, lastMsg := now s }
  if m.srcM = moduleNo s then (false, record 0x6140 2 0 none false [] s)
  else if 4094 < m.srcM then (false, s)
  else match peerOf s m.srcM with
    | some q =>
      if q.addrs.contains p.from_ then (true, modPeer m.srcM put s)
      else if now s < q.lastMsg + 60000000000 && q.lastMsg ≠ 0 then (true, record 0x6141 2 0 none false [⟨2, m.srcM⟩] s)
      else (true, modPeer m.srcM put s)
    | none =>
      let add (s : State) : State := { s with net := { s.net with peers := s.net.peers ++ [put { module := m.srcM }] } }
      if s.net.peers.length < 8192 then (true, add s)
      else
        let idle := s.net.peers.filter fun q => !q.pinned && q.lastMsg + 60000000000 ≤ now s
        match idle with
        | [] => (false, record 0x6143 2 0 none true [⟨2, m.srcM⟩] (sendNak 0x09 m 0 s))
        | q :: r =>
          let v := (r.foldl (fun a b => if b.lastMsg < a.lastMsg then b else a) q).module
          let s := (lanesTo s v).foldl (fun s l => closeLane l.1 0x6121 s) s
          (true, add (record 0x6142 0 0 none false [⟨2, v⟩]
            { s with net := { s.net with peers := s.net.peers.filter fun p => p.module ≠ v } }))

/-- A HELLO that carries a payload: its port and stamp checks, then what it teaches, then the rest. -/
def receiveHello (m : XMsg) (p : HelloPar) (body : State → State) (s : State) : State :=
  match portTakes m s with
  | (false, s) => s
  | (true, s) =>
    if s.time.t + s.time.skewLimit < m.stamp.ns then
      let s := { s with time := { s.time with skewDrops := satAdd 64 s.time.skewDrops 1 } }
      if (peerOf s m.srcM).isSome then peerViolation m.srcM 0x6130 2 false s else record 0x6130 2 0 none true [⟨2, m.srcM⟩] s
    else
      let q := issueStamp (causal m.stamp s)
      match learnPeer m p q.2 with
      | (false, s) => s
      | (true, s) => body s

/-- R451: `HELLO ANNOUNCE`. -/
def execHelloAnnounce (dt : Nat) (m : XMsg) (p : HelloPar) (s : State) : Host.Outcome State Fault Refusal :=
  .next (event dt (receiveHello m p (fun s => s)) s)

/-- R455: answer OPEN with this module's lane number and credit. -/
def sendOpenAck (n : Nat) (s : State) : State :=
  let l := laneOf s n
  transmit ⟨0x01, l.peer, { blankMsg with
    op := 2, port := l.port, srcC := l.ctx, dstC := l.peerCtx, lane := l.theirs, modlane := l.modlane, credit := l.depth, operand := n }⟩ s

/-- R455, R456: `HELLO OPEN`: the lane that both sides were opening, the one that the peer reopens, or a new one. -/
def execHelloOpen (dt : Nat) (m : XMsg) (p : HelloPar) (s : State) : Host.Outcome State Fault Refusal :=
  .next (event dt (receiveHello m p (fun s =>
    let c := if m.modlane then 0 else m.dstC
    let pc := if m.modlane then 0 else m.srcC
    match findLane s c m.srcM pc m.port m.modlane with
    | some n => sendOpenAck n (laneUp n m.operand m.credit s)
    | none =>
      let used := (s.net.lanes.map fun l => if l.2.state = .closed then 0 else l.2.depth).foldl (· + ·) 0
      match freeLane s with
      | some n =>
        if 1048576 < used + laneDepth s c m.modlane then sendNak 0x0A m m.operand s
        else
          let l : Lane :=
            { state := .opening, ctx := c, peer := m.srcM, peerCtx := pc, modlane := m.modlane, port := m.port
              depth := laneDepth s c m.modlane, idleAt := now s }
          sendOpenAck n (laneUp n m.operand m.credit (modLane n (fun _ => l) (closeLane n 0x6121 s)))
      | none => sendNak 0x0A m m.operand s)) s)

/-- R455: `HELLO OPEN_ACK`. -/
def execHelloOpenAck (dt : Nat) (m : XMsg) (s : State) : Host.Outcome State Fault Refusal :=
  .next (event dt (receiveModule { m with hasAck := false } (fun s =>
    let l := laneOf s m.lane
    if l.peer = m.srcM && (l.state = .opening || l.state = .reopening) then laneUp m.lane m.operand m.credit s else s)) s)

/-- R448: `HELLO CLOSE`. -/
def execHelloClose (dt : Nat) (m : XMsg) (s : State) : Host.Outcome State Fault Refusal :=
  .next (event dt (receiveModule { m with hasAck := false } (fun s =>
    if (laneOf s m.lane).state ≠ .closed && (laneOf s m.lane).peer = m.srcM then closeLane m.lane 0x6121 s else s)) s)

/-! ### PROBE and NAK -/

/-- R459: `PROBE ACK`. -/
def execProbeAck (dt : Nat) (m : XMsg) (s : State) : Host.Outcome State Fault Refusal :=
  .next (event dt (receiveModule m (fun s => s)) s)

/-- R461: `PROBE ECHO_REQ` is answered. -/
def execProbeEchoReq (dt : Nat) (m : XMsg) (s : State) : Host.Outcome State Fault Refusal :=
  .next (event dt (receiveModule m (fun s =>
    transmit ⟨0x02, m.srcM, { blankMsg with op := 2, port := m.port, srcC := m.dstC, dstC := m.srcC, tag := m.tag }⟩ s)) s)

/-- R461: `PROBE ECHO_RESP`: the DOWN lanes to the peer are reopened. -/
def execProbeEchoResp (dt : Nat) (m : XMsg) (s : State) : Host.Outcome State Fault Refusal :=
  .next (event dt (receiveModule m (fun s =>
    (s.net.lanes.filter fun l => l.2.state = .down && l.2.peer = m.srcM).foldl (fun s l => reopenLane l.1 s) s)) s)

/-- R462, R465: the answer STOPPED: a record of a ring, or a page of a shipment, is kept to be sent again at a boundary. -/
def holdStopped (n : Nat) (o : NetOp) (s : State) : State :=
  let s := modLane n (fun l => { l with stoppedNak := true }) s
  match o.purpose with
  | .ring _ _ =>
    match (laneOf s n).unacked.find? fun x => x.msg.tag = o.tag with
    | some x => modLane n (fun l => { l with held := l.held ++ [x] }) s
    | none => s
  | .journal _ _ _ =>
    match (laneOf s n).unacked.find? fun x => x.msg.tag = o.tag with
    | some x => modLane n (fun l => { l with held := l.held ++ [x] }) s
    | none => s
  | _ => failOp o 0x6125 (some 0x0C) s

/-- R460, R462, R465, R470: what a NAK does. A CREDIT or WINDOW refusal leaves the message to the retransmission timeout. -/
def takeNak (m : XMsg) (s : State) : State :=
  let n := m.lane
  let ours := (laneOf s n).state ≠ .closed && (laneOf s n).peer = m.srcM
  match m.op with
  | 0x01 => if ours then resendLane n (ackLane n m.ack (laneOf s n).depth false s) else s
  | 0x02 => s
  | 0x03 => s
  | 0x08 => if ours then reopenLane n s else s
  | 0x09 => s
  | 0x0A => if ours && (laneOf s n).state ≠ .up then closeLane n 0x6122 s else s
  | 0x0B =>
    match s.net.ships.find? fun h => h.peer = m.srcM && h.shipId = m.operand with
    | some h => noteChange (reqOf s h.req).ctx (failShip h.req false s)
    | none => match (if ours then opOn s n m.tag else none) with
      | some o => failOp o 0x6125 (some 0x0B) s
      | none => s
  | r =>
    match (if ours then opOn s n m.tag else none) with
    | some o => if r = 0x0C then holdStopped n o s else failOp o 0x6125 (some r) s
    | none => s

/-- R470: `NAK`. -/
def execNak (dt : Nat) (m : XMsg) (s : State) : Host.Outcome State Fault Refusal :=
  .next (event dt (receiveModule { m with hasAck := false } (takeNak m)) s)

/-! ### Lane messages -/

/-- R48: `DATA_WRITE`. -/
def execDataWrite (dt : Nat) (m : XMsg) (s : State) : Host.Outcome State Fault Refusal :=
  .next (event dt (receiveLane m .aligned true (effectWrite m)) s)

/-- R459: `DATA_READ`. -/
def execDataRead (dt : Nat) (m : XMsg) (s : State) : Host.Outcome State Fault Refusal :=
  .next (event dt (receiveLane m .none false (effectRead m)) s)

/-- R464: `READ_RESP`. -/
def execReadResp (dt : Nat) (m : XMsg) (s : State) : Host.Outcome State Fault Refusal :=
  .next (event dt (receiveLane m .none true (effectResp m)) s)

/-- R466: `ATOMIC`. -/
def execAtomic (dt : Nat) (m : XMsg) (s : State) : Host.Outcome State Fault Refusal :=
  .next (event dt (if 6 < m.op || (if m.op = 2 then m.length ≠ 8 else m.length ≠ 0) then
      receiveLane { m with length := 65536 } .none false (effectAtomic m)
    else receiveLane m .none true (effectAtomic m)) s)

/-- R467: `COLLECTIVE`. -/
def execCollective (dt : Nat) (m : XMsg) (s : State) : Host.Outcome State Fault Refusal :=
  .next (event dt (if 4 < m.op % 8 then receiveLane { m with length := 65536 } .none false (effectCollective m)
    else receiveLane m .aligned true (effectCollective m)) s)

/-- R468: `CONTROL`. -/
def execControl (dt : Nat) (m : XMsg) (s : State) : Host.Outcome State Fault Refusal :=
  .next (event dt (receiveLane m .none true (effectControl m)) s)

/-! ### Shipments -/

/-- R418, R419: the WAIT_KV entry that an announcement names. -/
def waitingFor (s : State) (m : XMsg) : Option Nat :=
  (s.serve.reqs.find? fun q => q.2.state = .waitKv && q.2.shipModule = m.srcM && q.2.shipId = m.operand).map (·.1)

/-- R419: a receiver that cannot take a shipment: NAK SHIP, 0x5130, and the request ends SHIP_FAILED. -/
def refuseShip (m : XMsg) (x : Option Nat) (s : State) : State :=
  let s := transmit ⟨0x03, m.srcM, { blankMsg with port := m.port, op := 0x0B, srcC := m.dstC, dstC := m.srcC, operand := m.operand }⟩
    { s with net := { s.net with naksSent := satAdd 64 s.net.naksSent 1 } }
  let s := record 0x5130 2 0 (x.map fun x => (reqOf s x).ctx) false [⟨2, x.getD 0xFFFF⟩, ⟨2, m.operand⟩, ⟨2, m.srcM⟩] s
  match x with
  | some x => let t := issueStamp s; endWith (reqOf s x).ctx x ⟨6, t.1⟩ t.2
  | none => s

/-- R469: tell the sender that its shipment is accepted. -/
def sendAccept (m : XMsg) (c : Nat) (s : State) : State :=
  transmit ⟨0x15, m.srcM, { blankMsg with port := m.port, op := 1, srcC := c, dstC := c, operand := m.operand }⟩ s

/-- R418: `PAGE_SHIP ANNOUNCE`. -/
def execPageShipAnnounce (dt : Nat) (m : XMsg) (p : ShipPar) (s : State) : Host.Outcome State Fault Refusal :=
  .next (event dt (receiveModule { m with hasAck := false } (fun s =>
    match waitingFor s m with
    | none => refuseShip m none s
    | some x =>
      let r := reqOf s x
      match shipOf s x, modelOf s r.ctx r.model with
      | some h, _ => if h.accepted then sendAccept m r.ctx s else s
      | none, none => refuseShip m (some x) s
      | none, some q =>
        if p.d ≠ q.att.d || p.hb ≠ q.att.hb || p.fmt ≠ q.att.fmt || p.layers ≠ q.att.layers then refuseShip m (some x) s
        else match securePages r.ctx x (r.promptLen + 1) .inTransit 2048 s with
          | none => refuseShip m (some x) s
          | some s =>
            let h : Shipment :=
              { req := x, sender := false, peer := m.srcM, peerCtx := m.srcC, shipId := m.operand, pages := p.pages, accepted := true
                announcedAt := now s, lastPage := now s, moved := (reqOf s x).list.length, token := p.token, tokenStamp := p.tokenStamp }
            let s := modReq x (fun r => { r with expected := p.pages, arrived := 0 }) s
            sendAccept m r.ctx { s with net := { s.net with ships := s.net.ships ++ [h] } })) s)

/-- A lane message of a shipment on the port that a page-list index chooses (R441). -/
def shipSend (c x idx : Nat) (h : Shipment) (op addr : Nat) (data : List Byte) (chks : List Nat) (s : State) : State :=
  match laneFor c h.peer h.peerCtx (choosePort s c idx) false s with
  | (none, s) => s
  | (some n, s) => sendOp n (.ship x) ⟨0x15, h.peer, { blankMsg with
      op := op, srcC := c, dstC := h.peerCtx, operand := h.shipId, addr := addr, length := data.length, check := true
      data := data, chks := chks }⟩ s

/-- R327: the scale record of a page is read through its yard. -/
def readScale (c p : Nat) (s : State) : State :=
  match scaleAddr (serveOf s c) p with
  | some a => touchYard (.edge .net) a 64 .bulk .read s
  | none => s

/-- R418, R469, R180: every page, and the scale records of FP8 pages, are read through their yards in the bulk class and sent. -/
def shipPages (x : Nat) (h : Shipment) (s : State) : State :=
  let r := reqOf s x
  let c := r.ctx
  let w := maxData s (choosePort s c 0) h.peer
  let l := r.list.take h.pages
  let s := foldS (l.mapIdx fun i p => (i, p)) (fun q s =>
    foldN (65536 / max 256 w) (fun j s =>
      let p := carryBytes s (q.2 * 65536 + j * w) w
      shipSend c x q.1 h 2 (q.1 + j * w / 256 * 2 ^ 24) p.1 p.2 s) (touchYard (.edge .net) (q.2 * 65536) 65536 .bulk .read s)) s
  if (modelOf s c r.model).elim true fun m => m.att.fmt ≠ 1 then s
  else foldN (ceilDiv l.length 64) (fun j s =>
    let part := (l.drop (64 * j)).take 64
    let s := foldS part (readScale c) s
    let parts := part.map fun p => match scaleAddr (serveOf s c) p with
      | some a => carryBytes s a 64
      | none => (List.replicate 64 0, [0, 0, 0, 0])
    shipSend c x j h 3 (64 * j) (parts.flatMap (·.1)) (parts.flatMap (·.2)) s) s

/-- R418, R469: the sender's pages are IN_TRANSIT from here on, and leave. -/
def acceptShip (m : XMsg) (h : Shipment) (s : State) : State :=
  let x := h.req
  let n := h.pages
  let h' := { h with accepted := true, peerCtx := m.dstC, moved := n }
  let s := modShip x (fun _ => h') s
  let s := modServe (reqOf s x).ctx (fun y => countPages .inTransit n (uncountPages .allocated n y)) s
  shipPages x h' s

/-- R336, R418: `PAGE_SHIP ACCEPT`: the pages leave; they are in transit. -/
def execPageShipAccept (dt : Nat) (m : XMsg) (s : State) : Host.Outcome State Fault Refusal :=
  .next (event dt (receiveModule { m with hasAck := false } (fun s =>
    match s.net.ships.find? fun h => h.sender && h.peer = m.srcM && h.shipId = m.operand && !h.accepted with
    | none => s
    | some h => acceptShip m h s)) s)

/-- The receiving shipment that a lane message names (R469). -/
def shipFor (s : State) (m : XMsg) : Option Shipment :=
  s.net.ships.find? fun h => !h.sender && h.accepted && h.peer = m.srcM && h.shipId = m.operand

/-- R336, R418, R469: `PAGE_SHIP PAGE`. -/
def effectPage (m : XMsg) (s : State) : Option Nat × State :=
  match shipFor s m with
  | none => (some 0x0B, s)
  | some h =>
    let r := reqOf s h.req
    let idx := m.addr % 2 ^ 24
    let off := m.addr / 2 ^ 24 % 256 * 256
    if h.pages ≤ idx || r.list.length ≤ idx || 65536 < off + m.length then (some 0x0B, s)
    else
      let s := writeBytes (r.list.getD idx 0 * 65536 + off) m.data m.chks (touchYard (.edge .net) (r.list.getD idx 0 * 65536 + off) m.length .bulk .write s)
      let had := tget h.got idx 0
      let full := had < 65536 && 65536 ≤ had + m.length
      let s := modShip h.req (fun h => { h with
        got := tset h.got idx (had + m.length), total := if full then h.total + 1 else h.total
        lastPage := if full then now s else h.lastPage }) s
      if !full then (none, s)
      else
        let s := modReq h.req (fun r => { r with arrived := r.arrived + 1 }) s
        if h.total + 1 < h.pages then (none, s)
        else
          let n := r.list.length
          (none, noteChange r.ctx (modServe r.ctx (fun y => countPages .allocated n (uncountPages .inTransit n y)) s))

def execPageShipPage (dt : Nat) (m : XMsg) (s : State) : Host.Outcome State Fault Refusal :=
  .next (event dt (receiveLane m .words true (effectPage m)) s)

/-- R327, R469: `PAGE_SHIP SCALES`. -/
def effectScales (m : XMsg) (s : State) : Option Nat × State :=
  match shipFor s m with
  | none => (some 0x0B, s)
  | some h =>
    let r := reqOf s h.req
    let first := m.addr % 2 ^ 24
    if first % 64 ≠ 0 || m.length % 64 ≠ 0 || 4096 < m.length then (some 0x0B, s)
    else
      (none, foldN (m.length / 64) (fun i s =>
        match (r.list[first + i]?).bind (scaleAddr (serveOf s r.ctx)) with
        | some a => writeBytes a ((m.data.drop (64 * i)).take 64) ((m.chks.drop (4 * i)).take 4) (touchYard (.edge .net) a 64 .bulk .write s)
        | none => s) s)

def execPageShipScales (dt : Nat) (m : XMsg) (s : State) : Host.Outcome State Fault Refusal :=
  .next (event dt (receiveLane m .words true (effectScales m)) s)

/-- R336, R418: `PAGE_SHIP DONE_ACK`: the sender's pages are free, and its request ends handed off at the next boundary. -/
def effectDoneAck (m : XMsg) (s : State) : Option Nat × State :=
  match s.net.ships.find? fun h => h.sender && h.accepted && h.peer = m.srcM && h.shipId = m.operand with
  | none => (some 0x0B, s)
  | some h =>
    let x := h.req
    let s := modServe (reqOf s x).ctx (fun y => countPages .allocated h.moved (uncountPages .inTransit h.moved y)) s
    let s := dropShip x (freeRequestPages (reqOf s x).ctx x .allocated s)
    let t := issueStamp s
    (none, endWith (reqOf s x).ctx x ⟨1, t.1⟩ t.2)

def execPageShipDoneAck (dt : Nat) (m : XMsg) (s : State) : Host.Outcome State Fault Refusal :=
  .next (event dt (receiveLane m .none false (effectDoneAck m)) s)

/-- R469: an unanswered ANNOUNCE is sent again every 1 ms; after 100 ms the shipment fails. -/
def execShipAnnounceResend (dt x : Nat) (s : State) : Host.Outcome State Fault Refusal :=
  .next (event dt (fun s =>
    match shipOf s x with
    | none => s
    | some h =>
      let c := (reqOf s x).ctx
      if !h.sender || h.accepted || now s < h.lastResend + 1000000 then s
      else if h.announcedAt + 100000000 ≤ now s then noteChange c (failShip x true s)
      else sendAnnounce c x s) s)

/-- R419: no page within 100 ms. -/
def execShipPageTimeout (dt x : Nat) (s : State) : Host.Outcome State Fault Refusal :=
  .next (event dt (fun s =>
    match shipOf s x with
    | none => s
    | some h =>
      if h.sender || h.pages ≤ h.total || now s < h.lastPage + 100000000 then s
      else noteChange (reqOf s x).ctx (failShip x true s)) s)

/-- A page of a shipment still waits for its lane, for credit or for a tag. -/
def pagesWait (s : State) (h : Shipment) : Bool :=
  (s.net.tagWait.any fun w => isPage h.peer h.shipId w.2.2) || s.net.lanes.any fun l => l.2.waiting.any (isPage h.peer h.shipId)

/-- R419: no acknowledgement within 250 ms of the last page. -/
def execShipAckTimeout (dt x : Nat) (s : State) : Host.Outcome State Fault Refusal :=
  .next (event dt (fun s =>
    match shipOf s x with
    | none => s
    | some h =>
      match h.sentAll with
      | some t =>
        if h.sender && !pagesWait s h && t + 250000000 ≤ now s then noteChange (reqOf s x).ctx (failShip x true s) else s
      | none => s) s)

/-! ### Ports and timers -/

/-- R451, R454: send ANNOUNCE to a peer on a port. -/
def sendAnnounceTo (port m : Nat) (s : State) : State :=
  transmit ⟨0x01, m, { blankMsg with op := 0, port := port, length := 64, data := helloBytes s }⟩ s

/-- R451, R454: a port that came UP announces the module to the peers that it knows, the sister port to the sister alone. -/
def announceUp (port : Nat) (s : State) : State :=
  let dest := s.net.peers.filter fun p => port ≠ 32 || s.net.sister = some p.module
  let s := dest.foldl (fun s p => sendAnnounceTo port p.module s) s
  match (if port = 32 then s.net.sister else none) with
  | some m => if (peerOf s m).isNone then sendAnnounceTo 32 m s else s
  | none => s

/-- R454: a port comes UP. -/
def execPortUp (dt port : Nat) (s : State) : Host.Outcome State Fault Refusal :=
  .next (event dt (fun s =>
    if portState s port ≠ .down then s else announceUp port (modPort port (fun p => { p with up := true }) s)) s)

/-- R442: the lanes bound to a port move to another UP port of their context, and send again what is not acknowledged. -/
def moveLanes (port : Nat) (s : State) : State :=
  (s.net.lanes.filter fun l => l.2.state ≠ .closed && l.2.port = port).foldl (fun s l =>
    let ups := if l.2.modlane then (portTo s l.2.peer).toList else ctxPorts s l.2.ctx
    match (ups.filter (port < ·)).head?.orElse fun _ => ups.head? with
    | none => s
    | some q =>
      record 0x6114 1 0 (if l.2.modlane then none else some l.2.ctx) false [⟨2, l.1⟩, ⟨1, q⟩]
        (resendLane l.1 (modLane l.1 (fun l => { l with port := q }) s))) s

/-- R442: a port goes DOWN. -/
def execPortDown (dt port : Nat) (s : State) : Host.Outcome State Fault Refusal :=
  .next (event dt (fun s =>
    if portState s port ≠ .up then s else moveLanes port (modPort port (fun p => { p with up := false }) s)) s)

/-- R454: every 10 s ANNOUNCE goes to every peer with an open lane. -/
def execAnnounceTimer (dt : Nat) (s : State) : Host.Outcome State Fault Refusal :=
  .next (event dt (fun s =>
    if now s < s.net.lastAnnounce + 10000000000 then s
    else
      let s := { s with net := { s.net with lastAnnounce := now s } }
      s.net.peers.foldl (fun s p =>
        if (lanesTo s p.module).isEmpty then s else (portTo s p.module).elim s fun q => sendAnnounceTo q p.module s) s) s)

/-- R459: no acknowledgement has left within 2 µs. -/
def execAckDelayTimer (dt lane : Nat) (s : State) : Host.Outcome State Fault Refusal :=
  .next (event dt (fun s =>
    match (laneOf s lane).ackDue with
    | some t => if t ≤ now s && (laneOf s lane).state = .up then sendAck lane s else s
    | none => s) s)

/-- R460, R461: the oldest unacknowledged message times out; the eighth timeout takes the lane DOWN. -/
def execRetransmitTimeout (dt lane : Nat) (s : State) : Host.Outcome State Fault Refusal :=
  .next (event dt (fun s =>
    let l := laneOf s lane
    match l.deadline with
    | none => s
    | some t =>
      if now s < t || l.state ≠ .up then s
      else
        let s := modLane lane (fun l => { l with retries := l.retries + 1 }) s
        if 8 ≤ l.retries + 1 then record 0x6112 2 0 (if l.modlane then none else some l.ctx) false [⟨2, lane⟩, ⟨2, l.peer⟩] (laneDown lane s)
        else resendLane lane s) s)

/-- R461: every 100 ms the peer of a DOWN lane is probed. -/
def execLaneProbeTimer (dt lane : Nat) (s : State) : Host.Outcome State Fault Refusal :=
  .next (event dt (fun s =>
    let l := laneOf s lane
    if l.state ≠ .down || now s < l.probeAt then s
    else transmit ⟨0x02, l.peer, { blankMsg with op := 1, port := l.port, srcC := l.ctx, dstC := l.peerCtx, lane := l.theirs }⟩
      (modLane lane (fun l => { l with probeAt := now s + 100000000 }) s)) s)

/-- R473: a peer's 30 s quarantine ends. -/
def execPeerQuarantineExpiry (dt m : Nat) (s : State) : Host.Outcome State Fault Refusal :=
  .next (event dt (fun s =>
    match (peerOf s m).bind (·.quarantineEnd) with
    | some e => if e ≤ now s then endPeerQuarantine m s else s
    | none => s) s)

end Sys2Proof.Machine
end

