-- ==== Sys2Proof/Machine/Functions.lean ====
section
/-! DEFINITION. The functions: stop, start, revert and status (R83–R92, R760). -/
namespace Sys2Proof.Machine

/-! ### Who may act on a function -/

/-- R79, R622, R624, R650: the mailboxes that a function's commands are open to. `change` marks a command that changes it. -/
def funcSpec (op fid : Nat) (change : Bool) : Spec :=
  match fid / 2 ^ 24 with
  | 1 => { op := op, who := whoAll, ctx := some (fid % 2 ^ 24), conf := change, staging := change, reads := !change }
  | 2 => { op := op, who := who0Admin, reads := !change }
  | 3 => { op := op, who := who0Admin, reads := !change }
  | 4 => { op := op, who := who0Side, reads := !change }
  | 5 => { op := op, who := who0Side, reads := !change }
  | 6 => { op := op, who := who0Side, reads := !change }
  | _ => { op := op, who := whoAll, reads := !change }

/-- The class and the instance of a function identifier (R83). -/
def fidClass (fid : Nat) : Nat := fid / 2 ^ 24
def fidNo (fid : Nat) : Nat := fid % 2 ^ 24

/-- The CONTEXT function of a context that does not exist, or is being destroyed, cannot be acted on. -/
def noFunc (s : State) (fid : Nat) : Bool :=
  fidClass fid = 1 && (!ctxDefined s (fidNo fid) || (ctxOf s (fidNo fid)).state = .destroying)

/-- R80: the refusal of a function identifier, before the function's own state is looked at. -/
def fidRefused (s : State) (fid : Nat) : Option Status :=
  if !fidExists fid then some .badArg else if noFunc s fid then some .badState else none

/-! ### Stopping -/

/-- R84: a jig run or an operator chain of the context is queued or running. DESIGN CHOICE (R84 does not say whether the runs that a serving
step launches are jig runs of the context): they are (log entry 25). -/
def ctxRuns (s : State) (c : Nat) : Bool :=
  (s.benches.runs.any fun r => r.ctx = c && !(r.waiting.isEmpty && r.live.isEmpty)) || s.opr.chains.any fun x => x.ctx = c

/-- R83: an access of the context is in flight: its packets end before its benches' runs do (R173), so what counts is what it has under
way to other modules. -/
def ctxAccesses (s : State) (c : Nat) : Bool :=
  (s.net.ops.map (·.lane) ++ s.net.tagWait.map (·.1)).any fun n => (laneOf s n).ctx = c && !(laneOf s n).modlane

/-- R83: nothing of the context runs, and no access of it is in flight. -/
def ctxIdle (s : State) (c : Nat) : Bool := (serveOf s c).step.isNone && !ctxRuns s c && !ctxAccesses s c

/-- R420: the key-value bytes of one layer for a number of keys. -/
def kvLayerBytes (a : AttRec) (keys : Nat) : Nat :=
  let n := 2 * a.hkv * a.d * keys
  match a.fmt with
  | 0 => 2 * n
  | 1 => n
  | _ => ceilDiv (17 * n) 32

/-- R420, R350: the keys that rows of a request read at most, of `n`. -/
def keysRead (a : AttRec) (n rows : Nat) : Nat := if a.mask = 1 || a.mask = 2 then min n (a.window + a.sinks + rows) else n

/-- R420: one pass over a model's layers and its output projection, in ns; `items` gives the rows and keys of each request, `extra` the bytes
of the veneers. A channel group gives 2.18 TB/s over 16, one at 6,400 MT/s three quarters of it; u is counted in quarters of a group. -/
def passBound (s : State) (c : Nat) (m : Model) (items : List (Nat × Nat)) (extra : Nat) : Nat :=
  let quarters := 4 * popCount (ctxOf s c).groups 16 - popCount ((ctxOf s c).groups &&& s.boot.groups6400) 16
  let benches := 4 * popCount (ctxOf s c).blocks 63
  let rows := (items.map (·.1)).foldl (· + ·) 0
  let keys := (items.map fun i => keysRead m.att i.2 i.1).foldl (· + ·) 0
  ((List.range (m.rec_.layers + 1)).map fun l =>
    let kv := if l < m.att.layers then kvLayerBytes m.att keys else 0
    max (ceilDiv (64 * (Config.layerBytes m.rec_ l + extra + kv)) (max 1 (1853 * quarters)))
      (ceilDiv (1000000 * Config.layerEvents m.rec_ l rows keys) (max 1 (benches * s.pwr.pace.rate)))).foldl (· + ·) 0

/-- R420: the step-time bound of a step, in ns. DEDUCED: the veneers' bytes count in every layer's term, as the rule's sum reads (log entry 25). -/
def stepBound (s : State) (c : Nat) (st : Step) : Nat :=
  match modelOf s c st.model with
  | none => 0
  | some m =>
    let decode : Bool := st.kind = .decode
    let items := st.items.map fun i => (if decode then i.2 + 1 else i.2, (reqOf s i.1).kept + (if decode then i.2 + 1 else i.2))
    let vens := (st.items.filterMap fun i => (reqOf s i.1).veneer.map (·.1)).eraseDups
    let extra := (vens.map fun v => (venOf s v).len).foldl (· + ·) 0
    let k := if decode then st.items.foldl (fun a i => max a i.2) 0 else 0
    let draft := (draftOf s c m).elim 0 fun d => k * passBound s c d (items.map fun i => (1, i.2)) extra
    25000 + passBound s c m items extra + draft + 3000 + 12 * st.items.length

/-- R84: the stop completion bound of a CONTEXT exceeds 1 ms: the step-time bound of the step in progress and 100 µs. -/
def stopIsLong (s : State) (c : Nat) : Bool :=
  match (serveOf s c).step with
  | some st => 900000 < stepBound s c st
  | none => false

/-- R83: the condition under which a function is quiesced, as far as the state shows it; the rest is the event's own. -/
def mayQuiesce (s : State) (fid : Nat) : Bool :=
  match fidClass fid with
  | 1 => ctxIdle s (fidNo fid)
  | 3 => (openSessions s).all fun q => q.2.2.1 ≠ fidNo fid || !(vidBase s q.1 q.2.1).elim false (·.busy)
  | _ => true

/-- R84: the stop of a function completes at once. -/
def stopsNow (s : State) (fid : Nat) : Bool :=
  match fidClass fid with
  | 1 => ctxIdle s (fidNo fid)
  | 2 => false
  | 3 => false
  | _ => true

/-- R442: the ports of a group stop, and their lanes move. -/
def stopPorts (g : Nat) (s : State) : State :=
  ((List.range 33).filter fun p => portGroup s p = g && portState s p ≠ .absent).foldl (fun s p =>
    moveLanes p (modPort p (fun q => { q with up := false }) s)) s

/-- R83, R33, R442: what a function does on becoming STOPPED. -/
def quiesce (fid : Nat) (s : State) : State :=
  let s := setFunc fid (fun f => { f with state := .stopped }) s
  match fidClass fid with
  | 2 => stopPorts (fidNo fid) s
  | 5 => { s with time := { s.time with slewing := false, slew := 0, ppsIn := false } }
  | _ => s

/-- R92: PORT_GROUP 4 carries the copy of a MIRRORED context. -/
def stopBarred (s : State) (fid : Nat) : Bool :=
  fid = fidPort 4 && (List.range 16).any fun c => ctxDefined s c && mirrored s c

/-- R624: a FUNC_STOP from the own mailbox of a locked TDI takes it to ERROR. -/
def ownStop (fid m : Nat) (s : State) : State :=
  if fidClass fid = 1 && tdiLocked s (fidNo fid) && speaksFor s m (fidNo fid) then tdiError (fidNo fid) s else s

/-- R85: the function is stopped for its new holder. -/
def beginStop (fid hold m : Nat) (s : State) : State :=
  let until_ := if hold = 0 then none else some (now s + hold * 1000000)
  let held (f : Func) : Func := { f with holder := some m, deadline := until_, staged := [], revert := none, reverting := false }
  if stopsNow s fid then quiesce fid (modFunc fid held s)
  else setFunc fid (fun f => { held f with state := .stopping }) s

/-- R84: how a stop is answered that does not complete at once: ACCEPTED, or, where its bound does not exceed 1 ms, by one response that
follows when the function is quiesced. -/
def stopAnswer (fid : Nat) (s : State) : Ans :=
  if fidClass fid = 1 && !ctxRuns s (fidNo fid) && !stopIsLong s (fidNo fid) then withheld s .funcStop fid else accepted s .funcStop fid

/-- R83–R87, R92: `FUNC_STOP`. -/
def execFuncStop (h : Hdr) (fid hold : Nat) (s : State) : Host.Outcome State Fault Refusal :=
  .next (command h (funcSpec 0x0100 fid true) (fun call s =>
    if 3600000 < hold then no s .badArg
    else match fidRefused s fid with
      | some st => no s st
      | none =>
        let s := ownStop fid call.mb s
        let f := funcOf s fid
        if f.holder = some call.mb then ok s
        else if f.holder.isSome then no s .busy
        else if f.state ≠ .running || stopBarred s fid then no s .badState
        else
          let now_ := stopsNow s fid
          let s := beginStop fid hold call.mb s
          if now_ then ok s else stopAnswer fid s) s)

/-- R83, R84, R91: a stopping function reaches its quiesced condition; a revert that waited for it follows. -/
def execFunctionQuiesced (dt fid : Nat) (s : State) : Host.Outcome State Fault Refusal :=
  .next (event dt (fun s =>
    if (funcOf s fid).state ≠ .stopping || !mayQuiesce s fid then s
    else
      pendingRevert fid (finish .funcStop fid .ok [] (quiesce fid s))) s)

/-! ### Starting -/

/-- R89: the data of a failed start. -/
def failData (f : StartFail) : List Fld := [⟨2, f.op⟩, ⟨2, f.reason⟩]

/-- R52, R88: the function runs with every staged setting, which the Square writes to the registers. -/
def completeStart (fid : Nat) (s : State) : State :=
  let s := setFunc fid (fun f => { f with state := .running, holder := none, deadline := none, staged := [], revert := none })
    (releaseWord (applyStart fid s))
  if fid = fidPower then renewLimit s else s

/-- R760: why a start, or a revert without force, is refused. -/
def startRefused (f : Func) (m : Nat) : Option Status :=
  if f.holder.isSome && f.holder ≠ some m then some .busy
  else if f.state = .stopped || f.state = .startFailed then none
  else some .badState

/-- R89: a start fails; a class whose start is slow answers ACCEPTED first (R84). The free value of a reason is used up. -/
def failStart (fid : Nat) (f : StartFail) (s : State) : Ans :=
  let s := setFunc fid (fun f => { f with state := .startFailed }) s
  if slowStart fid then accepted s .funcStart fid else noData (useFree 1 s) f.status (failData f)

/-- R96: a failed start answers BAD_ARG for a reserved field. -/
def startViolates (s : State) (fid : Nat) (f : StartFail) : Bool :=
  fidClass fid = 1 && f.reason = 0x50 && f.op = 0x0510 && modelReserved s (fidNo fid) (funcOf s fid).staged

/-- R88, R89: the start of a function. -/
def startFunc (fid : Nat) (peer : PeerSays) (s : State) : Ans :=
  match checkStart s fid (some peer) with
  | some f => failStart fid f s
  | none =>
    if slowStart fid then accepted (setFunc fid (fun f => { f with state := .starting, reverting := false }) s) .funcStart fid
    else ok (completeStart fid s)

/-- R89: the final response of a start that failed validation follows its ACCEPTED. -/
def settleStart (fid : Nat) (peer : PeerSays) (s : State) : State :=
  if (funcOf s fid).state = .startFailed then
    match checkStart s fid (some peer) with
    | some f => finishBad (startViolates s fid f) .funcStart fid f.status (failData f) s
    | none => s
  else s

/-- R84, R88, R89, R760: `FUNC_START`. `peerDigest` and `peerActive` are what the sister says during the validation of a MIRRORED
context (R658). -/
def execFuncStart (h : Hdr) (fid peerDigest : Nat) (peerActive : Bool) (s : State) : Host.Outcome State Fault Refusal :=
  .next (settleStart fid ⟨peerDigest, peerActive⟩ (command h (funcSpec 0x0101 fid true) (fun call s =>
    match fidRefused s fid with
    | some st => no s st
    | none =>
      match startRefused (funcOf s fid) call.mb with
      | some st => no s st
      | none => startFunc fid ⟨peerDigest, peerActive⟩ s) s))

/-- R88–R91: a start or a revert finishes; what the module's state no longer allows fails now. -/
def execFunctionStartDone (dt fid : Nat) (s : State) : Host.Outcome State Fault Refusal :=
  .next (event dt (fun s =>
    let f := funcOf s fid
    if f.state ≠ .starting then s
    else if f.reverting then
      finish .funcRevert fid .ok [] (setFunc fid (fun f => { f with state := .running, reverting := false }) s)
    else if fidClass fid = 1 && startWaits s (fidNo fid) then s
    else match checkStart s fid none with
      | some e =>
        pendingRevert fid (finishBad (startViolates s fid e) .funcStart fid e.status (failData e) (setFunc fid (fun f => { f with state := .startFailed }) s))
      | none => finish .funcStart fid .ok [] (completeStart fid s)) s)

/-! ### Reverting -/

/-- R84, R91: the answer of a revert that acts on a quiesced function. -/
def revertAnswer (fid : Nat) (s : State) : Ans := if slowStart fid then accepted s .funcRevert fid else ok s

/-- R84, R90, R91, R760: `FUNC_REVERT`. -/
def execFuncRevert (h : Hdr) (fid : Nat) (force : Bool) (s : State) : Host.Outcome State Fault Refusal :=
  .next (command h (funcSpec 0x0102 fid true) (fun call s =>
    if force && call.mb ≠ 0 then no s .denied
    else match fidRefused s fid with
      | some st => no s st
      | none =>
        let f := funcOf s fid
        if force then
          if quiesced s fid then revertAnswer fid (revertFor fid .forced s) else ok (revertFor fid .forced s)
        else match startRefused f call.mb with
          | some st => no s st
          | none => revertAnswer fid (beginRevert fid s)) s)

/-- R91: the hold_ms of a function ends. -/
def execHoldMsExpiry (dt fid : Nat) (s : State) : Host.Outcome State Fault Refusal :=
  .next (event dt (fun s =>
    match (funcOf s fid).deadline with
    | none => s
    | some t => if now s < t then s else revertFor fid .holdExpired (modFunc fid (fun f => { f with deadline := none }) s)) s)

/-! ### Status -/

/-- R85: the values of the states. -/
def funcStateCode : FuncState → Nat
  | .running => 0
  | .stopping => 1
  | .stopped => 2
  | .starting => 3
  | .startFailed => 4

/-- R84, R85: `FUNC_STATUS`: state, holder (0xFF none), what is left of hold_ms, and the number of staged commands (log entry 9). -/
def execFuncStatus (h : Hdr) (fid : Nat) (s : State) : Host.Outcome State Fault Refusal :=
  .next (command h (funcSpec 0x0103 fid false) (fun _ s =>
    if !fidExists fid then no s .badArg
    else if noFunc s fid then no s .badState
    else
      let f := funcOf s fid
      okData s [⟨1, funcStateCode f.state⟩, ⟨1, f.holder.getD 0xFF⟩,
        ⟨4, f.deadline.elim 0 fun t => ceilDiv (t - now s) 1000000⟩, ⟨2, f.staged.length⟩]) s)

end Sys2Proof.Machine
end

