-- ==== Sys2Proof/Machine/Gauges.lean ====
section
/-! DEFINITION. The gauges, the counter reader and sampling (R694–R716, R727–R729), and writes to read-only registers. -/
namespace Sys2Proof.Machine

/-! ### Units (R694, R695) -/

/-- R695: how many instances a class has that R706 can name. -/
def unitCount : Nat → Nat
  | 1 => 252
  | 2 => 16
  | 3 => 16
  | 4 => 33
  | 5 => 6
  | _ => 0

def unitExists (u : Nat) : Bool := u % 4096 < unitCount (u / 4096)

/-- R710: the unit is excluded or unavailable. -/
def unitAbsent (s : State) (u : Nat) : Bool :=
  let i := u % 4096
  match u / 4096 with
  | 1 => blockState s (blockOf i) = 3
  | 2 => !bitOf s.boot.yards i
  | 3 => groupExcluded s i
  | 4 => portState s i = .absent || portState s i = .excluded
  | _ => !pipeAvailable s i

/-- R716: the unit is one of a context's own. -/
def unitOf (s : State) (c u : Nat) : Bool :=
  let i := u % 4096
  match u / 4096 with
  | 1 => blockOwner s (blockOf i) = some c
  | 2 => groupOwner s i = some c
  | 3 => groupOwner s i = some c
  | 4 => bitOf (portOf s i).contexts c
  | _ => (ctxSessions s c).any fun q => (vidBase s q.1 q.2).elim false fun b => b.pipe = i

/-- R194, R279, R646: a confidential context's benches show their gauges to nobody, its groups and yards to itself alone. -/
def unitWithheld (s : State) (viewer : Option Nat) (u : Nat) : Bool :=
  let i := u % 4096
  let conf (o : Option Nat) : Bool := o.elim false fun c => isConf s c
  match u / 4096 with
  | 1 => confBlock s (blockOf i)
  | 2 => conf (groupOwner s i) && groupOwner s i ≠ viewer
  | 3 => conf (groupOwner s i) && groupOwner s i ≠ viewer
  | _ => false

/-- R701: the gauge page of a bench. -/
def benchArea (g : BenchGau) : List Nat :=
  (List.range 8).map (fun i => g.counts.getD i 0 + 2 ^ 48 * g.codes.getD i 0)
    ++ [g.retired, g.wasted, g.front, g.back, g.slots, g.nanZero, g.samples]

/-- R703–R705: the counters of a unit; those that count what this model leaves out (activates, refreshes, times: log entry 24)
are free values, from `f` on. -/
def unitArea (s : State) (f u : Nat) : List Nat :=
  let n (i : Nat) : Nat := tget s.gau.cnt (u * 32 + i) 0
  let open_ (i w : Nat) : Nat := Config.freeValue (f + i) % 2 ^ w
  match u / 4096 with
  | 1 => benchArea (benchGau s (u % 4096))
  | 2 => (List.range 8).map n ++ [open_ 0 64]
  | 3 => [n 0, n 1, open_ 0 48, open_ 1 48, n 4, n 5, open_ 2 64, open_ 3 48]
  | 4 => (portRegs s (u % 4096)).map (·.val)
  | _ => (List.range 6).map n

/-- The 32 registers of a unit's gauge area as one mailbox reads them. -/
def areaFor (s : State) (viewer : Option Nat) (f u : Nat) : List Nat :=
  let l := if unitAbsent s u || unitWithheld s viewer u then [] else unitArea s f u
  (l ++ List.replicate 32 0).take 32

/-! ### Programmable counters -/

/-- R697: the codes a counter can select. -/
def eventCode (n : Nat) : Bool := n ≤ 0x14

/-- R696: a change of selection restarts a counter at 0. -/
def selectCodes (l : List Nat) (g : BenchGau) : BenchGau :=
  let new := (List.range 8).map fun i => if l.getD i 0 = g.codes.getD i 0 then g.counts.getD i 0 else 0
  { g with codes := l, counts := new }

/-- R696, R697, R728: `GAU_SELECT`. -/
def execGauSelect (h : Hdr) (benches codes : List Nat) (s : State) : Host.Outcome State Fault Refusal :=
  .next (command h { op := 0x0C00, who := who0Own } (fun call s =>
    if benches.isEmpty || benches.any (252 ≤ ·) || codes.length ≠ 8 || !codes.all eventCode then no s .badArg
    else if benches.any fun b => unitWithheld s none (0x1000 + b) then no s .confidential
    else if (viewerOf s call.mb).elim false fun c => benches.any fun b => !unitOf s c (0x1000 + b) then no s .denied
    else ok (benches.foldl (fun s b => modGau b (selectCodes codes) s) s)) s)

/-- R727, R716, R650: `GAU_READ`: `n` registers of a unit from register `first` on. -/
def execGauRead (h : Hdr) (u first n : Nat) (s : State) : Host.Outcome State Fault Refusal :=
  .next (command h { op := 0x0C02, who := whoAll, reads := true } (fun call s =>
    let v := viewerOf s call.mb
    if !unitExists u || n = 0 || 27 < n || 32 < first + n then no s .badArg
    else if v.elim false fun c => !unitOf s c u then no s .denied
    else if v.isNone && unitWithheld s v u then no s .confidential
    else okData { s with free := s.free + 4 } (((areaFor s v s.free u).drop first).take n |>.map fun x => ⟨8, x⟩)) s)

/-! ### Snapshots (R706–R710) -/

/-- R706, R710: the units of a snapshot, in ascending identifier; of a context mailbox its own ones. -/
def snapUnits (s : State) (q : Snapshot) : List Nat :=
  let all := [1, 2, 3, 4, 5].flatMap fun k => if bitOf q.mask k then (List.range (unitCount k)).map (4096 * k + ·) else []
  match q.ctx with
  | some c => all.filter (unitOf s c)
  | none => all

/-- R709, R710: one unit's record. -/
def snapRecord (s : State) (q : Snapshot) (u : Nat) : List Fld :=
  let flags := if unitAbsent s u then 2 else bit (unitWithheld s q.ctx u)
  [⟨2, u⟩, ⟨1, flags⟩, ⟨13, 0⟩] ++ (areaFor s q.ctx (s.free + 4 * u) u).map fun x => ⟨8, x⟩

/-- R708: the image of a snapshot latched at a stamp. -/
def snapImage (s : State) (q : Snapshot) (at_ : Stamp) : List Fld :=
  let l := snapUnits s q
  [⟨10, stampNat q.at_⟩, ⟨10, stampNat at_⟩, ⟨2, moduleNo s⟩, ⟨4, s.nv.powerCycle⟩, ⟨2, l.length⟩, ⟨1, q.mask⟩, ⟨1, bit q.late⟩, ⟨34, 0⟩]
    ++ l.flatMap (snapRecord s q)

/-- R180, R706: the counter reader's command goes to each bench of a snapshot. -/
def sendLatch (us : List Nat) (s : State) : State :=
  us.foldl (fun s u => if u / 4096 = 1 && !unitAbsent s u then sendSquare .latch (u % 4096) s else s) s

/-- R706: the counter reader latches the gauges of a snapshot. -/
def latch (id : Nat) (s : State) : State :=
  match s.gau.snaps.find? fun q => q.id = id with
  | none => s
  | some q =>
    if q.image.isSome then s
    else
      let p := issueStamp (sendLatch (snapUnits s q) s)
      let img := snapImage p.2 q p.1
      { p.2 with
        free := p.2.free + 0x18000
        gau := { p.2.gau with
          lastSnap := p.1.ns, lastLate := q.late
          snaps := mapIf (fun x => x.id = id) (fun x => { x with image := some img }) p.2.gau.snaps } }

/-- R727: a remote mailbox's destination is a lot with w: of its context, or of the context that owns the address. -/
def snapDest (s : State) (m : Nat) : Dest → Bool
  | .host _ => m ≤ 16
  | .lotAddr a => 17 ≤ m && m ≤ 24 && (((viewerOf s m).orElse fun _ => addrOwner s a).elim false fun c => lotPasses s c a 64 .w false)
  | .inline => false

/-- R706, R707: `GAU_SNAPSHOT`. A latch stamp that has passed latches at once. -/
def execGauSnapshot (h : Hdr) (at_ : Stamp) (mask : Nat) (dest : Dest) (s : State) : Host.Outcome State Fault Refusal :=
  .next (command h { op := 0x0C01, who := who0Own } (fun call s =>
    if mask % 2 = 1 || 64 ≤ mask || call.stamp.ns + 60000000000 < at_.ns || !snapDest s call.mb dest then no s .badArg
    else if 4 ≤ s.gau.snaps.length then no s .noResource
    else
      let p := freshId s
      let late := decide (at_.ns ≤ p.2.time.t)
      let q : Snapshot := ⟨p.1, at_, mask, dest, call.mb, viewerOf s call.mb, late, none⟩
      let s := { p.2 with gau := { p.2.gau with snaps := p.2.gau.snaps ++ [q] } }
      accepted (if late then latch p.1 s else s) .snapshot p.1) s)

/-- R706: T reaches the latch stamp. -/
def execSnapshotLatch (dt id : Nat) (s : State) : Host.Outcome State Fault Refusal :=
  .next (event dt (fun s =>
    match s.gau.snaps.find? fun q => q.id = id with
    | some q => if q.at_.ns ≤ s.time.t then latch id s else s
    | none => s) s)

/-- R708: the image has been written. A lot that no longer passes takes nothing (R44). -/
def execSnapshotWriteDone (dt id : Nat) (s : State) : Host.Outcome State Fault Refusal :=
  .next (event dt (fun s =>
    match takeFirst (fun q : Snapshot => q.id = id && q.image.isSome) s.gau.snaps with
    | none => s
    | some (q, rest) =>
      let s := { s with gau := { s.gau with snaps := rest } }
      let img := q.image.getD []
      let s := match q.dest with
        | .host a => hostWrite a img s
        | .lotAddr a =>
          let c := q.ctx.orElse fun _ => addrOwner s a
          if c.elim false fun c => lotPasses s c a (fieldLen img) .w false then
            writeBytes a (fieldBytes img) [] (touchYard .square a (fieldLen img) .request .write s)
          else record 0x9101 2 0 c true [⟨8, a⟩] s
        | .inline => s
      finish .snapshot id .ok [] s) s)

/-! ### Sampling -/

/-- R713: the parameters of `GAU_SAMPLE_SET`. -/
def sampleParOk (n logRecords watermark vector : Nat) : Bool :=
  8 ≤ n && n ≤ 20 && 10 ≤ logRecords && logRecords ≤ 18 && 1 ≤ watermark && watermark ≤ 2 ^ logRecords && vector < 120

/-- R713, R728: `GAU_SAMPLE_SET`. -/
def execGauSampleSet (h : Hdr) (c n addr logRecords watermark vector prodAddr : Nat) (s : State) : Host.Outcome State Fault Refusal :=
  .next (command h { op := 0x0C03, who := who0Own, ctx := some c } (fun _ s =>
    if isConf s c then no s .confidential
    else if !ctxDefined s c then no s (noCtx c)
    else if !sampleParOk n logRecords watermark vector then no s .badArg
    else if (samplingOf s c).enabled then no s .busy
    else ok (modSampling c (fun _ =>
      { enabled := true, n := n, logRecords := logRecords, watermark := watermark, vector := vector, addr := addr
        prodAddr := prodAddr }) s)) s)

/-- R727, R728: `GAU_SAMPLE_STOP`. -/
def execGauSampleStop (h : Hdr) (c : Nat) (s : State) : Host.Outcome State Fault Refusal :=
  .next (command h { op := 0x0C04, who := who0Own, ctx := some c } (fun _ s =>
    if isConf s c then no s .confidential
    else if !ctxDefined s c then no s (noCtx c)
    else ok (modSampling c (fun x => { x with enabled := false }) s)) s)

def countGauWrite (s : State) : State := { s with gau := { s.gau with roWrites := satAdd 64 s.gau.roWrites 1 } }

/-- R713, R715, R729: a write of `GAU_SAMPLE_CONS` by PF0 (`fn` 0) or the context's VF. -/
def execGauSampleConsWrite (dt fn c v : Nat) (ideT : Bool) (s : State) : Host.Outcome State Fault Refusal :=
  .next (event dt (fun s =>
    let x := samplingOf s c
    if !s.tray.linkUp then s
    else if ideRefused s fn ideT then countIdeDrop s
    else if 16 ≤ c || (fn ≠ 0 && fn ≠ c + 1)
        || (x.prod + 2 ^ 32 - x.cons) % 2 ^ 32 < (v % 2 ^ 32 + 2 ^ 32 - x.cons) % 2 ^ 32 then countGauWrite s
    else modSampling c (fun x => { x with cons := v % 2 ^ 32 }) s) s)

/-! ### Registers -/

/-- R729: `GAU_STATUS` and `GAU_SAMPLE_CFG`. -/
def gauStatus (s : State) : Nat := s.gau.snaps.length + 8 * bit s.gau.lastLate
def gauSampleCfg (s : State) (c : Nat) : Nat :=
  let x := samplingOf s c
  bit x.enabled + 2 ^ 8 * (if x.enabled then x.n else 0) + 2 ^ 16 * (if x.enabled then x.logRecords else 0)

/-- R62: a PF0 write to a register of its BAR0. -/
def countPf0 (s : State) : State := { s with sq := { s.sq with roWrites := satAdd 64 s.sq.roWrites 1 } }

/-- R62, R96, R193, R278, R282, R280, R427, R480, R521, R606, R652, R729, R730: a write to a register without behaviour of its own is
ignored and counted, in the counter of its block. -/
def countRoWrite (b : RoBlock) (s : State) : State :=
  match b with
  | .pf0 => countPf0 s
  | .mailbox m => violation m s
  | .bench b => if b < 252 then modBench b (fun x => { x with roWrites := satAdd 64 x.roWrites 1 }) s else s
  | .yard g => if g < 16 then modYard g (fun x => { x with roWrites := satAdd 64 x.roWrites 1 }) s else s
  | .channelGroup g => if g < 16 then modGroup g (fun x => { x with roWrites := satAdd 64 x.roWrites 1 }) s else s
  | .serving _ => { s with serve := { s.serve with badWrites := satAdd 64 s.serve.badWrites 1 } }
  | .xlt => { s with net := { s.net with roWrites := satAdd 64 s.net.roWrites 1 } }
  | .video => { s with vid := { s.vid with roWrites := satAdd 64 s.vid.roWrites 1 } }
  | .power => { s with pwr := { s.pwr with roWrites := satAdd 64 s.pwr.roWrites 1 } }
  | .security => { s with sec := { s.sec with roWrites := satAdd 64 s.sec.roWrites 1 } }
  | .gauges => countGauWrite s
  | .recorder => { s with rec_ := { s.rec_ with roWrites := satAdd 64 s.rec_.roWrites 1 } }

/-- R62, R96, R98, R730: the write by a function (PF0, 0, or a VF) reaches the module over the PCIe link. The SQ, MBX and REC blocks stand in PF0's BAR0
alone; a write through PF0's BAR0 to another block counts in that block's counter and in `SQ_RO_WRITES`. -/
def execReadOnlyWrite (dt fn : Nat) (b : RoBlock) (ideT : Bool) (s : State) : Host.Outcome State Fault Refusal :=
  .next (event dt (fun s =>
    if !reachable s fn || 16 < fn then s
    else if ideRefused s fn ideT then countIdeDrop s
    else match b with
      | .mailbox m => if m = fn then countRoWrite b s else s
      | .pf0 => if fn = 0 then countRoWrite b s else s
      | .recorder => if fn = 0 then countPf0 (countRoWrite b s) else s
      | _ => if fn = 0 then countPf0 (countRoWrite b s) else countRoWrite b s) s)

end Sys2Proof.Machine
end

