-- ==== Sys2Proof/Machine/Node.lean ====
section
/-! DEFINITION. The frames that an Ethernet port answers by itself (R436). -/
namespace Sys2Proof.Machine

/-- A frame of `len` bytes reaches a port; a frame for an UP port is counted. -/
def takeFrame_ (port len : Nat) (s : State) : State :=
  modPort port (fun p => { p with rxFrames := wrapAdd 64 p.rxFrames 1, rxBytes := wrapAdd 64 p.rxBytes len }) s

/-- The node answers, with a frame of the same length. -/
def answerFrame (port len dest : Nat) (a : NodeAnswer) (s : State) : State :=
  let s := modPort port (fun p => { p with txFrames := wrapAdd 64 p.txFrames 1, txBytes := wrapAdd 64 p.txBytes len }) s
  { s with net := { s.net with answers := (port, dest, a) :: s.net.answers } }

/-- R436: a frame that the port accepts when its address is the port's; any other is dropped and counted. -/
def nodeFrame (dt port len : Nat) (mine : Port → Bool) (body : State → State) (s : State) : State :=
  event dt (fun s =>
    if portState s port ≠ .up then s
    else if mine (portOf s port) then body (takeFrame_ port len s)
    else modPort port (fun p => { p with rxDrops := satAdd 64 p.rxDrops 1 }) s) s

/-- R436: ARP for the port's IPv4 address. -/
def execArpRequest (dt port len target sender : Nat) (s : State) : Host.Outcome State Fault Refusal :=
  .next (nodeFrame dt port len (fun p => p.cfg.ip4 ≠ 0 && p.cfg.ip4 = target) (fun s => answerFrame port len sender (.arp target (portMac s port)) s) s)

/-- R436: Neighbor Solicitation for the port's IPv6 address is answered; a Neighbor Advertisement for it is accepted. -/
def execNeighborSolicitation (dt port len target sender : Nat) (solicits : Bool) (s : State) : Host.Outcome State Fault Refusal :=
  .next (nodeFrame dt port len (fun p => p.cfg.ip6 ≠ 0 && p.cfg.ip6 = target)
    (fun s => if solicits then answerFrame port len sender (.neighbor target (portMac s port)) s else s) s)

/-- R436: an Echo Request is answered, at most 100 times in a second on each port. -/
def execEchoRequest (dt port len : Nat) (v6 : Bool) (target sender : Nat) (data : List Byte) (s : State) :
    Host.Outcome State Fault Refusal :=
  .next (nodeFrame dt port len (fun p =>
    if v6 then p.cfg.ip6 ≠ 0 && p.cfg.ip6 = target else p.cfg.ip4 ≠ 0 && p.cfg.ip4 = target) (fun s =>
      let recent := (portOf s port).echoTimes.filter fun t => now s < t + 1000000000
      if 100 ≤ recent.length then s
      else answerFrame port len sender (.echo data) (modPort port (fun p => { p with echoTimes := recent ++ [now s] }) s)) s)

end Sys2Proof.Machine
end

