-- ==== Sys2Proof/Machine/Sec.lean ====
section
/-! DEFINITION. Attestation, weight packages and key release, the host's trusted domain, and the resets of the PCIe side (R621–R638,
R649, R748). -/
namespace Sys2Proof.Machine

/-! ### Package keys (R630, R649) -/

/-- R649, R622: `SEC_PKG_KEY_ADD`; the keys are frozen once the TDI is locked. -/
def execSecPkgKeyAdd (h : Hdr) (c key : Nat) (s : State) : Host.Outcome State Fault Refusal :=
  .next (command h { op := 0x0A02, who := who0Own, ctx := some c, conf := true } (fun _ s =>
    if 2 ^ 512 ≤ key then no s .badArg
    else if !ctxDefined s c then no s (noCtx c)
    else if (ctxOf s c).pkgKeys.contains key then ok s
    else if tdiLocked s c then no s .badState
    else if 8 ≤ (ctxOf s c).pkgKeys.length then no s .noResource
    else ok (modCtx c (fun x => { x with pkgKeys := x.pkgKeys ++ [key] }) s)) s)

/-- R649, R622: `SEC_PKG_KEY_REMOVE`. -/
def execSecPkgKeyRemove (h : Hdr) (c key : Nat) (s : State) : Host.Outcome State Fault Refusal :=
  .next (command h { op := 0x0A03, who := who0Own, ctx := some c, conf := true } (fun _ s =>
    if 2 ^ 512 ≤ key then no s .badArg
    else if !ctxDefined s c then no s (noCtx c)
    else if !(ctxOf s c).pkgKeys.contains key then ok s
    else if tdiLocked s c then no s .badState
    else ok (modCtx c (fun x => { x with pkgKeys := x.pkgKeys.filter (· ≠ key) }) s)) s)

/-! ### Weight packages (R630–R637) -/

/-- R631: the header of a package as it is read. -/
structure Package where
  magic : Nat
  format : Nat
  kind : Nat
  flags : Nat
  id : Nat
  tensors : Nat
  cipher : Nat
  rho : Nat
  payload : Nat
  iv : Nat
  name : Nat
  rank : Nat
  formatV : Nat
  alpha : Nat
  rsvd : Bool
  deriving DecidableEq, Repr, Inhabited

def packageOf (b : List Byte) : Package :=
  { magic := fieldAt b 0 4, format := fieldAt b 4 2, kind := fieldAt b 6 1, flags := fieldAt b 7 1, id := fieldAt b 8 16
    tensors := fieldAt b 28 4, cipher := fieldAt b 32 1, rho := fieldAt b 36 4, payload := fieldAt b 40 8, iv := fieldAt b 48 8, name := fieldAt b 56 8
    rank := fieldAt b 64 2, formatV := fieldAt b 66 1, alpha := fieldAt b 68 4
    rsvd := fieldAt b 33 3 = 0 && fieldAt b 67 1 = 0 && fieldAt b 72 56 = 0 }

def sealed (p : Package) : Bool := bitOf p.flags 0

/-- R630: where the payload starts, and where it ends. -/
def payloadAt (p : Package) : Nat := 128 + 64 * p.tensors
def payloadEnd (p : Package) : Nat := payloadAt p + p.payload

/-- R633: the chunks of a payload. -/
def chunks (p : Package) : Nat := ceilDiv p.payload 65536

/-- R630: where the trailer starts: after the tag array of a sealed package. -/
def trailerAt (p : Package) : Nat := if sealed p then 64 * ceilDiv (payloadEnd p) 64 + 16 * chunks p else payloadEnd p

/-- R632: a tensor entry is valid: its format code, its reserved bytes, and its place in the payload. -/
def tensorOk (p : Package) (b : List Byte) : Bool :=
  fieldAt b 8 1 < 0x14 && fieldAt b 9 3 = 0 && fieldAt b 48 16 = 0 && fieldAt b 28 8 + fieldAt b 36 8 ≤ p.payload

/-- R631, R638: the header is valid, its ratio is 1.0 where no tensor is coded, and a confidential context's package is sealed. -/
def packageValid (p : Package) (len : Nat) (conf : Bool) : Bool :=
  let kind := if p.kind = 0 then p.name = 0 && p.rank = 0 && p.formatV = 0 && p.alpha = 0
    else p.kind = 1 && 1 ≤ p.rank && p.rank ≤ 256 && (p.formatV = 1 || p.formatV = 2)
  p.magic = 0x57504B01 && p.format = 1 && p.flags < 4 && (bitOf p.flags 1 || p.rho = 0x3F800000) && 1 ≤ p.tensors && p.tensors ≤ 65535 && p.rsvd && kind
    && (if sealed p then p.cipher = 1 || p.cipher = 2 else p.cipher = 0 && !conf) && len = trailerAt p + 128

/-- R633: byte i of the plaintext of a sealed payload. -/
def unsealByte (p : Package) (key i : Nat) (b : Byte) : Byte :=
  b ^^^ Config.keyStream p.cipher key (p.iv + 2 ^ 64 * (i / 65536)) (i % 65536)

/-- R637: what an unsealing comes to: its answer, with the bytes to write, or a failure with its recorder code and how many
bytes were written and are zeroed again. -/
inductive Unsealed where
  | done (bytes : List Byte)
  | failed (st : Status) (reason code wrote : Nat)
  deriving DecidableEq, Repr, Inhabited

/-- R637 check 1: source and destination lie in lots of the context, of which the destination grants w, and is encrypted for a
confidential context. -/
def unsealLots (s : State) (u : Unseal) (outLen : Nat) : Bool :=
  lotPasses s u.ctx u.src u.len .r false && lotPasses s u.ctx u.dst outLen .w false
    && (!isConf s u.ctx || (lotAt s u.ctx u.dst outLen).elim false fun e => lotEnc e.2)

/-- R637: the checks in their order. `badChunk` is the first chunk whose tag is not valid. -/
def unsealOutcome (s : State) (u : Unseal) (badChunk : Option Nat) : Unsealed :=
  let x := ctxOf s u.ctx
  let p := packageOf (consumeBytes s u.src 128)
  if u.len < 256 || !unsealLots s u (min (payloadEnd p) u.len) then .failed .badArg 0xA0 0 0
  else if !(packageValid p u.len (isConf s u.ctx)
      && (List.range p.tensors).all fun i => tensorOk p (consumeBytes s (u.src + 128 + 64 * i) 64)) then .failed .badArg 0xA1 0 0
  else
    let kid := fieldAt (consumeBytes s (u.src + trailerAt p) 128) 0 8
    if !(x.pkgKeys.any (fun k => keyIdOf k = kid) && u.sigOk) then .failed .denied 0xA2 0x9301 0
    else
      let b := consumeBytes s u.src (payloadEnd p)
      if !sealed p then .done b
      else match (heldKeys x).find? fun k => k.2.packageId = p.id with
        | none => .failed .noResource 0xA3 0 0
        | some k =>
          match badChunk with
          | some n => if n < chunks p then .failed .faulted 0xA4 0x9302 (payloadAt p + 65536 * n)
              else .done (b.take (payloadAt p) ++ (b.drop (payloadAt p)).mapIdx fun i v => unsealByte p k.2.key i v)
          | none => .done (b.take (payloadAt p) ++ (b.drop (payloadAt p)).mapIdx fun i v => unsealByte p k.2.key i v)

/-- R649: `WGT_UNSEAL`. `sigOk` says that the trailer's signature is valid under the key that its key identifier names. -/
def execWgtUnseal (h : Hdr) (c src len dst : Nat) (sigOk : Bool) (s : State) : Host.Outcome State Fault Refusal :=
  .next (command h { op := 0x0620, who := who0Own, ctx := some c, conf := true } (fun _ s =>
    if !ctxDefined s c || (ctxOf s c).state = .destroying then no s (noCtx c)
    else
      let p := freshId s
      accepted { p.2 with sec := { p.2.sec with unseals := p.2.sec.unseals ++ [⟨p.1, c, src, len, dst, sigOk⟩] } } .unseal p.1) s)

/-- R96: a package in a lot has a reserved field of its header or of a tensor entry that is not zero. -/
def packageReserved (s : State) (u : Unseal) : Bool :=
  let p := packageOf (consumeBytes s u.src 128)
  !p.rsvd || (List.range p.tensors).any fun i =>
    let b := consumeBytes s (u.src + 128 + 64 * i) 64
    !(fieldAt b 9 3 = 0 && fieldAt b 48 16 = 0)

/-- R637: a successful unsealing writes the destination, whose lot a confidential context may then serve from (R638). -/
def unsealDone (u : Unseal) (bytes : List Byte) (s : State) : State :=
  let s := writeBytes u.dst bytes [] (consumeCount u.src u.len s)
  let s := match lotAt s u.ctx u.dst bytes.length with
    | some e => modCtx u.ctx (fun x => { x with unsealed := x.unsealed.filter (· ≠ lotBase e.2) ++ [lotBase e.2] }) s
    | none => s
  finish .unseal u.id .ok [] s

/-- R637: an unsealing ends. -/
def execWgtUnsealDone (dt id : Nat) (badChunk : Option Nat) (s : State) : Host.Outcome State Fault Refusal :=
  .next (event dt (fun s =>
    match takeFirst (fun u => u.id = id) s.sec.unseals with
    | none => s
    | some (u, rest) =>
      let s := { s with sec := { s.sec with unseals := rest } }
      match unsealOutcome s u badChunk with
      | .done bytes => unsealDone u bytes s
      | .failed st reason code wrote =>
        let s := writeBytes u.dst (List.replicate wrote 0) [] s
        let s := if code = 0 then s
          else record code 2 0x9000 (some u.ctx) false (if code = 0x9302 then [⟨4, badChunk.getD 0⟩] else []) s
        finishBad (reason = 0xA1 && packageReserved s u) .unseal id st [⟨2, reason⟩] s) s)

/-! ### SPDM (R626–R629) -/

/-- R649: `SEC_SPDM`: the message is a command of the responder; its final response carries the responder's answer. -/
def execSecSpdm (h : Hdr) (c : Nat) (s : State) : Host.Outcome State Fault Refusal :=
  .next (command h { op := 0x0A00, who := whoOwn, ctx := some c } (fun _ s =>
    if !ctxDefined s c || (ctxOf s c).state = .destroying then no s (noCtx c) else accepted s .spdm c) s)

/-- R626: the path reaches the responder: PF0's DOE while the link is up, the sideband, or a SEC_SPDM that waits for its answer. -/
def pathOpen (s : State) : SpdmPath → Bool
  | .doe => s.tray.linkUp && s.boot.ended.contains 18
  | .sideband => s.tray.keepAlive && s.boot.ended.contains 18
  | .context c => working .spdm c s

/-- What the responder answers: an error, or the data the manual gives. -/
structure Reply where
  s : State
  error : Bool
  data : List Fld
  deriving DecidableEq, Repr, Inhabited

def reply (s : State) (d : List Fld) : Reply := ⟨s, false, d⟩
def spdmError (s : State) : Reply := ⟨s, true, []⟩

/-- The responder's answer is given; the answer to a request that SEC_SPDM carried is that command's final response. -/
def giveReply (p : SpdmPath) (r : Reply) : State :=
  let s := { r.s with sec := { r.s.sec with answers := ⟨p, r.error, r.data⟩ :: r.s.sec.answers } }
  match p with
  | .context c => finish .spdm c .ok r.data s
  | _ => s

/-- A request on a path that reaches the responder is answered. -/
def answerOn (p : SpdmPath) (body : State → Reply) (s : State) : State :=
  if pathOpen s p then giveReply p (body s) else s

def spdm (dt : Nat) (p : SpdmPath) (body : State → Reply) (s : State) : State := event dt (answerOn p body) s

/-- How far a path has come in GET_VERSION, GET_CAPABILITIES and NEGOTIATE_ALGORITHMS. -/
def connStage (s : State) (p : SpdmPath) : Nat := ((s.sec.connection.find? fun q => q.1 = p).map (·.2)).getD 0

def setStage (p : SpdmPath) (n : Nat) (s : State) : State :=
  { s with sec := { s.sec with connection := (p, n) :: s.sec.connection.filter fun q => q.1 ≠ p } }

/-- R627: a path's first request. -/
def execGetVersion (dt : Nat) (p : SpdmPath) (s : State) : Host.Outcome State Fault Refusal :=
  .next (spdm dt p (fun s => reply (setStage p 1 s) [⟨2, 0x1200⟩]) s)

/-- R627. -/
def execGetCapabilities (dt : Nat) (p : SpdmPath) (s : State) : Host.Outcome State Fault Refusal :=
  .next (spdm dt p (fun s => if connStage s p < 1 then spdmError s else reply (setStage p 2 s) [⟨4, Config.spdmInfo 1⟩]) s)

/-- R627: the responder selects SM2 P256, SM3-256 and SM4-GCM-128, when the request offers them. -/
def execNegotiateAlgorithms (dt : Nat) (p : SpdmPath) (offered : Bool) (s : State) : Host.Outcome State Fault Refusal :=
  .next (spdm dt p (fun s =>
    if connStage s p < 2 || !offered then spdmError s else reply (setStage p 3 s) [⟨4, Config.spdmInfo 2⟩]) s)

/-- R627, R628: the digest of the slot-0 chain. -/
def execGetDigests (dt : Nat) (p : SpdmPath) (s : State) : Host.Outcome State Fault Refusal :=
  .next (spdm dt p (fun s => if connStage s p < 3 then spdmError s else reply s [⟨1, 1⟩, ⟨32, Config.sm3 Config.certChain⟩]) s)

/-- R627, R628: a part of the slot-0 chain. -/
def execGetCertificate (dt : Nat) (p : SpdmPath) (slot off len : Nat) (s : State) : Host.Outcome State Fault Refusal :=
  .next (spdm dt p (fun s =>
    if connStage s p < 3 || slot ≠ 0 || Config.certChain.length ≤ off then spdmError s
    else reply s (((Config.certChain.drop off).take len).map fun b => ⟨1, b.toNat⟩)) s)

/-- A signature of the identity key over fields (R628). -/
def signed (d : List Fld) (s : State) : Reply :=
  let p := takeFree s
  reply p.2 (d ++ [⟨64, Config.signature (s.boot.keys.identity.getD 0) p.1 (fieldBytes d)⟩])

/-- R627, R628. -/
def execChallenge (dt : Nat) (p : SpdmPath) (slot : Nat) (s : State) : Host.Outcome State Fault Refusal :=
  .next (spdm dt p (fun s =>
    if connStage s p < 3 || slot ≠ 0 then spdmError s else signed [⟨32, Config.sm3 Config.certChain⟩] s) s)

/-- R629: a resident jig as its hash sees it: everything its container holds. -/
def jigImage (j : Jig) : List Byte :=
  let stage (x : Stage) : List Fld :=
    [⟨4, x.num⟩, ⟨4, x.unit⟩, ⟨4, x.inCount⟩] ++ x.inputs.flatMap fun i => [⟨4, i.source⟩, ⟨4, i.depth⟩, ⟨4, i.init⟩]
  let op (o : Op) : List Fld :=
    [⟨1, o.cls⟩, ⟨1, o.variant⟩, ⟨2, o.stage⟩, ⟨2, o.dst⟩, ⟨2, o.a⟩, ⟨2, o.b⟩, ⟨2, o.c⟩, ⟨4, o.count⟩, ⟨2, o.flags⟩, ⟨8, o.imm⟩]
  fieldBytes ([⟨4, j.magic⟩, ⟨2, j.format⟩, ⟨2, j.flags⟩, ⟨8, j.jigId⟩, ⟨2, j.opCount⟩, ⟨2, j.stageCount⟩, ⟨2, j.constBytes⟩,
    ⟨2, j.epoch⟩, ⟨1, j.tagsS0⟩, ⟨1, j.tagsS1⟩, ⟨1, j.lead⟩, ⟨6, j.bankMask⟩, ⟨4, j.bound⟩, ⟨8, j.formats⟩, ⟨8, j.keyId⟩]
    ++ j.stages.flatMap stage) ++ j.consts ++ fieldBytes (j.ops.flatMap op)

/-- R629: the ports of a context and their assignment. -/
def portFields (s : State) (c : Nat) : List Fld :=
  s.net.ports.flatMap fun p =>
    if bitOf p.2.contexts c then [⟨1, p.1⟩, ⟨1, bit p.2.exclusive⟩, ⟨2, p.2.contexts⟩] else []

/-- R629, R658: measurement 10. -/
def measureConfig (s : State) (c : Nat) : List Fld :=
  let x := ctxOf s c
  [⟨1, bit x.confidential + 2 * x.cipher + 4 * bit x.timeShare + 8 * bit x.plainNet⟩, ⟨8, x.blocks⟩, ⟨2, x.groups⟩, ⟨2, x.sliceBase⟩,
    ⟨2, x.sliceCount⟩, ⟨2, x.quota⟩, ⟨1, tdiCode x.tdi⟩, ⟨1, (redOf s c).par.mode⟩] ++ portFields s c

/-- R629: measurement 12, in block order. -/
def measureJigs (s : State) (c : Nat) : List Fld :=
  (blocksOf (ctxOf s c).blocks).flatMap fun k => (blockBenches k).flatMap fun b => (List.range 4).flatMap fun i =>
    match (benchFor s c b).slots.getD i none with
    | some j => [⟨8, j.jigId⟩, ⟨32, Config.sm3 (jigImage j)⟩]
    | none => []

/-- R629: a measurement block; 10 to 12 only within a session bound to the context. -/
def measurement (s : State) (bound : Option Nat) (i : Nat) : Option Nat :=
  let comp (n : Nat) : Nat := (s.boot.running_.getD n noComponent).hash
  match i, bound with
  | 1, _ => some (Config.sm3 Config.bootRom)
  | 2, _ => some (comp 0)
  | 3, _ => some (comp 1)
  | 4, _ => some (comp 2)
  | 5, _ => some (comp 3)
  | 6, _ => some (comp 4)
  | 7, _ => some (comp 5)
  | 8, _ => some (Config.sm3 (fieldBytes [⟨4, s.nv.secFloor⟩, ⟨4, (s.nv.slots.getD s.boot.runSlot {}).manifest.setVersion⟩]))
  | 9, _ => some (Config.sm3 (fieldBytes (bootCaps s)))
  | 10, some c => some (Config.sm3 (fieldBytes (measureConfig s c)))
  | 11, some c => some (Config.sm3 (fieldBytes (((ctxOf s c).jigKeys ++ (ctxOf s c).pkgKeys).map fun k => ⟨64, k⟩)))
  | 12, some c => some (Config.sm3 (fieldBytes (measureJigs s c)))
  | _, _ => none

/-- An open session. -/
def sessionOf (s : State) (sid : Nat) : Option Session := tget s.sec.sessions sid none

/-- R626: the context a finished session is bound to. -/
def boundTo (s : State) (sid : Nat) : Option Nat :=
  match sessionOf s sid with
  | some x => if !x.finished then none else match x.path with
    | .context c => some c
    | _ => none
  | none => none

/-- R627: traffic on a session. -/
def keepAlive (sid : Nat) (s : State) : State :=
  { s with sec := { s.sec with sessions := tmod s.sec.sessions sid none (·.map fun x => { x with lastTraffic := now s }) } }

/-- R629: block `idx`, or all of them (255); the answer is signed. -/
def execGetMeasurements (dt : Nat) (p : SpdmPath) (sess : Option Nat) (idx : Nat) (s : State) : Host.Outcome State Fault Refusal :=
  .next (spdm dt p (fun s =>
    let live := match sess with
      | some sid => (sessionOf s sid).elim false fun x => x.path = p && x.finished
      | none => true
    let s := sess.elim s fun sid => keepAlive sid s
    let bound := sess.bind fun sid => boundTo s sid
    let ids := if idx = 255 then (List.range 12).map (· + 1) else [idx]
    let l := ids.filterMap fun i => (measurement s bound i).map fun m => (i, m)
    if connStage s p < 3 || !live || (idx ≠ 0 && l.isEmpty) then spdmError s
    else signed (⟨1, if bound.isSome then 12 else 9⟩ :: l.flatMap fun q => [⟨1, q.1⟩, ⟨32, q.2⟩]) s) s)

/-- R627: the sessions that count against the limit of a path. -/
def spdmSessionsOn (s : State) (p : SpdmPath) : Nat :=
  (s.sec.sessions.filter fun q => q.2.elim false fun x => match p, x.path with
    | .context c, .context d => c = d
    | .context _, _ => false
    | _, .context _ => false
    | _, _ => true).length

def sessionLimit : SpdmPath → Nat
  | .context _ => 2
  | _ => 8

/-- R627: a secured session is opened; FINISH completes it. -/
def execKeyExchange (dt : Nat) (p : SpdmPath) (slot : Nat) (s : State) : Host.Outcome State Fault Refusal :=
  .next (spdm dt p (fun s =>
    if connStage s p < 3 || slot ≠ 0 || sessionLimit p ≤ spdmSessionsOn s p then spdmError s
    else
      let sid := s.sec.nextSession
      signed [⟨4, sid⟩] { s with sec := { s.sec with
        nextSession := sid + 1, sessions := tset s.sec.sessions sid (some ⟨p, false, now s, 0⟩) } }) s)

/-- A message of an open session on that session's path. -/
def inSession (dt sid : Nat) (finished : Bool) (body : Session → State → Reply) (s : State) : State :=
  event dt (fun s =>
    match sessionOf s sid with
    | none => s
    | some x => answerOn x.path (fun s => if finished && !x.finished then spdmError s else body x (keepAlive sid s)) s) s

/-- Change a session. -/
def modSession (sid : Nat) (f : Session → Session) (s : State) : State :=
  { s with sec := { s.sec with sessions := tmod s.sec.sessions sid none (·.map f) } }

/-- R627: FINISH; `good` says that its verification data are valid. -/
def execFinish (dt sid : Nat) (good : Bool) (s : State) : Host.Outcome State Fault Refusal :=
  .next (inSession dt sid false (fun _ s =>
    if good then reply (modSession sid (fun x => { x with finished := true }) s) [] else spdmError (endSession sid s)) s)

/-- R627. -/
def execHeartbeat (dt sid : Nat) (s : State) : Host.Outcome State Fault Refusal :=
  .next (inSession dt sid true (fun _ s => reply s []) s)

/-- R627. -/
def execKeyUpdate (dt sid : Nat) (s : State) : Host.Outcome State Fault Refusal :=
  .next (inSession dt sid true (fun _ s => reply (modSession sid (fun x => { x with keyGen := x.keyGen + 1 }) s) []) s)

/-- R625, R627, R636. -/
def execEndSession (dt sid : Nat) (s : State) : Host.Outcome State Fault Refusal :=
  .next (inSession dt sid true (fun _ s => reply (endSession sid s) []) s)

/-- R627: a session without traffic for 3 heartbeat periods of 10 s ends. -/
def execSpdmSessionTimeout (dt sid : Nat) (s : State) : Host.Outcome State Fault Refusal :=
  .next (event dt (fun s =>
    match sessionOf s sid with
    | some x => if x.lastTraffic + 30000000000 ≤ now s then endSession sid s else s
    | none => s) s)

/-! ### Content keys (R634–R636) -/

/-- R634: the first free one of the 16 key entries. -/
def freeKeyEntry (x : CtxSt) : Option Nat := (List.range 16).find? fun i => (tget x.contentKeys i none).isNone

/-- R634, R635: KEY_DELIVER. SM4 uses the first 16 bytes of the key. -/
def execKeyDeliver (dt sid : Nat) (k : KeyDelivery) (s : State) : Host.Outcome State Fault Refusal :=
  .next (inSession dt sid true (fun x s =>
    match x.path with
    | .context c =>
      let y := ctxOf s c
      let held := (heldKeys y).any fun e => e.2.packageId = k.packageId
      match freeKeyEntry y with
      | some i =>
        if !isConf s c || y.tdi ≠ .run || held then spdmError (record 0x9201 1 0x9000 (some c) false [] s)
        else
          let key := if k.cipher = 2 then k.key % 2 ^ 128 else k.key
          reply (modCtx c (fun z => { z with
            contentKeys := tset z.contentKeys i (some ⟨k.packageId, k.cipher, key, k.sessionBound, sid⟩) }) s) [⟨1, i⟩]
      | none => spdmError (record 0x9201 1 0x9000 (some c) false [] s)
    | _ => spdmError s) s)

/-- R635, R636: KEY_ERASE erases one entry of the context. -/
def execKeyErase (dt sid entry : Nat) (s : State) : Host.Outcome State Fault Refusal :=
  .next (inSession dt sid true (fun x s =>
    match x.path with
    | .context c =>
      if 16 ≤ entry then spdmError s
      else reply (modCtx c (fun z => { z with contentKeys := tdel z.contentKeys entry }) s) []
    | _ => spdmError s) s)

/-! ### TDISP and IDE (R621–R625) -/

/-- R622: LOCK_INTERFACE, in the TSM's secured session on PF0's DOE; `stream` is the IDE stream bound to the TDI. -/
def execLockInterface (dt sid c stream : Nat) (s : State) : Host.Outcome State Fault Refusal :=
  .next (inSession dt sid true (fun x s =>
    if x.path ≠ .doe || !isConf s c || (ctxOf s c).tdi ≠ .unlocked || (funcOf s (fidContext c)).state ≠ .running then spdmError s
    else reply (modCtx c (fun y => { y with tdi := .locked, lockSession := some sid, ideStream := some stream }) s) []) s)

/-- R622: START_INTERFACE: the context serves. -/
def execStartInterface (dt c : Nat) (s : State) : Host.Outcome State Fault Refusal :=
  .next (spdm dt .doe (fun s =>
    if !isConf s c || (ctxOf s c).tdi ≠ .locked then spdmError s
    else reply (noteChange c (modCtx c (fun y => { y with tdi := .run }) s)) []) s)

/-- R625: STOP_INTERFACE: a locked TDI enters ERROR; an unlocked one stays. -/
def execStopInterface (dt c : Nat) (s : State) : Host.Outcome State Fault Refusal :=
  .next (spdm dt .doe (fun s => if !isConf s c then spdmError s else reply (tdiError c s) []) s)

/-- R625: an integrity failure in the stream of a TDI. -/
def execIdeIntegrityFailure (dt stream : Nat) (s : State) : Host.Outcome State Fault Refusal :=
  .next (event dt (fun s => foldN 16 (fun c s => if (ctxOf s c).ideStream = some stream then tdiError c s else s) s) s)

/-- R621: IDE_KM in a session on PF0's DOE: the link stream (none) or a selective stream (0–15) is set up or taken down. -/
def execIdeKm (dt sid : Nat) (stream : Option Nat) (on : Bool) (s : State) : Host.Outcome State Fault Refusal :=
  .next (inSession dt sid true (fun x s =>
    if x.path ≠ .doe then spdmError s
    else match stream with
      | none => reply { s with sec := { s.sec with linkStream := on } } []
      | some n =>
        if 16 ≤ n then spdmError s
        else
          let l := s.sec.selective.filter (· ≠ n)
          reply { s with sec := { s.sec with selective := if on then l ++ [n] else l } } []) s)

/-! ### Resets of the PCIe side -/

/-- R76, R625: a Function Level Reset of PF0 (0) or of a VF. -/
def execFunctionLevelReset (dt fn dur : Nat) (s : State) : Host.Outcome State Fault Refusal :=
  .next (event dt (fun s =>
    if 16 < fn || !reachable s fn then s
    else
      let s := if fn = 0 then s else tdiError (fn - 1) s
      resetMailbox fn dur s) s)

/-- R101, R108, R109: PCIE_LINK has passed, and the endpoint has a yard. -/
def linkTrained (s : State) : Bool := s.tray.pwrGood && (itemOf s 14 0).passed && attached s .pcie

/-- R748: PERST_N is asserted. -/
def execPerstAssert (dt : Nat) (s : State) : Host.Outcome State Fault Refusal :=
  .next (event dt (fun s =>
    let t := { s with tray := { s.tray with perst := true } }
    if s.tray.perst || !linkTrained s then t
    else
      let t := foldN 16 (fun c s => tdiError c s) { t with tray := { t.tray with linkUp := false, sriov := false } }
      let t := foldN 17 (fun m s => resetMailbox m 0 s) t
      record 0xB111 1 0x8000 none false [] t) s)

/-- R748: PERST_N deasserts: the link trains at the rung that the journal holds. -/
def execPerstDeassert (dt : Nat) (s : State) : Host.Outcome State Fault Refusal :=
  .next (event dt (fun s => { s with tray := { s.tray with perst := false, linkUp := s.tray.linkUp || linkTrained s } }) s)

end Sys2Proof.Machine
end

