-- ==== Sys2Proof/Machine/Time.lean ====
section
/-! DEFINITION. The time base, its servo and the time commands (chapter 02, R443–R444). -/
namespace Sys2Proof.Machine

/-- The TIME function is stopped: the servo holds its frequency correction (R36, R85). -/
def timeHeld (s : State) : Bool := (funcOf s fidTime).state ≠ .running

/-- R35: `sync` as it reads: HOLDOVER while the TIME function is stopped (R36). -/
def syncView (s : State) : Sync := if timeHeld s then .holdover else s.time.sync

/-- R35: the code of `sync`. -/
def syncCode : Sync → Nat
  | .unsynced => 0
  | .locking => 1
  | .locked => 2
  | .holdover => 3

/-- R35: `ptm_valid`: the last exchange is less than 100 ms old. -/
def ptmValid (s : State) : Bool :=
  match s.time.ptmAt with
  | some a => now s < a + 100000000
  | none => false

/-- R35: `TIM_STATUS`. -/
def timStatus (s : State) : Nat :=
  syncCode (syncView s) + 4 * bit s.time.stepped + 8 * bit s.time.freeRun + 16 * bit s.time.gmBehind
    + 32 * bit s.time.ppsIn + 64 * bit (ptmValid s) + 2 ^ 8 * (s.time.ptp.port % 256) + 2 ^ 16 * (s.time.breaks % 65536)

/-- R34: the registers that TIM_GET returns, in the order of their offsets (log entry 9). -/
def timRegs (s : State) : List Fld :=
  [⟨8, timStatus s⟩, ⟨8, ofSigned 64 s.time.offset⟩, ⟨8, s.time.skewLimit⟩, ⟨8, ofSigned 64 s.time.ptmOffset⟩,
   ⟨8, s.time.ptmT⟩, ⟨8, s.time.skewDrops⟩]

/-- R36: `TIM_GET`. -/
def execTimGet (h : Hdr) (s : State) : Host.Outcome State Fault Refusal :=
  .next (command h { op := 0x0D00, who := whoAll, reads := true } (fun _ s => okData s (timRegs s)) s)

/-- R27: `TIM_SET_SKEW_LIMIT`, 10 µs to 1 s. -/
def execTimSetSkewLimit (h : Hdr) (limitNs : Nat) (s : State) : Host.Outcome State Fault Refusal :=
  .next (command h { op := 0x0D01, who := who0Side } (fun _ s =>
    if 10000 ≤ limitNs && limitNs ≤ 1000000000 then ok { s with time := { s.time with skewLimit := limitNs } }
    else no s .badArg) s)

/-- R36, R86: `TIM_PTP_CONFIG`, a staged command of TIME; R443 bounds the domain, and ports are numbered 0–32. -/
def execTimPtpConfig (h : Hdr) (cfg : PtpConfig) (s : State) : Host.Outcome State Fault Refusal :=
  .next (command h { op := 0x0D02, who := who0Side } (fun c s =>
    if 32 < cfg.port || 127 < cfg.domain then no s .badArg else stage fidTime (.timPtp cfg) c s) s)

/-- R33: no sync message has arrived for 3 sync intervals, since the last one or since the servo began to listen to its port. -/
def syncMissing (s : State) : Bool := s.time.lastSync.getD s.time.listenAt + 3 * s.time.interval < now s

/-- R32: a sync message has arrived within the last 3 sync intervals. -/
def syncFresh (s : State) : Bool :=
  match s.time.lastSync with
  | some a => now s ≤ a + 3 * s.time.interval
  | none => false

/-- T plus a signed step, as the 64-bit count it is. -/
def stepT (t : Nat) (o : Int) : Nat := ((t : Int) + o).toNat % 2 ^ 64

/-- R31: the time break: 0x1403 takes the last stamp before the break, T steps to grandmaster time, L is discarded.
DESIGN CHOICE (the manual does not say what `sync` reads then): the step counts as the first lock, and `sync` reads LOCKING with no good
interval counted (log entry 26). -/
def timeBreak (s : State) : State :=
  let s := recordSq 0x1403 1 [] s
  { s with time := { s.time with
      t := stepT s.time.t s.time.offset, last := none, breaks := wrapAdd 16 s.time.breaks 1, gmBehind := false,
      firstLock := true, sync := .locking, goodSyncs := 0, slewing := false, slew := 0 } }

/-- R31, R32: `TIM_ACCEPT_GM`. -/
def execTimAcceptGm (h : Hdr) (s : State) : Host.Outcome State Fault Refusal :=
  .next (command h { op := 0x0D03, who := who0 } (fun _ s =>
    if s.time.gmBehind && syncFresh s then ok (timeBreak s) else no s .badState) s)

/-- R34: a read of `TIM_STAMP_NS` by function `fn` (0 PF0, 1–16 the VFs) issues a stamp, returns its nanoseconds and latches its count. -/
def execTimStampNsRead (dt fn : Nat) (s : State) : Host.Outcome State Fault Refusal :=
  .next (event dt (fun s =>
    let p := issueStamp s
    { p.2 with time := { p.2.time with
      stampLc := tset p.2.time.stampLc fn p.1.lc, stampNs := tset p.2.time.stampNs fn p.1.ns } }) s)

/-- A correction within ±500 ppm, from a free value. -/
def freePpb (n : Nat) : Int := (n % 1000001 : Nat) - 500000

/-- R28, R33: the servo's algorithm is its own: the new frequency correction, and the slew that removes the phase offset, are free values
(log entry 6). -/
def tune (s : State) : State :=
  { s with
    free := s.free + 2
    time := { s.time with freq := freePpb (Config.freeValue s.free), slew := freePpb (Config.freeValue (s.free + 1)) } }

/-- R33: while TIME is stopped the servo holds its correction; the offset is measured all the same, and one outside ±500 ns ends the run
of good intervals. -/
def watch (near : Bool) (s : State) : State :=
  { s with time := { s.time with
    goodSyncs := if near then s.time.goodSyncs + 1 else 0
    sync := if !near && s.time.sync = .locked then .locking else s.time.sync } }

/-- R30, R33: the servo takes one measured offset. DESIGN CHOICE (the manual does not say what counts as the first lock): the first offset
that is measured while TIME runs is acted on as R30's first lock, whatever the run of good intervals (log entry 26). -/
def servo (o : Int) (s : State) : State :=
  let s := { s with time := { s.time with offset := o, lastSync := some (now s), awaitFollowUp := false } }
  if timeHeld s then watch (decide (-500 ≤ o && o ≤ 500)) s
  else if s.time.gmBehind then s
  else if !s.time.firstLock && o < -1000000000 then
    record 0x1402 2 0x0000 none false []
      { s with time := { s.time with gmBehind := true, sync := .unsynced, goodSyncs := 0, slew := 0 } }
  else if !s.time.firstLock && 0 ≤ o then
    record 0x1401 0 0x0000 none false [⟨8, o.toNat⟩]
      { s with time := { s.time with
        t := stepT s.time.t o, stepped := true, firstLock := true, sync := .locking, goodSyncs := 1 } }
  else if !s.time.firstLock then
    { s with time := { s.time with
      firstLock := true, slewing := decide (o < -50), sync := .locking, goodSyncs := 0
      slew := if o < -50 then -500000 - s.time.freq else 0 } }
  else if s.time.slewing && !(-50 ≤ o && o ≤ 50) then
    { s with time := { s.time with sync := .locking, goodSyncs := 0, slew := -500000 - s.time.freq } }
  else if -500 ≤ o && o ≤ 500 then
    let n := s.time.goodSyncs + 1
    tune { s with time := { s.time with
      slewing := false, goodSyncs := n
      sync := if 16 ≤ n then .locked else if s.time.sync = .locked then .locked else .locking } }
  else tune { s with time := { s.time with slewing := false, goodSyncs := 0, sync := .locking } }

/-- The message came on the port that PTP runs on, in its domain (R443), and the port carries frames (R767). Ports read ABSENT until the
module has started (R121), so during the boot the message itself shows that its port carries frames. -/
def onPtpPort (s : State) (port domain : Nat) : Bool :=
  port = s.time.ptp.port && domain = s.time.ptp.domain && (s.boot.phase = .booting || portState s port = .up)

/-- R30, R33, R443: a PTP Sync; a two-step one waits for its Follow_Up. -/
def execPtpSync (dt : Nat) (m : PtpSync) (s : State) : Host.Outcome State Fault Refusal :=
  .next (event dt (fun s =>
    if !onPtpPort s m.port m.domain || m.interval < 62500000 || 2000000000 < m.interval then s
    else
      let s := { s with time := { s.time with interval := m.interval } }
      if m.twoStep then { s with time := { s.time with awaitFollowUp := true, lastSync := some (now s) } }
      else servo m.offset s) s)

/-- R443: a Follow_Up gives the time of the two-step Sync that waits for it. -/
def execPtpFollowUp (dt port domain : Nat) (offset : Int) (s : State) : Host.Outcome State Fault Refusal :=
  .next (event dt (fun s => if onPtpPort s port domain && s.time.awaitFollowUp then servo offset s else s) s)

/-- R443, R444: an Announce names the grandmaster whose data a boundary clock announces in turn. -/
def execPtpAnnounce (dt port domain grandmaster : Nat) (s : State) : Host.Outcome State Fault Refusal :=
  .next (event dt (fun s =>
    if onPtpPort s port domain then
      { s with time := { s.time with parentGm := grandmaster, lastAnnounce := some (now s) } }
    else s) s)

/-- R443: a Delay_Resp completes an end-to-end delay measurement. -/
def execPtpDelayResp (dt port domain : Nat) (delay : Int) (s : State) : Host.Outcome State Fault Refusal :=
  .next (event dt (fun s =>
    if onPtpPort s port domain then { s with time := { s.time with pathDelay := delay } } else s) s)

/-- R33: sync messages have been missing for 3 intervals: HOLDOVER, and a slew in progress ends. DESIGN CHOICE (R33 does not say whether
UNSYNCED, before a first lock or after R30, goes to HOLDOVER): it stays (log entry 26). -/
def execSyncLoss (dt : Nat) (s : State) : Host.Outcome State Fault Refusal :=
  .next (event dt (fun s =>
    if (s.time.sync = .locking || s.time.sync = .locked) && syncMissing s then
      { s with time := { s.time with sync := .holdover, slewing := false, slew := 0, goodSyncs := 0 } }
    else s) s)

/-- R33, R34: a PTM exchange records T against the host's PTM master time. -/
def execPtmExchange (dt master : Nat) (s : State) : Host.Outcome State Fault Refusal :=
  .next (event dt (fun s =>
    if s.tray.linkUp then
      { s with time := { s.time with
        ptmT := s.time.t, ptmOffset := (s.time.t : Int) - (master : Int), ptmAt := some (now s) } }
    else s) s)

/-- R33: a 1PPS_IN edge disciplines the phase when it is enabled: the slew that removes its phase offset is the servo's own choice, within
±500 ppm (log entry 6), and leaves R30's slew alone. The time of day still comes from PTP. -/
def execPpsInEdge (dt : Nat) (phase : Int) (s : State) : Host.Outcome State Fault Refusal :=
  .next (event dt (fun s =>
    if s.time.ptp.pps && !timeHeld s then
      let f := takeFree s
      { f.2 with time := { f.2.time with
        ppsIn := true, ppsPhase := phase, slew := if s.time.slewing then s.time.slew else freePpb f.1 } }
    else s) s)

/-- R33: 1PPS_OUT pulses at each whole second of T: the pin last rose at the whole second that the step reached. -/
def execPpsOutSecond (dt : Nat) (s : State) : Host.Outcome State Fault Refusal :=
  .next (event dt (fun s' =>
    if s.time.t / 1000000000 < s'.time.t / 1000000000 then
      { s' with tray := { s'.tray with ppsPulse := s'.time.t / 1000000000 } }
    else s') s)

end Sys2Proof.Machine
end

