-- ==== Sys2Proof/Machine/Dispatch.lean ====
section
/-! DEFINITION. One arm for each command: its meaning. -/
namespace Sys2Proof.Machine

/-- The effect of a command on everything but the queue. -/
def exec (i : Instr) (s : State) : Host.Outcome State Fault Refusal :=
  match i with
  | .nop h => Sys2Proof.Machine.execNop h s
  | .getInfo h => Sys2Proof.Machine.execGetInfo h s
  | .getSqStatus h => Sys2Proof.Machine.execGetSqStatus h s
  | .mbxGetState h => Sys2Proof.Machine.execMbxGetState h s
  | .mbxNotifyMask h mask => Sys2Proof.Machine.execMbxNotifyMask h mask s
  | .mbxBind h m b => Sys2Proof.Machine.execMbxBind h m b s
  | .mbxUnquarantine h m => Sys2Proof.Machine.execMbxUnquarantine h m s
  | .setModuleNumber h n => Sys2Proof.Machine.execSetModuleNumber h n s
  | .funcStop h fid hold => Sys2Proof.Machine.execFuncStop h fid hold s
  | .funcStart h fid peerDigest peerActive => Sys2Proof.Machine.execFuncStart h fid peerDigest peerActive s
  | .funcRevert h fid force => Sys2Proof.Machine.execFuncRevert h fid force s
  | .funcStatus h fid => Sys2Proof.Machine.execFuncStatus h fid s
  | .functionQuiesced dt fid => Sys2Proof.Machine.execFunctionQuiesced dt fid s
  | .functionStartDone dt fid => Sys2Proof.Machine.execFunctionStartDone dt fid s
  | .holdMsExpiry dt fid => Sys2Proof.Machine.execHoldMsExpiry dt fid s
  | .timGet h => Sys2Proof.Machine.execTimGet h s
  | .timSetSkewLimit h limitNs => Sys2Proof.Machine.execTimSetSkewLimit h limitNs s
  | .timPtpConfig h cfg => Sys2Proof.Machine.execTimPtpConfig h cfg s
  | .timAcceptGm h => Sys2Proof.Machine.execTimAcceptGm h s
  | .timStampNsRead dt fn => Sys2Proof.Machine.execTimStampNsRead dt fn s
  | .bootGetState h => Sys2Proof.Machine.execBootGetState h s
  | .bootGetCapacity h => Sys2Proof.Machine.execBootGetCapacity h s
  | .bootReadJournal h seq n d => Sys2Proof.Machine.execBootReadJournal h seq n d s
  | .bootClearHistory h w => Sys2Proof.Machine.execBootClearHistory h w s
  | .bootRestart h => Sys2Proof.Machine.execBootRestart h s
  | .fwGetSlots h => Sys2Proof.Machine.execFwGetSlots h s
  | .fwWriteBegin h slot => Sys2Proof.Machine.execFwWriteBegin h slot s
  | .fwWrite h slot offset fromHost data => Sys2Proof.Machine.execFwWrite h slot offset fromHost data s
  | .fwVerifySlot h slot => Sys2Proof.Machine.execFwVerifySlot h slot s
  | .fwActivate h => Sys2Proof.Machine.execFwActivate h s
  | .componentActivated dt good => Sys2Proof.Machine.execComponentActivated dt good s
  | .fwConfirm h => Sys2Proof.Machine.execFwConfirm h s
  | .fwSelectBoot h slot => Sys2Proof.Machine.execFwSelectBoot h slot s
  | .trialExpiry dt => Sys2Proof.Machine.execTrialExpiry dt s
  | .squareWatchdog dt => Sys2Proof.Machine.execSquareWatchdog dt s
  | .ctxCreate h c flags => Sys2Proof.Machine.execCtxCreate h c flags s
  | .ctxDestroy h c => Sys2Proof.Machine.execCtxDestroy h c s
  | .ctxSetBlocks h c mask saveLot => Sys2Proof.Machine.execCtxSetBlocks h c mask saveLot s
  | .ctxSetGroups h c mask => Sys2Proof.Machine.execCtxSetGroups h c mask s
  | .ctxSetSlice h c base count quota => Sys2Proof.Machine.execCtxSetSlice h c base count quota s
  | .ctxSetQuantum h c ms => Sys2Proof.Machine.execCtxSetQuantum h c ms s
  | .ctxGet h c => Sys2Proof.Machine.execCtxGet h c s
  | .lotSet h c idx e => Sys2Proof.Machine.execLotSet h c idx e s
  | .lotGet h c idx n => Sys2Proof.Machine.execLotGet h c idx n s
  | .memGetState h g => Sys2Proof.Machine.execMemGetState h g s
  | .ydSetPartition h g mask => Sys2Proof.Machine.execYdSetPartition h g mask s
  | .memSetScrub h g hours => Sys2Proof.Machine.execMemSetScrub h g hours s
  | .memGetErrors h g => Sys2Proof.Machine.execMemGetErrors h g s
  | .memInject h a dataMask chkMask => Sys2Proof.Machine.execMemInject h a dataMask chkMask s
  | .blkGetMap h => Sys2Proof.Machine.execBlkGetMap h s
  | .jigKeyAdd h c key => Sys2Proof.Machine.execJigKeyAdd h c key s
  | .jigKeyRemove h c key => Sys2Proof.Machine.execJigKeyRemove h c key s
  | .jigLoad h c slot mask addr len sigOk => Sys2Proof.Machine.execJigLoad h c slot mask addr len sigOk s
  | .jigLoadLib h c slot mask jigId => Sys2Proof.Machine.execJigLoadLib h c slot mask jigId s
  | .jigUnload h c slot mask => Sys2Proof.Machine.execJigUnload h c slot mask s
  | .jigRun h c slot mask params => Sys2Proof.Machine.execJigRun h c slot mask params s
  | .jigAbort h c run => Sys2Proof.Machine.execJigAbort h c run s
  | .jigStatus h c mask => Sys2Proof.Machine.execJigStatus h c mask s
  | .oprPlan h c slot mask recAddr planAddr x => Sys2Proof.Machine.execOprPlan h c slot mask recAddr planAddr x s
  | .oprRun h c plans trigger => Sys2Proof.Machine.execOprRun h c plans trigger s
  | .oprUntrigger h c id => Sys2Proof.Machine.execOprUntrigger h c id s
  | .oprStatus h c => Sys2Proof.Machine.execOprStatus h c s
  | .chainStageEnd dt id faulted => Sys2Proof.Machine.execChainStageEnd dt id faulted s
  | .reqAdmit h c p => Sys2Proof.Machine.execReqAdmit h c p s
  | .reqCancel h c x => Sys2Proof.Machine.execReqCancel h c x s
  | .reqUpdate h c x priority deadline => Sys2Proof.Machine.execReqUpdate h c x priority deadline s
  | .reqGet h c x => Sys2Proof.Machine.execReqGet h c x s
  | .reqModelSet h c r => Sys2Proof.Machine.execReqModelSet h c r s
  | .reqSetPolicy h c decodePerPrefill kMax grow => Sys2Proof.Machine.execReqSetPolicy h c decodePerPrefill kMax grow s
  | .reqStopSet h c set_ tokens seqs => Sys2Proof.Machine.execReqStopSet h c set_ tokens seqs s
  | .reqRingSet h c p => Sys2Proof.Machine.execReqRingSet h c p s
  | .reqGetStats h c => Sys2Proof.Machine.execReqGetStats h c s
  | .smpSet h c set_ p => Sys2Proof.Machine.execSmpSet h c set_ p s
  | .smpGet h c set_ => Sys2Proof.Machine.execSmpGet h c set_ s
  | .kvPoolSet h c p => Sys2Proof.Machine.execKvPoolSet h c p s
  | .kvPoolGet h c => Sys2Proof.Machine.execKvPoolGet h c s
  | .kvSetPolicy h c evict => Sys2Proof.Machine.execKvSetPolicy h c evict s
  | .attSetBuckets h c cuts => Sys2Proof.Machine.execAttSetBuckets h c cuts s
  | .kvReadList h c x dest => Sys2Proof.Machine.execKvReadList h c x dest s
  | .venLoad h c p => Sys2Proof.Machine.execVenLoad h c p s
  | .venReplace h c p => Sys2Proof.Machine.execVenReplace h c p s
  | .venUnload h c slot => Sys2Proof.Machine.execVenUnload h c slot s
  | .venGet h c => Sys2Proof.Machine.execVenGet h c s
  | .venTrainBegin h c package model rank desc stateLot => Sys2Proof.Machine.execVenTrainBegin h c package model rank desc stateLot s
  | .venTrainStep h c slot batch => Sys2Proof.Machine.execVenTrainStep h c slot batch s
  | .venPublish h c slot name version => Sys2Proof.Machine.execVenPublish h c slot name version s
  | .wgtUnseal h c src len dst sigOk => Sys2Proof.Machine.execWgtUnseal h c src len dst sigOk s
  | .netGetState h => Sys2Proof.Machine.execNetGetState h s
  | .netSetMode h g mode => Sys2Proof.Machine.execNetSetMode h g mode s
  | .netSetPort h g port p => Sys2Proof.Machine.execNetSetPort h g port p s
  | .netSetPlan h g v4 v6 => Sys2Proof.Machine.execNetSetPlan h g v4 v6 s
  | .netSetUdpPort h g port => Sys2Proof.Machine.execNetSetUdpPort h g port s
  | .netAssign h g port exclusive contexts => Sys2Proof.Machine.execNetAssign h g port exclusive contexts s
  | .netSetManager h m => Sys2Proof.Machine.execNetSetManager h m s
  | .netSetSister h m => Sys2Proof.Machine.execNetSetSister h m s
  | .netPeerPin h m pin addrs => Sys2Proof.Machine.execNetPeerPin h m pin addrs s
  | .netPeerGet h idx => Sys2Proof.Machine.execNetPeerGet h idx s
  | .netLaneGet h c idx => Sys2Proof.Machine.execNetLaneGet h c idx s
  | .xltGrantSet h c l => Sys2Proof.Machine.execXltGrantSet h c l s
  | .xltSetLaneDepth h c depth => Sys2Proof.Machine.execXltSetLaneDepth h c depth s
  | .xltCollSet h c g counter => Sys2Proof.Machine.execXltCollSet h c g counter s
  | .netUnquarantine h m => Sys2Proof.Machine.execNetUnquarantine h m s
  | .vidDecOpen h p => Sys2Proof.Machine.execVidDecOpen h p s
  | .vidEncOpen h p => Sys2Proof.Machine.execVidEncOpen h p s
  | .vidClose h enc session drain => Sys2Proof.Machine.execVidClose h enc session drain s
  | .vidEncSetRc h session rc => Sys2Proof.Machine.execVidEncSetRc h session rc s
  | .vidEncForceKey h session => Sys2Proof.Machine.execVidEncForceKey h session s
  | .vidGet h enc session => Sys2Proof.Machine.execVidGet h enc session s
  | .pwrGetState h => Sys2Proof.Machine.execPwrGetState h s
  | .pwrSetLocalCap h watts => Sys2Proof.Machine.execPwrSetLocalCap h watts s
  | .pwrSetLoneCap h watts => Sys2Proof.Machine.execPwrSetLoneCap h watts s
  | .pwrCabCap h watts => Sys2Proof.Machine.execPwrCabCap h watts s
  | .pwrSetCeiling h level => Sys2Proof.Machine.execPwrSetCeiling h level s
  | .pwrSetDroop h margin => Sys2Proof.Machine.execPwrSetDroop h margin s
  | .pwrSetConfLevels h levels => Sys2Proof.Machine.execPwrSetConfLevels h levels s
  | .pwrResume h => Sys2Proof.Machine.execPwrResume h s
  | .pwrClearLeak h => Sys2Proof.Machine.execPwrClearLeak h s
  | .paceGroupSet h cfg => Sys2Proof.Machine.execPaceGroupSet h cfg s
  | .paceGroupGet h => Sys2Proof.Machine.execPaceGroupGet h s
  | .pwrGetEnergy h => Sys2Proof.Machine.execPwrGetEnergy h s
  | .secSpdm h c => Sys2Proof.Machine.execSecSpdm h c s
  | .secRotateKey h c rate => Sys2Proof.Machine.execSecRotateKey h c rate s
  | .secPkgKeyAdd h c key => Sys2Proof.Machine.execSecPkgKeyAdd h c key s
  | .secPkgKeyRemove h c key => Sys2Proof.Machine.execSecPkgKeyRemove h c key s
  | .redGet h c => Sys2Proof.Machine.execRedGet h c s
  | .redSetProtect h c p => Sys2Proof.Machine.execRedSetProtect h c p s
  | .redSwap h c => Sys2Proof.Machine.execRedSwap h c s
  | .redRelease h c => Sys2Proof.Machine.execRedRelease h c s
  | .redRingAdopt h c ring prod => Sys2Proof.Machine.execRedRingAdopt h c ring prod s
  | .trayDrain h => Sys2Proof.Machine.execTrayDrain h s
  | .trayGet h => Sys2Proof.Machine.execTrayGet h s
  | .gauSelect h benches codes => Sys2Proof.Machine.execGauSelect h benches codes s
  | .gauSnapshot h at_ mask dest => Sys2Proof.Machine.execGauSnapshot h at_ mask dest s
  | .gauRead h u first n => Sys2Proof.Machine.execGauRead h u first n s
  | .gauSampleSet h c n addr logRecords watermark vector prodAddr => Sys2Proof.Machine.execGauSampleSet h c n addr logRecords watermark vector prodAddr s
  | .gauSampleStop h c => Sys2Proof.Machine.execGauSampleStop h c s
  | .recRead h sev pc seq n d => Sys2Proof.Machine.execRecRead h sev pc seq n d s
  | .recFreeze h seconds => Sys2Proof.Machine.execRecFreeze h seconds s
  | .recThaw h => Sys2Proof.Machine.execRecThaw h s
  | .recClear h => Sys2Proof.Machine.execRecClear h s
  | .recFlush h => Sys2Proof.Machine.execRecFlush h s
  | .recGetState h => Sys2Proof.Machine.execRecGetState h s
  | .mbxCmdTailWrite dt m tail written ideT => Sys2Proof.Machine.execMbxCmdTailWrite dt m tail written ideT s
  | .mbxRspHeadWrite dt m head ideT => Sys2Proof.Machine.execMbxRspHeadWrite dt m head ideT s
  | .mbxCtrlReset dt m dur ideT => Sys2Proof.Machine.execMbxCtrlReset dt m dur ideT s
  | .mbxCtrlIrq dt m irqEn vector ideT => Sys2Proof.Machine.execMbxCtrlIrq dt m irqEn vector ideT s
  | .mbxQuarantineExpiry dt m => Sys2Proof.Machine.execMbxQuarantineExpiry dt m s
  | .readOnlyWrite dt fn b ideT => Sys2Proof.Machine.execReadOnlyWrite dt fn b ideT s
  | .reqRingConsWrite dt fn n v ideT => Sys2Proof.Machine.execReqRingConsWrite dt fn n v ideT s
  | .gauSampleConsWrite dt fn c v ideT => Sys2Proof.Machine.execGauSampleConsWrite dt fn c v ideT s
  | .recCursorWrite dt slot ram auto => Sys2Proof.Machine.execRecCursorWrite dt slot ram auto s
  | .recWindowAutoRead dt => Sys2Proof.Machine.execRecWindowAutoRead dt s
  | .ydHighWaterRead dt g pinned => Sys2Proof.Machine.execYdHighWaterRead dt g pinned s
  | .checkpoint dt ends => Sys2Proof.Machine.execCheckpoint dt ends s
  | .coreDisagreement dt core => Sys2Proof.Machine.execCoreDisagreement dt core s
  | .pairDisagreement dt mismatch => Sys2Proof.Machine.execPairDisagreement dt mismatch s
  | .sidebandExtraEndpoint dt endpoint => Sys2Proof.Machine.execSidebandExtraEndpoint dt endpoint s
  | .setEndpointId dt eid => Sys2Proof.Machine.execSetEndpointId dt eid s
  | .entdaa dt addr => Sys2Proof.Machine.execEntdaa dt addr s
  | .setnewda dt addr => Sys2Proof.Machine.execSetnewda dt addr s
  | .rstdaa dt => Sys2Proof.Machine.execRstdaa dt s
  | .enec dt => Sys2Proof.Machine.execEnec dt s
  | .disec dt => Sys2Proof.Machine.execDisec dt s
  | .getpid dt => Sys2Proof.Machine.execGetpid dt s
  | .getbcr dt => Sys2Proof.Machine.execGetbcr dt s
  | .getdcr dt => Sys2Proof.Machine.execGetdcr dt s
  | .getstatus dt => Sys2Proof.Machine.execGetstatus dt s
  | .getmxds dt => Sys2Proof.Machine.execGetmxds dt s
  | .rstact dt action => Sys2Proof.Machine.execRstact dt action s
  | .pldmMonitoring dt request => Sys2Proof.Machine.execPldmMonitoring dt request s
  | .mctpControl dt request => Sys2Proof.Machine.execMctpControl dt request s
  | .getVersion dt p => Sys2Proof.Machine.execGetVersion dt p s
  | .getCapabilities dt p => Sys2Proof.Machine.execGetCapabilities dt p s
  | .negotiateAlgorithms dt p offered => Sys2Proof.Machine.execNegotiateAlgorithms dt p offered s
  | .getDigests dt p => Sys2Proof.Machine.execGetDigests dt p s
  | .getCertificate dt p slot off len => Sys2Proof.Machine.execGetCertificate dt p slot off len s
  | .challenge dt p slot => Sys2Proof.Machine.execChallenge dt p slot s
  | .getMeasurements dt p sess idx => Sys2Proof.Machine.execGetMeasurements dt p sess idx s
  | .keyExchange dt p slot => Sys2Proof.Machine.execKeyExchange dt p slot s
  | .finish dt sid good => Sys2Proof.Machine.execFinish dt sid good s
  | .heartbeat dt sid => Sys2Proof.Machine.execHeartbeat dt sid s
  | .keyUpdate dt sid => Sys2Proof.Machine.execKeyUpdate dt sid s
  | .endSession dt sid => Sys2Proof.Machine.execEndSession dt sid s
  | .keyDeliver dt sid k => Sys2Proof.Machine.execKeyDeliver dt sid k s
  | .keyErase dt sid entry => Sys2Proof.Machine.execKeyErase dt sid entry s
  | .spdmSessionTimeout dt sid => Sys2Proof.Machine.execSpdmSessionTimeout dt sid s
  | .lockInterface dt sid c stream => Sys2Proof.Machine.execLockInterface dt sid c stream s
  | .stopInterface dt c => Sys2Proof.Machine.execStopInterface dt c s
  | .ideIntegrityFailure dt stream => Sys2Proof.Machine.execIdeIntegrityFailure dt stream s
  | .functionLevelReset dt fn dur => Sys2Proof.Machine.execFunctionLevelReset dt fn dur s
  | .perstAssert dt => Sys2Proof.Machine.execPerstAssert dt s
  | .perstDeassert dt => Sys2Proof.Machine.execPerstDeassert dt s
  | .configRequest dt fn sriov => Sys2Proof.Machine.execConfigRequest dt fn sriov s
  | .bar4Read dt vf off len ideT => Sys2Proof.Machine.execBar4Read dt vf off len ideT s
  | .bar4Write dt vf off data ideT => Sys2Proof.Machine.execBar4Write dt vf off data ideT s
  | .ptmExchange dt master => Sys2Proof.Machine.execPtmExchange dt master s
  | .ppsInEdge dt phase => Sys2Proof.Machine.execPpsInEdge dt phase s
  | .ppsOutSecond dt => Sys2Proof.Machine.execPpsOutSecond dt s
  | .ptpSync dt m => Sys2Proof.Machine.execPtpSync dt m s
  | .ptpFollowUp dt port domain offset => Sys2Proof.Machine.execPtpFollowUp dt port domain offset s
  | .ptpAnnounce dt port domain grandmaster => Sys2Proof.Machine.execPtpAnnounce dt port domain grandmaster s
  | .ptpDelayResp dt port domain delay => Sys2Proof.Machine.execPtpDelayResp dt port domain delay s
  | .ptpDelayReq dt => Sys2Proof.Machine.execPtpDelayReq dt s
  | .ptpMasterSyncTimer dt => Sys2Proof.Machine.execPtpMasterSyncTimer dt s
  | .syncLoss dt => Sys2Proof.Machine.execSyncLoss dt s
  | .arpRequest dt port len target sender => Sys2Proof.Machine.execArpRequest dt port len target sender s
  | .neighborSolicitation dt port len target sender solicits => Sys2Proof.Machine.execNeighborSolicitation dt port len target sender solicits s
  | .echoRequest dt port len v6 target sender data => Sys2Proof.Machine.execEchoRequest dt port len v6 target sender data s
  | .frameDrop dt port kind => Sys2Proof.Machine.execFrameDrop dt port kind s
  | .xltMalformed dt port srcM => Sys2Proof.Machine.execXltMalformed dt port srcM s
  | .helloAnnounce dt m p => Sys2Proof.Machine.execHelloAnnounce dt m p s
  | .helloOpen dt m p => Sys2Proof.Machine.execHelloOpen dt m p s
  | .helloOpenAck dt m => Sys2Proof.Machine.execHelloOpenAck dt m s
  | .helloClose dt m => Sys2Proof.Machine.execHelloClose dt m s
  | .probeAck dt m => Sys2Proof.Machine.execProbeAck dt m s
  | .probeEchoReq dt m => Sys2Proof.Machine.execProbeEchoReq dt m s
  | .probeEchoResp dt m => Sys2Proof.Machine.execProbeEchoResp dt m s
  | .nak dt m => Sys2Proof.Machine.execNak dt m s
  | .dataWrite dt m => Sys2Proof.Machine.execDataWrite dt m s
  | .dataRead dt m => Sys2Proof.Machine.execDataRead dt m s
  | .readResp dt m => Sys2Proof.Machine.execReadResp dt m s
  | .atomic dt m => Sys2Proof.Machine.execAtomic dt m s
  | .collective dt m => Sys2Proof.Machine.execCollective dt m s
  | .pageShipAnnounce dt m p => Sys2Proof.Machine.execPageShipAnnounce dt m p s
  | .pageShipAccept dt m => Sys2Proof.Machine.execPageShipAccept dt m s
  | .pageShipPage dt m => Sys2Proof.Machine.execPageShipPage dt m s
  | .pageShipScales dt m => Sys2Proof.Machine.execPageShipScales dt m s
  | .pageShipDoneAck dt m => Sys2Proof.Machine.execPageShipDoneAck dt m s
  | .control dt m => Sys2Proof.Machine.execControl dt m s
  | .paceBeacon dt m => Sys2Proof.Machine.execPaceBeacon dt m s
  | .lagNotice dt m => Sys2Proof.Machine.execLagNotice dt m s
  | .capSet dt m => Sys2Proof.Machine.execCapSet dt m s
  | .dowelHold dt m => Sys2Proof.Machine.execDowelHold dt m s
  | .dowelRenew dt m => Sys2Proof.Machine.execDowelRenew dt m s
  | .dowelGrant dt m => Sys2Proof.Machine.execDowelGrant dt m s
  | .dowelRefuse dt m => Sys2Proof.Machine.execDowelRefuse dt m s
  | .dowelRelease dt m => Sys2Proof.Machine.execDowelRelease dt m s
  | .dowelSwap dt m => Sys2Proof.Machine.execDowelSwap dt m s
  | .dowelTaken dt m => Sys2Proof.Machine.execDowelTaken dt m s
  | .dowelCommit dt m d => Sys2Proof.Machine.execDowelCommit dt m d s
  | .dowelCommitAck dt m => Sys2Proof.Machine.execDowelCommitAck dt m s
  | .dowelSoloGrant dt m => Sys2Proof.Machine.execDowelSoloGrant dt m s
  | .portUp dt port => Sys2Proof.Machine.execPortUp dt port s
  | .portDown dt port => Sys2Proof.Machine.execPortDown dt port s
  | .announceTimer dt => Sys2Proof.Machine.execAnnounceTimer dt s
  | .ackDelayTimer dt lane => Sys2Proof.Machine.execAckDelayTimer dt lane s
  | .retransmitTimeout dt lane => Sys2Proof.Machine.execRetransmitTimeout dt lane s
  | .laneProbeTimer dt lane => Sys2Proof.Machine.execLaneProbeTimer dt lane s
  | .peerQuarantineExpiry dt m => Sys2Proof.Machine.execPeerQuarantineExpiry dt m s
  | .shipAnnounceResend dt x => Sys2Proof.Machine.execShipAnnounceResend dt x s
  | .shipPageTimeout dt x => Sys2Proof.Machine.execShipPageTimeout dt x s
  | .shipAckTimeout dt x => Sys2Proof.Machine.execShipAckTimeout dt x s
  | .pwrEnAssert dt inputGood => Sys2Proof.Machine.execPwrEnAssert dt inputGood s
  | .pwrEnDeassert dt => Sys2Proof.Machine.execPwrEnDeassert dt s
  | .trayLatchAssert dt inputGood => Sys2Proof.Machine.execTrayLatchAssert dt inputGood s
  | .trayLatchDeassert dt => Sys2Proof.Machine.execTrayLatchDeassert dt s
  | .keepAliveStart dt slotId cabId => Sys2Proof.Machine.execKeepAliveStart dt slotId cabId s
  | .bootStepEnd dt e => Sys2Proof.Machine.execBootStepEnd dt e s
  | .inputSample dt x => Sys2Proof.Machine.execInputSample dt x s
  | .supplyRecovered dt => Sys2Proof.Machine.execSupplyRecovered dt s
  | .supplyHalt100ms dt => Sys2Proof.Machine.execSupplyHalt100ms dt s
  | .measurementLoss dt => Sys2Proof.Machine.execMeasurementLoss dt s
  | .estimatorTick dt d => Sys2Proof.Machine.execEstimatorTick dt d s
  | .powerLoopTick dt => Sys2Proof.Machine.execPowerLoopTick dt s
  | .paceTick dt => Sys2Proof.Machine.execPaceTick dt s
  | .railLevelStep dt => Sys2Proof.Machine.execRailLevelStep dt s
  | .paceMeterInterval dt rate => Sys2Proof.Machine.execPaceMeterInterval dt rate s
  | .deferredPaceIncrease dt => Sys2Proof.Machine.execDeferredPaceIncrease dt s
  | .droopCeilingExpiry dt => Sys2Proof.Machine.execDroopCeilingExpiry dt s
  | .calibrationFit dt => Sys2Proof.Machine.execCalibrationFit dt s
  | .attributionPeriod dt shares rest => Sys2Proof.Machine.execAttributionPeriod dt shares rest s
  | .confEpoch dt => Sys2Proof.Machine.execConfEpoch dt s
  | .capHeartbeatTimeout dt => Sys2Proof.Machine.execCapHeartbeatTimeout dt s
  | .loneCapTimeout dt => Sys2Proof.Machine.execLoneCapTimeout dt s
  | .reportTimer dt => Sys2Proof.Machine.execReportTimer dt s
  | .beaconTimer dt => Sys2Proof.Machine.execBeaconTimer dt s
  | .memberStale dt m => Sys2Proof.Machine.execMemberStale dt m s
  | .droopDetect dt bench v => Sys2Proof.Machine.execDroopDetect dt bench v s
  | .droopGateRelease dt k => Sys2Proof.Machine.execDroopGateRelease dt k s
  | .thermalSample dt x => Sys2Proof.Machine.execThermalSample dt x s
  | .blockHalt1s dt k => Sys2Proof.Machine.execBlockHalt1s dt k s
  | .suspectClear dt k second => Sys2Proof.Machine.execSuspectClear dt k second s
  | .inletSettled dt => Sys2Proof.Machine.execInletSettled dt s
  | .thermTrip dt reading => Sys2Proof.Machine.execThermTrip dt reading s
  | .flowTick dt x => Sys2Proof.Machine.execFlowTick dt x s
  | .flowsDisagree dt => Sys2Proof.Machine.execFlowsDisagree dt s
  | .flowRangeRecovered dt => Sys2Proof.Machine.execFlowRangeRecovered dt s
  | .leakDetected dt => Sys2Proof.Machine.execLeakDetected dt s
  | .mr4Report dt pkg rate => Sys2Proof.Machine.execMr4Report dt pkg rate s
  | .scrubBurst dt g => Sys2Proof.Machine.execScrubBurst dt g s
  | .sramScrub dt x => Sys2Proof.Machine.execSramScrub dt x s
  | .prefetchFillStart dt g => Sys2Proof.Machine.execPrefetchFillStart dt g s
  | .prefetchPinExpiry dt g => Sys2Proof.Machine.execPrefetchPinExpiry dt g s
  | .keySweepPage dt c => Sys2Proof.Machine.execKeySweepPage dt c s
  | .groupReleaseDone dt g => Sys2Proof.Machine.execGroupReleaseDone dt g s
  | .blockScrubDone dt k => Sys2Proof.Machine.execBlockScrubDone dt k s
  | .runStart dt b => Sys2Proof.Machine.execRunStart dt b s
  | .opIssue dt b u ev bank withheld => Sys2Proof.Machine.execOpIssue dt b u ev bank withheld s
  | .opComplete dt b u ev => Sys2Proof.Machine.execOpComplete dt b u ev s
  | .eventBoundExceeded dt b ev => Sys2Proof.Machine.execEventBoundExceeded dt b ev s
  | .meshPacketArrival dt link cls => Sys2Proof.Machine.execMeshPacketArrival dt link cls s
  | .creditReturn dt link cls => Sys2Proof.Machine.execCreditReturn dt link cls s
  | .inboundWrite dt b => Sys2Proof.Machine.execInboundWrite dt b s
  | .runEnd dt id => Sys2Proof.Machine.execRunEnd dt id s
  | .stepEnd dt c outs fate work => Sys2Proof.Machine.execStepEnd dt c outs fate work s
  | .stepBoundary dt c tails => Sys2Proof.Machine.execStepBoundary dt c tails s
  | .idleBoundaryTimer dt c tails => Sys2Proof.Machine.execIdleBoundaryTimer dt c tails s
  | .tableChangeBoundary dt c tails => Sys2Proof.Machine.execTableChangeBoundary dt c tails s
  | .quantumExpiry dt c => Sys2Proof.Machine.execQuantumExpiry dt c s
  | .contextSwitch dt c overran => Sys2Proof.Machine.execContextSwitch dt c overran s
  | .inputPoll dt enc session => Sys2Proof.Machine.execInputPoll dt enc session s
  | .pictureComplete dt session r => Sys2Proof.Machine.execPictureComplete dt session r s
  | .workBoundReached dt session => Sys2Proof.Machine.execWorkBoundReached dt session s
  | .encodePictureDone dt session header rows badRef => Sys2Proof.Machine.execEncodePictureDone dt session header rows badRef s
  | .parseWatchdog dt session => Sys2Proof.Machine.execParseWatchdog dt session s
  | .videoCoreUnresponsive dt core held => Sys2Proof.Machine.execVideoCoreUnresponsive dt core held s
  | .videoCoreRestartDone dt core => Sys2Proof.Machine.execVideoCoreRestartDone dt core s
  | .holdTimer dt c => Sys2Proof.Machine.execHoldTimer dt c s
  | .leaseExpiry dt c => Sys2Proof.Machine.execLeaseExpiry dt c s
  | .holdSilence dt c => Sys2Proof.Machine.execHoldSilence dt c s
  | .dowelRequestResend dt c => Sys2Proof.Machine.execDowelRequestResend dt c s
  | .commitResend dt c => Sys2Proof.Machine.execCommitResend dt c s
  | .releaseResend dt c => Sys2Proof.Machine.execReleaseResend dt c s
  | .releaseTimeout dt c => Sys2Proof.Machine.execReleaseTimeout dt c s
  | .swapDue dt c => Sys2Proof.Machine.execSwapDue dt c s
  | .sisterLinkLost dt => Sys2Proof.Machine.execSisterLinkLost dt s
  | .sisterLinkReturn dt peerSolo => Sys2Proof.Machine.execSisterLinkReturn dt peerSolo s
  | .resyncCopyDone dt c boundary epoch d => Sys2Proof.Machine.execResyncCopyDone dt c boundary epoch d s
  | .snapshotLatch dt id => Sys2Proof.Machine.execSnapshotLatch dt id s
  | .snapshotWriteDone dt id => Sys2Proof.Machine.execSnapshotWriteDone dt id s
  | .recorderFlushTimer dt => Sys2Proof.Machine.execRecorderFlushTimer dt s
  | .recorderFlushDone dt => Sys2Proof.Machine.execRecorderFlushDone dt s
  | .freezeExpiry dt => Sys2Proof.Machine.execFreezeExpiry dt s
  | .flashProgramFail dt erasedLeft => Sys2Proof.Machine.execFlashProgramFail dt erasedLeft s
  | .startInterface dt c => Sys2Proof.Machine.execStartInterface dt c s
  | .ideKm dt sid stream on => Sys2Proof.Machine.execIdeKm dt sid stream on s
  | .jigLoadDone dt id => Sys2Proof.Machine.execJigLoadDone dt id s
  | .oprPlanDone dt id => Sys2Proof.Machine.execOprPlanDone dt id s
  | .veneerLoadDone dt slot => Sys2Proof.Machine.execVeneerLoadDone dt slot s
  | .wgtUnsealDone dt id badChunk => Sys2Proof.Machine.execWgtUnsealDone dt id badChunk s
  | .slotEraseDone dt slot => Sys2Proof.Machine.execSlotEraseDone dt slot s
  | .slotVerifyDone dt slot good m => Sys2Proof.Machine.execSlotVerifyDone dt slot good m s
  | .recorderEraseDone dt => Sys2Proof.Machine.execRecorderEraseDone dt s

end Sys2Proof.Machine
end

