-- ==== Sys2Proof/Machine/Module.lean ====
section
/-! DEFINITION. What the manual fixes of the module itself: its clocked domains and time bounds (chapters 01, 05, 07, 10, 15), the contacts of the
tray connector, and the ratings (chapter 17). None of it changes, so none of it stands in the state. -/
namespace Sys2Proof.Machine

/-! ### Sites and resources (R9, R13, R18) -/

/-- R9: a site by its street and avenue. -/
def siteOf (street avenue : Nat) : Nat := street * 16 + avenue

/-- R13: the edges of the die. -/
inductive Edge where
  | north | east | south | west
  deriving DecidableEq, Repr, Inhabited

/-- R13: the edge on which yard g sits. -/
def yardEdge (g : Nat) : Edge :=
  match g / 4 with
  | 0 => .north
  | 1 => .east
  | 2 => .south
  | _ => .west

/-- R18, R142: the multiply-accumulates of a bench per event, by the width of an element in bits. -/
def macPerEvent (bits : Nat) : Nat := if bits ≤ 6 then 8192 else if bits = 8 then 4096 else 2048

/-- R18: the dense peak in operations per second at an event rate: two operations per multiply-accumulate of the 252 benches. -/
def densePeak (bits eventsPerS : Nat) : Nat := 252 * macPerEvent bits * 2 * eventsPerS

/-- R18: the tags of bench streamers, of yards and of the network. -/
def operationsInFlight : Nat := 252 * 128 + 16 * 1024 + (16384 + 512)

/-! ### Clocked domains and crossings (R19, R20, R153) -/

/-- R19: the kinds of clocked domain. -/
inductive Domain where
  | phy | ethernet | pcie | timeBase | sideband
  deriving DecidableEq, Repr, Inhabited

/-- R19: how many domains of a kind there are. -/
def domainCount : Domain → Nat
  | .phy => 36
  | _ => 1

/-- R19: the clock of a domain in 100 Hz; a package's PHY runs slower at 6,400 MT/s. -/
def domainClock (slow : Bool) : Domain → Nat
  | .phy => if slow then 8000000 else 10667000
  | .ethernet => 13281250
  | .pcie => 10000000
  | .timeBase => 10000000
  | .sideband => 1000000

/-- R153: the time of a number of events at a level, in ns. -/
def eventsNs (n level : Nat) : Rat := n * 1000 / (typicalRate level : Rat)

/-- R19, R20: the time of a number of clock periods of a domain, in ns. -/
def periodsNs (n : Nat) (slow : Bool) (d : Domain) : Rat := n * 10000000 / (domainClock slow d : Rat)

/-- R20: what one crossing between a clocked domain and handshake logic adds at most, in ns. -/
def crossingBoundNs (slow : Bool) (d : Domain) (level : Nat) : Rat := periodsNs 3 slow d + eventsNs 4 level

/-! ### Bounds of time and bandwidth -/

/-- R23: the most that a context moves to other modules, in Gb/s, over its assigned ports. -/
def remoteBoundGbps (speeds : List Nat) : Nat := min 3200 (speeds.foldl (· + ·) 0)

/-- R93: the bound from a command's stamp to its first response, in ns: `terms` are those of the commands dispatched between, 1 µs each unless
it acts on the same function. -/
def responseBoundNs (terms : List Nat) (own : Nat) : Nat := 15000 + terms.foldl (· + ·) 0 + own

/-- R94: how many commands may come between when `k` of its own mailbox wait ahead of it. -/
def commandsAhead (k : Nat) : Nat := 29 * k + 28

/-- R143: the events of an MMA op over K, whose format consumes `slices` halves of a k-slice per event (R142). -/
def mmaEvents (k slices : Nat) : Nat := 8 + 2 * k / slices

/-- R143: the events of an ACC_OUT op, by the width of the output in bits. -/
def accOutEvents (bits : Nat) : Nat := 2 * bits

/-- R230: the decoded bytes per event, and the events that the decoder adds at most. -/
def codecBytesPerEvent : Nat := 512
def codecEvents : Nat := 96

/-- R260: how a read meets its yard. -/
inductive ReadPath where
  | hit | openRow | opensRow
  deriving DecidableEq, Repr, Inhabited

/-- R260, R273: the bound of a 256-byte read from a bench `hops` links from its attachment crossing, in ns. -/
def readBoundNs (hops level : Nat) (slow enc : Bool) (p : ReadPath) : Rat :=
  let miss := periodsNs 6 slow .phy + (if slow then 35 else 30) + (if enc then 24 else 0)
  match p with
  | .hit => eventsNs (4 * hops + 13) level
  | .openRow => eventsNs (4 * hops + 29) level + miss
  | .opensRow => eventsNs (4 * hops + 29) level + miss + 35

/-- R407, R421: how long after its token's emission a record may become visible, in ns, without the one-way time of the wire. -/
def recordBoundNs (remote : Bool) : Nat := if remote then 4000 else 2000

/-- R675: the bound of the gap of a switch-over, in ns, for a step-time bound: unplanned, or planned by swap or release. -/
def gapBoundNs (planned : Bool) (step : Nat) : Nat := (if planned then 0 else 220000000) + 2 * step

/-- R647: the bounds of what one context's activity tells another: through pace, in bits per 100 ms; through restarts, in responses per 10 s; by
each contending packet at a crossing, in events; and by each other context's boundary, in ns. -/
def paceLeakBits : Nat := 2
def restartLeakResponses : Nat := 8
def crossingLeakEvents : Nat := 2
def boundaryLeakNs : Nat := 40000

/-- R435: the longest frame of an Ethernet port in bytes, and the most VLAN tags. -/
def maxFrame : Nat := 9216
def maxVlanTags : Nat := 1

/-! ### The tray connector (R732–R737) -/

/-- R732: the signal bays. -/
inductive Bay where
  | A | B | C | D | E | F
  deriving DecidableEq, Repr, Inhabited

/-- R733: the contacts of a lane, in order. -/
inductive LaneContact where
  | gnd | txp | txn | gnd2 | rxp | rxn
  deriving DecidableEq, Repr, Inhabited

/-- R734, R737: the sideband signals. -/
inductive Side where
  | i3cScl | i3cSda | ppsIn | ppsOut | modPresentN | trayLatchN | pwrEn | pwrGood | thermTripN | alertN | drainOk
  | slotId (bit : Nat)
  | cabId (bit : Nat)
  deriving DecidableEq, Repr, Inhabited

/-- R732: what a contact carries. -/
inductive Contact where
  | ethernet (lane : Nat) (k : LaneContact)
  | pcie (lane : Nat) (k : LaneContact)
  | sister (lane : Nat) (k : LaneContact)
  | refclkP | refclkN | perstN
  | side (x : Side)
  | gnd
  | rsvd
  deriving DecidableEq, Repr, Inhabited

/-- R733: the contact of a lane that stands at a place in its six. -/
def laneContact (n : Nat) : LaneContact :=
  match n % 6 with
  | 0 => .gnd
  | 1 => .txp
  | 2 => .txn
  | 3 => .gnd2
  | 4 => .rxp
  | _ => .rxn

/-- R734: bay E. -/
def sideContact (n : Nat) : Contact :=
  match n with
  | 2 => .side .i3cScl
  | 4 => .side .i3cSda
  | 6 => .side .ppsIn
  | 8 => .side .ppsOut
  | 10 => .side .modPresentN
  | 11 => .side .trayLatchN
  | 12 => .side .pwrEn
  | 13 => .side .pwrGood
  | 14 => .side .thermTripN
  | 15 => .side .alertN
  | 16 => .side .drainOk
  | _ =>
    if 17 ≤ n && n ≤ 22 then .side (.slotId (n - 17))
    else if 23 ≤ n && n ≤ 26 then .side (.cabId (n - 23))
    else if n % 2 = 1 then .gnd else .rsvd

/-- R732, R733: what contact `n` (1–96) of a bay carries. -/
def contact (b : Bay) (n : Nat) : Contact :=
  let plain : Contact := if n % 2 = 1 then .gnd else .rsvd
  match b with
  | .A => .ethernet ((n - 1) / 6) (laneContact (n - 1))
  | .B => .ethernet (16 + (n - 1) / 6) (laneContact (n - 1))
  | .C => .pcie ((n - 1) / 6) (laneContact (n - 1))
  | .D =>
    if n ≤ 12 then .sister ((n - 1) / 6) (laneContact (n - 1))
    else match n with
      | 14 => .refclkP
      | 15 => .refclkN
      | 16 => .gnd
      | 17 => .perstN
      | 18 => .gnd
      | _ => plain
  | .E => sideContact n
  | .F => plain

/-- R735: what engages. -/
inductive Mating where
  | seal | valve | pwrRtn | pwrIn | gnd | other | modPresent
  deriving DecidableEq, Repr, Inhabited

/-- R735: the travel before full seating at which an element engages, in mm. -/
def engagement : Mating → Nat
  | .seal => 14
  | .valve => 10
  | .pwrRtn => 8
  | .pwrIn => 6
  | .gnd => 5
  | .other => 4
  | .modPresent => 2

/-- R735: how a contact of the bays mates. -/
def matingOf : Contact → Mating
  | .gnd => .gnd
  | .ethernet _ .gnd => .gnd
  | .ethernet _ .gnd2 => .gnd
  | .pcie _ .gnd => .gnd
  | .pcie _ .gnd2 => .gnd
  | .sister _ .gnd => .gnd
  | .sister _ .gnd2 => .gnd
  | .side .modPresentN => .modPresent
  | _ => .other

/-- R736: how long before the withdrawal reaches 2 mm the tray deasserts the latch, in ms. -/
def latchWarningMs : Nat := 200

/-- R737, R740: what a pin shows while the module is unpowered. -/
inductive Unpowered where
  | low | highZ
  deriving DecidableEq, Repr, Inhabited

/-- R737: the unpowered column. -/
def unpowered : Side → Unpowered
  | .modPresentN => .low
  | .pwrGood => .low
  | .drainOk => .low
  | .ppsOut => .low
  | _ => .highZ

/-- R740: the most that an input leaks while the module is unpowered, in µA. -/
def leakMicroamps : Nat := 10

/-! ### Electrical parts and ratings (R743–R757) -/

/-- R743: an input voltage (mV) at which the board controller and the hold-up work, and one at which the fabric runs. -/
def inputRange (mv : Nat) : Bool := 40000 ≤ mv && mv ≤ 60000
def fabricRange (mv : Nat) : Bool := 44000 ≤ mv && mv ≤ 60000

/-- R743: the ratings of the input current, in mA: sustained, over 1 ms, and while the bank charges; and the keep-alive's draw in W. -/
def sustainedMa : Nat := 19000
def peakMa : Nat := 22500
def chargeMa : Nat := 4000
def keepAliveWatts : Nat := 3

/-- R743: the keep-alive supply runs after an input of `mv`, when it ran before or not. -/
def keepAliveRuns (ran : Bool) (mv : Nat) : Bool := if ran then 30000 ≤ mv else 36000 ≤ mv

/-- R744: the bounds of the hold-up bank in µF; and the time in µs to charge it at 4 A to 90 % of 54 V. -/
def bankLowest : Nat := 1500
def bankHighest : Nat := 2200
def chargeUs (microfarads : Nat) : Nat := microfarads * 486 / 40

/-- R745: how far a measurement may lie from the input: voltage (mV), current (mA), and the averages of power (0.01 W). -/
def voltageError (mv : Nat) : Nat := mv / 200
def currentError (ma : Nat) : Nat := ma / 100 + 50
def powerError (centiwatts : Nat) : Nat := centiwatts * 3 / 200 + 200

/-- R749: the module's share of the insertion loss in dB: PCIe at 16 GHz, Ethernet and sister lanes at 26.56 GHz. -/
def pcieLossDb : Nat := 9
def ethernetLossDb : Nat := 7

/-- R751: the coolant's supply in 0.1 °C and its flow in mL/min, for full power; its differential pressure in 0.1 kPa at a flow; and the static
pressure in kPa. -/
def coolantOk (supply flow static : Nat) : Bool := 150 ≤ supply && supply ≤ 450 && 1100 ≤ flow && flow ≤ 2500 && static ≤ 400
def coolantPressure (flow : Nat) : Nat := flow * 600 / 1500

/-- R753: the coolant sensors. -/
inductive CoolSensor where
  | inlet | outlet | pressure | flow | moisture
  deriving DecidableEq, Repr, Inhabited

/-- R753: the sampling rate of a coolant sensor in Hz, and the top of its range in its own unit (0.1 °C, 0.1 kPa, mL/min). -/
def sensorRate : CoolSensor → Nat
  | .pressure => 10000
  | .moisture => 100
  | _ => 1000
def sensorTop : CoolSensor → Nat
  | .inlet => 800
  | .outlet => 800
  | .pressure => 2000
  | .flow => 3000
  | .moisture => 1

/-- R755: the absolute limits: the input in V, continuous and for 1 ms; the current per blade in A; the coolant's static pressure in kPa. Beyond
them the manual specifies no behaviour. -/
def inputLimitV (momentary : Bool) : Nat := if momentary then 80 else 65
def bladeAmps : Nat := 30
def coolantLimitKpa : Nat := 600

/-- R756: the environment in operation: air in °C and relative humidity in %, by the coating field of the ordering code. -/
def environmentOk (coated : Bool) (air humidity : Nat) : Bool := air ≤ 55 && 5 ≤ humidity && humidity ≤ (if coated then 100 else 85)

/-- R757: the size of the module in mm, its greatest mass in g, and the mating cycles of connector and couplings. -/
def sizeMm : Nat × Nat × Nat := (440, 300, 46)
def massG : Nat := 6800
def matingCycles : Nat := 250

end Sys2Proof.Machine
end

