-- ==== Sys2Proof/Machine/Regs.lean ====
section
/-! DEFINITION. The register map of BAR0: the 64-bit value that each address reads as, and which function sees it. Reads that change the state
are commands of their own (R34, R283, R724); every other read is a function of the state (log entry 29). -/
namespace Sys2Proof.Machine

/-- The k-th 64-bit part of a wider register. -/
def part64 (n k : Nat) : Nat := n / 2 ^ (64 * k) % 2 ^ 64

/-- The 64-bit value at an offset of an area of bytes. -/
def word64 (l : List Byte) (off : Nat) : Nat := leNat ((l.drop off).take 8)

/-- What a function sees of the registers of a context: PF0 (`none`) all of them, a VF those of its own. -/
def seesCtx (viewer : Option Nat) (c : Nat) : Bool := viewer.isNone || viewer = some c

/-- R427, R481, R527: what a function sees of a context that may be confidential: then its own VF alone. -/
def seesConf (s : State) (viewer : Option Nat) (c : Nat) : Bool := if isConf s c then viewer = some c else seesCtx viewer c

/-- R694: a gauge register of a unit, by its offset in the unit's area. -/
def gaugeReg (s : State) (viewer : Option Nat) (u off : Nat) : Nat := (areaFor s viewer s.free u).getD (off / 8) 0

/-! ### Mailbox pages (R66, BAR2) -/

/-- R68: `MBX_CTRL`; the reset bit reads 0. -/
def mbxCtrl (s : State) (m : Nat) : Nat := (mbxOf s m).vector + 2 ^ 31 * bit (mbxOf s m).irqEn

/-- R66: the registers of mailbox m's page, by their offset from 0x8000. -/
def mbxReg (s : State) (m off : Nat) : Nat :=
  let b := mbxOf s m
  match off with
  | 0x00 => b.cmdTail
  | 0x08 => b.cmdHead
  | 0x10 => b.rspTail
  | 0x18 => b.rspHead
  | 0x20 => mbxState s m
  | 0x28 => mbxCtrl s m
  | 0x30 => b.violations
  | _ => 0

/-- R66: the bytes of a response ring: the entries written since the mailbox's last reset, each at its index modulo 256; those before them read
as zero. `rsps` holds the newest first, so the last 256 entries decide. -/
def rspRing (s : State) (m : Nat) : List Byte :=
  let b := mbxOf s m
  let written := (b.rsps.reverse.flatMap rspBytes)
  let n := written.length / 64
  (List.range 256).flatMap fun i =>
    let back := (b.rspTail + 256 - 1 - i) % 256
    if back < n then (written.drop (64 * (n - 1 - back))).take 64 else List.replicate 64 0

/-- R64, R66: a mailbox page of BAR2 (R759: PF0's BAR2 maps mailbox 0's, a VF's its context's). -/
def bar2Reg (s : State) (m off : Nat) : Nat :=
  if off < 0x4000 then leNat ((List.range 8).map fun k => tget (mbxOf s m).ring (off + k) 0)
  else if off < 0x8000 then word64 (rspRing s m) (off - 0x4000)
  else mbxReg s m (off - 0x8000)

/-! ### The blocks of BAR0, by the offset in the block -/

/-- R62: the SQ and MBX block, in PF0's BAR0 alone. -/
def sqReg (s : State) (viewer : Option Nat) (off : Nat) : Nat :=
  if viewer.isSome then 0
  else match off with
    | 0x0000 => sqStatus s
    | 0x0008 => s.sq.roWrites
    | 0x0010 => s.sq.lastRestart
    | 0x0018 => s.sq.checkpoints
    | _ => if 0x1000 ≤ off && off < 0x1800 then mbxReg s ((off - 0x1000) / 0x40) (off % 0x40) else 0

/-- R34: the TIM block. `TIM_STAMP_NS` and `TIM_STAMP_LC` are what the function's last read of the former issued. -/
def timReg (s : State) (viewer : Option Nat) (off : Nat) : Nat :=
  let fn := viewer.elim 0 (· + 1)
  match off with
  | 0x00 => tget s.time.stampNs fn 0
  | 0x08 => tget s.time.stampLc fn 0
  | _ => if off < 0x40 then ((timRegs s).map (·.val)).getD (off / 8 - 2) 0 else 0

/-- R122: the BOOT and FW block. DESIGN CHOICE (the manual limits it to no function): every function sees it (log entry 29). -/
def bootReg (s : State) (off : Nat) : Nat :=
  if off = 0 then bootState s else ((bootCaps s).map (·.val)).getD (off / 8 - 1) 0

/-- R605, R606: the PWR and THM block. -/
def pwrReg (s : State) (viewer : Option Nat) (off : Nat) : Nat :=
  let pf0 (n : Nat) : Nat := if viewer.isNone then n else 0
  match off with
  | 0x00000 => pwrStatus s
  | 0x00008 => pwrPaceRate s
  | 0x00010 => pwrLimits s
  | 0x00018 => pf0 (pwrInput s)
  | 0x00020 => pf0 (pwrEstimate s)
  | 0x00028 => pf0 (s.pwr.input.energy % 2 ^ 64)
  | 0x00030 => pf0 (s.pwr.input.unattributed % 2 ^ 64)
  | 0x00038 => pf0 s.pwr.input.periodStamp
  | 0x00040 => pf0 s.pwr.pace.droopEvents
  | 0x00048 => pf0 s.pwr.pace.changes
  | 0x00050 => pf0 s.pwr.roWrites
  | 0x10000 => pf0 (thmStatus s)
  | 0x10008 => thmCoolant s
  | 0x10010 => thmFlow s
  | _ =>
    if 0x100 ≤ off && off < 0x500 then
      let c := (off - 0x100) / 64
      if seesCtx viewer c then (energyRegs s viewer c).getD (off % 64 / 8) 0 else 0
    else if 0x10100 ≤ off && off < 0x102F8 then thmView s viewer ((off - 0x10100) / 8)
    else 0

/-- R651, R652: the SEC and CTX block. -/
def secReg (s : State) (viewer : Option Nat) (off : Nat) : Nat :=
  let pf0 (n : Nat) : Nat := if viewer.isNone then n else 0
  match off with
  | 0x00 => secStatus s
  | 0x08 => pf0 s.sec.ideDrops
  | 0x10 => pf0 s.sec.roWrites
  | _ =>
    let c := (off - 0x100) / 32
    if off < 0x100 || 0x300 ≤ off || !seesCtx viewer c then 0
    else match off % 32 with
      | 0x00 => ctxStatus s c
      | 0x08 => ctxKey s c
      | 0x10 => (ctxOf s c).switches
      | _ => 0

/-- R724: the bytes that `REC_WINDOW` shows. -/
def recWindowBytes (s : State) : List Byte :=
  (recWindow s).flatMap fun r => r.elim (List.replicate 64 0) fun e => fieldBytes (recData e)

/-- R730: the REC block, in PF0's BAR0 alone. -/
def recReg (s : State) (viewer : Option Nat) (off : Nat) : Nat :=
  let r := s.rec_
  if viewer.isSome then 0
  else if 0x1000 ≤ off && off < 0x2000 then word64 (recWindowBytes s) (off - 0x1000)
  else match off with
    | 0x00 => recStatus s
    | 0x08 => r.cursor.slot + 2 ^ 62 * bit r.cursor.ram + 2 ^ 63 * bit r.cursor.auto
    | 0x40 => r.lastFlush
    | 0x48 => r.roWrites
    | _ => if off < 0x40 then ((recStateData s).map (·.val)).getD (off / 8 - 1) 0 else 0

/-- R729: the GAU block. -/
def gauReg (s : State) (viewer : Option Nat) (off : Nat) : Nat :=
  let pf0 (n : Nat) : Nat := if viewer.isNone then n else 0
  match off with
  | 0x00 => gauStatus s
  | 0x08 => pf0 s.gau.lastSnap
  | 0x10 => pf0 s.gau.roWrites
  | _ =>
    let c := (off - 0x100) / 32
    let x := samplingOf s c
    if off < 0x100 || 0x300 ≤ off || !seesCtx viewer c then 0
    else match off % 32 with
      | 0x00 => gauSampleCfg s c
      | 0x08 => x.prod
      | 0x10 => x.cons
      | _ => x.lost

/-- R429: `REQ_RING_CONS`. -/
def ringConsReg (s : State) (n : Nat) : Nat := ((ringCtx s n).bind fun c => ringOf s c n).elim 0 (·.cons)

/-- R427: what a function sees of a ring, which belongs to the context that has set it. -/
def seesRing (s : State) (viewer : Option Nat) (n : Nat) : Bool := (ringCtx s n).elim viewer.isNone (seesConf s viewer)

/-- R427: what a function sees of an entry of the request table, which belongs to the context whose slice holds it. -/
def seesEntry (s : State) (viewer : Option Nat) (x : Nat) : Bool :=
  let owner := (List.range 16).find? fun c => (ctxOf s c).sliceBase ≤ x && x < (ctxOf s c).sliceBase + (ctxOf s c).sliceCount
  owner.elim viewer.isNone (seesConf s viewer)

/-- R426, R427: the REQ, KV, SMP and VEN block. -/
def reqReg (s : State) (viewer : Option Nat) (off : Nat) : Nat :=
  if off < 0x80000 then
    let x := off / 128
    if seesEntry s viewer x then word64 (fieldBytes (entryFields (reqOf s x))) (off % 128) else 0
  else if off < 0x90000 then
    let n := (off - 0x80000) / 16
    if !seesRing s viewer n then 0 else if off % 16 = 0 then ringProdReg s n else ringConsReg s n
  else if off < 0x90400 then
    let c := (off - 0x90000) / 64
    let y := serveOf s c
    if !seesConf s viewer c then 0
    else match off % 64 with
      | 0x00 => reqCtxStatus s c
      | 0x08 => y.steps
      | 0x10 => y.boundaryNs
      | 0x18 => y.stepNs
      | 0x20 => y.tokens
      | _ => 0
  else if off = 0x90400 then (if viewer.isNone then s.serve.badWrites else 0)
  else if 0xA0000 ≤ off && off < 0xA4000 then
    let i := (off - 0xA0000) / 16
    let v := venOf s i
    if if v.state = .free then viewer.isNone else seesConf s viewer v.owner then part64 (venSlotReg s i) (off % 16 / 8) else 0
  else 0

/-- R480: the module-wide registers of the NET and XLT block, from 0x01_0000 on. -/
def xltRegs (s : State) : List Nat :=
  [xltStatus s, xltTags s, s.net.malformed, s.net.violations, s.net.retransmits, s.net.naksSent, s.net.unknownPeer, s.net.roWrites]

/-- R480, R481: the NET and XLT block. -/
def netReg (s : State) (viewer : Option Nat) (off : Nat) : Nat :=
  if off < 0x10000 then
    let p := off / 64
    if 33 ≤ p || !(viewer.elim true fun c => bitOf (portOf s p).contexts c) then 0
    else ((portRegs s p).map (·.val)).getD (off % 64 / 8) 0
  else if off < 0x20000 then (if viewer.isNone then (xltRegs s).getD ((off - 0x10000) / 8) 0 else 0)
  else if off < 0x40000 then (if viewer.isNone then part64 (peerReg s ((off - 0x20000) / 16)) (off % 16 / 8) else 0)
  else if off < 0x80000 then
    let n := (off - 0x40000) / 16
    let l := laneOf s n
    if if l.state = .closed || l.modlane then viewer.isNone else seesConf s viewer l.ctx then part64 (laneReg s n) (off % 16 / 8) else 0
  else 0

/-- R526, R527: the VID block. -/
def vidReg (s : State) (viewer : Option Nat) (off : Nat) : Nat :=
  let sess (enc : Bool) (i : Nat) : Nat :=
    if (vidBase s enc i).elim false fun b => seesConf s viewer b.ctx then part64 (vidSessReg s enc i) (off % 16 / 8) else 0
  if off = 0 then vidStatus s
  else if off = 8 then (if viewer.isNone then s.vid.roWrites else 0)
  else if 0x100 ≤ off && off < 0x130 then vidPipeReg s ((off - 0x100) / 8)
  else if 0x1000 ≤ off && off < 0x1800 then sess false ((off - 0x1000) / 16)
  else if 0x1800 ≤ off && off < 0x1A00 then sess true ((off - 0x1800) / 16)
  else if 0x8000 ≤ off && off < 0x8600 then gaugeReg s viewer (0x5000 + (off - 0x8000) / 0x100) (off % 0x100)
  else 0

/-- R279: what a function sees of a group's last error: a confidential context's, its own VF alone. -/
def seesErrors (s : State) (viewer : Option Nat) (g : Nat) : Bool := (groupOwner s g).elim true fun c => !isConf s c || viewer = some c

/-- R280: `MCH_LAST_ERR_ADDR`, `_STAMP` and `MCH_LAST_SYNDROME`. -/
def lastErr (s : State) (g : Nat) : Option ErrEvent := (tget s.mem.groups g {}).events.head?
def lastErrAddr (s : State) (g : Nat) : Nat :=
  (lastErr s g).elim 0 fun e => 2 ^ 63 + 2 ^ 62 * bit e.detected + e.addr % 2 ^ 44 / 16 * 16
def lastErrStamp (s : State) (g : Nat) : Nat := (lastErr s g).elim 0 (·.stamp.ns)
def lastSyndrome (s : State) (g : Nat) : Nat := (lastErr s g).elim 0 fun e => e.syndrome + 2 ^ 16 * e.symbol

/-- R280: the counts of errors by channel position, 16 bits each from position `first` on. -/
def cePositions (s : State) (g first n : Nat) : Nat :=
  foldN n (fun i a => a + 2 ^ (16 * i) * min 65535 ((tget s.mem.groups g {}).cePos.getD (first + i) 0)) 0

/-- What a VF sees of the pages of groups and yards: those of its context. -/
def seesGroup (s : State) (viewer : Option Nat) (g : Nat) : Bool := viewer.elim true fun c => groupOwner s g = some c

/-- R279, R280: a memory-controller page. -/
def mchReg (s : State) (viewer : Option Nat) (g off : Nat) : Nat :=
  let q := tget s.mem.groups g {}
  let errs (n : Nat) : Nat := if seesErrors s viewer g then n else 0
  if !seesGroup s viewer g then 0
  else if 0x8000 ≤ off && off < 0x8100 then gaugeReg s viewer (0x3000 + g) (off - 0x8000)
  else match off with
    | 0x00 => mchStatus s g none
    | 0x08 => q.ceCount
    | 0x10 => q.dueCount
    | 0x18 => q.poisonWrites
    | 0x20 => errs (lastErrAddr s g)
    | 0x28 => lastErrStamp s g
    | 0x30 => errs (lastSyndrome s g)
    | 0x38 => cePositions s g 0 4
    | 0x40 => cePositions s g 4 4
    | 0x48 => cePositions s g 8 1
    | 0x50 => q.scrubPos * 256 + 2 ^ 48 * (q.passes % 65536)
    | 0x58 => tget s.nv.scrubHours g 24
    | 0x60 => q.roWrites
    | _ => 0

/-- R282: a yard page. -/
def yardReg (s : State) (viewer : Option Nat) (g off : Nat) : Nat :=
  let y := yardOf s g
  if !seesGroup s viewer g then 0
  else if 0x8000 ≤ off && off < 0x8100 then gaugeReg s viewer (0x2000 + g) (off - 0x8000)
  else match off with
    | 0x00 => ydStatus s g none
    | 0x08 => yardTags y + 2 ^ 16 * y.tagsHigh
    | 0x10 => (y.lines.filter fun l => l.due.isSome).length + 2 ^ 16 * y.pinnedHigh
    | 0x18 => y.prefetchDrops
    | 0x20 => y.sramCe
    | 0x28 => y.sramDue
    | 0x30 => y.codecErrors
    | 0x38 => y.roWrites
    | _ => 0

/-- R192, R194: a bench page; a VF sees those of its context's benches. -/
def benchPage (s : State) (viewer : Option Nat) (b off : Nat) : Nat :=
  if !(viewer.elim true fun c => blockOwner s (blockOf b) = some c) then 0
  else if 0x8000 ≤ off && off < 0x8100 then gaugeReg s viewer (0x1000 + b) (off - 0x8000)
  else benchReg s b off

/-- The 64-bit register at an aligned address of BAR0, as PF0 (`none`) or the VF of a context reads it; what no block holds reads 0. -/
def bar0Reg (s : State) (viewer : Option Nat) (a : Nat) : Nat :=
  if a < 0x100000 then sqReg s viewer a
  else if a < 0x110000 then timReg s viewer (a - 0x100000)
  else if a < 0x120000 then bootReg s (a - 0x110000)
  else if a < 0x140000 then pwrReg s viewer (a - 0x120000)
  else if a < 0x180000 then secReg s viewer (a - 0x140000)
  else if a < 0x190000 then recReg s viewer (a - 0x180000)
  else if a < 0x200000 then gauReg s viewer (a - 0x190000)
  else if a < 0x400000 then reqReg s viewer (a - 0x200000)
  else if a < 0x600000 then netReg s viewer (a - 0x400000)
  else if a < 0x700000 then vidReg s viewer (a - 0x600000)
  else if a < 0x800000 then mchReg s viewer ((a - 0x700000) / 0x10000) (a % 0x10000)
  else if a < 0x900000 then yardReg s viewer ((a - 0x800000) / 0x10000) (a % 0x10000)
  else if 0x1000000 ≤ a && a < 0x1000000 + 252 * 0x10000 then benchPage s viewer ((a - 0x1000000) / 0x10000) (a % 0x10000)
  else 0

end Sys2Proof.Machine
end

