-- ==== Sys2Proof/Safety.lean ====
section
/-! DEFINITION. The terms in which statements about the machine are made: when a command is served, when it completes with its effect,
and what holds of every state that a run may pass through. -/
namespace Sys2Proof.Machine

/-! ### When a command is served, and what it then does -/

/-- The mailbox takes the command of a header once its time has passed (R65, R73, R97), and the checks that every command passes
let it through (log entry 8): `c` is the call that its response echoes, and `s'` the state that its own meaning starts from. -/
def Taken (h : Hdr) (p : Spec) (s : State) (c : Call) (s' : State) : Prop :=
  enter h p.op (advance h.dt s) = (s', some c) ∧ precheck h p c s' = none

/-- Every time a mailbox takes the command `i` and `pre` holds, the command completes: the next state is that of the answer `f`, with its
response written. -/
def Serves (i : Instr) (h : Hdr) (p : Spec) (pre : Call → State → Bool) (f : Call → State → Ans) : Prop :=
  ∀ s c s', Taken h p s c s' → pre c s' = true → exec i s = .next (answered c (f c s'))

/-- The same where the statement says what the answer holds. -/
def Answers (i : Instr) (h : Hdr) (p : Spec) (pre : Call → State → Bool) (post : Call → State → Ans → Prop) : Prop :=
  ∀ s c s', Taken h p s c s' → pre c s' = true → ∃ a, exec i s = .next (answered c a) ∧ post c s' a

/-- Every time `pre` holds once the event's time has passed, the event `i` takes its effect. -/
def Occurs (i : Instr) (dt : Nat) (pre : State → Bool) (f : State → State) : Prop :=
  ∀ s, pre (advance dt s) = true → exec i s = .next (f (advance dt s))

/-- The same where the statement says what the next state holds. -/
def Reaches (i : Instr) (dt : Nat) (pre : State → Bool) (post : State → State → Prop) : Prop :=
  ∀ s, pre (advance dt s) = true → ∃ t, exec i s = .next t ∧ post (advance dt s) t

/-- No condition. -/
def always : State → Bool := fun _ => true
def anyCall : Call → State → Bool := fun _ _ => true

/-- The sideband is served: the keep-alive supply runs (R63, R735). -/
def sideOn (s : State) : Bool := s.tray.keepAlive

/-- R85, R86: a mailbox may stop the function now. -/
def fnFree (s : State) (fid : Nat) : Bool :=
  (fidRefused s fid).isNone && (funcOf s fid).state = .running && (funcOf s fid).holder.isNone && !stopBarred s fid

/-- R86: the caller holds the function, which is quiesced. -/
def fnHeld (c : Call) (s : State) (fid : Nat) : Bool :=
  (fidRefused s fid).isNone && quiesced s fid && (funcOf s fid).holder = some c.mb

/-- R136: the commands that need module flash are served. -/
def flashUsable (s : State) : Bool := !(s.boot.phase = .service && s.boot.failedStep = 4)

/-- R137: a firmware command is served now. -/
def fwUsable (s : State) : Bool := flashUsable s && s.boot.walk.isNone

/-- R100: the module restarts, once a command has asked for it. -/
def restartNow (s : State) : State :=
  if s.boot.restartAsked then moduleRestart { s with boot := { s.boot with restartAsked := false } } else s

/-- R86: the caller may stage a setting of the function, and the state with it staged. -/
def stageable (fid : Nat) (c : Call) (s : State) : Bool := quiesced s fid && (funcOf s fid).holder = some c.mb
def stagedIn (fid : Nat) (x : Staged) (s : State) : State := modFunc fid (fun f => { f with staged := f.staged ++ [x] }) s

/-- R86, R624: the same for the CONTEXT function of a context whose TDI is not locked. -/
def ctxStageable (k : Nat) (c : Call) (s : State) : Bool := ctxDefined s k && !tdiLocked s k && stageable (fidContext k) c s

/-- R660: the context exists, and its side does not follow. -/
def servesNow (s : State) (c : Nat) : Bool := ctxDefined s c && !notActive s c

/-! ### When a message of the lane transport is taken -/

/-- R26, R27, R454, R473, R476: the port takes the message, its sender is known and its stamp is within the skew limit. -/
def msgTaken (m : XMsg) (s : State) : Bool := (portTakes m s).1 && (acceptMsg m (portTakes m s).2).1

/-- The state in which it has been taken: counted at its port, and L moved past its stamp. -/
def msgState (m : XMsg) (s : State) : State := (acceptMsg m (portTakes m s).2).2

/-- R56: the same, a message of the module class being an input of the Square's cores as well. -/
def moduleState (m : XMsg) (s : State) : State := takeInput (.network m.srcM) (msgState m s)

/-- The same with the acknowledgement that its header carries (R459). -/
def msgAcked (m : XMsg) (s : State) : State :=
  let u := moduleState m s
  if m.hasAck && (laneOf u m.lane).peer = m.srcM then ackLane m.lane m.ack m.credit m.ecnEcho u else u

/-- The messages that their sender numbers on no lane say nothing of a lane's acknowledgement. -/
def noAck (m : XMsg) : XMsg := { m with hasAck := false }

/-- R451–R453: a HELLO is taken, and its sender is known from then on. -/
def helloTaken (m : XMsg) (p : HelloPar) (s : State) : Bool :=
  let u := (portTakes m s).2
  (portTakes m s).1 && !(u.time.t + u.time.skewLimit < m.stamp.ns) && (learnPeer m p (issueStamp (causal m.stamp u)).2).1

def helloState (m : XMsg) (p : HelloPar) (s : State) : State := (learnPeer m p (issueStamp (causal m.stamp (portTakes m s).2)).2).2

/-- The state in which a lane message's sequence number is looked at: its acknowledgement and congestion mark are taken. -/
def laneState (m : XMsg) (s : State) : State := takeAck m (msgState m s)

/-- R450, R455, R458: a lane message is taken with the sequence number that its lane expects. -/
def laneTaken (m : XMsg) (rule : CheckRule) (hasData : Bool) (s : State) : Bool :=
  let l := laneOf (msgState m s) m.lane
  msgTaken m s && wellFormedMsg (portTakes m s).2 m rule hasData && l.state ≠ .closed && l.peer = m.srcM && l.modlane = m.modlane
    && checkSeq (laneOf (laneState m s) m.lane) m.seq = .accept

/-- The state in which its effect is made: the lane expects the next number. -/
def laneNext (m : XMsg) (s : State) : State := expectNext m (laneState m s)

/-! ### When a message of the dowel, or of the responder, is taken -/

/-- The frame that carries a DOWEL message. -/
def dowelFrame (m : DowelMsg) : XMsg := { blankMsg with port := m.port, srcM := m.srcM, srcC := m.ctx, dstC := m.ctx, stamp := m.stamp }

/-- The state in which a DOWEL message is acted on: when the sister and the arbiter were last heard is known. -/
def dowelState (m : DowelMsg) (s : State) : State :=
  let u := moduleState (dowelFrame m) s
  let u := if u.net.sister = some m.srcM then { u with red := { u.red with sisterAt := now u } } else u
  if u.nv.manager = some m.srcM then modRed m.ctx (fun r => { r with arbiterAt := now u }) u else u

/-- R471, R667, R674: a DOWEL message is taken: from the sister or the arbiter, about the pair that its context belongs to; `stays` says that it
does not make the side STALE. -/
def dowelTaken (m : DowelMsg) (stays : RedCtx → Bool) (s : State) : Bool :=
  let u := moduleState (dowelFrame m) s
  msgTaken (dowelFrame m) s && !m.rsvd && (u.net.sister = some m.srcM || u.nv.manager = some m.srcM)
    && m.ctx < 16 && mirrored u m.ctx && (redOf u m.ctx).par.pairId = m.pairId && stays (redOf u m.ctx)

/-- R674: the side does not hold the dowel, or the message does not name a higher epoch. -/
def keepsEpoch (m : DowelMsg) (r : RedCtx) : Bool :=
  !(r.role = .active || r.role = .activeSolo || r.role = .fenced) || m.epoch ≤ r.epoch

/-- R626: a finished session whose path reaches the responder. -/
def sessionOpen (sid : Nat) (x : Session) (s : State) : Bool := sessionOf s sid = some x && pathOpen s x.path && x.finished

/-! ### What a row may change -/

/-- The parts of State that hold the module's work and settings. Every row may also change the parts that are left out here: time and
stamps, the mailboxes and functions, the recorder, messages to other modules, contexts and sessions, the pins, and what the host receives. -/
inductive StatePart where
  | nv | boot | mem | gau | benches | serve | opr | vid | red | pwr
  deriving DecidableEq, Repr, Inhabited

/-- The parts, besides those that every row may change, which a row may change. -/
def mayChange (i : Instr) : List StatePart :=
  match i with
  | .setModuleNumber _ _ | .bootClearHistory _ _ | .fwWriteBegin _ _ | .fwWrite _ _ _ _ _ | .fwSelectBoot _ _ | .memSetScrub _ _ _
  | .netSetManager _ _ | .pwrSetCeiling _ _ | .recClear _ | .slotVerifyDone _ _ _ _ => [.nv]
  | .memInject _ _ _ _ | .ydHighWaterRead _ _ _ | .mr4Report _ _ _ | .prefetchPinExpiry _ _ => [.mem]
  | .gauSelect _ _ _ | .gauSampleSet _ _ _ _ _ _ _ _ | .gauSampleStop _ _ | .gauSampleConsWrite _ _ _ _ _ => [.gau]
  | .lotSet _ _ _ _ | .jigLoadLib _ _ _ _ _ | .jigUnload _ _ _ _ | .jigRun _ _ _ _ _ | .jigAbort _ _ _ | .creditReturn _ _ _
  | .jigLoadDone _ _ => [.benches]
  | .reqCancel _ _ _ | .reqUpdate _ _ _ _ _ | .reqSetPolicy _ _ _ _ _ | .reqStopSet _ _ _ _ _ | .reqRingSet _ _ _
  | .kvSetPolicy _ _ _ | .venUnload _ _ _ | .venTrainStep _ _ _ _ | .venPublish _ _ _ _ _ | .redRingAdopt _ _ _ _
  | .reqRingConsWrite _ _ _ _ _ | .shipAnnounceResend _ _ | .shipPageTimeout _ _ | .shipAckTimeout _ _ | .startInterface _ _ =>
  [.serve]
  | .oprUntrigger _ _ _ => [.opr]
  | .vidDecOpen _ _ | .vidEncOpen _ _ | .vidEncSetRc _ _ _ | .vidEncForceKey _ _ | .workBoundReached _ _
  | .videoCoreRestartDone _ _ => [.vid]
  | .redSwap _ _ | .holdTimer _ _ | .leaseExpiry _ _ | .holdSilence _ _ | .dowelRequestResend _ _ | .commitResend _ _
  | .releaseResend _ _ | .swapDue _ _ => [.red]
  | .pwrCabCap _ _ | .pwrClearLeak _ | .measurementLoss _ | .estimatorTick _ _ | .paceTick _ | .railLevelStep _
  | .paceMeterInterval _ _ | .deferredPaceIncrease _ | .droopCeilingExpiry _ | .calibrationFit _ | .attributionPeriod _ _ _
  | .confEpoch _ | .capHeartbeatTimeout _ | .loneCapTimeout _ | .beaconTimer _ | .memberStale _ _ | .blockHalt1s _ _
  | .suspectClear _ _ _ | .inletSettled _ | .flowsDisagree _ | .flowRangeRecovered _ | .leakDetected _ => [.pwr]
  | .fwActivate _ | .componentActivated _ _ | .fwConfirm _ | .trialExpiry _ | .pwrEnAssert _ _ | .trayLatchAssert _ _ =>
  [.nv, .boot]
  | .wgtUnsealDone _ _ _ => [.nv, .mem]
  | .recorderFlushDone _ => [.nv, .red]
  | .pwrSetLocalCap _ _ | .pwrSetLoneCap _ _ => [.nv, .pwr]
  | .sramScrub _ _ => [.mem, .benches]
  | .gauSnapshot _ _ _ _ | .eventBoundExceeded _ _ _ | .snapshotLatch _ _ => [.gau, .benches]
  | .xltMalformed _ _ _ | .helloAnnounce _ _ _ | .helloOpen _ _ _ | .retransmitTimeout _ _ => [.benches, .serve]
  | .powerLoopTick _ | .droopDetect _ _ _ | .droopGateRelease _ _ => [.benches, .pwr]
  | .bootStepEnd _ _ => [.nv, .boot, .pwr]
  | .ydSetPartition _ _ _ | .scrubBurst _ _ | .prefetchFillStart _ _ | .keySweepPage _ _ => [.nv, .mem, .gau]
  | .opIssue _ _ _ _ _ _ => [.mem, .gau, .benches]
  | .runEnd _ _ => [.gau, .benches, .serve]
  | .redRelease _ _ | .sisterLinkLost _ | .sisterLinkReturn _ _ => [.benches, .serve, .red]
  | .pwrResume _ | .supplyRecovered _ => [.benches, .vid, .pwr]
  | .jigLoad _ _ _ _ _ _ _ | .kvReadList _ _ _ _ | .bar4Read _ _ _ _ _ | .bar4Write _ _ _ _ _ | .opComplete _ _ _ _
  | .inboundWrite _ _ | .contextSwitch _ _ _ | .snapshotWriteDone _ _ => [.nv, .mem, .gau, .benches]
  | .oprRun _ _ _ _ => [.nv, .mem, .benches, .opr]
  | .funcStart _ _ _ _ | .functionStartDone _ _ | .supplyHalt100ms _ => [.benches, .serve, .red, .pwr]
  | .funcStop _ _ _ | .ctxSetBlocks _ _ _ _ | .ctxSetGroups _ _ _ | .ctxSetSlice _ _ _ _ _ | .reqAdmit _ _ _ | .reqModelSet _ _ _
  | .smpSet _ _ _ _ | .kvPoolSet _ _ _ | .attSetBuckets _ _ _ | .venLoad _ _ _ | .venReplace _ _ _ | .venTrainBegin _ _ _ _ _ _ _
  | .redSetProtect _ _ _ | .finish _ _ _ | .endSession _ _ | .spdmSessionTimeout _ _ | .stopInterface _ _
  | .ideIntegrityFailure _ _ | .functionLevelReset _ _ _ | .perstAssert _ | .meshPacketArrival _ _ _ | .stepEnd _ _ _ _ _
  | .veneerLoadDone _ _ => [.nv, .mem, .gau, .benches, .serve]
  | .oprPlan _ _ _ _ _ _ _ | .chainStageEnd _ _ _ | .oprPlanDone _ _ => [.nv, .mem, .gau, .benches, .opr]
  | .inputPoll _ _ _ => [.nv, .mem, .gau, .benches, .vid]
  | .runStart _ _ => [.nv, .mem, .benches, .serve, .opr]
  | .trayDrain _ | .thermalSample _ _ | .flowTick _ _ | .releaseTimeout _ _ => [.benches, .serve, .vid, .red, .pwr]
  | .groupReleaseDone _ _ | .blockScrubDone _ _ | .resyncCopyDone _ _ _ _ _ => [.nv, .mem, .gau, .benches, .serve, .red]
  | .vidClose _ _ _ _ | .pictureComplete _ _ _ | .encodePictureDone _ _ _ _ _ | .parseWatchdog _ _ | .videoCoreUnresponsive _ _ _
  => [.nv, .mem, .gau, .benches, .opr, .vid]
  | .readOnlyWrite _ _ _ _ => [.mem, .gau, .benches, .serve, .vid, .pwr]
  | .ctxDestroy _ _ => [.nv, .mem, .gau, .benches, .serve, .opr, .vid, .red]
  | .helloOpenAck _ _ | .helloClose _ _ | .probeAck _ _ | .probeEchoReq _ _ | .probeEchoResp _ _ | .nak _ _ | .dataWrite _ _
  | .dataRead _ _ | .readResp _ _ | .atomic _ _ | .collective _ _ | .pageShipAnnounce _ _ _ | .pageShipAccept _ _
  | .pageShipPage _ _ | .pageShipScales _ _ | .pageShipDoneAck _ _ | .control _ _ | .paceBeacon _ _ | .lagNotice _ _ | .capSet _ _
  | .dowelHold _ _ | .dowelRenew _ _ | .dowelGrant _ _ | .dowelRefuse _ _ | .dowelRelease _ _ | .dowelSwap _ _ | .dowelTaken _ _
  | .dowelCommit _ _ _ | .dowelCommitAck _ _ | .dowelSoloGrant _ _ | .stepBoundary _ _ _ | .idleBoundaryTimer _ _ _
  | .tableChangeBoundary _ _ _ => [.nv, .mem, .gau, .benches, .serve, .vid, .red, .pwr]
  | .bootRestart _ | .squareWatchdog _ | .pairDisagreement _ _ | .pwrEnDeassert _ | .trayLatchDeassert _ | .inputSample _ _ =>
  [.nv, .boot, .mem, .gau, .benches, .serve, .opr, .vid, .red, .pwr]
  | _ => []

/-- A part is the same in both states. -/
def samePart (p : StatePart) (s t : State) : Prop :=
  match p with
  | .nv => t.nv = s.nv
  | .boot => t.boot = s.boot
  | .mem => t.mem = s.mem
  | .gau => t.gau = s.gau
  | .benches => t.benches = s.benches
  | .serve => t.serve = s.serve
  | .opr => t.opr = s.opr
  | .vid => t.vid = s.vid
  | .red => t.red = s.red
  | .pwr => t.pwr = s.pwr

/-- The rows that may change a stored byte, its check bits or the key it is stored under. -/
def mayStore (i : Instr) : Bool :=
  match i with
  | .funcStop _ _ _ | .bootRestart _ | .squareWatchdog _ | .ctxDestroy _ _ | .ctxSetBlocks _ _ _ _ | .ctxSetGroups _ _ _
  | .ctxSetSlice _ _ _ _ _ | .ydSetPartition _ _ _ | .memInject _ _ _ _ | .jigLoad _ _ _ _ _ _ _ | .oprPlan _ _ _ _ _ _ _
  | .oprRun _ _ _ _ | .chainStageEnd _ _ _ | .reqAdmit _ _ _ | .reqModelSet _ _ _ | .smpSet _ _ _ _ | .kvPoolSet _ _ _
  | .attSetBuckets _ _ _ | .kvReadList _ _ _ _ | .venLoad _ _ _ | .venReplace _ _ _ | .venTrainBegin _ _ _ _ _ _ _
  | .vidClose _ _ _ _ | .redSetProtect _ _ _ | .pairDisagreement _ _ | .finish _ _ _ | .endSession _ _ | .spdmSessionTimeout _ _
  | .stopInterface _ _ | .ideIntegrityFailure _ _ | .functionLevelReset _ _ _ | .perstAssert _ | .bar4Read _ _ _ _ _
  | .bar4Write _ _ _ _ _ | .helloOpenAck _ _ | .helloClose _ _ | .probeAck _ _ | .probeEchoReq _ _ | .probeEchoResp _ _ | .nak _ _
  | .dataWrite _ _ | .dataRead _ _ | .readResp _ _ | .atomic _ _ | .collective _ _ | .pageShipAnnounce _ _ _ | .pageShipAccept _ _
  | .pageShipPage _ _ | .pageShipScales _ _ | .pageShipDoneAck _ _ | .control _ _ | .paceBeacon _ _ | .lagNotice _ _ | .capSet _ _
  | .dowelHold _ _ | .dowelRenew _ _ | .dowelGrant _ _ | .dowelRefuse _ _ | .dowelRelease _ _ | .dowelSwap _ _ | .dowelTaken _ _
  | .dowelCommit _ _ _ | .dowelCommitAck _ _ | .dowelSoloGrant _ _ | .pwrEnDeassert _ | .trayLatchDeassert _ | .inputSample _ _
  | .scrubBurst _ _ | .sramScrub _ _ | .prefetchFillStart _ _ | .keySweepPage _ _ | .groupReleaseDone _ _ | .blockScrubDone _ _
  | .runStart _ _ | .opIssue _ _ _ _ _ _ | .opComplete _ _ _ _ | .meshPacketArrival _ _ _ | .inboundWrite _ _ | .stepEnd _ _ _ _ _
  | .stepBoundary _ _ _ | .idleBoundaryTimer _ _ _ | .tableChangeBoundary _ _ _ | .contextSwitch _ _ _ | .inputPoll _ _ _
  | .pictureComplete _ _ _ | .encodePictureDone _ _ _ _ _ | .parseWatchdog _ _ | .videoCoreUnresponsive _ _ _
  | .resyncCopyDone _ _ _ _ _ | .snapshotWriteDone _ _ | .oprPlanDone _ _ | .veneerLoadDone _ _ | .wgtUnsealDone _ _ _ => true
  | _ => false

/-- No stored byte has changed, no check bits and no key tag. -/
def sameStored (s t : State) : Prop := t.mem.bytes = s.mem.bytes ∧ t.mem.chk = s.mem.chk ∧ t.mem.bkey = s.mem.bkey

/-! ### What every state of a run holds -/

/-- The packets of a class that are on a link. -/
def onLink (s : State) (link : Nat) (c : MeshClass) : Nat :=
  (s.benches.packets.filter fun p => p.link = link && p.cls = c).length

/-- R181, R180: on every link and in every class the credits, the packets in flight and the freed slots make up the depth, and the
packets in flight are those on the link. -/
def MeshBalanced (s : State) : Prop := ∀ link c, linkSum (linkOf s link c) = classDepth c ∧ (linkOf s link c).inflight = onLink s link c

/-- R41: no two valid lots of a context overlap. -/
def LotsApart (s : State) (c : Nat) : Prop :=
  ∀ i j, i ≠ j → lotValid (tget (ctxOf s c).lots i 0) = true → lotValid (tget (ctxOf s c).lots j 0) = true →
    lotLimit (tget (ctxOf s c).lots i 0) ≤ lotBase (tget (ctxOf s c).lots j 0)
      ∨ lotLimit (tget (ctxOf s c).lots j 0) ≤ lotBase (tget (ctxOf s c).lots i 0)

/-- R600: the energy that the counters of the contexts hold. -/
def contextEnergy (s : State) : Nat :=
  ((List.range 16).map fun c => ((List.range 5).map fun i => (tget s.pwr.input.ctxEnergy c (List.replicate 5 0)).getD i 0).sum).sum

/-- R543: the promise that the power loop keeps: the averages of the measured input stay within P_S and P_P. What is measured comes from outside
the model (log entry 21), so this is a condition on its events and no invariant of its steps. -/
def PowerKept (s : State) : Prop := measured100 s ≤ s.pwr.pace.ps ∧ measured1 s ≤ peakOf s

/-- R532: the rate that the pace meter shows lies in the band of its level; a condition on the meter's events in the same way. -/
def RateInBand (s : State) : Prop :=
  (rateBand s s.pwr.pace.level).1 ≤ (s.pwr.pace.rate : Rat) / 1000 ∧ (s.pwr.pace.rate : Rat) / 1000 ≤ (rateBand s s.pwr.pace.level).2

/-- The memory is in its canonical form: addresses strictly rise, and no entry equals what an unlisted address reads as. -/
def MemoryCanonical (s : State) : Prop := memoryWf s = true

end Sys2Proof.Machine
end

