-- ==== Sys2Proof/Certificates/Slice0/Obligations.lean ====
section
/-! DEFINITION. The statements for the provers. -/
open Sys2Proof Sys2Proof.Machine
/-! ### Time (chapter 02) -/

/-- R27, R36, R86: the time commands. TIM_GET returns the registers of R34; the skew limit takes any value of its range; TIM_PTP_CONFIG is
staged by the holder of the stopped TIME function; TIM_ACCEPT_GM with `gm_behind` set takes the grandmaster's time through the break of R31. -/
def Obligations.TimeCommandsComplete : Prop :=
  (∀ h, Serves (.timGet h) h { op := 0x0D00, who := whoAll, reads := true } anyCall fun _ s => okData s
    [⟨8, timStatus s⟩, ⟨8, ofSigned 64 s.time.offset⟩, ⟨8, s.time.skewLimit⟩, ⟨8, ofSigned 64 s.time.ptmOffset⟩, ⟨8, s.time.ptmT⟩,
      ⟨8, s.time.skewDrops⟩]) ∧
  (∀ h n, Serves (.timSetSkewLimit h n) h { op := 0x0D01, who := who0Side } (fun _ _ => 10000 ≤ n && n ≤ 1000000000)
    fun _ s => ok { s with time := { s.time with skewLimit := n } }) ∧
  (∀ h cfg, Serves (.timPtpConfig h cfg) h { op := 0x0D02, who := who0Side }
    (fun c s => cfg.port ≤ 32 && cfg.domain ≤ 127 && quiesced s fidTime && (funcOf s fidTime).holder = some c.mb)
    fun _ s => ok (modFunc fidTime (fun f => { f with staged := f.staged ++ [.timPtp cfg] }) s)) ∧
  (∀ h, Serves (.timAcceptGm h) h { op := 0x0D03, who := who0 } (fun _ s => s.time.gmBehind && syncFresh s)
    fun _ s => ok (timeBreak s))

/-- R28, R30, R33, R34: what a PTP message of the port and domain in force, a PTM exchange, a 1PPS edge and a whole second do. A first Sync that
is ahead steps T by the whole offset; a Follow_Up within ±500 ns counts as a good sync; sync messages that stop bring HOLDOVER and end
the slew. Whatever the servo does, T runs within ±500 ppm of the oscillator (R28). -/
def Obligations.TimeEventsOccur : Prop :=
  (∀ dt fn, Occurs (.timStampNsRead dt fn) dt always fun s =>
    let t := nextStamp s
    { s with time := { s.time with last := some t, stampLc := tset s.time.stampLc fn t.lc, stampNs := tset s.time.stampNs fn t.ns } }) ∧
  (∀ dt m, Reaches (.ptpSync dt m) dt
    (fun s => onPtpPort s m.port m.domain && 62500000 ≤ m.interval && m.interval ≤ 2000000000 && !m.twoStep
      && 0 ≤ m.offset && !s.time.gmBehind && !s.time.firstLock && (funcOf s fidTime).state = .running)
    fun s t => t.time.t = stepT s.time.t m.offset ∧ t.time.firstLock = true ∧ t.time.stepped = true ∧ t.time.sync = .locking) ∧
  (∀ dt port domain offset, Occurs (.ptpFollowUp dt port domain offset) dt
    (fun s => onPtpPort s port domain && s.time.awaitFollowUp && (funcOf s fidTime).state = .running
      && !s.time.gmBehind && s.time.firstLock && !s.time.slewing && -500 ≤ offset && offset ≤ 500)
    fun s => tune { s with time := { s.time with
      offset := offset, lastSync := some (now s), awaitFollowUp := false, slewing := false, goodSyncs := s.time.goodSyncs + 1
      sync := if 16 ≤ s.time.goodSyncs + 1 ∨ s.time.sync = .locked then .locked else .locking } }) ∧
  (∀ dt port domain gm, Occurs (.ptpAnnounce dt port domain gm) dt
    (fun s => onPtpPort s port domain)
    fun s => { s with time := { s.time with parentGm := gm, lastAnnounce := some (now s) } }) ∧
  (∀ dt port domain delay, Occurs (.ptpDelayResp dt port domain delay) dt
    (fun s => onPtpPort s port domain)
    fun s => { s with time := { s.time with pathDelay := delay } }) ∧
  (∀ dt, Occurs (.syncLoss dt) dt (fun s => (s.time.sync = .locking || s.time.sync = .locked) && syncMissing s)
    fun s => { s with time := { s.time with sync := .holdover, slewing := false, slew := 0, goodSyncs := 0 } }) ∧
  (∀ dt master, Occurs (.ptmExchange dt master) dt (fun s => s.tray.linkUp) fun s =>
    { s with time := { s.time with ptmT := s.time.t, ptmOffset := (s.time.t : Int) - (master : Int), ptmAt := some (now s) } }) ∧
  (∀ dt phase, Reaches (.ppsInEdge dt phase) dt (fun s => s.time.ptp.pps && (funcOf s fidTime).state = .running)
    fun s t => t.time.ppsIn = true ∧ t.time.ppsPhase = phase ∧ t.time.freq = s.time.freq ∧ t.time.t = s.time.t) ∧
  (∀ dt s, s.time.frac < 1000000000 → s.time.t + 2 * dt + 1 < 2 ^ 64 →
    s.time.t + dt * 999500 / 1000000 ≤ (advance dt s).time.t ∧ (advance dt s).time.t ≤ s.time.t + dt * 1000500 / 1000000 + 1) ∧
  (∀ dt s, s.time.t / 1000000000 < (advance dt s).time.t / 1000000000 →
    exec (.ppsOutSecond dt) s = .next { advance dt s with
      tray := { s.tray with ppsPulse := (advance dt s).time.t / 1000000000 } })
/-! ### Mailboxes (chapter 03) -/

/-- R78, R81, R82: the general commands, with the effect that the table of R81 gives each. -/
def Obligations.GeneralCommandsComplete : Prop :=
  (∀ h, Serves (.nop h) h { op := 0x0000, who := whoAll, reads := true } anyCall fun _ s => ok s) ∧
  (∀ h, Serves (.getInfo h) h { op := 0x0001, who := whoAll, reads := true } anyCall fun _ s => okData s
    ([⟨17, leNat s.nv.ordering.text⟩, ⟨8, Config.serial⟩, ⟨2, moduleNo s⟩]
      ++ ((s.nv.slots.getD s.boot.runSlot {}).manifest.comps.map fun x => ⟨4, x.version⟩))) ∧
  (∀ h, Serves (.getSqStatus h) h { op := 0x0002, who := whoAll, reads := true } anyCall
    fun _ s => okData s [⟨8, sqStatus s⟩, ⟨8, s.sq.checkpoints⟩]) ∧
  (∀ h, Serves (.mbxGetState h) h { op := 0x0003, who := whoAll, reads := true } anyCall fun c s =>
    let b := mbxOf s c.mb
    okData s [⟨8, mbxState s c.mb⟩, ⟨8, b.violations⟩, ⟨4, b.cmdTail⟩, ⟨4, b.cmdHead⟩, ⟨4, b.rspTail⟩, ⟨4, b.rspHead⟩]) ∧
  (∀ h mask, Serves (.mbxNotifyMask h mask) h { op := 0x0004, who := whoAll } (fun _ _ => mask < 64)
    fun c s => ok (modMbx c.mb (fun b => { b with mask := mask }) s)) ∧
  (∀ h m b, Serves (.mbxBind h m b) h { op := 0x0005, who := who0 }
    (fun _ s => 17 ≤ m && m ≤ 24 && b.elim true fun x => x.peer ≤ 4094 && x.peer ≠ moduleNo s && (match x.role with
      | .admin => true
      | .context c => c < 16))
    fun _ s => ok (revertHeld m .unbound (modMbx m (fun x => { x with binding := b }) s))) ∧
  (∀ h m, Serves (.mbxUnquarantine h m) h { op := 0x0006, who := who0 } (fun _ _ => m ≤ 31)
    fun _ s => ok (modMbx m (fun b => { b with quarantineEnd := none }) s)) ∧
  (∀ h n, Serves (.setModuleNumber h n) h { op := 0x0007, who := who0 }
    (fun _ s => n ≤ 4094 && (List.range 5).all fun g => quiesced s (fidPort g))
    fun _ s => ok (setLocal .moduleNumber n s))

/-- R65–R73, R76, R97: what a write of each register of a mailbox page does when the page's function is reachable, no IDE rule of R623
refuses it and its value is in range, and what the end of a quarantine does. -/
def Obligations.MailboxPagesAct : Prop :=
  (∀ dt m tail w t, Occurs (.mbxCmdTailWrite dt m tail w t) dt
    (fun s => m ≤ 16 && reachable s m && !resetting s m && !ideRefused s m t && !quarantined s m && !tailBad (mbxOf s m) tail)
    fun s => ring m tail (putEntries m w s)) ∧
  (∀ dt m head t, Occurs (.mbxRspHeadWrite dt m head t) dt
    (fun s => m ≤ 16 && reachable s m && !resetting s m && !ideRefused s m t
      && (head + 2 ^ 32 - (mbxOf s m).rspHead) % 2 ^ 32 ≤ rspUsed (mbxOf s m))
    fun s => skipUnknown m (drainMbx m (modMbx m (fun b => { b with rspHead := head % 2 ^ 32 }) s))) ∧
  (∀ dt m dur t, Occurs (.mbxCtrlReset dt m dur t) dt (fun s => m ≤ 16 && reachable s m && !ideRefused s m t)
    fun s => resetMailbox m dur s) ∧
  (∀ dt m en v t, Occurs (.mbxCtrlIrq dt m en v t) dt
    (fun s => m ≤ 16 && reachable s m && !ideRefused s m t && v < (if m = 0 then 128 else 120))
    fun s => modMbx m (fun b => { b with irqEn := en, vector := v }) s) ∧
  (∀ dt m, Occurs (.mbxQuarantineExpiry dt m) dt (fun s => !quarantined s m)
    fun s => modMbx m (fun b => { b with quarantineEnd := none }) s)

/-- R52–R60: the voting cores. A checkpoint answers what stands ready (`skipAll`), counts, takes the state of the mailboxes and functions and
starts the resynchronisation of a fenced core; in triple mode a core that differs is
fenced and the Square goes on in pair mode; a disagreement of the pair restarts it
and is counted. -/
def Obligations.VotingCoresAct : Prop :=
  (∀ dt, Occurs (.checkpoint dt []) dt checkpointDue fun s => startResync (takeCheckpoint (skipAll s))) ∧
  (∀ dt, Reaches (.checkpoint dt []) dt checkpointDue
    fun s t =>
      let u := skipAll s
      t.sq.checkpoints = wrapAdd 64 u.sq.checkpoints 1 ∧ t.sq.vote.checkpoint.at_ = u.time.t ∧ t.sq.vote.checkpoint.mbx = u.sq.mbx
        ∧ t.sq.vote.checkpoint.funcs = u.sq.funcs ∧ t.sq.vote.inputs = [] ∧ t.sq.vote.outputs = []) ∧
  (∀ dt i, i < 3 → Reaches (.checkpoint dt [(i, true)]) dt
    (fun s => checkpointDue s && tget (skipAll s).sq.cores i .voting = .resync)
    fun _ t => tget t.sq.cores i .voting = .voting) ∧
  (∀ dt core, core < 3 → Reaches (.coreDisagreement dt core) dt (fun s => !boardAlone s && s.sq.mode = .triple)
    fun _ t => tget t.sq.cores core .voting = .fenced ∧ t.sq.mode = .pair) ∧
  (∀ dt, Reaches (.pairDisagreement dt false) dt
    (fun s => !boardAlone s && s.sq.mode = .pair && s.sq.restartTimes.length < 8)
    fun s t => t.sq.restarts = satAdd 8 s.sq.restarts 1 ∧ t.sq.mode = .pair ∧ t.sq.lastRestart = (nextStamp s).ns
      ∧ t.sq.vote.restartEnd ≤ now s + 5000000) ∧
  (∀ dt, Reaches (.pairDisagreement dt true) dt (fun s => !boardAlone s && s.sq.mode = .pair && !inTrial s)
    fun s t => t.sq.mode = .halted ∧ t.boot.phase = .service ∧ t.tray.alerts.contains .squareFatal
      ∧ t.sq.vote.withheld = some s.sq.vote.released)

/-! ### The sideband (R77, R741, R742) -/

/-- R77, R741, R742: the sideband's common command codes, while the keep-alive supply runs. -/
def Obligations.SidebandAnswers : Prop :=
  (∀ dt e m, Occurs (.sidebandExtraEndpoint dt e) dt (fun s => sideOn s && sideFor s e = some m)
    fun s => modMbx m (fun b => { b with endpoint := some e, lastMsg := now s }) s) ∧
  (∀ dt e, Occurs (.sidebandExtraEndpoint dt e) dt
    (fun s => sideOn s && sideFor s e = none && now s < (mbxOf s (idlest s)).lastMsg + 60000000000)
    fun s => { s with sq := { s.sq with mctpErrors := e :: s.sq.mctpErrors } }) ∧
  (∀ dt e, Occurs (.setEndpointId dt e) dt (fun s => sideOn s && s.tray.eid.isNone)
    fun s => { s with tray := { s.tray with eid := some e, sideAnswers := (0x01, [⟨1, e⟩]) :: s.tray.sideAnswers } }) ∧
  (∀ dt e, Occurs (.setEndpointId dt e) dt (fun s => sideOn s && s.tray.eid.isSome)
    fun s => sideAnswer 0x01 [⟨1, e⟩] { releaseAllSides s with tray := { (releaseAllSides s).tray with eid := some e } }) ∧
  (∀ dt a, Occurs (.entdaa dt a) dt sideOn fun s => releaseAllSides { s with tray := { s.tray with i3cAddr := some a } }) ∧
  (∀ dt a, Occurs (.setnewda dt a) dt (fun s => sideOn s && s.tray.i3cAddr.isSome)
    fun s => releaseAllSides { s with tray := { s.tray with i3cAddr := some a } }) ∧
  (∀ dt, Occurs (.rstdaa dt) dt sideOn fun s => releaseAllSides { s with tray := { s.tray with i3cAddr := none } }) ∧
  (∀ dt, Occurs (.enec dt) dt sideOn fun s => { s with tray := { s.tray with ibiEnabled := true } }) ∧
  (∀ dt, Occurs (.disec dt) dt sideOn fun s => { s with tray := { s.tray with ibiEnabled := false } }) ∧
  (∀ dt, Occurs (.getpid dt) dt sideOn (sideAnswer 0x8D [⟨4, Config.serial % 2 ^ 32⟩, ⟨2, Config.i3cRegister 0⟩])) ∧
  (∀ dt, Occurs (.getbcr dt) dt sideOn (sideAnswer 0x8E [⟨1, Config.i3cRegister 1⟩])) ∧
  (∀ dt, Occurs (.getdcr dt) dt sideOn (sideAnswer 0x8F [⟨1, Config.i3cRegister 2⟩])) ∧
  (∀ dt, Occurs (.getstatus dt) dt sideOn fun s => sideAnswer 0x90 [⟨2, Config.freeValue s.free⟩] { s with free := s.free + 1 }) ∧
  (∀ dt, Occurs (.getmxds dt) dt sideOn (sideAnswer 0x94 [⟨2, Config.i3cRegister 3⟩])) ∧
  (∀ dt a, Occurs (.rstact dt a) dt sideOn fun s => { s with tray := { s.tray with rstAction := a } }) ∧
  (∀ dt q, Occurs (.pldmMonitoring dt q) dt sideOn
    fun s => sideAnswer (0x200 + q) [⟨4, Config.freeValue s.free⟩] { s with free := s.free + 1 }) ∧
  (∀ dt q, Occurs (.mctpControl dt q) dt sideOn fun s => sideAnswer (0x100 + q) [⟨1, s.tray.eid.getD 0⟩] s)

/-! ### Functions (R83–R92) -/

/-- R83–R90, R760: the function commands. A running TIME, POWER or PACE_GROUP function stops at once for the mailbox that asks; other classes
are STOPPING until they are quiesced, and a CONTEXT whose stop is short gives its one response then; a start that validates applies the staged set; a revert discards it. -/
def Obligations.FunctionCommandsComplete : Prop :=
  (∀ h fid hold, Serves (.funcStop h fid hold) h (funcSpec 0x0100 fid true)
    (fun c s => hold ≤ 3600000 && !(fidClass fid = 1 && tdiLocked s (fidNo fid) && speaksFor s c.mb (fidNo fid)) && fnFree s fid && stopsNow s fid)
    fun c s => ok (beginStop fid hold c.mb s)) ∧
  (∀ h fid hold, Serves (.funcStop h fid hold) h (funcSpec 0x0100 fid true)
    (fun c s => hold ≤ 3600000 && !(fidClass fid = 1 && tdiLocked s (fidNo fid) && speaksFor s c.mb (fidNo fid)) && fnFree s fid && !stopsNow s fid
      && (fidClass fid ≠ 1 || ctxRuns (beginStop fid hold c.mb s) (fidNo fid)))
    fun c s => accepted (beginStop fid hold c.mb s) .funcStop fid) ∧
  (∀ h k hold, Serves (.funcStop h (fidContext k) hold) h (funcSpec 0x0100 (fidContext k) true)
    (fun c s => k < 16 && hold ≤ 3600000 && !(tdiLocked s k && speaksFor s c.mb k) && fnFree s (fidContext k) && !stopsNow s (fidContext k)
      && !ctxRuns (beginStop (fidContext k) hold c.mb s) k && (serveOf (beginStop (fidContext k) hold c.mb s) k).step.isNone)
    fun c s => withheld (beginStop (fidContext k) hold c.mb s) .funcStop (fidContext k)) ∧
  (∀ h fid d a s c s', Taken h (funcSpec 0x0101 fid true) s c s' → fnHeld c s' fid = true → checkStart s' fid (some ⟨d, a⟩) = none →
    slowStart fid = false → exec (.funcStart h fid d a) s = .next (settleStart fid ⟨d, a⟩ (answered c (ok (completeStart fid s'))))) ∧
  (∀ h fid, Serves (.funcRevert h fid false) h (funcSpec 0x0102 fid true) (fun c s => fnHeld c s fid && !slowStart fid)
    fun _ s => ok (beginRevert fid s)) ∧
  (∀ h fid, Serves (.funcStatus h fid) h (funcSpec 0x0103 fid false) (fun _ s => fidExists fid && !noFunc s fid)
    fun _ s =>
      let f := funcOf s fid
      okData s [⟨1, funcStateCode f.state⟩, ⟨1, f.holder.getD 0xFF⟩,
        ⟨4, f.deadline.elim 0 fun t => ceilDiv (t - now s) 1000000⟩, ⟨2, f.staged.length⟩]) ∧
  (∀ dt fid, Occurs (.functionQuiesced dt fid) dt
    (fun s => (funcOf s fid).state = .stopping && mayQuiesce s fid && (funcOf (finish .funcStop fid .ok [] (quiesce fid s)) fid).revert.isNone)
    fun s => finish .funcStop fid .ok [] (quiesce fid s)) ∧
  (∀ dt fid, Occurs (.functionStartDone dt fid) dt
    (fun s => (funcOf s fid).state = .starting && !(funcOf s fid).reverting && !(fidClass fid = 1 && startWaits s (fidNo fid))
      && checkStart s fid none = none)
    fun s => finish .funcStart fid .ok [] (completeStart fid s)) ∧
  (∀ dt fid e, Occurs (.holdMsExpiry dt fid) dt (fun s => (funcOf s fid).deadline = some e && e ≤ now s)
    fun s => revertFor fid .holdExpired (modFunc fid (fun f => { f with deadline := none }) s))
/-! ### Start-up and firmware (chapter 04) -/

/-- R99–R121, R594, R739, R747: what starts the module, what an attempt of a step leaves, and what ends it. An attempt that the manual's
table lets pass moves the boot on; READY computes the capacity. -/
def Obligations.BootEventsAct : Prop :=
  (∀ dt e, Occurs (.bootStepEnd dt e) dt (fun s => attemptOpen e s && e.step = 20)
    fun s => dropLostLink (bootProgress 64 (becomeReady s))) ∧
  (∀ dt e, Occurs (.bootStepEnd dt e) dt
    (fun s => attemptOpen e s && mandatory e.step && !(e.step = 2 && popCount e.cores 3 < 2) && (e.step ≠ 3 || identityChecks s) && e.ok
      && s.boot.phase = .booting)
    fun s =>
      let u := { s with boot := { s.boot with attempts := s.boot.attempts + 1 } }
      let d := if e.step = 5 then stepDetail 5 0 (selectSlot u).boot.runSlot 0 u else e.detail
      let t := endStep e.step (mandatoryPassed e (journal e.step 0 u.boot.attempts 0 0 0 0 e.durationUs d u))
      if t.boot.phase = .service then t else dropLostLink (bootProgress 64 t)) ∧
  (∀ dt e, Occurs (.bootStepEnd dt e) dt
    (fun s => attemptOpen e s && !mandatory e.step && e.step < 19 && !(e.step = 14 && s.tray.perst) && attemptOk e s && s.boot.phase = .booting)
    fun s =>
      let r := (itemOf s e.step e.item).rung
      let t := itemPassed e r (settle e r (if r = 0 then 0 else 1) false s)
      if t.boot.phase = .service then t else dropLostLink (bootProgress 64 t)) ∧
  (∀ dt slot cab, Occurs (.keepAliveStart dt slot cab) dt (fun s => s.nv.lastRails.isNone) fun s =>
    { s with tray := { s.tray with keepAlive := true, slotId := slot % 64, cabId := cab % 16 } }) ∧
  (∀ dt slot cab v, v ≠ 64 * (cab % 16) + slot % 64 → Occurs (.keepAliveStart dt slot cab) dt (fun s => s.nv.lastRails = some v)
    fun s => record 0xB110 1 0x8000 none false [⟨2, 64 * (cab % 16) + slot % 64⟩]
      { s with tray := { s.tray with keepAlive := true, slotId := v % 64, cabId := v / 64 } }) ∧
  (∀ dt, Occurs (.pwrEnAssert dt true) dt (fun s => s.tray.latch && !s.boot.running && s.boot.phase = .booting && s.boot.started.isEmpty)
    fun s => startBoot { s with tray := { s.tray with pwrEn := true, inputGood := true } }) ∧
  (∀ dt, Occurs (.pwrEnAssert dt false) dt always fun s => { s with tray := { s.tray with pwrEn := true, inputGood := false } }) ∧
  (∀ dt, Occurs (.trayLatchAssert dt true) dt
    (fun s => s.tray.pwrEn && !s.boot.running && s.boot.phase = .booting && s.boot.started.isEmpty)
    fun s => startBoot { s with tray := { s.tray with latch := true, inputGood := true } }) ∧
  (∀ dt, Occurs (.pwrEnDeassert dt) dt (fun s => s.boot.running)
    fun s => powerOff (finalFlush (addRec 0x8503 3 0x8000 none false []
      { s with tray := { s.tray with pwrEn := false }, boot := { s.boot with running := true } }))) ∧
  (∀ dt b, Occurs (.configRequest dt 0 (some b)) dt (fun s => s.boot.ended.contains 7 && s.tray.linkUp)
    fun s => { s with tray := { s.tray with sriov := b, lastConfig := 1 } }) ∧
  (∀ dt fn b, fn ≠ 0 → Occurs (.configRequest dt fn b) dt (fun s => s.boot.ended.contains 7 && s.boot.phase = .booting)
    fun s => { s with tray := { s.tray with lastConfig := 2 } })

/-- R100, R106, R123, R136: the boot commands. The registers and the rungs are returned, the journal is read, a history is cleared with its
recorder entry (this boot keeps its rungs, and every later one starts the item at rung 0, without its training parameters), and a restart
follows its own response. -/
def Obligations.BootCommandsComplete : Prop :=
  (∀ h, Serves (.bootGetState h) h { op := 0x0200, who := who0Side, reads := true } anyCall fun _ s => okData s (bootGetData s)) ∧
  (∀ h, Serves (.bootGetCapacity h) h { op := 0x0201, who := who0Side, reads := true } anyCall
    fun _ s => okData s (bootCaps s ++ rungData s)) ∧
  (∀ h seq n a, Serves (.bootReadJournal h seq n (.host a)) h { op := 0x0202, who := who0Side, reads := true }
    (fun c s => flashUsable s && c.mb ≤ 16 && n ≤ 4096)
    fun _ s =>
      let l := (s.nv.journal.filter fun r => seq ≤ r.seq).take n
      okData (hostWrite a (l.flatMap jrecData) s) [⟨4, l.length⟩]) ∧
  (∀ h seq n, Serves (.bootReadJournal h seq n .inline) h { op := 0x0202, who := who0Side, reads := true }
    (fun c s => flashUsable s && 17 ≤ c.mb && n ≤ 3)
    fun _ s => okData s (((s.nv.journal.filter fun r => seq ≤ r.seq).take n).flatMap jrecData)) ∧
  (∀ h, Serves (.bootClearHistory h .all) h { op := 0x0203, who := who0Side } (fun _ s => flashUsable s)
    fun _ s => ok (record 0x2021 1 0 none false [] (clearAll s))) ∧
  (∀ h k i, Serves (.bootClearHistory h (.items [(k, i)])) h { op := 0x0203, who := who0Side }
    (fun _ s => flashUsable s && !mandatory k && 1 ≤ k && k ≤ 18 && i < stepItems k)
    fun _ s => ok (record 0x2021 1 0 none false [⟨2, itemKey k i⟩] (clearItem (itemKey k i) s))) ∧
  (∀ k i s n, s.nv.powerCycle < n → (∀ r ∈ s.nv.journal, r.powerCycle ≤ s.nv.powerCycle) →
    let t := clearItem (itemKey k i) s
    let u := clearAll s
    keptRung t k i = keptRung s k i ∧ keptRung { t with nv := { t.nv with powerCycle := n } } k i = (0, 0)
      ∧ keptRung u k i = keptRung s k i ∧ keptRung { u with nv := { u.nv with powerCycle := n } } k i = (0, 0)) ∧
  (∀ i s,
    let t := clearItem (itemKey 9 i) s
    tget (dropCleared { t with nv := { t.nv with powerCycle := s.nv.powerCycle + 1 } }).nv.params i none = none) ∧
  (∀ h s c s', Taken h { op := 0x0204, who := who0Side } s c s' →
    exec (.bootRestart h) s =
      .next (restartNow (answered c (ok { s' with boot := { s'.boot with restartAsked := true } }))))

/-- R124–R137, R761: the firmware commands. A slot is erased, written, verified and activated in the walk of the components that differ;
a trial is confirmed; the boot slot is chosen. -/
def Obligations.FirmwareCommandsComplete : Prop :=
  (∀ h, Serves (.fwGetSlots h) h { op := 0x0210, who := who0Side, reads := true } (fun _ s => fwUsable s)
    fun _ s => okData s (s.nv.slots.flatMap slotData)) ∧
  (∀ h slot, Serves (.fwWriteBegin h slot) h { op := 0x0211, who := who0Side }
    (fun _ s => fwUsable s && slot ≤ 1 && slot ≠ s.boot.runSlot && !inTrial s && !working .slotErase slot s && !working .slotVerify slot s)
    fun _ s => accepted (markSlot slot .writing (fun _ => {}) s) .slotErase slot) ∧
  (∀ h slot offset data, Serves (.fwWrite h slot offset false data) h { op := 0x0212, who := who0Side }
    (fun _ s => fwUsable s && slot ≤ 1 && data.length ≤ 224 && slot ≠ s.boot.runSlot && !inTrial s && (slotOf s slot).state = .writing
      && !working .slotErase slot s)
    fun _ s => ok (modSlot slot (fun x => { x with
      image := (data.foldl (fun (a : Nat × Tab Byte) b => (a.1 + 1, tset a.2 a.1 b)) (offset, x.image)).2 }) s)) ∧
  (∀ h slot, Serves (.fwVerifySlot h slot) h { op := 0x0213, who := who0Side }
    (fun _ s => fwUsable s && slot ≤ 1 && (slotOf s slot).state ≠ .empty && !working .slotErase slot s && !working .slotVerify slot s)
    fun _ s => accepted s .slotVerify slot) ∧
  (∀ h, Serves (.fwActivate h) h { op := 0x0214, who := who0Side }
    (fun _ s =>
      let x := slotOf s (otherSlot s.boot.runSlot)
      let todo := walkComps s x.manifest
      fwUsable s && (x.state = .valid || x.state = .confirmed) && !(mirroredActive s && todo.contains 5) && !todo.isEmpty
        && walkChecks s.boot.running_ x.manifest.comps x.manifest.pairs todo)
    fun _ s =>
      let slot := otherSlot s.boot.runSlot
      let todo := walkComps s (slotOf s slot).manifest
      accepted { s with boot := { s.boot with
        walk := some ⟨todo, [], slot, unitsOf (todo.headD 0) s⟩, phase := walkPhase s.boot.phase } } .activate 0) ∧
  (∀ h, Serves (.fwConfirm h) h { op := 0x0215, who := who0Side } (fun _ s => fwUsable s && inTrial s) fun _ s => ok (endTrial s)) ∧
  (∀ h slot, Serves (.fwSelectBoot h slot) h { op := 0x0216, who := who0Side }
    (fun _ s => fwUsable s && slot ≤ 1 && ((slotOf s slot).state = .valid || (slotOf s slot).state = .confirmed))
    fun _ s => ok (setLocal .trialNext (slot + 1) (setLocal .lastActivated slot (setLocal .bootSlot slot s)))) ∧
  (∀ slot s, let t := setLocal .trialNext (slot + 1) (setLocal .lastActivated slot (setLocal .bootSlot slot s))
    t.nv.bootSlot = slot ∧ t.nv.lastActivated = slot ∧ t.nv.trialNext = some slot)

/-- R126–R133: what ends a slot's erase and check, a component's activation and a trial, and what the Square's watchdog does. -/
def Obligations.FirmwareEventsAct : Prop :=
  (∀ dt slot, Occurs (.slotEraseDone dt slot) dt always fun s => finish .slotErase slot .ok [] s) ∧
  (∀ dt slot m, Occurs (.slotVerifyDone dt slot true m) dt (fun s => working .slotVerify slot s && s.nv.secFloor ≤ m.secVersion)
    fun s => finish .slotVerify slot .ok [⟨1, 2⟩]
      (if slot = s.boot.runSlot then s else markSlot slot .valid (fun x => { x with manifest := m }) s)) ∧
  (∀ dt slot m, Occurs (.slotVerifyDone dt slot true m) dt (fun s => working .slotVerify slot s && m.secVersion < s.nv.secFloor)
    fun s => finish .slotVerify slot .ok [⟨1, 5⟩]
      (if slot = s.boot.runSlot then s else markSlot slot .failed (fun x => { x with manifest := m }) s)) ∧
  (∀ dt x rest slot done u v us, Occurs (.componentActivated dt true) dt
    (fun s => s.boot.walk = some ⟨x :: rest, done, slot, u :: v :: us⟩ && unitReady x (u :: v :: us) s)
    fun s => { s with boot := { s.boot with walk := some ⟨x :: rest, done, slot, v :: us⟩ } }) ∧
  (∀ dt x y rest slot done us, us.length ≤ 1 → Occurs (.componentActivated dt true) dt
    (fun s => s.boot.walk = some ⟨x :: y :: rest, done, slot, us⟩ && unitReady x us s)
    fun s => { s with boot := { s.boot with
      sisterFw := if x = 2 && s.red.ctxs.any (fun r => r.2.par.mode = 1) then some (s.boot.running_.getD 2 noComponent) else s.boot.sisterFw
      running_ := if x < 2 then s.boot.running_ else s.boot.running_.set x ((slotOf s slot).manifest.comps.getD x noComponent)
      walk := some ⟨y :: rest, x :: done, slot, unitsOf y s⟩ } }) ∧
  (∀ dt x slot done us, us.length ≤ 1 → Occurs (.componentActivated dt true) dt
    (fun s => s.boot.walk = some ⟨[x], done, slot, us⟩ && unitReady x us s)
    fun s => finish .activate 0 .ok [] (walkComplete slot { s with boot := { s.boot with
      sisterFw := if x = 2 && s.red.ctxs.any (fun r => r.2.par.mode = 1) then some (s.boot.running_.getD 2 noComponent) else s.boot.sisterFw
      running_ := if x < 2 then s.boot.running_ else s.boot.running_.set x ((slotOf s slot).manifest.comps.getD x noComponent)
      walk := some ⟨[], x :: done, slot, []⟩ } })) ∧
  (∀ dt x rest slot us, Occurs (.componentActivated dt false) dt (fun s => s.boot.walk = some ⟨x :: rest, [], slot, us⟩ && unitReady x us s)
    fun s => finish .activate 0 .faulted [] (record 0x2013 2 0 none false [⟨1, x⟩]
      { s with boot := { s.boot with sisterFw := none, walk := none, phase := phaseAfter s.boot.phase } })) ∧
  (∀ dt e, Occurs (.trialExpiry dt) dt (fun s => s.boot.trialEnd = some e && e ≤ now s) endTrial) ∧
  (∀ dt, Occurs (.squareWatchdog dt) dt (fun s => !boardAlone s && inTrial s) rollBack) ∧
  (∀ dt, Occurs (.squareWatchdog dt) dt (fun s => !boardAlone s && !inTrial s)
    fun s => moduleRestart (record 0x2030 2 0 none false [] s))
/-! ### Benches, jigs and runs (chapter 05) -/

/-- R158, R169–R179, R189, R190, R764: the commands of blocks, keys, jigs and runs. A load and a run are accepted with their work queued;
JIG_RUN's first response carries the run's number. -/
def Obligations.JigCommandsComplete : Prop :=
  (∀ h, Answers (.blkGetMap h) h { op := 0x0400, who := whoCtx, reads := true } anyCall fun _ s a =>
    a.s = s ∧ a.status = .ok ∧ fieldLen a.data = 126) ∧
  (∀ h c key, Serves (.jigKeyAdd h c key) h { op := 0x0401, who := who0Own, ctx := some c, conf := true }
    (fun _ s => c < 16 && key < 2 ^ 512 && ctxDefined s c && !(ctxOf s c).jigKeys.contains key && !tdiLocked s c
      && (ctxOf s c).jigKeys.length < 8)
    fun _ s => ok (modCtx c (fun x => { x with jigKeys := x.jigKeys ++ [key] }) s)) ∧
  (∀ h c key, Serves (.jigKeyRemove h c key) h { op := 0x0402, who := who0Own, ctx := some c, conf := true }
    (fun _ s => c < 16 && key < 2 ^ 512 && ctxDefined s c && (ctxOf s c).jigKeys.contains key && !tdiLocked s c)
    fun _ s => ok (modCtx c (fun x => { x with jigKeys := x.jigKeys.filter (· ≠ key) }) s)) ∧
  (∀ h c slot mask addr len, Serves (.jigLoad h c slot mask addr len true) h { op := 0x0403, who := whoCtx, ctx := some c, conf := true }
    (fun k s => !confMask s k.mb mask && (blocksRefused s c slot mask).isNone && !ctxStopped s c && !slotBusy s c (blocksOf mask) slot
      && ((ctxOf s c).lots.any fun e => lotCovers e.2 addr len && lotRead e.2 && lotExec e.2))
    fun _ s =>
      let j := containerOf (consumeBytes s addr len)
      acceptLoad c slot mask j (if rangeBad s addr len then some (.faulted, 0, 0) else verifyJig
        { addr := addr, len := len, inLot := true
          keyOk := if bitOf j.flags 0 then keyIdOf Config.fisujorKey = j.keyId else (ctxOf s c).jigKeys.any fun k => keyIdOf k = j.keyId
          sigOk := true, epochOk := Config.epochAccepted (sqfwVersion s) j.epoch } j)
        (touchYard .square addr len .request .read (consumeCount addr len s))) ∧
  (∀ h c slot mask id, Serves (.jigLoadLib h c slot mask id) h { op := 0x0404, who := whoCtx, ctx := some c, conf := true }
    (fun k s => !confMask s k.mb mask && (blocksRefused s c slot mask).isNone && !ctxStopped s c && !jiglibActivating s c
      && !slotBusy s c (blocksOf mask) slot)
    fun _ s => if (Config.library (jiglib s).version id).isEmpty then no s .badArg
      else acceptLoad c slot mask (containerOf (Config.library (jiglib s).version id)) none s) ∧
  (∀ h c slot mask, Serves (.jigUnload h c slot mask) h { op := 0x0405, who := whoCtx, ctx := some c, conf := true }
    (fun k s => !confMask s k.mb mask && (blocksRefused s c slot mask).isNone && !slotBusy s c (blocksOf mask) slot)
    fun _ s => ok ((benchesOf (blocksOf mask)).foldl (fun s b => modBench b (fun x => { x with slots := x.slots.set slot none }) s) s)) ∧
  (∀ h c slot mask params, Serves (.jigRun h c slot mask params) h { op := 0x0406, who := whoCtx, ctx := some c, conf := true }
    (fun k s => !confMask s k.mb mask && (runBlocksRefused s c slot mask).isNone && params.length ≤ 30
      && !ctxStopped s c
      && !(blocksOf mask).any (servedBlock s c) && !queueFull s c (blocksOf mask) && slotValid s c (blocksOf mask) slot)
    fun _ s => { accepted (queueRun c slot (blocksOf mask) params s).2 .jigRun s.benches.nextRun with
      data := [⟨4, s.benches.nextRun⟩] }) ∧
  (∀ h c run r, Serves (.jigAbort h c run) h { op := 0x0407, who := whoCtx, ctx := some c, conf := true }
    (fun _ s => (s.benches.runs.find? fun r => r.id = run && r.ctx = c) = some r)
    fun _ s => accepted (stopRun run s) .jigAbort run) ∧
  (∀ h c mask, Serves (.jigStatus h c mask) h { op := 0x0408, who := whoCtx, ctx := some c, conf := true, reads := true }
    (fun k s => !confMask s k.mb mask && (blocksRefused s c 0 mask).isNone)
    fun _ s => okData s ((benchesOf (blocksOf mask)).flatMap fun b =>
      let x := benchOf s b
      [⟨1, b⟩, ⟨1, x.cur.elim 0xFF (·.slot)⟩, ⟨1, x.queue.length⟩] ++ x.queue.map (fun id => ⟨4, id⟩) ++ [⟨8, bnFault s b⟩]))

/-- R160–R176, R264: a load ends, a run starts on a bench, a unit issues or stalls and completes an op, and the scrubber finds a bad line of
the jig store. -/
def Obligations.BenchEventsAct : Prop :=
  (∀ dt id l rest, l.refusal = none → Occurs (.jigLoadDone dt id) dt
    (fun s => takeFirst (fun l => l.id = id) s.benches.loads = some (l, rest) && !loadUnderWay s id && rspRoom s .jigLoad id
      && ctxDefined s l.ctx && (ctxOf s l.ctx).state ≠ .destroying
      && jigFits { s with benches := { s.benches with loads := rest } } l.ctx l.blocks l.slot l.jig)
    fun s => finish .jigLoad id .ok [] ((benchesOf (l.blocks.filter (bitOf (ctxOf s l.ctx).blocks))).foldl
      (fun s b => modBenchFor l.ctx b (fun x =>
        { x with slots := x.slots.set l.slot (some l.jig), badLines := x.badLines.filter (· ≠ l.slot) }) s)
      { s with benches := { s.benches with loads := rest } })) ∧
  (∀ dt id l rest, l.refusal = none → Occurs (.jigLoadDone dt id) dt
    (fun s => takeFirst (fun l => l.id = id) s.benches.loads = some (l, rest) && !loadUnderWay s id && rspRoom s .jigLoad id
      && ctxDefined s l.ctx && (ctxOf s l.ctx).state ≠ .destroying
      && !jigFits { s with benches := { s.benches with loads := rest } } l.ctx l.blocks l.slot l.jig)
    fun s => finish .jigLoad id .noResource [⟨2, 0x0D⟩, ⟨2, 0⟩] { s with benches := { s.benches with loads := rest } }) ∧
  (∀ dt b, Occurs (.runStart dt b) dt (fun s => (benchOf s b).cur.isNone) fun s => retryLaunches (startOperator b (startRun b s))) ∧
  (∀ dt b u ev bank withheld r i o, b < 252 → u < 4 → Reaches (.opIssue dt b u ev bank withheld) dt
    (fun s =>
      let s := streamOn b (benchEvents b (some u) (bankUser u :: bank) ev s)
      (benchOf s b).cur = some r && !r.stopping && unitNext r.jig u (r.units.getD u {}) = some (i, o)
        && (issueBlocked s b u r.jig r o bank withheld).isNone)
    fun s t =>
      let s := stallEvents b u r.jig o none ev (streamOn b (benchEvents b (some u) (bankUser u :: bank) ev s))
      ∃ r', (benchOf s b).cur = some r' ∧ t = issueOp b u r.jig r' i o s) ∧
  (∀ dt b u ev bank withheld r i o cause, b < 252 → u < 4 → Occurs (.opIssue dt b u ev bank withheld) dt
    (fun s =>
      let s := streamOn b (benchEvents b (some u) (bankUser u :: bank) ev s)
      (benchOf s b).cur = some r && !r.stopping && unitNext r.jig u (r.units.getD u {}) = some (i, o)
        && issueBlocked s b u r.jig r o bank withheld = some cause)
    fun s => waitBanks b u r.jig r o cause
      (stallEvents b u r.jig o cause ev (streamOn b (benchEvents b (some u) (bankUser u :: bank) ev s)))) ∧
  (∀ dt b u ev r f rest, b < 252 → u < 4 → Occurs (.opComplete dt b u ev) dt
    (fun s =>
      let s := streamOn b (benchEvents b none [] ev s)
      (benchOf s b).cur = some r
        && takeFirst (fun f : InFlight => f.unit = u && answeredAll f) r.inflight = some (f, rest))
    fun s => completeOp b r.jig r f rest (streamOn b (benchEvents b none [] ev s))) ∧
  (∀ dt b ev r, Occurs (.eventBoundExceeded dt b ev) dt
    (fun s => (benchOf (benchEvents b none [] ev s) b).cur = some r && r.jig.bound ≠ 0 && r.jig.bound * 1024 < r.events)
    fun s => benchFault b r.jig.lead ((unitNext r.jig r.jig.lead (r.units.getD r.jig.lead {})).elim 0 (·.1)) 0x4101 []
      (benchEvents b none [] ev s)) ∧
  (∀ dt b slot found, b < 252 → slot < 4 → found = .detected ∨ found = .poison → Occurs (.sramScrub dt (.jig b slot found)) dt
    (fun s => (benchOf (countJigLine b found s) b).cur.elim false fun r => r.slot = slot)
    fun s => benchFault b 0 0 0x4103 [] (countJigLine b found s)) ∧
  (∀ dt a b, windowOf a = .bench b → benchHole a = false → Occurs (.sramScrub dt (.bench a)) dt
    (fun s => scrubMay s b ((a - benchBase b) / 0x8000))
    fun s => modBench b (fun x => { x with scrubIn := tset x.scrubIn ((a - benchBase b) / 0x8000) x.events })
      ((wordsOf (a / 128 * 128) 128).foldl (fun s w => sramWord w s) s))

/-- R140, R141, R149, R151, R152, R164, R181–R184: on the mesh a packet that arrives at a crossing moves on when its class has its turn
on the next link, which needs a credit there; at a bench it is taken, but a write or a read's data waits for its bank; at a yard it is
taken when a tag of the port is free; at an edge yard it leaves for its peer. A freed credit returns unless the yard withholds it; an
inbound write lands and takes its banks, unless a unit waits for one of them that an inbound write took in its last two events; nothing moves
where one of these fails. -/
def Obligations.MeshEventsAct : Prop :=
  (∀ dt link k p rest, link % 16 < 4 ∨ 6 < link % 16 → Occurs (.meshPacketArrival dt link k) dt
    (fun s => headPacket s link (execMeshPacketArrival.meshClass k) = some (p, rest)
      && servedClass s (nextLink p) = some (execMeshPacketArrival.meshClass k))
    fun s => settleDrains (moveOn link (execMeshPacketArrival.meshClass k) p rest s)) ∧
  (∀ dt link k p rest, link % 16 < 4 ∨ 6 < link % 16 → Occurs (.meshPacketArrival dt link k) dt
    (fun s => headPacket s link (execMeshPacketArrival.meshClass k) = some (p, rest)
      && servedClass s (nextLink p) ≠ some (execMeshPacketArrival.meshClass k)) settleDrains) ∧
  (∀ dt link k p rest b, link % 16 = 4 → siteBench (link / 16) = some b → Occurs (.meshPacketArrival dt link k) dt
    (fun s => headPacket s link (execMeshPacketArrival.meshClass k) = some (p, rest))
    fun s => settleDrains (if isInbound p.payload then s
      else arriveBench b p (countCode b 0x11 1 (removePacket link (execMeshPacketArrival.meshClass k) rest s)))) ∧
  (∀ dt link k p rest, link % 16 = 5 ∨ link % 16 = 6 → p.payload.op = .carry none → Occurs (.meshPacketArrival dt link k) dt
    (fun s => headPacket s link (execMeshPacketArrival.meshClass k) = some (p, rest))
    fun s => settleDrains (removePacket link (execMeshPacketArrival.meshClass k) rest s)) ∧
  (∀ dt link k p rest, link % 16 = 5 ∨ link % 16 = 6 → p.payload.op ≠ .carry none → p.payload.module = none →
    Occurs (.meshPacketArrival dt link k) dt
    (fun s => headPacket s link (execMeshPacketArrival.meshClass k) = some (p, rest))
    fun s => settleDrains (if yardTakes s link p.payload then arriveYard link p (removePacket link (execMeshPacketArrival.meshClass k) rest s)
      else s)) ∧
  (∀ dt link k p rest m, link % 16 = 5 ∨ link % 16 = 6 → p.payload.op ≠ .carry none → p.payload.module = some m →
    Occurs (.meshPacketArrival dt link k) dt
    (fun s => headPacket s link (execMeshPacketArrival.meshClass k) = some (p, rest))
    fun s => settleDrains (arriveEdge p.payload m (removePacket link (execMeshPacketArrival.meshClass k) rest s))) ∧
  (∀ dt link k, Occurs (.creditReturn dt link k) dt
    (fun s => 0 < (linkOf s link (execMeshPacketArrival.meshClass k)).freed
      && !withholdsCredit s link (execMeshPacketArrival.meshClass k))
    (modLink link (execMeshPacketArrival.meshClass k) (fun l => { l with credits := l.credits + 1, freed := l.freed - 1 }))) ∧
  (∀ dt link k, link % 16 = 5 ∨ link % 16 = 6 → Occurs (.creditReturn dt link k) dt
    (fun s => (execMeshPacketArrival.meshClass k = .request || execMeshPacketArrival.meshClass k = .bulk)
      && !portTagFree (yardOf s (linkYard link)) (linkPort link)) fun s => s) ∧
  (∀ dt b p rest, Occurs (.inboundWrite dt b) dt
    (fun s => inboundHead s b = some (p, rest) && !(landingBanks p.payload).any (inboundBarred (benchOf s b)))
    fun s => settleDrains (landInbound b p.payload (takeBanks b p.payload (countCode b 0x11 1 (removePacket p.link p.cls rest s))))) ∧
  (∀ dt b p rest, Occurs (.inboundWrite dt b) dt
    (fun s => inboundHead s b = some (p, rest) && (landingBanks p.payload).any (inboundBarred (benchOf s b))) fun s => s) ∧
  (∀ b y s k, k ∈ landingBanks y → (benchOf s b).bankWait.contains k = true → inboundBarred (benchOf (takeBanks b y s) b) k = true)
/-! ### Memory (chapter 07) -/

/-- R255, R262, R275–R277, R281: the memory commands. -/
def Obligations.MemoryCommandsComplete : Prop :=
  (∀ h g, Serves (.memGetState h g) h { op := 0x0360, who := who0Own, reads := true } (fun _ _ => g < 16) fun c s =>
    let v := viewerOf s c.mb
    let q := groupOf s g
    okData s [⟨8, mchStatus s g v⟩, ⟨8, ydStatus s g v⟩, ⟨8, q.ceCount⟩, ⟨8, q.dueCount⟩, ⟨8, q.poisonWrites⟩]) ∧
  (∀ h g mask s c s', Taken h { op := 0x0361, who := who0Own, ctx := groupCtx s g, conf := true } s c s' →
    g < 16 → mask < 16 → yardState s' g = 1 →
    ((List.range 4).all fun q => !bitOf (yardOf s' g).slab q || bitOf mask q || !quarterInUse s' g q) = true →
    exec (.ydSetPartition h g mask) s = .next (answered c (ok (setPartition g mask s')))) ∧
  (∀ h g n, Serves (.memSetScrub h (some g) n) h { op := 0x0362, who := who0Admin } (fun _ _ => 1 ≤ n && n ≤ 168 && g < 16)
    fun _ s => ok (setLocal (.scrub g) n s)) ∧
  (∀ h n, Serves (.memSetScrub h none n) h { op := 0x0362, who := who0Admin } (fun _ _ => 1 ≤ n && n ≤ 168)
    fun _ s => ok (foldN 16 (fun i s => setLocal (.scrub i) n s) s)) ∧
  (∀ h g s c s', Taken h { op := 0x0363, who := who0Own, ctx := groupCtx s g, conf := true, reads := true } s c s' → g < 16 →
    exec (.memGetErrors h g) s = .next (answered c (okData s' ((groupOf s' g).events.flatMap errData)))) ∧
  (∀ h a d x g, windowOf a = .lpddr g → a % 16 = 0 → d < 2 ^ 128 → x < 65536 →
    Serves (.memInject h a d x) h { op := 0x0364, who := who0 }
      (fun _ s => (addrOwner s a).elim true (fun c => !isConf s c) && !groupExcluded s g) fun _ s => ok (inject a d x s))

/-- R43, R44, R51: a host's access through BAR4 that a lot with R or W lets pass reads or writes the memory at the offset; one that no lot
lets pass completes as Unsupported Request or is dropped and counted, with the recorder entry 0x9103. -/
def Obligations.Bar4Accesses : Prop :=
  (∀ dt vf off len t, Occurs (.bar4Read dt vf off len t) dt
    (fun s => bar4Open s vf && !ideRefused s vf t && off + len ≤ 0x10000000000 && lotPasses s (vf - 1) off len .r true)
    fun s =>
      let bad := rangeBad s off len
      let s := touchYard (.edge .pcie) off len .request .read (consumeCount off len s)
      complete ⟨vf, consumeBytes s off len, bad, false⟩ (if bad then logAer s else s)) ∧
  (∀ dt vf off len t, Occurs (.bar4Read dt vf off len t) dt
    (fun s => bar4Open s vf && !ideRefused s vf t && !lotPasses s (vf - 1) off len .r true)
    fun s => record 0x9103 2 0x0000 (some (vf - 1)) true [⟨8, off⟩] (logAer (complete ⟨vf, [], false, true⟩ s))) ∧
  (∀ dt vf off data t, Occurs (.bar4Write dt vf off data t) dt
    (fun s => bar4Open s vf && !ideRefused s vf t && off + data.length ≤ 0x10000000000
      && lotPasses s (vf - 1) off data.length .w true)
    fun s => writeBytes off data [] (touchYard (.edge .pcie) off data.length .request .write s)) ∧
  (∀ dt vf off data t, Reaches (.bar4Write dt vf off data t) dt
    (fun s => bar4Open s vf && !ideRefused s vf t && !lotPasses s (vf - 1) off data.length .w true)
    fun s u => u.mem.bytes = s.mem.bytes ∧ u.mem.hostViolations = tmod s.mem.hostViolations (vf - 1) 0 (satAdd 32 · 1))

/-- R258–R264, R282, R592: an MR4 report, the scrubber's next burst, a prefetch that is filled, pins that run out after 20 µs, and a read that
restarts a high-water field. -/
def Obligations.MemoryEventsAct : Prop :=
  (∀ dt p, p < 36 → Occurs (.mr4Report dt p 3) dt (fun s => tget s.mem.mr4 p 0 ≠ 3)
    fun s => record 0x8360 2 0x8000 none false [⟨1, p⟩]
      (record 0x3141 2 (0x3000 + (packageGroups p).headD 0) none false [⟨1, p⟩] { s with mem := { s.mem with mr4 := tset s.mem.mr4 p 3 } })) ∧
  (∀ dt p r, p < 36 → r < 3 → Occurs (.mr4Report dt p r) dt (fun s => r ≤ tget s.mem.mr4 p 0)
    fun s => { s with mem := { s.mem with mr4 := tset s.mem.mr4 p r } }) ∧
  (∀ dt g, Occurs (.scrubBurst dt g) dt (fun s => g < 16 && groupState s g = 3) fun s =>
    let b := g * 2 ^ 28 + (groupOf s g).scrubPos
    gauge (0x3000 + g) 5 1 (modGroup g (fun q =>
        if q.scrubPos + 1 = 2 ^ 28 then { q with scrubPos := 0, passes := wrapAdd 16 q.passes 1 }
        else { q with scrubPos := q.scrubPos + 1 })
      (foldN 16 (fun j s => scrubWord g (16 * b + j) s) s))) ∧
  (∀ dt g p, Occurs (.prefetchFillStart dt g) dt (fun s => firstDue (yardOf s g).prefetches = some p && !fillDue s g p.due) fun s => s) ∧
  (∀ dt g p, Occurs (.prefetchFillStart dt g) dt (fun s => firstDue (yardOf s g).prefetches = some p && fillDue s g p.due)
    fun s => fillPrefetch g p (modYard g (fun y => { y with prefetches := y.prefetches.erase p, tags := y.tags - 1 }) s)) ∧
  (∀ dt g l d, Reaches (.prefetchPinExpiry dt g) dt
    (fun s => decide (l ∈ (yardOf s g).lines) && l.due = some d && d + 20000 ≤ s.time.t)
    fun s t => t = modYard g (fun y => { y with lines := y.lines.map fun l => match l.due with
      | some d => if d + 20000 ≤ s.time.t then { l with due := none } else l
      | none => l }) s ∧ { l with due := none } ∈ (yardOf t g).lines) ∧
  (∀ dt g, Occurs (.ydHighWaterRead dt g false) dt always (modYard g (fun y => { y with tagsHigh := yardTags y }))) ∧
  (∀ dt g, Occurs (.ydHighWaterRead dt g true) dt always
    (modYard g (fun y => { y with pinnedHigh := (y.lines.filter fun l => l.due.isSome).length })))
/-! ### Operators, chains and triggers (chapter 08) -/

/-- R289–R297, R299: the operator commands and what ends a planning and a stage. A planning is accepted with the first check that fails, or
with its plan; an immediate run starts its first stage after its response; a trigger is armed and disarmed. -/
def Obligations.OperatorsComplete : Prop :=
  (∀ h c slot mask ra pa x, Answers (.oprPlan h c slot mask ra pa x) h { op := 0x0410, who := whoCtx, ctx := some c, conf := true }
    (fun k s => c < 16 && slot < 4 && mask ≠ 0 && mask < 2 ^ 63 && !confMask s k.mb mask && ctxDefined s c)
    fun _ s a =>
      let r := oprRecOf (consumeBytes s ra 256)
      let bad := planChecked s c slot mask ra pa r x
      a.status = .accepted ∧ a.work = some (.oprPlan, s.sq.nextId) ∧ ∃ plan, a.s.opr.planning = s.opr.planning ++
        [⟨s.sq.nextId, c, pa, if bad.isSome then none else some plan, bad, planAnswer s r x,
          bad = some (.badArg, 0x21) && !reservedZero r⟩] ∧ plan.rec_ = r ∧ plan.blocks = blocksOf mask ∧ plan.slot = slot) ∧
  (∀ h c plans s c' s', Taken h { op := 0x0411, who := whoCtx, ctx := some c, conf := true } s c' s' → c < 16 → plans ≠ [] →
    plans.length ≤ 64 → ctxDefined s' c = true → (plans.filterMap (planAt s' c)).length = plans.length →
    runRefused s' c (plans.filterMap (planAt s' c)) = none →
    exec (.oprRun h c plans none) s = .next (execOprRun.startNew (answered c' (accepted { s' with
      sq := { s'.sq with nextId := s'.sq.nextId + 1 }
      opr := { s'.opr with chains := s'.opr.chains ++
        [⟨s'.sq.nextId, c, plans.filterMap (planAt s' c), [], 0, none, 0, 0, ⟨0, 0⟩, 0⟩] } } .oprRun s'.sq.nextId)))) ∧
  (∀ h c id, Serves (.oprUntrigger h c id) h { op := 0x0412, who := whoCtx, ctx := some c, conf := true }
    (fun _ s => c < 16 && ctxDefined s c && s.opr.triggers.any fun t => t.id = id && t.ctx = c && !t.ending)
    fun _ s => ok (endTrigger id s)) ∧
  (∀ h c, Serves (.oprStatus h c) h { op := 0x0413, who := whoCtx, ctx := some c, conf := true, reads := true }
    (fun _ s => c < 16 && ctxDefined s c)
    fun _ s => okData s ((s.opr.triggers.filter fun t => t.ctx = c).flatMap fun t =>
      [⟨4, t.id⟩, ⟨1, t.session⟩, ⟨1, bit (s.opr.chains.any fun x => x.trigger = some t.id)⟩, ⟨8, t.skipped⟩, ⟨8, t.completed⟩])) ∧
  (∀ dt id y rest st reason, y.refusal = some (st, reason) → Occurs (.oprPlanDone dt id) dt
    (fun s => takeFirst (fun y => y.id = id) s.opr.planning = some (y, rest))
    fun s => finishBad y.viol .oprPlan id st [⟨2, reason⟩] { s with opr := { s.opr with planning := rest } }) ∧
  (∀ dt id y rest p, y.plan = some p → y.refusal = none → Reaches (.oprPlanDone dt id) dt
    (fun s => takeFirst (fun y => y.id = id) s.opr.planning = some (y, rest) && ctxDefined s y.ctx && (ctxOf s y.ctx).state ≠ .destroying)
    fun s t => tget t.opr.plans y.addr none = (if (libraryJig s p.path).elim false (jigFits s p.ctx p.blocks p.slot) then some p
      else tget s.opr.plans y.addr none) ∧ t.opr.planning = rest) ∧
  (∀ dt id x p, Occurs (.chainStageEnd dt id none) dt
    (fun s => (s.opr.chains.find? fun x => x.id = id) = some x && x.plans[x.ends.length]? = some p && !nonResident s x.ctx && x.run ≠ 0
      && !runPending s x.run) (stageEnds x p none))
/-! ### Requests, models and rings (chapter 10) -/

/-- R383–R385, R389, R423: the request commands. An admitted request takes a FREE entry of the context's slice, which a free value chooses
(log entry 6). -/
def Obligations.RequestCommandsComplete : Prop :=
  (∀ h c p m, Answers (.reqAdmit h c p) h (serveSpec 0x0500 c false false)
    (fun call s => s.red.drain = .none && servesNow s c && !restartable s c && (funcOf s (fidContext c)).state = .running
      && p.priority < 8 && modelOf s c p.model = some m && m.rec_.role = 1 && !(freeEntries s c).isEmpty
      && (freeEntries s c).all fun x => (admitRefused s c x p call.stamp m).isNone
        && !(m.att.mask = 3 && (serveOf s c).pool.maskLot ≠ 0 && rangeBad s ((serveOf s c).pool.maskLot + 64 * x) 4))
    fun call s a => ∃ x ∈ freeEntries s c, a.status = .ok ∧ a.data = [⟨2, x⟩] ∧ reqOf a.s x = admitted s c p call.stamp) ∧
  (∀ h c x, Serves (.reqCancel h c x) h (serveSpec 0x0501 c false false)
    (fun _ s => servesNow s c && inSlice s c x && (reqOf s x).state ≠ .free && (reqOf s x).state ≠ .done && (reqOf s x).state ≠ .cancelled)
    fun call s => ok (noteChange c (modReq x (fun r => { r with cancel := r.cancel.orElse fun _ => some call.stamp }) s))) ∧
  (∀ h c x n, Serves (.reqUpdate h c x (some n) none) h (serveSpec 0x0502 c false false)
    (fun _ s => servesNow s c && inSlice s c x && (reqOf s x).state ≠ .free && n < 8)
    fun _ s => ok (noteChange c (modReq x (fun r => { r with newPriority := some n }) s))) ∧
  (∀ h c x, Serves (.reqGet h c x) h (serveSpec 0x0503 c false true) (fun _ s => ctxDefined s c && inSlice s c x)
    fun _ s => okData s (entryFields (reqOf s x))) ∧
  (∀ h c, Answers (.reqGetStats h c) h (serveSpec 0x0514 c false true) (fun _ s => ctxDefined s c)
    fun _ s a => a.s = s ∧ a.status = .ok ∧ a.data.head? = some ⟨4, (freeEntries s c).length⟩)

/-- R366, R370, R395, R396, R403, R423: the commands that set and read what a context serves with. Models, pools and buckets are staged. -/
def Obligations.ServingSettingsComplete : Prop :=
  (∀ h c r, Serves (.reqModelSet h c r) h (serveSpec 0x0510 c true false)
    (fun call s => (!isConf s c || r.role = 0 || (ctxOf s c).unsealed.contains r.weights) && ctxStageable c call s)
    fun _ s => ok (stagedIn (fidContext c) (.modelSet r) s)) ∧
  (∀ h c d k g, Serves (.reqSetPolicy h c d k g) h (serveSpec 0x0511 c false false)
    (fun _ s => ctxDefined s c && d < 256 && k ≤ 8 && 1 ≤ g && g ≤ 8)
    fun _ s => ok (noteChange c (modServe c (fun y => { y with newPolicy := some ⟨d, k, g⟩ }) s))) ∧
  (∀ h c n tokens seqs, Serves (.reqStopSet h c n tokens seqs) h (serveSpec 0x0512 c false false)
    (fun _ s => servesNow s c && n < 256 && tokens.length ≤ 32 && seqs.length ≤ 4 && seqs.all (fun q => 2 ≤ q.length && q.length ≤ 8)
      && !(liveReqs s c).any fun q => q.2.stopSet = n)
    fun _ s => ok (modServe c (fun y => { y with stops := tset y.stops n (some ⟨tokens, seqs⟩) }) s)) ∧
  (∀ h c p, p.kind ≠ 0 → Serves (.reqRingSet h c p) h (serveSpec 0x0513 c false false)
    (fun _ s => servesNow s c && ringParOk s c p && (ringBound s c p.ring).isNone)
    fun _ s => ok (modServe c (fun y => { y with
      rings := tset y.rings p.ring (some { par := p }), pend := y.pend.filter fun q => q.ring ≠ p.ring }) s)) ∧
  (∀ h c p x r q g, Serves (.reqRingSet h c p) h (serveSpec 0x0513 c false false)
    (fun _ s => servesNow s c && ringParOk s c p && ringBound s c p.ring = some (x, r) && (r.state = .done || r.state = .cancelled)
      && ((serveOf s c).pend.find? fun q => q.ring = p.ring && q.final) = some q && ringOf s c p.ring = some g && ringDead s c p.ring g)
    fun _ s => execReqRingSet.define c p (freeEntry x s)) ∧
  (∀ h c n p, Serves (.smpSet h c n p) h (serveSpec 0x0520 c false false)
    (fun _ s => servesNow s c && n < 4096 && samplerOk p && !hasLive s c
      && (p.biasCount = 0 || (lotHas s c p.biasAddr (8 * p.biasCount) lotRead && !rangeBad s p.biasAddr (8 * p.biasCount))))
    fun _ s => ok (modServe c (fun y => { y with
        samplers := tset y.samplers n (some ⟨p, biasList s p⟩), newSamplers := tdel y.newSamplers n })
      (if p.biasCount = 0 then s else squareReads [(p.biasAddr, 8 * p.biasCount)] s))) ∧
  (∀ h c n p, Serves (.smpSet h c n p) h (serveSpec 0x0520 c false false)
    (fun _ s => servesNow s c && n < 4096 && samplerOk p && hasLive s c
      && (p.biasCount = 0 || (lotHas s c p.biasAddr (8 * p.biasCount) lotRead && !rangeBad s p.biasAddr (8 * p.biasCount))))
    fun _ s => ok (noteChange c (modServe c (fun y => { y with newSamplers := tset y.newSamplers n (some ⟨p, biasList s p⟩) })
      (if p.biasCount = 0 then s else squareReads [(p.biasAddr, 8 * p.biasCount)] s)))) ∧
  (∀ h c n v, Serves (.smpGet h c n) h (serveSpec 0x0521 c false true)
    (fun _ s => ctxDefined s c && tget (serveOf s c).samplers n none = some v)
    fun _ s => okData s (samplerFields v.par ++ [⟨4, bit (tget (serveOf s c).newSamplers n none).isSome⟩])) ∧
  (∀ h c p, Serves (.kvPoolSet h c p) h (serveSpec 0x0580 c true false)
    (fun call s => !p.lots.isEmpty && p.lots.length ≤ 16 && 8192 ≤ p.split && p.split ≤ 1048576 && ctxStageable c call s)
    fun _ s => ok (stagedIn (fidContext c) (.kvPool p) s)) ∧
  (∀ h c, Answers (.kvPoolGet h c) h (serveSpec 0x0581 c false true) (fun _ s => ctxDefined s c)
    fun _ s a => a.s = s ∧ a.status = .ok ∧ a.data.take 4 = [⟨4, (serveOf s c).poolSize⟩, ⟨4, freeCount (serveOf s c)⟩,
      ⟨4, (serveOf s c).allocated⟩, ⟨4, (serveOf s c).inTransit⟩]) ∧
  (∀ h c b, Serves (.kvSetPolicy h c b) h { serveSpec 0x0582 c false false with conf := false }
    (fun k s => ctxDefined s c && !(tdiLocked s c && !speaksFor s k.mb c))
    fun _ s => ok (noteChange c (modServe c (fun y => { y with newEvict := some b }) s))) ∧
  (∀ h c cuts, Serves (.attSetBuckets h c cuts) h (serveSpec 0x0583 c true false)
    (fun call s => cuts.length = 7 && ctxStageable c call s)
    fun _ s => ok (stagedIn (fidContext c) (.attBuckets cuts) s)) ∧
  (∀ h c x dest, Serves (.kvReadList h c x dest) h (serveSpec 0x0584 c false false)
    (fun _ s => ctxDefined s c && inSlice s c x && (reqOf s x).state ≠ .free
      && lotHas s c dest (listImage s c (reqOf s x) dest).1.length lotWrite
      && !(listScales s c (reqOf s x)).any fun a => rangeBad s a.1 a.2)
    fun _ s =>
      let im := listImage s c (reqOf s x) dest
      let t := squareWrite dest (im.1.take (4 * (reqOf s x).list.length)) (squareReads (listScales s c (reqOf s x)) s)
      okData (if im.2 = 0 then t else squareWrite (dest + im.2) (im.1.drop im.2) t) [⟨4, (reqOf s x).list.length⟩, ⟨4, im.2⟩])

/-- R412–R417, R424: the veneer commands and the end of a slot's filling. -/
def Obligations.VeneersComplete : Prop :=
  (∀ h c p, Answers (.venLoad h c p) h (serveSpec 0x0600 c false false)
    (fun _ s => servesNow s c && packageOk s c p && (modelOf s c p.model).isSome && !rangeBad s p.addr 128 && (packHeader s p.addr).1 = 1
      && (packHeader s p.addr).2.1 ≠ 0 && 1 ≤ (packHeader s p.addr).2.2.2 && (packHeader s p.addr).2.2.2 ≤ 256
      && (liveSlot s c (packHeader s p.addr).2.1).isNone && !(freeSlots s).isEmpty && slotsHeld s c < (ctxOf s c).quota)
    fun _ s a => a.status = .accepted ∧ ∃ i ∈ freeSlots s, a.work = some (.venLoad, i) ∧ (venOf a.s i).state = .loading
      ∧ (venOf a.s i).owner = c ∧ (venOf a.s i).name = (packHeader s p.addr).2.1) ∧
  (∀ h c p o, Answers (.venReplace h c p) h (serveSpec 0x0601 c false false)
    (fun _ s => servesNow s c && packageOk s c p && (modelOf s c p.model).isSome && !rangeBad s p.addr 128 && (packHeader s p.addr).1 = 1
      && (packHeader s p.addr).2.1 ≠ 0 && 1 ≤ (packHeader s p.addr).2.2.2 && (packHeader s p.addr).2.2.2 ≤ 256
      && liveSlot s c (packHeader s p.addr).2.1 = some o && o.2.version < (packHeader s p.addr).2.2.1
      && !(freeSlots s).isEmpty && slotsHeld s c < (ctxOf s c).quota)
    fun _ s a => a.status = .accepted ∧ ∃ i ∈ freeSlots s, a.work = some (.venLoad, i) ∧ (venOf a.s i).replaces = true) ∧
  (∀ h c slot, Serves (.venUnload h c slot) h (serveSpec 0x0602 c false false)
    (fun _ s => servesNow s c && slot < 1024 && (venOf s slot).owner = c && (venOf s slot).state = .live
      && veneerRefs s slot (venOf s slot).version = 0)
    fun _ s => ok (modVen slot (fun _ => {}) s)) ∧
  (∀ h c, Serves (.venGet h c) h (serveSpec 0x0603 c false true) (fun _ s => servesNow s c)
    fun _ s => okData s ((s.serve.veneers.filter fun v => v.2.state ≠ .free && v.2.owner = c).flatMap fun v =>
      [⟨2, v.1⟩, ⟨1, venCode v.2.state⟩, ⟨8, v.2.name⟩, ⟨4, v.2.version⟩, ⟨1, v.2.model⟩, ⟨2, v.2.rank⟩,
       ⟨4, veneerRefs s v.1 v.2.version⟩])) ∧
  (∀ h c model rank desc lot, Answers (.venTrainBegin h c none model rank desc lot) h (serveSpec 0x0610 c false false)
    (fun _ s => servesNow s c && ((ctxOf s c).lots.any fun e => lotValid e.2 && lotBase e.2 = lot && lotRead e.2 && lotWrite e.2)
      && lotHas s c desc 1 lotRead && (modelOf s c model).isSome && 1 ≤ rank && rank ≤ 256 && !(freeSlots s).isEmpty
      && slotsHeld s c < (ctxOf s c).quota)
    fun _ s a => a.status = .accepted ∧ ∃ i ∈ freeSlots s, a.work = some (.venLoad, i) ∧ (venOf a.s i).trains = true
      ∧ (venOf a.s i).state = .training ∧ (venOf a.s i).rank = rank) ∧
  (∀ h c slot batch, Serves (.venTrainStep h c slot batch) h (serveSpec 0x0611 c false false)
    (fun _ s => servesNow s c && slot < 1024 && (venOf s slot).owner = c && (venOf s slot).state = .training && !(venOf s slot).trains
      && lotHas s c batch 1 lotRead)
    fun _ s => accepted (noteChange c (modServe c (fun y => { y with training := y.training ++ [(s.sq.nextId, slot)] })
      { s with sq := { s.sq with nextId := s.sq.nextId + 1 } })) .venTrain s.sq.nextId) ∧
  (∀ h c slot name version, Serves (.venPublish h c slot name version) h (serveSpec 0x0612 c false false)
    (fun _ s => servesNow s c && slot < 1024 && (venOf s slot).owner = c && name ≠ 0 && (venOf s slot).state = .training
      && !(venOf s slot).trains && !((serveOf s c).training.any fun t => t.2 = slot) && ((liveSlot s c name).elim true fun o => o.2.version < version))
    fun _ s => ok (retireOld c slot name (modVen slot (fun v => { v with
      state := .live, name := name, version := version, trains := false }) s))) ∧
  (∀ dt slot, Occurs (.veneerLoadDone dt slot) dt
    (fun s => (venOf s slot).trains && rspRoom s .venLoad slot
      && ((venOf s slot).len = 0 || !rangeBad s (venOf s slot).addr (venOf s slot).len))
    fun s =>
      let v := venOf s slot
      let image := if v.len = 0 then [] else consumeBytes s v.addr v.len
      finish .venLoad slot .ok [⟨2, slot⟩] (modVen slot (fun v => { v with trains := false, factors := image })
        (if v.len = 0 then s else squareReads [(v.addr, v.len)] s))) ∧
  (∀ dt slot, Occurs (.veneerLoadDone dt slot) dt
    (fun s => (venOf s slot).state = .loading && !(venOf s slot).trains && rspRoom s .venLoad slot && (venOf s slot).len ≠ 0
      && !rangeBad s (venOf s slot).addr (venOf s slot).len)
    fun s =>
      let v := venOf s slot
      let u := modVen slot (fun x => { x with state := .live, replaces := false, factors := consumeBytes s v.addr v.len })
        (squareReads [(v.addr, v.len)] s)
      finish .venLoad slot .ok [⟨2, slot⟩] (if v.replaces then retireOld v.owner slot v.name u else u)) ∧
  (∀ dt slot, Occurs (.veneerLoadDone dt slot) dt (fun s => !rspRoom s .venLoad slot) fun s => s) ∧
  (∀ dt slot, Occurs (.veneerLoadDone dt slot) dt
    (fun s => ((venOf s slot).state = .loading || (venOf s slot).trains) && rspRoom s .venLoad slot && (venOf s slot).len ≠ 0 && rangeBad s (venOf s slot).addr (venOf s slot).len)
    fun s => finish .venLoad slot .faulted [⟨2, 0x4104⟩]
      (modVen slot (fun _ => {}) (consumeCount (venOf s slot).addr (venOf s slot).len s)))

/-- R21, R174, R340, R357, R373, R381, R391, R405, R416: a returned ring index, the end of a run and of a step, and the three occasions of a boundary. -/
def Obligations.ServingEventsAct : Prop :=
  (∀ dt n v c r, r.par.kind = 1 → Occurs (.reqRingConsWrite dt 0 n v false) dt
    (fun s => s.tray.linkUp && ringCtx s n = some c && !isConf s c && ringOf s c n = some r) (returnIndex c n (v % 2 ^ 32))) ∧
  (∀ dt c outs work p, p.kind ≠ .training → Occurs (.stepEnd dt c outs .ok work) dt
    (fun s =>
      let w := workDone c p work.att .ok (stepOver c p s)
      (serveOf s c).step = some p && p.fault.isNone && w.1 = .ok && !(stepHist p w.2).any fun a => rangeBad w.2 a.1 a.2)
    fun s =>
      let w := (workDone c p work.att .ok (stepOver c p s)).2
      let done := settleStep c p outs (modModel c p.model (fun m => { m with faultRun := 0 }) (squareReads (stepHist p w) w))
      let most := p.items.foldl (fun a i => max a ((reqOf done i.1).out.filter fun t => bitOf t.flags 4).length) 0
      if p.kind = .decode then
        modServe c (fun y => { y with waste := wastedSlots (p.items.foldl (fun a i => max a i.2) 0) most p.done }) done
      else done) ∧
  (∀ dt c outs work p id slot rest, p.kind = .training → p.items = (id, slot) :: rest → Occurs (.stepEnd dt c outs .ok work) dt
    (fun s => (serveOf s c).step = some p && p.fault.isNone && (workDone c p work.att .ok (stepOver c p s)).1 = .ok)
    fun s => finish .venTrain id .ok [] (modServe c (fun y => { y with training := y.training.filter fun t => t.1 ≠ id })
      (trainSlot slot work.update (modModel c p.model (fun m => { m with faultRun := 0 }) (workDone c p work.att .ok (stepOver c p s)).2)))) ∧
  (∀ dt c outs fate work p code addr, p.kind ≠ .training → Occurs (.stepEnd dt c outs fate work) dt
    (fun s => (serveOf s c).step = some p && (workDone c p work.att fate (stepOver c p s)).1 = .faulted code addr)
    fun s =>
      let w := (workDone c p work.att fate (stepOver c p s)).2
      stepFaults c (p.fault.getD code) addr p (if code = 0x4104 && p.fault.isNone && work.att.isEmpty then stepPoison c p addr w else w)) ∧
  (∀ dt c outs work p code, p.kind ≠ .training → p.fault = some code → Occurs (.stepEnd dt c outs .ok work) dt
    (fun s => (serveOf s c).step = some p && (workDone c p work.att .ok (stepOver c p s)).1 = .ok)
    fun s => stepFaults c code p.faultAddr p (workDone c p work.att .ok (stepOver c p s)).2) ∧
  (∀ dt c outs work p a, p.kind ≠ .training → p.fault = none → Occurs (.stepEnd dt c outs .ok work) dt
    (fun s =>
      let w := workDone c p work.att .ok (stepOver c p s)
      (serveOf s c).step = some p && w.1 = .ok && (stepHist p w.2).find? (fun a => rangeBad w.2 a.1 a.2) = some a)
    fun s =>
      let w := (workDone c p work.att .ok (stepOver c p s)).2
      stepFaults c 0x4104 a.1 p (squareReads (stepHist p w) w)) ∧
  (∀ dt c tails, Occurs (.stepBoundary dt c tails) dt (fun s => (serveOf s c).boundaryDue && boundaryFirst s c) (boundary c tails)) ∧
  (∀ dt c tails, Occurs (.stepBoundary dt c tails) dt (fun s => !(boundaryFirst s c)) fun s => s) ∧
  (∀ dt c tails, Occurs (.idleBoundaryTimer dt c tails) dt
    (fun s => hasLive s c && (serveOf s c).step.isNone && inTurn s c && (serveOf s c).boundaryNs + 1000000 ≤ now s) (boundary c tails)) ∧
  (∀ dt c tails, Occurs (.tableChangeBoundary dt c tails) dt
    (fun s => (serveOf s c).changed && (serveOf s c).step.isNone && inTurn s c) (boundary c tails)) ∧
  (∀ dt id r, Occurs (.runEnd dt id) dt (fun s => runOf s id = some r && (runOf (endRun id s) id).isNone)
    fun s => stepRunEnded r (endRun id s))
/-! ### The network (chapter 11) -/

/-- R432–R445, R454, R456, R467, R471, R473, R476, R478: the network commands. Port settings are staged with the holder of their PORT_GROUP
(log entry 20 says which instance a command names). -/
def Obligations.NetworkCommandsComplete : Prop :=
  (∀ h, Answers (.netGetState h) h { op := 0x0700, who := whoAll, reads := true } anyCall fun _ s a => a.s = s ∧ a.status = .ok) ∧
  (∀ h g mode, Serves (.netSetMode h g mode) h { op := 0x0701, who := who0Admin }
    (fun c s => g < 4 && mode < 4 && stageable (fidPort g) c s) fun _ s => ok (stagedIn (fidPort g) (.netMode mode) s)) ∧
  (∀ h g port p, Serves (.netSetPort h g port p) h { op := 0x0702, who := who0Admin }
    (fun c s => g ≤ 4 && port ≤ 32 && (p.maxData = 256 || p.maxData = 1024 || p.maxData = 4096) && p.len4 ≤ 32 && p.len6 ≤ 128
      && p.dscpCtl < 64 && p.dscpData < 64 && p.vlan.elim true (· < 4096) && stageable (fidPort g) c s)
    fun _ s => ok (stagedIn (fidPort g) (.netPort port p) s)) ∧
  (∀ h g a b, Serves (.netSetPlan h g a b) h { op := 0x0703, who := who0Admin } (fun c s => g < 4 && stageable (fidPort g) c s)
    fun _ s => ok (stagedIn (fidPort g) (.netPlan a b) s)) ∧
  (∀ h g port, Serves (.netSetUdpPort h g port) h { op := 0x0704, who := who0Admin }
    (fun c s => g < 4 && 1024 ≤ port && port < 49152 && stageable (fidPort g) c s)
    fun _ s => ok (stagedIn (fidPort g) (.netUdp port) s)) ∧
  (∀ h g port x k, Serves (.netAssign h g port x k) h { op := 0x0705, who := who0Admin }
    (fun c s => g < 4 && k < 65536 && stageable (fidPort g) c s) fun _ s => ok (stagedIn (fidPort g) (.netAssign port x k) s)) ∧
  (∀ h m, Serves (.netSetManager h m) h { op := 0x0706, who := who0Side } (fun _ s => flashUsable s && m ≤ 4094)
    fun _ s => ok (setLocal .manager m s)) ∧
  (∀ h m, Serves (.netSetSister h m) h { op := 0x0707, who := who0Admin } (fun c s => stageable (fidPort 4) c s)
    fun _ s => ok (stagedIn (fidPort 4) (.netSister m) s)) ∧
  (∀ h m addrs, Serves (.netPeerPin h m true addrs) h { op := 0x0708, who := who0Admin }
    (fun _ s => m ≤ 4094 && m ≠ moduleNo s && (peerOf s m).isNone && s.net.peers.length < 8192)
    fun _ s => ok { s with net := { s.net with peers := s.net.peers ++ [{ module := m, pinned := true, addrs := addrs }] } }) ∧
  (∀ h i, Serves (.netPeerGet h i) h { op := 0x0709, who := who0Side, reads := true } (fun _ _ => i < 8192)
    fun _ s => okData s ((List.range 8).map fun k => ⟨16, peerReg s (i + k)⟩)) ∧
  (∀ h c i, Serves (.netLaneGet h c i) h { op := 0x070A, who := who0Own, ctx := some c, conf := true, reads := true }
    (fun _ s => ctxDefined s c && i < 16384)
    fun _ s => okData s (((s.net.lanes.filter fun l => i ≤ l.1 && l.2.state ≠ .closed && !l.2.modlane && l.2.ctx = c).take 12).flatMap
      fun l => [⟨2, l.1⟩, ⟨16, laneReg s l.1⟩])) ∧
  (∀ h c l, Serves (.xltGrantSet h c l) h { op := 0x070B, who := who0Own, ctx := some c, conf := true }
    (fun _ s => ctxDefined s c && l.length ≤ 64 && l.all (fun p => p.1 ≤ 4094 && p.2 ≤ 15) && (!isConf s c || (ctxOf s c).plainNet))
    fun _ s => ok { s with net := { s.net with grants := tset s.net.grants c l } }) ∧
  (∀ h c n, Serves (.xltSetLaneDepth h c n) h { op := 0x070C, who := who0Own, ctx := some c, conf := true }
    (fun _ s => ctxDefined s c && 16 ≤ n && n ≤ 512)
    fun _ s => ok { s with net := { s.net with depths := tset s.net.depths c n } }) ∧
  (∀ h c g a, Serves (.xltCollSet h c g a) h { op := 0x070D, who := who0Own, ctx := some c, conf := true }
    (fun _ s => ctxDefined s c && g ≤ 31 && a % 8 = 0 && lotHas s c a 8 (fun e => lotWrite e && lotAtomic e && lotExport e))
    fun _ s => ok { s with net := { s.net with groups := tset s.net.groups (32 * c + g) (some ⟨a⟩) } }) ∧
  (∀ h m, Serves (.netUnquarantine h m) h { op := 0x070E, who := who0 } (fun _ s => (peerOf s m).isSome && peerQuarantined s m)
    fun _ s => ok (endPeerQuarantine m s))

/-- R436, R442, R444, R450, R454, R459–R461, R472, R473: frames without a message, ports that come UP or go DOWN, and the timers of ports,
lanes and peers. R436: a port that is UP answers an ARP request and a neighbour solicitation for its own address and an echo request, the last at
most 100 times in a second; the answer has the request's length (log entry 20). -/
def Obligations.NetworkEventsAct : Prop :=
  (∀ dt port k, Occurs (.frameDrop dt port k) dt (fun s => portState s port = .up) (dropFrame port)) ∧
  (∀ dt port src, Occurs (.xltMalformed dt port src) dt (fun s => (portTakes { blankMsg with port := port, srcM := src } s).1)
    fun s => dropMalformed src (portTakes { blankMsg with port := port, srcM := src } s).2) ∧
  (∀ dt, Occurs (.ptpDelayReq dt) dt (fun s => portState s 32 = .up && s.time.ptp.mode = .boundary && s.time.ptp.port ≠ 32)
    fun s => modPort 32 (fun p => { p with rxFrames := wrapAdd 64 p.rxFrames 1, txFrames := wrapAdd 64 p.txFrames 1 })
      { s with time := { s.time with delayResps := s.time.delayResps + 1 } }) ∧
  (∀ dt, Occurs (.ptpMasterSyncTimer dt) dt
    (fun s => s.time.ptp.mode = .boundary && s.time.ptp.port ≠ 32 && portState s 32 = .up && s.net.sisterSync + 125000000 ≤ now s)
    fun s => modPort 32 (fun p => { p with txFrames := wrapAdd 64 p.txFrames 2 })
      { s with time := { s.time with masterSyncs := s.time.masterSyncs + 1 }, net := { s.net with sisterSync := now s } }) ∧
  (∀ dt port, Occurs (.portUp dt port) dt (fun s => portState s port = .down)
    fun s => announceUp port (modPort port (fun p => { p with up := true }) s)) ∧
  (∀ dt port, Occurs (.portDown dt port) dt (fun s => portState s port = .up)
    fun s => moveLanes port (modPort port (fun p => { p with up := false }) s)) ∧
  (∀ dt, Occurs (.announceTimer dt) dt (fun s => s.net.lastAnnounce + 10000000000 ≤ now s)
    fun s => s.net.peers.foldl (fun s p =>
      if (lanesTo s p.module).isEmpty then s else (portTo s p.module).elim s fun q => sendAnnounceTo q p.module s)
      { s with net := { s.net with lastAnnounce := now s } }) ∧
  (∀ dt n e, Occurs (.ackDelayTimer dt n) dt (fun s => (laneOf s n).ackDue = some e && e ≤ now s && (laneOf s n).state = .up)
    (sendAck n)) ∧
  (∀ dt n e, Occurs (.retransmitTimeout dt n) dt
    (fun s => (laneOf s n).deadline = some e && e ≤ now s && (laneOf s n).state = .up && (laneOf s n).retries < 7)
    fun s => resendLane n (modLane n (fun l => { l with retries := l.retries + 1 }) s)) ∧
  (∀ dt n, Occurs (.laneProbeTimer dt n) dt (fun s => (laneOf s n).state = .down && (laneOf s n).probeAt ≤ now s)
    fun s =>
      let l := laneOf s n
      transmit ⟨0x02, l.peer, { blankMsg with op := 1, port := l.port, srcC := l.ctx, dstC := l.peerCtx, lane := l.theirs }⟩
        (modLane n (fun l => { l with probeAt := now s + 100000000 }) s)) ∧
  (∀ dt m p e, Occurs (.peerQuarantineExpiry dt m) dt
    (fun s => peerOf s m = some p && p.quarantineEnd = some e && e ≤ now s) (endPeerQuarantine m)) ∧
  (∀ dt port len target sender, Occurs (.arpRequest dt port len target sender) dt
    (fun s => portState s port = .up && (portOf s port).cfg.ip4 ≠ 0 && (portOf s port).cfg.ip4 = target)
    fun s => answerFrame port len sender (.arp target (portMac s port)) (takeFrame_ port len s)) ∧
  (∀ dt port len target sender, Occurs (.neighborSolicitation dt port len target sender true) dt
    (fun s => portState s port = .up && (portOf s port).cfg.ip6 ≠ 0 && (portOf s port).cfg.ip6 = target)
    fun s => answerFrame port len sender (.neighbor target (portMac s port)) (takeFrame_ port len s)) ∧
  (∀ dt port len target sender data, Reaches (.echoRequest dt port len false target sender data) dt
    (fun s => portState s port = .up && (portOf s port).cfg.ip4 ≠ 0 && (portOf s port).cfg.ip4 = target
      && ((portOf s port).echoTimes.filter fun t => now s < t + 1000000000).length < 100)
    fun s t => t.net.answers = (port, sender, .echo data) :: s.net.answers ∧
      (portOf t port).rxFrames = wrapAdd 64 (portOf s port).rxFrames 1 ∧ (portOf t port).txBytes = wrapAdd 64 (portOf s port).txBytes len)

/-- R448, R451–R455, R459, R461, R470: the messages of the module class, once taken: HELLO, PROBE and NAK. -/
def Obligations.ModuleMessagesAct : Prop :=
  (∀ dt m p, Occurs (.helloAnnounce dt m p) dt (helloTaken m p) (helloState m p)) ∧
  (∀ dt m p n, Occurs (.helloOpen dt m p) dt
    (fun s => helloTaken m p s && findLane (helloState m p s) (if m.modlane then 0 else m.dstC) m.srcM (if m.modlane then 0 else m.srcC)
      m.port m.modlane = some n)
    fun s => sendOpenAck n (laneUp n m.operand m.credit (helloState m p s))) ∧
  (∀ dt m, Occurs (.helloOpenAck dt m) dt
    (fun s => msgTaken (noAck m) s && (laneOf (moduleState (noAck m) s) m.lane).peer = m.srcM && (laneOf (moduleState (noAck m) s) m.lane).state = .opening)
    fun s => laneUp m.lane m.operand m.credit (moduleState (noAck m) s)) ∧
  (∀ dt m, Occurs (.helloClose dt m) dt
    (fun s => msgTaken (noAck m) s && (laneOf (moduleState (noAck m) s) m.lane).peer = m.srcM && (laneOf (moduleState (noAck m) s) m.lane).state ≠ .closed)
    fun s => closeLane m.lane 0x6121 (moduleState (noAck m) s)) ∧
  (∀ dt m, Occurs (.probeAck dt m) dt (msgTaken m) (msgAcked m)) ∧
  (∀ dt m, Occurs (.probeEchoReq dt m) dt (msgTaken m)
    fun s => transmit ⟨0x02, m.srcM, { blankMsg with op := 2, port := m.port, srcC := m.dstC, dstC := m.srcC, tag := m.tag }⟩ (msgAcked m s)) ∧
  (∀ dt m, Occurs (.probeEchoResp dt m) dt (msgTaken m)
    fun s => ((msgAcked m s).net.lanes.filter fun l => l.2.state = .down && l.2.peer = m.srcM).foldl (fun s l => reopenLane l.1 s)
      (msgAcked m s)) ∧
  (∀ dt m, Occurs (.nak dt m) dt (msgTaken (noAck m)) fun s => takeNak m (moduleState (noAck m) s))

/-- R44, R47–R49, R459, R464, R466–R468: a lane message that comes with the number its lane expects has its effect, and is acknowledged; a
write that a grant and a lot allow stores its bytes at the address it names. -/
def Obligations.LaneMessagesAct : Prop :=
  (∀ dt m, m.modlane = false → Occurs (.dataWrite dt m) dt
    (fun s => laneTaken m .aligned true s && (remoteAllowed m (laneNext m s)).1.isNone
      && lotPasses (laneNext m s) m.dstC m.addr m.length .w true)
    fun s => acknowledge m.lane m.ackNow (writeBytes m.addr m.data m.chks
      (touchYard (.edge .net) m.addr m.length (if m.bulk then .bulk else .request) .write (laneNext m s)))) ∧
  (∀ dt m, Occurs (.dataRead dt m) dt
    (fun s => laneTaken m .none false s && (remoteAllowed m (laneNext m s)).1.isNone
      && lotPasses (laneNext m s) m.dstC m.addr m.length .r true)
    fun s =>
      let u := touchYard (.edge .net) m.addr m.length (if m.bulk then .bulk else .request) .read (laneNext m s)
      acknowledge m.lane m.ackNow (respond m (carryBytes u m.addr m.length).1 (carryBytes u m.addr m.length).2 u)) ∧
  (∀ dt m, Occurs (.readResp dt m) dt (laneTaken m .none true) fun s => laneDone m (effectResp m (laneNext m s))) ∧
  (∀ dt m, m.op ≤ 6 → (if m.op = 2 then m.length = 8 else m.length = 0) → Occurs (.atomic dt m) dt (laneTaken m .none true)
    fun s => laneDone m (effectAtomic m (laneNext m s))) ∧
  (∀ dt m, m.op % 8 ≤ 4 → Occurs (.collective dt m) dt (laneTaken m .aligned true)
    fun s => laneDone m (effectCollective m (laneNext m s))) ∧
  (∀ dt m, m.modlane = true → m.length % 64 = 0 → 1 ≤ m.length / 64 → m.length / 64 ≤ 4 → 17 ≤ m.addr % 256 → m.addr % 256 ≤ 24 →
    Occurs (.control dt m) dt
      (fun s => laneTaken m .none true s && ((mbxOf (laneNext m s) (m.addr % 256)).binding.elim false fun b => b.peer = m.srcM)
        && !quarantined (laneNext m s) (m.addr % 256) && !resetting (laneNext m s) (m.addr % 256))
      fun s => acknowledge m.lane m.ackNow (takeEntries (m.addr % 256) (m.data.take (64 * (m.length / 64))) (laneNext m s)))

/-- R418, R419, R469: the messages and limits of a shipment. -/
def Obligations.ShipmentsAct : Prop :=
  (∀ dt m p x h, Occurs (.pageShipAnnounce dt m p) dt
    (fun s => msgTaken (noAck m) s && waitingFor (moduleState (noAck m) s) m = some x && shipOf (moduleState (noAck m) s) x = some h && h.accepted)
    fun s => sendAccept m (reqOf (moduleState (noAck m) s) x).ctx (moduleState (noAck m) s)) ∧
  (∀ dt m p x q u, Reaches (.pageShipAnnounce dt m p) dt
    (fun s =>
      let v := moduleState (noAck m) s
      let r := reqOf v x
      msgTaken (noAck m) s && waitingFor v m = some x && (shipOf v x).isNone && modelOf v r.ctx r.model = some q
        && p.d = q.att.d && p.hb = q.att.hb && p.fmt = q.att.fmt && p.layers = q.att.layers
        && securePages r.ctx x (r.promptLen + 1) .inTransit 2048 v = some u)
    fun _ t => ∃ h, h ∈ t.net.ships ∧ h.req = x ∧ h.sender = false ∧ h.accepted = true ∧ h.pages = p.pages
      ∧ h.moved = (reqOf u x).list.length) ∧
  (∀ dt m h, Occurs (.pageShipAccept dt m) dt
    (fun s => msgTaken (noAck m) s
      && ((moduleState (noAck m) s).net.ships.find? fun h => h.sender && h.peer = m.srcM && h.shipId = m.operand && !h.accepted) = some h)
    fun s => acceptShip m h (moduleState (noAck m) s)) ∧
  (∀ dt m, Occurs (.pageShipPage dt m) dt (laneTaken m .words true) fun s => laneDone m (effectPage m (laneNext m s))) ∧
  (∀ dt m, Occurs (.pageShipScales dt m) dt (laneTaken m .words true) fun s => laneDone m (effectScales m (laneNext m s))) ∧
  (∀ dt m, Occurs (.pageShipDoneAck dt m) dt (laneTaken m .none false) fun s => laneDone m (effectDoneAck m (laneNext m s))) ∧
  (∀ dt x h, Occurs (.shipAnnounceResend dt x) dt
    (fun s => shipOf s x = some h && h.sender && !h.accepted && h.lastResend + 1000000 ≤ now s && now s < h.announcedAt + 100000000)
    fun s => sendAnnounce (reqOf s x).ctx x s) ∧
  (∀ dt x h, Occurs (.shipPageTimeout dt x) dt
    (fun s => shipOf s x = some h && !h.sender && h.total < h.pages && h.lastPage + 100000000 ≤ now s)
    fun s => noteChange (reqOf s x).ctx (failShip x true s)) ∧
  (∀ dt x h e, Occurs (.shipAckTimeout dt x) dt
    (fun s => shipOf s x = some h && h.sender && !pagesWait s h && h.sentAll = some e && e + 250000000 ≤ now s)
    fun s => noteChange (reqOf s x).ctx (failShip x true s))

/-! ### The video engine (chapter 12) -/

/-- R486, R488, R494, R495, R510, R515, R516, R522–R524: the video commands. -/
def Obligations.VideoCommandsComplete : Prop :=
  (∀ h p q, Serves (.vidDecOpen h p) h { op := 0x0800, who := who0Own }
    (fun c s => mayActFor s c.mb p.ctx && (!isConf s p.ctx || speaksFor s c.mb p.ctx) && (decOf s p.session).isNone && decFieldsOk p
      && decLotsOk s p && pickPipe s p.pipe 0 4 = some q && pipeTakes s q (p.maxW * p.maxH * p.rate))
    fun _ s => okData
      (releaseWord { s with vid := { s.vid with dec := tset s.vid.dec p.session (some { base := { ctx := p.ctx, pipe := q }, par := p }) } })
      [⟨8, outStride p.maxW p.maxH p.maxDepth⟩, ⟨8, 32 * refStride p.maxW p.maxH p.maxDepth⟩]) ∧
  (∀ h p q, Serves (.vidEncOpen h p) h { op := 0x0801, who := who0Own }
    (fun c s => mayActFor s c.mb p.ctx && (!isConf s p.ctx || speaksFor s c.mb p.ctx) && (encOf s p.session).isNone && encFieldsOk p
      && encLotsOk s p && pickPipe s p.pipe 4 2 = some q && pipeTakes s q (p.width * p.height * p.rate))
    fun _ s => if p.rc.cap < p.rc.window * minPicture p || p.slotBytes < p.rc.cap then noData s .badArg [⟨2, 0x85⟩] else okData
      (releaseWord { s with vid := { s.vid with enc := tset s.vid.enc p.session (some { base := { ctx := p.ctx, pipe := q }, par := p }) } })
      [⟨8, 0⟩, ⟨8, 32 * refStride p.width p.height p.depth⟩, ⟨4, headerMax p⟩, ⟨4, skipSize p⟩, ⟨4, minPicture p⟩]) ∧
  (∀ h enc i drain b s c s', Taken h { op := 0x0802, who := who0Own, ctx := vidCtx s enc i, conf := true } s c s' →
    i < (if enc then 32 else 128) → vidBase s' enc i = some b → b.closing = false →
    exec (.vidClose h enc i drain) s = .next (finishClosing enc i (answered c
      (accepted (modVid enc i (fun b => { b with closing := true, drain := drain }) s') .vidClose (vidWork enc i))))) ∧
  (∀ h i rc x s c s', Taken h { op := 0x0803, who := who0Own, ctx := vidCtx s true i, conf := true } s c s' →
    i < 32 → encOf s' i = some x → quantOk x.par.codec x.par.depth rc = true →
    exec (.vidEncSetRc h i rc) s = .next (answered c
      (if rc.cap < rc.window * minPicture x.par || x.par.slotBytes < rc.cap then no s' .badArg
        else ok (modEnc i (fun x => { x with nextRc := some rc }) s')))) ∧
  (∀ h i x s c s', Taken h { op := 0x0804, who := who0Own, ctx := vidCtx s true i, conf := true } s c s' →
    i < 32 → encOf s' i = some x →
    exec (.vidEncForceKey h i) s = .next (answered c (ok (modEnc i (fun x => { x with forceKey := true }) s')))) ∧
  (∀ h enc i s c s', Taken h { op := 0x0805, who := who0Own, ctx := vidCtx s enc i, conf := true, reads := true } s c s' →
    i < (if enc then 32 else 128) →
    exec (.vidGet h enc i) s = .next (answered c (match vidBase s' enc i with
      | none => okData s' [⟨1, 0⟩, ⟨1, 0⟩]
      | some b => okData s' ([⟨1, vidState s' (some b)⟩, ⟨1, b.pipe⟩, ⟨4, b.pictures⟩, ⟨2, b.limited⟩, ⟨2, b.skipped⟩, ⟨2, b.badIndex⟩]
          ++ b.lastRecord))))

/-- R487, R489, R490, R492, R502, R505–R509, R513: what happens in a session and to a video core. -/
def Obligations.VideoEventsAct : Prop :=
  (∀ dt enc i b, Occurs (.inputPoll dt enc i) dt
    (fun s => vidBase s enc i = some b && !b.faulted && !b.closing && !b.busy) fun s => tryStart enc i (readIndices enc i s)) ∧
  (∀ dt i d last x, Occurs (.pictureComplete dt i (.picture d last)) dt
    (fun s => decOf s i = some x && x.base.busy && !x.base.faulted
      && lotPasses s x.base.ctx (fieldAt (entryOf s false i) 0 8) (fieldAt (entryOf s false i) 8 4) .r false
      && pictureFits x.par d.pic.w d.pic.h d.pic.depth && (!d.shown || !x.par.wait || bufferFree s i x))
    (pictureDone i x d last)) ∧
  (∀ dt i x, Occurs (.pictureComplete dt i .syntaxError) dt
    (fun s => decOf s i = some x && x.base.busy && !x.base.faulted
      && lotPasses s x.base.ctx (fieldAt (entryOf s false i) 0 8) (fieldAt (entryOf s false i) 8 4) .r false)
    (dropAu i 1 4 0x7104 1)) ∧
  (∀ dt i x, Occurs (.workBoundReached dt i) dt (fun s => decOf s i = some x && x.base.busy && !x.bound)
    fun s => record 0x7102 2 (0x5000 + x.base.pipe) (some x.base.ctx) true [⟨1, i⟩] (modDec i (fun x => { x with bound := true }) s)) ∧
  (∀ dt i header rows bad x, Occurs (.encodePictureDone dt i header rows bad) dt
    (fun s => encOf s i = some x && x.base.busy && !x.base.faulted
      && lotPasses s x.base.ctx (fieldAt (entryOf s true i) 0 8) (encInput x.par) .r false
      && !rangeBad s (fieldAt (entryOf s true i) 0 8) (encInput x.par) && !bad)
    (encodeDone i x header rows)) ∧
  (∀ dt i x, Occurs (.parseWatchdog dt i) dt (fun s => decOf s i = some x && x.base.busy) (dropAu i 1 4 0x7104 1)) ∧
  (∀ dt core, Occurs (.videoCoreUnresponsive dt core none) dt (fun s => s.vid.coreUp.getD core false)
    fun s => record 0x7301 2 0x5000 none false [⟨1, core⟩] { s with vid := { s.vid with coreUp := s.vid.coreUp.set core false } }) ∧
  (∀ dt core, core < 2 → Occurs (.videoCoreRestartDone dt core) dt always
    fun s => { s with vid := { s.vid with coreUp := s.vid.coreUp.set core true } })

/-- R513: with a budget that holds the headers and a skip row for every row, a picture's bytes never exceed its budget, whatever its
rows would take; and a picture whose rows all fit keeps them as they were coded at the session's quantiser. -/
def Obligations.PictureStaysInBudget : Prop :=
  (∀ p sizes header rows, (header.take (headerMax p)).length + skipSize p * ctbRows p ≤ pictureBudget p sizes →
    (codePicture p sizes header rows).bytes.length ≤ pictureBudget p sizes) ∧
  (∀ p sizes header rows, rows.length = ctbRows p → header.length ≤ headerMax p →
    header.length + sumOf (fun r => r.normal.length) rows + skipSize p * ctbRows p ≤ pictureBudget p sizes →
    (codePicture p sizes header rows).bytes = header ++ rows.flatMap (·.normal) ∧ (codePicture p sizes header rows).mode = .normal)

/-! ### Power, pace and cooling (chapter 13) -/

/-- R535, R546, R548, R551, R561, R566, R587, R588, R590, R603: the power commands. -/
def Obligations.PowerCommandsComplete : Prop :=
  (∀ h, Answers (.pwrGetState h) h { op := 0x0900, who := whoAll, reads := true } anyCall fun _ s a => a.s = s ∧ a.status = .ok) ∧
  (∀ h w, Serves (.pwrSetLocalCap h w) h { op := 0x0901, who := who0Side } (fun _ s => flashUsable s && 200 ≤ w && w ≤ 750)
    fun _ s => ok (lowerLimit (setLocal .localCap w s))) ∧
  (∀ h w, Serves (.pwrSetLoneCap h w) h { op := 0x0902, who := who0Side } (fun _ s => flashUsable s && 200 ≤ w && w ≤ 750)
    fun _ s => ok (lowerLimit (setLocal .loneCap w s))) ∧
  (∀ h w, Serves (.pwrCabCap h w) h { op := 0x0903, who := who0Side } anyCall fun _ s => ok (reporting (capHeartbeat w) s)) ∧
  (∀ h l, Serves (.pwrSetCeiling h l) h { op := 0x0904, who := who0Side } (fun _ s => flashUsable s && l ≤ 31)
    fun _ s => ok (setLocal .ceiling l s)) ∧
  (∀ h m, Serves (.pwrSetDroop h m) h { op := 0x0905, who := who0Side } (stageable fidPower)
    fun _ s => ok (stagedIn fidPower (.pwrDroop m) s)) ∧
  (∀ h l, Serves (.pwrSetConfLevels h l) h { op := 0x0906, who := who0Side } (stageable fidPower)
    fun _ s => ok (stagedIn fidPower (.pwrConf (l.take 4)) s)) ∧
  (∀ h, Serves (.pwrResume h) h { op := 0x0907, who := who0Side } (fun _ s => 5 ≤ aboveSeconds s && s.pwr.cool.stop)
    fun _ s => ok (reporting (fun s => clearAlert .coolantStop (record 0x8404 1 0x8000 none false []
      (foldN 63 (softOpen true) (resumeFabric (modCool (fun c => { c with stop := false }) s))))) s)) ∧
  (∀ h, Serves (.pwrClearLeak h) h { op := 0x0908, who := who0Side } (fun _ s => !s.pwr.cool.moist)
    fun _ s => ok (reporting (fun s => clearAlert .leak (modCool (fun c => { c with leak := false }) s)) s)) ∧
  (∀ h cfg, Serves (.paceGroupSet h cfg) h { op := 0x0910, who := who0Side } (stageable fidPace)
    fun _ s => ok (stagedIn fidPace (.paceGroup cfg) s)) ∧
  (∀ h, Answers (.paceGroupGet h) h { op := 0x0911, who := whoAll, reads := true } anyCall fun _ s a => a.s = s ∧ a.status = .ok) ∧
  (∀ h, Answers (.pwrGetEnergy h) h { op := 0x0912, who := whoAll, reads := true } anyCall fun c s a =>
    a.s = s ∧ a.status = .ok ∧ ∀ k, viewerOf s c.mb = some k → a.data = (energyRegs s (some k) k).map fun n => ⟨8, n⟩)

/-- R536–R541, R544, R547, R550, R554, R556–R563, R593, R597–R602, R746: the power and pace loops and the input's timers. -/
def Obligations.PowerLoopsAct : Prop :=
  (∀ dt x, Occurs (.inputSample dt x) dt (fun _ => x.reaches && 44000 ≤ x.mv && x.mv ≤ 60000 && x.bank < x.mv + 2000)
    fun s => tryBoot (endBoot { endLoss (takeSample x s) with tray := { (endLoss (takeSample x s)).tray with inputGood := true } })) ∧
  (∀ dt x, Occurs (.inputSample dt x) dt (fun _ => !x.reaches && 44000 ≤ x.mv && x.mv ≤ 60000 && x.bank < x.mv + 2000)
    fun s => tryBoot (endBoot { modInput (fun i => { i with shut := 0 }) s with tray := { s.tray with inputGood := true } })) ∧
  (∀ dt t e, Occurs (.supplyRecovered dt) dt
    (fun s => s.pwr.input.halt = some t && s.pwr.input.goodSince = some e && e + 1000000000 ≤ now s)
    (reporting fun s =>
      clearAlert .supplyHalt (record 0x8502 1 0x8000 none false [] (resumeFabric (modInput (fun i => { i with halt := none }) s))))) ∧
  (∀ dt t, Occurs (.supplyHalt100ms dt) dt
    (fun s => s.pwr.input.halt = some t && !s.pwr.input.released && t + 100000000 ≤ now s)
    fun s => releaseAll (modInput (fun i => { i with released := true }) s)) ∧
  (∀ dt, Occurs (.measurementLoss dt) dt (fun s => !s.pwr.input.lost && s.pwr.input.sampleAt + 10000000 ≤ now s)
    fun s => record 0xB120 2 0x8000 none false [] (raiseAlert .measurement (modInput (fun i => { i with lost := true }) s))) ∧
  (∀ dt d, Occurs (.estimatorTick dt d) dt fabricOn
    (modPace fun p => { p with dyn := (d :: p.dyn).take 1000, periodD := p.periodD + d })) ∧
  (∀ dt, Occurs (.powerLoopTick dt) dt (fun s => fabricOn s && (loopStart s).pwr.pace.fell) fun s => setUniform false (loopStart s)) ∧
  (∀ dt, Occurs (.powerLoopTick dt) dt
    (fun s =>
      let t := loopStart s
      fabricOn s && !t.pwr.pace.fell && !powerHeld t && !confMode t && peakOf t < pEstAvg t && t.pwr.pace.uniform.isNone)
    fun s => setUniform true (loopStart s)) ∧
  (∀ dt, Occurs (.powerLoopTick dt) dt
    (fun s =>
      let t := loopStart s
      fabricOn s && !t.pwr.pace.fell && !powerHeld t && (confMode t || pEstAvg t ≤ peakOf t || t.pwr.pace.uniform.isSome))
    fun s => liftUniform (loopStart s)) ∧
  (∀ dt, Occurs (.paceTick dt) dt
    (fun s => fabricOn s && !(droopCheck (renewLimit s)).pwr.cool.stop && !supplyHalted (droopCheck (renewLimit s))
      && !paceHeld (droopCheck (renewLimit s)) && !confMode (droopCheck (renewLimit s)))
    fun s => lagBehind (moveTarget (wantedLevel (droopCheck (renewLimit s))) 4 (droopCheck (renewLimit s)))) ∧
  (∀ dt, Occurs (.railLevelStep dt) dt
    (fun s => fabricOn s && s.pwr.pace.level ≠ s.pwr.pace.target && s.pwr.pace.stepAt + 1000 ≤ now s)
    fun s => modPace (fun p => { p with
      level := if p.level < p.target then p.level + 1 else p.level - 1, stepAt := now s, ramped := true }) s) ∧
  (∀ dt r, Occurs (.paceMeterInterval dt r) dt always (modPace fun p => { p with
    rate := r % 2 ^ 32, rateLevel := p.level, rateRamp := p.ramped, ramped := decide (p.level ≠ p.target) })) ∧
  (∀ dt, Occurs (.deferredPaceIncrease dt) dt
    (fun s => s.pwr.pace.deferred && !droopRecent s && !paceHeld s && !confMode s && s.pwr.pace.target < (wantedLevel s).1)
    fun s => modPace (fun p => { p with limiter := (wantedLevel s).2, deferred := false })
      (setTarget (min (wantedLevel s).1 (s.pwr.pace.target + 4)) s)) ∧
  (∀ dt l t, Occurs (.droopCeilingExpiry dt) dt (fun s => s.pwr.pace.droopCeil = some (l, t) && t ≤ now s)
    (modPace fun p => { p with droopCeil := none })) ∧
  (∀ dt, Occurs (.calibrationFit dt) dt
    (fun s => fabricOn s && (powerHeld s || s.pwr.pace.periods.length < 199))
    (modPace fun p => { p with periods := ((p.periodE, p.periodD) :: p.periods).take 200, periodE := 0, periodD := 0 })) ∧
  (∀ dt shares rest, Reaches (.attributionPeriod dt shares rest) dt always fun s t =>
    t.pwr.input.fine = s.pwr.input.fine % 100000 ∧ t.pwr.input.energy = s.pwr.input.energy + s.pwr.input.fine / 100000) ∧
  (∀ dt s, s.time.t / 100000000 < (advance dt s).time.t / 100000000 → confMode (advance dt s) = false →
    exec (.confEpoch dt) s = .next (modInput (fun i => { i with
      shown := (advance dt s).sec.ctxs.foldl (fun t x =>
        if x.2.confidential then tset t x.1 (((tget (advance dt s).pwr.input.ctxEnergy x.1 []).foldl (· + ·) 0) % 2 ^ 64) else t)
        (advance dt s).pwr.input.shown }) (advance dt s))) ∧
  (∀ dt, Occurs (.capHeartbeatTimeout dt) dt
    (fun s => !s.pwr.pace.lone && !s.pwr.pace.hbHold && s.pwr.pace.hbAt + 500000000 ≤ now s)
    fun s => recordSq 0x8111 1 [] (modPace (fun p => { p with hbHold := true }) s)) ∧
  (∀ dt, Occurs (.loneCapTimeout dt) dt
    (fun s => !s.pwr.pace.lone && s.pwr.pace.hbHold && s.pwr.pace.hbAt + 60500000000 ≤ now s)
    fun s => recordSq 0x8112 1 [] (reporting (fun s => lowerLimit (modPace (fun p => { p with lone := true }) s)) s)) ∧
  (∀ dt, Occurs (.reportTimer dt) dt always sendReport) ∧
  (∀ dt b v, Occurs (.droopDetect dt b v) dt (fun s => fabricOn s && b < 252 && droopFires s v)
    fun s => applyBlock (blockOf b) (modHeat (blockOf b) (fun h => { h with fired := some (now s), shut := some (h.shut.getD (now s)) })
      (modPace (fun p => { p with droopEvents := satAdd 64 p.droopEvents 1 }) s))) ∧
  (∀ dt k t f, Occurs (.droopGateRelease dt k) dt
    (fun s => (heatOf s k).shut = some t && (heatOf s k).fired = some f && f + 50 ≤ now s)
    fun s => softOpen false k (applyBlock k (modHeat k (fun h => { h with shut := none, shutNs := h.shutNs + (now s - t) }) s)))

/-- R574–R590: what the sensors of the die, the coolant and the leak sensor cause. -/
def Obligations.CoolingEventsAct : Prop :=
  (∀ dt x, Occurs (.thermalSample dt x) dt (fun s => fabricOn s && x.block < 63 && x.a < 500 && x.b < 500) (reporting (heatSample x))) ∧
  (∀ dt x, Occurs (.thermalSample dt x) dt (fun s => fabricOn s && x.block < 63 && (500 ≤ x.a || 500 ≤ x.b))
    fun s => thermTrip (reporting (heatSample x) s)) ∧
  (∀ dt k t, Occurs (.blockHalt1s dt k) dt
    (fun s => (heatOf s k).halted = some t && !(heatOf s k).told && t + 1000000000 ≤ now s)
    fun s => notify 4 0x8302 0x8000 (modHeat k (fun h => { h with told := true }) s)) ∧
  (∀ dt k t, Occurs (.suspectClear dt k false) dt (fun s => (heatOf s k).okA = some t && t + 1000000000 ≤ now s)
    (modHeat k fun h => { h with suspectA := false })) ∧
  (∀ dt k t, Occurs (.suspectClear dt k true) dt (fun s => (heatOf s k).okB = some t && t + 1000000000 ≤ now s)
    (modHeat k fun h => { h with suspectB := false })) ∧
  (∀ dt r t, Occurs (.inletSettled dt) dt (fun s => s.pwr.cool.inletAt = some (r, t) && t + 1000000000 ≤ now s)
    (modCool fun c => { c with settled := true })) ∧
  (∀ dt r, Occurs (.thermTrip dt r) dt (fun s => fabricOn s && 500 ≤ r && !s.tray.thermTrip)
    fun s => raiseAlert .thermTrip (record 0x8320 3 0x8000 none false [] (overrides { s with tray := { s.tray with thermTrip := true } }))) ∧
  (∀ dt x, Occurs (.flowTick dt x) dt fabricOn
    (reporting fun s =>
      let t := lowerLimit (inletRanges (flowRanges (takeFlows x s)))
      if flowFails x t then coolantStop t else t)) ∧
  (∀ dt t, Occurs (.flowsDisagree dt) dt
    (fun s => s.pwr.cool.apart = some t && !s.pwr.cool.disagree && t + 1000000000 ≤ now s)
    fun s => record 0x8405 1 0x8000 none false [] (modCool (fun c => { c with disagree := true, used := min c.qdp c.qheat }) s)) ∧
  (∀ dt t, Occurs (.flowRangeRecovered dt) dt
    (fun s => !s.pwr.cool.flowCritical && s.pwr.cool.flowLow && s.pwr.cool.lowOver = some t && t + 1000000000 ≤ now s)
    (reporting (modCool fun c => { c with flowLow := false }))) ∧
  (∀ dt, Occurs (.leakDetected dt) dt (fun s => !s.pwr.cool.leak)
    (reporting fun s => lowerLimit (raiseAlert .leak (record 0x8408 2 0x8000 none false []
      (modCool (fun c => { c with leak := true }) (modCool (fun c => { c with moist := true }) s))))))

/-- R546, R549, R550, R565–R573: the cap heartbeat of a manager and the messages and timers of the pace group. -/
def Obligations.PaceGroupActs : Prop :=
  (∀ dt m, m.op = 0 → m.operand < 2 ^ 48 → Occurs (.capSet dt m) dt
    (fun s => msgTaken m s && (msgAcked m s).nv.manager = some m.srcM)
    fun s => sendReport (capHeartbeat (m.operand % 65536)
      (modPace (fun p => { p with lastSet := m.operand / 65536 % 2 ^ 32 }) (msgAcked m s)))) ∧
  (∀ dt m g, m.op = 0 → bitsOf m.operand 15 12 = 0 → Occurs (.paceBeacon dt m) dt
    (fun s =>
      let u := msgAcked m s
      msgTaken m s && u.pwr.pace.group = some g && (others u g).contains m.srcM && m.addr % 2 ^ 32 = g.cfg.id
        && m.addr / 2 ^ 32 = groupDigest g.cfg)
    fun s =>
      let u := msgAcked m s
      let old := memberOf g m.srcM
      endMismatch (groupCompute (groupAgree (modPaceGroup (fun g => { g with
        members := tset g.members m.srcM
          { at_ := now u, heard := true, allowed := bitsOf m.operand 4 0, level := bitsOf m.operand 9 5, limited := bitOf m.operand 10
            agreed := bitOf m.operand 11, need := bitsOf m.operand 31 16, spare := bitsOf m.operand 47 32
            epoch := bitsOf m.operand 63 48, okSince := if old.bad || !old.heard then now u else old.okSince } }) u)))) ∧
  (∀ dt m g, m.op = 0 → m.operand < 2 ^ 8 → bitsOf m.operand 7 5 ≤ 4 → Reaches (.lagNotice dt m) dt
    (fun s =>
      let u := msgAcked m s
      msgTaken m s && u.pwr.pace.group = some g && (others u g).contains m.srcM && m.addr % 2 ^ 32 = g.cfg.id
        && m.addr / 2 ^ 32 = groupDigest g.cfg && !confMode u && !paceHeld u && !groupAlone u g && bitsOf m.operand 4 0 < u.pwr.pace.target)
    fun _ t => t.pwr.pace.target = bitsOf m.operand 4 0 ∧ t.pwr.pace.limiter = 2 ∧ t.pwr.pace.deferred = false) ∧
  (∀ dt g, Occurs (.beaconTimer dt) dt
    (fun s => s.pwr.pace.group = some g && !g.giveBack && g.beaconAt + g.cfg.interval * 1000000 ≤ now s)
    fun s => sendBeacons g (modPaceGroup (fun g => { g with
      beaconAt := now s, lent := if g.giveBack then 0 else g.lent, giveBack := false }) s)) ∧
  (∀ dt x g, Occurs (.memberStale dt x) dt
    (fun s => s.pwr.pace.group = some g && (others s g).contains x && !(memberOf g x).out
      && (memberOf g x).at_ + 10 * g.cfg.interval * 1000000 ≤ now s)
    fun s => groupCompute (recordSq 0x8601 1 [⟨2, x⟩]
      (modPaceGroup (fun g => { g with members := tmod g.members x {} fun y => { y with out := true } }) s)))

/-! ### Contexts, lots, keys and attestation (chapter 14) -/

/-- R40–R42, R611, R613, R616, R618, R623, R641, R645, R648–R650: the commands of contexts, lots and keys. -/
def Obligations.ContextCommandsComplete : Prop :=
  (∀ h c flags, c < 16 → flags < 16 → Serves (.ctxCreate h c flags) h { op := 0x0300, who := who0Admin, ctx := some c }
    (fun _ s => s.boot.phase ≠ .booting && !ctxDefined s c)
    fun k s => ok { s with
      sec := { s.sec with ctxs := tset s.sec.ctxs c (newContext flags s.sec.keyGen), keyGen := s.sec.keyGen + 2 }
      sq := { s.sq with funcs := tset s.sq.funcs (fidContext c) { state := .stopped, holder := some k.mb } } }) ∧
  (∀ h c s k s', Taken h { op := 0x0301, who := who0Admin, ctx := some c } s k s' → ctxDefined s' c = true →
    (ctxOf s' c).state ≠ .destroying →
    exec (.ctxDestroy h c) s = .next (destroyProgress c (answered k (accepted (destroyCtx c s') .ctxDestroy c)))) ∧
  (∀ h c mask lot, mask < 2 ^ 63 → Serves (.ctxSetBlocks h c mask lot) h
    { op := 0x0302, who := who0Admin, ctx := some c, conf := true, staging := true } (ctxStageable c)
    fun _ s => ok (stagedIn (fidContext c) (.ctxBlocks mask lot) s)) ∧
  (∀ h c mask, mask < 2 ^ 16 → Serves (.ctxSetGroups h c mask) h
    { op := 0x0303, who := who0Admin, ctx := some c, conf := true, staging := true } (ctxStageable c)
    fun _ s => ok (stagedIn (fidContext c) (.ctxGroups mask) s)) ∧
  (∀ h c base n quota, base % 64 = 0 → n % 64 = 0 → quota ≤ 1024 → Serves (.ctxSetSlice h c base n quota) h
    { op := 0x0304, who := who0Admin, ctx := some c, conf := true, staging := true } (ctxStageable c)
    fun _ s => ok (stagedIn (fidContext c) (.ctxSlice base n quota) s)) ∧
  (∀ h c ms, 10 ≤ ms → ms ≤ 1000 → Serves (.ctxSetQuantum h c ms) h { op := 0x0305, who := who0Admin, ctx := some c }
    (fun _ s => ctxDefined s c && !tdiLocked s c) fun _ s => ok (modCtx c (fun x => { x with quantum := ms }) s)) ∧
  (∀ h c, c < 16 → Serves (.ctxGet h c) h { op := 0x0306, who := whoCtx, ctx := some c, reads := true } anyCall
    fun k s => if isConf s c && !speaksFor s k.mb c then okData s [⟨8, ctxStateBits (ctxOf s c)⟩, ⟨8, 0⟩]
      else okData s [⟨8, ctxStatus s c⟩, ⟨8, ctxKey s c⟩]) ∧
  (∀ h c i e, i < 256 → e.extractLsb' 56 8 = 0 → e.extractLsb' 46 3 = 0 →
    Serves (.lotSet h c i e) h { op := 0x0310, who := who0Own, ctx := some c, conf := true }
      (fun _ s => ctxDefined s c && (ctxOf s c).state ≠ .destroying && (!lotValid e || (lotRefused s c i e).isNone))
      fun _ s => lotAnswer c (tget (ctxOf s c).lots i 0) e (putLot c i e s)) ∧
  (∀ c old e s, narrows old e = false → lotAnswer c old e s = ok s) ∧
  (∀ h c i n, 1 ≤ n → n ≤ 16 → i < 256 →
    Serves (.lotGet h c i n) h { op := 0x0311, who := who0Own, ctx := some c, conf := true, reads := true } (fun _ s => ctxDefined s c)
      fun _ s => okData s ((List.range (min n (256 - i))).map fun j => ⟨8, (tget (ctxOf s c).lots (i + j) 0).toNat⟩)) ∧
  (∀ h c rate, 64 ≤ rate → rate ≤ 8192 → Serves (.secRotateKey h c rate) h { op := 0x0A01, who := who0Own, ctx := some c, conf := true }
    (fun _ s => ctxDefined s c && (ctxOf s c).state ≠ .destroying && (ctxOf s c).oldPages.isEmpty)
    fun _ s => ok (sweepEnded c true (modCtx c (fun x => { x with
      keyCur := s.sec.keyGen, keyOld := x.keyCur, epoch := !x.epoch, sweepRate := rate, oldPages := encRanges x.lots })
      { s with sec := { s.sec with keyGen := s.sec.keyGen + 1 } }))) ∧
  (∀ h c key, key < 2 ^ 512 → Serves (.secPkgKeyAdd h c key) h { op := 0x0A02, who := who0Own, ctx := some c, conf := true }
    (fun _ s => ctxDefined s c && !(ctxOf s c).pkgKeys.contains key && !tdiLocked s c && (ctxOf s c).pkgKeys.length < 8)
    fun _ s => ok (modCtx c (fun x => { x with pkgKeys := x.pkgKeys ++ [key] }) s)) ∧
  (∀ h c key, key < 2 ^ 512 → Serves (.secPkgKeyRemove h c key) h { op := 0x0A03, who := who0Own, ctx := some c, conf := true }
    (fun _ s => ctxDefined s c && (ctxOf s c).pkgKeys.contains key && !tdiLocked s c)
    fun _ s => ok (modCtx c (fun x => { x with pkgKeys := x.pkgKeys.filter (· ≠ key) }) s)) ∧
  (∀ h c src len dst good, Serves (.wgtUnseal h c src len dst good) h { op := 0x0620, who := who0Own, ctx := some c, conf := true }
    (fun _ s => ctxDefined s c && (ctxOf s c).state ≠ .destroying)
    fun _ s => accepted { (freshId s).2 with
      sec := { s.sec with unseals := s.sec.unseals ++ [⟨s.sq.nextId, c, src, len, dst, good⟩] } } .unseal s.sq.nextId) ∧
  (∀ h c, Serves (.secSpdm h c) h { op := 0x0A00, who := whoOwn, ctx := some c }
    (fun _ s => ctxDefined s c && (ctxOf s c).state ≠ .destroying) fun _ s => accepted s .spdm c)

/-- R188, R615, R618, R619, R621, R625, R627, R637, R642, R645, R748: clearing, time-sharing, the key sweep, unsealing, and the resets of the PCIe
side. -/
def Obligations.ContextEventsAct : Prop :=
  (∀ dt k, Occurs (.blockScrubDone dt k) dt
    (fun s => s.benches.scrubbing.contains k && (blockBenches k).all fun b => (benchOf s b).cur.isNone)
    fun s => foldN 16 destroyProgress (clearBlock k { s with benches := { s.benches with
      scrubbing := s.benches.scrubbing.filter (· ≠ k), leftBy := tdel s.benches.leftBy k } })) ∧
  (∀ dt g p, Occurs (.groupReleaseDone dt g) dt (fun s => (s.sec.releasing.find? fun p => p.1 = g) = some p)
    fun s => destroyProgress p.2 (cleanGroup g { s with sec := { s.sec with releasing := tdel s.sec.releasing g } })) ∧
  (∀ dt c, Occurs (.quantumExpiry dt c) dt
    (fun s => (ctxOf s c).state = .resident && (ctxOf s c).timeShare && (ctxOf s c).turnEnd ≤ now s)
    (modCtx c fun x => { x with quantumDue := true })) ∧
  (∀ dt c past, Occurs (.contextSwitch dt c past) dt (fun s => freeTurn s c) fun s => takeTurn c (loadBenches c s)) ∧
  (∀ dt c d past, Reaches (.contextSwitch dt c past) dt
    (fun s => !freeTurn s c && nextTurn s c = some d && (ctxOf s c).state = .resident && (ctxOf s c).quantumDue && mayLeave s c && c ≠ d)
    fun _ t => (ctxOf t c).state = .defined ∧ (ctxOf t d).state = .resident) ∧
  (∀ dt c p, Occurs (.keySweepPage dt c) dt (fun s => sweepPage (ctxOf s c) = some p) fun s => sweepEnded c true (sweepOne c p s)) ∧
  (∀ dt id bad u rest, Occurs (.wgtUnsealDone dt id bad) dt
    (fun s => takeFirst (fun u => u.id = id) s.sec.unseals = some (u, rest))
    fun s =>
      let s := { s with sec := { s.sec with unseals := rest } }
      match unsealOutcome s u bad with
      | .done l => unsealDone u l s
      | .failed st reason code wrote =>
        let s := writeBytes u.dst (List.replicate wrote 0) [] s
        let s := if code = 0 then s else record code 2 0x9000 (some u.ctx) false (if code = 0x9302 then [⟨4, bad.getD 0⟩] else []) s
        finishBad (reason = 0xA1 && packageReserved s u) .unseal id st [⟨2, reason⟩] s) ∧
  (∀ dt sid x, Occurs (.spdmSessionTimeout dt sid) dt (fun s => sessionOf s sid = some x && x.lastTraffic + 30000000000 ≤ now s)
    (endSession sid)) ∧
  (∀ dt n, Occurs (.ideIntegrityFailure dt n) dt always
    fun s => foldN 16 (fun c s => if (ctxOf s c).ideStream = some n then tdiError c s else s) s) ∧
  (∀ dt dur, Occurs (.functionLevelReset dt 0 dur) dt (fun s => reachable s 0) (resetMailbox 0 dur)) ∧
  (∀ dt f dur, 1 ≤ f → f ≤ 16 → Occurs (.functionLevelReset dt f dur) dt (fun s => reachable s f)
    fun s => resetMailbox f dur (tdiError (f - 1) s)) ∧
  (∀ dt, Occurs (.perstAssert dt) dt (fun s => !s.tray.perst && linkTrained s)
    fun s =>
      let t := foldN 16 tdiError { s with tray := { s.tray with perst := true, linkUp := false, sriov := false } }
      record 0xB111 1 0x8000 none false [] (foldN 17 (fun m s => resetMailbox m 0 s) t)) ∧
  (∀ dt, Occurs (.perstDeassert dt) dt always
    fun s => { s with tray := { s.tray with perst := false, linkUp := s.tray.linkUp || linkTrained s } })

/-- R621, R622, R625–R629, R634–R636: what the responder answers on each path, and what its sessions do. -/
def Obligations.ResponderAnswers : Prop :=
  (∀ dt p, Occurs (.getVersion dt p) dt (fun s => pathOpen s p) fun s => giveReply p (reply (setStage p 1 s) [⟨2, 0x1200⟩])) ∧
  (∀ dt p, Occurs (.getCapabilities dt p) dt (fun s => pathOpen s p && 1 ≤ connStage s p)
    fun s => giveReply p (reply (setStage p 2 s) [⟨4, Config.spdmInfo 1⟩])) ∧
  (∀ dt p, Occurs (.negotiateAlgorithms dt p true) dt (fun s => pathOpen s p && 2 ≤ connStage s p)
    fun s => giveReply p (reply (setStage p 3 s) [⟨4, Config.spdmInfo 2⟩])) ∧
  (∀ dt p, Occurs (.getDigests dt p) dt (fun s => pathOpen s p && 3 ≤ connStage s p)
    fun s => giveReply p (reply s [⟨1, 1⟩, ⟨32, Config.sm3 Config.certChain⟩])) ∧
  (∀ dt p off len, Occurs (.getCertificate dt p 0 off len) dt
    (fun s => pathOpen s p && 3 ≤ connStage s p)
    fun s => giveReply p (if Config.certChain.length ≤ off then spdmError s
      else reply s (((Config.certChain.drop off).take len).map fun b => ⟨1, b.toNat⟩))) ∧
  (∀ dt p, Occurs (.challenge dt p 0) dt (fun s => pathOpen s p && 3 ≤ connStage s p)
    fun s => giveReply p (signed [⟨32, Config.sm3 Config.certChain⟩] s)) ∧
  (∀ dt p i m, Occurs (.getMeasurements dt p none i) dt
    (fun s => pathOpen s p && 3 ≤ connStage s p && i ≠ 255 && measurement s none i = some m)
    fun s => giveReply p (signed [⟨1, 9⟩, ⟨1, i⟩, ⟨32, m⟩] s)) ∧
  (∀ dt p, Occurs (.keyExchange dt p 0) dt (fun s => pathOpen s p && 3 ≤ connStage s p && spdmSessionsOn s p < sessionLimit p)
    fun s => giveReply p (signed [⟨4, s.sec.nextSession⟩] { s with sec := { s.sec with
      nextSession := s.sec.nextSession + 1, sessions := tset s.sec.sessions s.sec.nextSession (some ⟨p, false, now s, 0⟩) } })) ∧
  (∀ dt sid x, Occurs (.finish dt sid true) dt (fun s => sessionOf s sid = some x && pathOpen s x.path)
    fun s => giveReply x.path (reply (modSession sid (fun x => { x with finished := true }) (keepAlive sid s)) [])) ∧
  (∀ dt sid x, Occurs (.heartbeat dt sid) dt (sessionOpen sid x) fun s => giveReply x.path (reply (keepAlive sid s) [])) ∧
  (∀ dt sid x, Occurs (.keyUpdate dt sid) dt (sessionOpen sid x)
    fun s => giveReply x.path (reply (modSession sid (fun x => { x with keyGen := x.keyGen + 1 }) (keepAlive sid s)) [])) ∧
  (∀ dt sid x, Occurs (.endSession dt sid) dt (sessionOpen sid x)
    fun s => giveReply x.path (reply (endSession sid (keepAlive sid s)) [])) ∧
  (∀ dt sid k x c i, x.path = .context c → Occurs (.keyDeliver dt sid k) dt
    (fun s =>
      let y := ctxOf (keepAlive sid s) c
      sessionOpen sid x s && isConf (keepAlive sid s) c && y.tdi = .run && ((heldKeys y).all fun e => e.2.packageId ≠ k.packageId)
        && freeKeyEntry y = some i)
    fun s => giveReply x.path (reply (modCtx c (fun z => { z with
      contentKeys := tset z.contentKeys i
        (some ⟨k.packageId, k.cipher, if k.cipher = 2 then k.key % 2 ^ 128 else k.key, k.sessionBound, sid⟩) }) (keepAlive sid s)) [⟨1, i⟩])) ∧
  (∀ dt sid e x c, x.path = .context c → e < 16 → Occurs (.keyErase dt sid e) dt (sessionOpen sid x)
    fun s => giveReply x.path (reply (modCtx c (fun z => { z with contentKeys := tdel z.contentKeys e }) (keepAlive sid s)) [])) ∧
  (∀ dt sid c n x, x.path = .doe → Occurs (.lockInterface dt sid c n) dt
    (fun s =>
      let u := keepAlive sid s
      sessionOpen sid x s && isConf u c && (ctxOf u c).tdi = .unlocked && (funcOf u (fidContext c)).state = .running)
    fun s => giveReply .doe (reply
      (modCtx c (fun y => { y with tdi := .locked, lockSession := some sid, ideStream := some n }) (keepAlive sid s)) [])) ∧
  (∀ dt c, Occurs (.startInterface dt c) dt (fun s => pathOpen s .doe && isConf s c && (ctxOf s c).tdi = .locked)
    fun s => giveReply .doe (reply (noteChange c (modCtx c (fun y => { y with tdi := .run }) s)) [])) ∧
  (∀ dt c, Occurs (.stopInterface dt c) dt (fun s => pathOpen s .doe && isConf s c)
    fun s => giveReply .doe (reply (tdiError c s) [])) ∧
  (∀ dt sid on x, x.path = .doe → Occurs (.ideKm dt sid none on) dt (sessionOpen sid x)
    fun s => giveReply .doe (reply { keepAlive sid s with sec := { (keepAlive sid s).sec with linkStream := on } } [])) ∧
  (∀ dt sid n x, x.path = .doe → n < 16 → Occurs (.ideKm dt sid (some n) true) dt (sessionOpen sid x)
    fun s => giveReply .doe (reply { keepAlive sid s with
      sec := { (keepAlive sid s).sec with selective := (s.sec.selective.filter (· ≠ n)) ++ [n] } } []))

/-! ### Redundancy and tray service (chapter 15) -/

/-- R126, R656, R677–R679, R687, R688, R692, R693, R763: the redundancy and tray commands. -/
def Obligations.RedundancyCommandsComplete : Prop :=
  (∀ h c, Serves (.redGet h c) h { op := 0x0B00, who := whoAll, ctx := some c, reads := true } (fun _ s => ctxDefined s c)
    fun _ s =>
      let r := redOf s c
      okData s [⟨1, r.par.mode⟩, ⟨1, roleCode r.role⟩, ⟨4, r.epoch⟩, ⟨4, r.par.pairId⟩, ⟨4, r.acked⟩, ⟨1, bit (!sisterLost s)⟩,
        ⟨1, bit (!arbiterLost s c)⟩, ⟨4, nextSwap s r⟩, ⟨1, bit (r.copying || r.role = .resync)⟩]) ∧
  (∀ h c p, c < 16 → Serves (.redSetProtect h c p) h { op := 0x0B01, who := who0Side, ctx := some c, staging := true }
    (fun k s => ctxStageable c k s && protectOk s c p) fun _ s => ok (stagedIn (fidContext c) (.redProtect p) s)) ∧
  (∀ h c, Serves (.redSwap h c) h { op := 0x0B02, who := who0Side, ctx := some c }
    (fun _ s => ctxDefined s c && !tdiLocked s c && acting s c && !swapDeferred s c && (redOf s c).giving.isNone)
    fun _ s => accepted (startSwap c s) .redSwap c) ∧
  (∀ h c, Serves (.redRelease h c) h { op := 0x0B03, who := who0Side, ctx := some c }
    (fun _ s => ctxDefined s c && !tdiLocked s c && acting s c && (redOf s c).giving ≠ some .release)
    fun _ s => accepted (releaseDowel false c s) .redRelease c) ∧
  (∀ h c i prod r, Serves (.redRingAdopt h c i prod) h { op := 0x0B04, who := who0Admin, ctx := some c }
    (fun _ s => ringOf s c i = some r && ctxDefined s c && r.par.kind ≠ 1 && (liveReqs s c).all fun q => q.2.ring ≠ some i)
    fun _ s => ok (modRing c i (fun r => { r with prod := prod % 2 ^ 32 }) s)) ∧
  (∀ h, Serves (.trayDrain h) h { op := 0x0B10, who := who0Side } anyCall
    fun _ s => match s.red.drain with
      | .none => accepted (drainProgress { s with red := { s.red with drain := .stepping, drainAt := now s } }) .trayDrain 0
      | .drained => ok s
      | _ => accepted s .trayDrain 0) ∧
  (∀ h, Serves (.trayGet h) h { op := 0x0B11, who := whoAll, reads := true } anyCall
    fun _ s => okData s [⟨1, drainCode s.red.drain⟩, ⟨1, bit s.tray.drainOk⟩, ⟨1, bit s.tray.latch⟩, ⟨10, stampNat s.red.lastDrain⟩]) ∧
  (∀ dt, Occurs (.trayLatchDeassert dt) dt (fun s => s.boot.running && s.boot.phase = .booting)
    fun s => endBoot { s with tray := { s.tray with latch := false } }) ∧
  (∀ dt, Occurs (.trayLatchDeassert dt) dt
    (fun s => !(s.boot.running && s.boot.phase = .booting) && s.red.drain ≠ .drained && s.tray.pwrGood)
    fun s => drainFlush (record 0xB102 2 0x8000 none false [] (shutGates (releaseAll
      { s with tray := { s.tray with latch := false }, red := { s.red with drain := .closing, removal := true } }))))

/-- R664–R671, R673, R674, R677, R679, R681: what each DOWEL message does to a side that takes it. -/
def Obligations.DowelMessagesAct : Prop :=
  (∀ dt m, Occurs (.dowelHold dt m) dt
    (fun s =>
      let u := dowelState m s
      let r := redOf u m.ctx
      dowelTaken m (keepsEpoch m) s && fromSister u m && (r.role = .standby || r.role = .resync) && r.epoch ≤ m.epoch && r.requestAt.isNone)
    fun s => sendDowel m.ctx 1 m.srcM m.field []
      (modRed m.ctx (fun r => { r with epoch := m.epoch, heldAt := now (dowelState m s) }) (dowelState m s))) ∧
  (∀ dt m n t, Occurs (.dowelRenew dt m) dt
    (fun s =>
      let r := redOf (dowelState m s) m.ctx
      dowelTaken m (keepsEpoch m) s && m.epoch = r.epoch && r.role ≠ .fenced && (r.sent.find? fun p => p.1 = m.field) = some (n, t))
    fun s => modRed m.ctx (fun r => { r with renewed := max r.renewed t }) (dowelState m s)) ∧
  (∀ dt m, Occurs (.dowelGrant dt m) dt
    (fun s =>
      let u := dowelState m s
      let r := redOf u m.ctx
      dowelTaken m (keepsEpoch m) s && fromArbiter u m && r.role = .standby && r.requestAt.isSome && r.epoch < m.epoch)
    fun s => takeDowel m.ctx m.epoch true 0xA102 1 (dowelState m s)) ∧
  (∀ dt m, Occurs (.dowelRefuse dt m) dt (fun s => dowelTaken m (keepsEpoch m) s && fromArbiter (dowelState m s) m)
    fun s => modRed m.ctx (fun r => { r with requestAt := none, soloAt := none }) (dowelState m s)) ∧
  (∀ dt m, Occurs (.dowelRelease dt m) dt
    (fun s =>
      let u := dowelState m s
      dowelTaken m (keepsEpoch m) s && fromSister u m && (redOf u m.ctx).role = .standby && m.epoch = (redOf u m.ctx).epoch)
    fun s => takeDowel m.ctx (m.epoch + 1) false 0xA103 0 (dowelState m s)) ∧
  (∀ dt m, Occurs (.dowelSwap dt m) dt
    (fun s =>
      let u := dowelState m s
      dowelTaken m (keepsEpoch m) s && fromSister u m && (redOf u m.ctx).role = .standby && m.epoch = (redOf u m.ctx).epoch)
    fun s => takeDowel m.ctx (m.epoch + 1) false 0xA103 0 (dowelState m s)) ∧
  (∀ dt m, Occurs (.dowelTaken dt m) dt
    (fun s => dowelTaken m (fun r => r.giving.isSome && m.epoch = r.epoch + 1) s
      && (redOf (dowelState m s) m.ctx).giving.isSome && m.epoch = (redOf (dowelState m s) m.ctx).epoch + 1)
    fun s => gaveDowel m.ctx m.epoch (dowelState m s)) ∧
  (∀ dt m d, Occurs (.dowelCommit dt m d) dt
    (fun s =>
      let u := dowelState m s
      let r := redOf u m.ctx
      dowelTaken m (keepsEpoch m) s && fromSister u m && (r.role = .standby || r.role = .resync) && m.epoch = r.epoch
        && m.field ≠ r.boundary && !(serveOf (modRed m.ctx (fun r => { r with boundary := m.field }) (applyDelta m.ctx d u)) m.ctx).halted)
    fun s => sendDowel m.ctx 9 m.srcM m.field []
      (modRed m.ctx (fun r => { r with boundary := m.field }) (applyDelta m.ctx d (dowelState m s)))) ∧
  (∀ dt m, Occurs (.dowelCommitAck dt m) dt
    (fun s =>
      let u := dowelState m s
      let r := redOf u m.ctx
      dowelTaken m (keepsEpoch m) s && fromSister u m && r.role = .active && m.epoch = r.epoch && r.acked < m.field && m.field ≤ r.boundary
        && !(redOf (flushPend m.ctx (modRed m.ctx (fun r => { r with acked := m.field, ackedCopy := r.sentCopy }) u)) m.ctx).unsent)
    fun s => drainProgress (trySwap m.ctx (chooseStep m.ctx (flushPend m.ctx
      (modRed m.ctx (fun r => { r with acked := m.field, ackedCopy := r.sentCopy }) (dowelState m s)))))) ∧
  (∀ dt m, Occurs (.dowelSoloGrant dt m) dt
    (fun s =>
      let u := dowelState m s
      let r := redOf u m.ctx
      dowelTaken m (keepsEpoch m) s && fromArbiter u m && r.role = .active && m.epoch = r.epoch && r.soloAt.isSome)
    fun s => drainProgress (chooseStep m.ctx (flushPend m.ctx
      (modRed m.ctx (fun r => { r with role := .activeSolo, soloAt := none, unsent := false }) (dowelState m s)))))

/-- R664, R667, R668, R670–R672, R677, R680–R683, R689, R692: the dowel's timers, and the sister link. -/
def Obligations.DowelTimersAct : Prop :=
  (∀ dt solo, Reaches (.sisterLinkReturn dt solo) dt (fun s => portState s 32 = .up && (List.range 16).all fun c => !mirrored s c)
    fun s t => t.red.linkLost = false ∧ t.red.sisterAt = now s ∧ t.red.ctxs = s.red.ctxs ∧ t.benches = s.benches ∧ t.mem = s.mem) ∧
  (∀ dt solo, Occurs (.sisterLinkReturn dt solo) dt (fun s => portState s 32 = .up)
    fun s => foldN 16 (fun c s =>
      let r := redOf s c
      if !mirrored s c then s
      else if r.role = .activeSolo then (if r.copying then s else sendWhole c s)
      else if r.role = .active then modRed c (fun r => { r with soloAt := none }) s
      else if r.role = .stale then modRed c (fun r => { r with role := .resync, heldAt := now s }) s
      else if r.role = .standby && solo.contains c then
        modRed c (fun r => { r with role := .resync, heldAt := now s }) (becomeStale c r.epoch s)
      else s) { s with red := { s.red with linkLost := false, sisterAt := now s } }) ∧
  (∀ dt c, Occurs (.holdTimer dt c) dt (fun s => holdsDowel s c && (redOf s c).heldAt + 50000000 ≤ now s)
    fun s =>
      let n := wrapAdd 32 (redOf s c).holdSeq 1
      toArbiter c 0 n (toSister c 0 n (modRed c (fun r => { r with
        holdSeq := n, heldAt := now s, sent := ((n, now s) :: r.sent).take 8 }) s))) ∧
  (∀ dt c, Occurs (.leaseExpiry dt c) dt (fun s => acting s c && (redOf s c).renewed + 200000000 ≤ now s)
    fun s => bothLost c (record 0xA101 2 (0x6000 + c) (some c) false []
      (modRed c (fun r => { r with role := .fenced, prevRole := r.role }) s))) ∧
  (∀ dt c, Occurs (.holdSilence dt c) dt
    (fun s => mirrored s c && (redOf s c).role = .standby && (redOf s c).requestAt.isNone && (redOf s c).heldAt + 200000000 ≤ now s
      && !arbiterLost (toArbiter c 2 0 (modRed c (fun r => { r with requestAt := some (now s), askedAt := now s }) s)) c)
    fun s => toArbiter c 2 0 (modRed c (fun r => { r with requestAt := some (now s), askedAt := now s }) s)) ∧
  (∀ dt c t, Occurs (.dowelRequestResend dt c) dt
    (fun s => (redOf s c).requestAt = none && (redOf s c).soloAt = some t && t + 5000000 ≤ now s)
    fun s => toArbiter c 10 0 (modRed c (fun r => { r with soloAt := some (now s) }) s)) ∧
  (∀ dt c p, Occurs (.commitResend dt c) dt
    (fun s =>
      let r := redOf s c
      mirrored s c && r.role = .active && !r.unsent && r.acked < r.boundary && r.commitAt + 1000000 ≤ now s && s.net.sister = some p)
    fun s => sendDowel c 8 p (redOf s c).boundary (leBytes 8 (redOf s c).commit.1 ++ leBytes 8 (redOf s c).commit.2)
      (modRed c (fun r => { r with commitAt := now s }) s)) ∧
  (∀ dt c t, Occurs (.releaseResend dt c) dt
    (fun s => (redOf s c).giving = some .swap && (redOf s c).givingSent = some t && t + 1000000 ≤ now s)
    fun s => toSister c 6 (redOf s c).acked (modRed c (fun r => { r with givingSent := some (now s) }) s)) ∧
  (∀ dt c, Occurs (.releaseTimeout dt c) dt
    (fun s => (redOf s c).giving = some .release && !(redOf s c).drainRelease && (redOf s c).givingAt + 100000000 ≤ now s)
    (finish .redRelease c .timeout [])) ∧
  (∀ dt c, Occurs (.swapDue dt c) dt
    (fun s => acting s c && (redOf s c).par.swapH ≠ 0 && (redOf s c).lastChange + (redOf s c).par.swapH * 3600000000000 ≤ now s)
    (modRed c fun r => { r with swapDue := true })) ∧
  (∀ dt, Occurs (.sisterLinkLost dt) dt (fun s => !s.red.linkLost && sisterLost s && s.net.sister.isSome)
    fun s => foldN 16 (fun c s =>
      if !mirrored s c then s
      else
        let s := if (redOf s c).role = .active then toArbiter c 10 0 (modRed c (fun r => { r with soloAt := some (now s) }) s) else s
        bothLost c (if s.red.drain = .handing && (redOf s c).giving = some .swap then releaseDowel true c s else s))
      (notify 5 0xA105 0x4020 (record 0xA105 2 0x4020 none false [] { s with red := { s.red with linkLost := true } }))) ∧
  (∀ dt c boundary epoch d, Occurs (.resyncCopyDone dt c boundary epoch d) dt (fun s => mirrored s c && (redOf s c).role = .resync)
    fun s => record 0xA109 0 (0x6000 + c) (some c) false []
      (applyDelta c d (modRed c (fun r => { r with role := .standby, boundary := boundary, epoch := epoch, heldAt := now s }) s)))
/-! ### The event recorder (chapter 16) -/

/-- R719–R727, R730: the recorder's commands, and what its events leave. REC_READ copies the records selected, at most 4,096 to a host address; a freeze starts with a flush
and its holder alone extends or ends it; REC_CLEAR empties the log and its counters; REC_FLUSH starts a flush. -/
def Obligations.RecorderCommandsComplete : Prop :=
  (∀ h, Serves (.recGetState h) h { op := 0x0C15, who := whoAll, reads := true } anyCall fun _ s => okData s (recStateData s)) ∧
  (∀ h sev pc seq n a, Serves (.recRead h sev pc seq n (.host a)) h { op := 0x0C10, who := whoAll, reads := true }
    (fun c s => flashUsable s && c.mb ≤ 16 && n ≤ 4096 && sev ≤ 3)
    fun c s =>
      let l := recSelect s c.mb sev pc seq n
      okData (hostWrite a (l.flatMap recData) s) [⟨4, l.length⟩]) ∧
  (∀ h sev pc seq n, Serves (.recRead h sev pc seq n .inline) h { op := 0x0C10, who := whoAll, reads := true }
    (fun c s => flashUsable s && 17 ≤ c.mb && n ≤ 3 && sev ≤ 3)
    fun c s => okData s ((recSelect s c.mb sev pc seq n).flatMap recData)) ∧
  (∀ h n, Serves (.recFreeze h n) h { op := 0x0C11, who := who0Side, reads := true }
    (fun _ s => flashUsable s && 1 ≤ n && n ≤ 600 && s.rec_.freeze.isNone)
    fun c s => accepted (startFlush { s with rec_ := { s.rec_ with freeze := some ⟨c.mb, 0, n * 1000000000, false⟩ } }) .recFreeze 0) ∧
  (∀ h n f, Serves (.recFreeze h n) h { op := 0x0C11, who := who0Side, reads := true }
    (fun c s => flashUsable s && 1 ≤ n && n ≤ 600 && s.rec_.freeze = some f && f.holder = c.mb)
    fun _ s => ok { s with rec_ := { s.rec_ with
      freeze := some { f with until_ := now s + n * 1000000000, period := n * 1000000000 } } }) ∧
  (∀ h f, Serves (.recThaw h) h { op := 0x0C12, who := who0Side, reads := true }
    (fun c s => s.rec_.freeze = some f && f.holder = c.mb)
    fun _ s => ok (startFlush { s with rec_ := { s.rec_ with freeze := none } })) ∧
  (∀ h, Serves (.recClear h) h { op := 0x0C13, who := who0 } (fun c s => s.rec_.freeze.elim true fun f => f.holder = c.mb)
    fun _ s =>
      let s := eraseEnds s
      accepted { s with
        nv := { s.nv with flash := [], savedLost := [0, 0, 0, 0] }
        rec_ := { s.rec_ with ram := [], flushing := none, lost := [0, 0, 0, 0], lostNew := [0, 0, 0, 0], freeze := none
                              clearing := some (s.nv.flash.length + s.rec_.ram.length, s.rec_.freeze.isSome) } } .recClear 0) ∧
  (∀ h, Serves (.recFlush h) h { op := 0x0C14, who := who0Side } (fun _ s => !frozen s)
    fun _ s => accepted (startFlush s) .recFlush 0) ∧
  (∀ h, Serves (.recFlush h) h { op := 0x0C14, who := who0Side } (fun _ s => frozen s) fun _ s => ok s) ∧
  (∀ dt, Reaches (.recorderFlushTimer dt) dt (fun s => !frozen s && !boardAlone s && s.rec_.flushing.isNone)
    fun _ t => t.rec_.flushing = some t.rec_.ram.length ∧ t.rec_.ram.all (!·.isOpen) = true) ∧
  (∀ dt, Reaches (.recorderFlushDone dt) dt (fun s => s.rec_.flushing.isSome) fun s t => t.nv.flash = (flushDone s).nv.flash) ∧
  (∀ dt n held, Reaches (.recorderEraseDone dt) dt (fun s => s.rec_.clearing = some (n, held)) fun _ t => t.rec_.clearing = none) ∧
  (∀ dt f, Reaches (.freezeExpiry dt) dt (fun s => s.rec_.freeze = some f && f.started && f.until_ ≤ now s)
    fun _ t => t.rec_.freeze = none ∧ t.rec_.flushing.isSome = true) ∧
  (∀ dt e, Reaches (.flashProgramFail dt e) dt always fun s t => t.rec_.flashFail = (!e || s.rec_.flashFail)) ∧
  (∀ dt slot ram auto, Reaches (.recCursorWrite dt slot ram auto) dt (fun s => s.tray.linkUp)
    fun _ t => t.rec_.cursor = ⟨slot % 2 ^ 23, ram, auto⟩) ∧
  (∀ dt, Reaches (.recWindowAutoRead dt) dt (fun s => s.tray.linkUp && s.rec_.cursor.auto)
    fun s t => t.rec_.cursor = { s.rec_.cursor with slot := (s.rec_.cursor.slot + 64) % 2 ^ 23 })

/-- R719–R725, R730: what ends an erase, a flush and a freeze, what the flush timer and a failing page do, and the window's cursor. R721: a record
that is placed stands in its log, which never outgrows its size, and no record is lost to it but one that its severity may displace; the flash
log holds at most 4,128,768 records after a flush, and the RAM buffer at most 16,384. -/
def Obligations.RecorderEventsAct : Prop :=
  (∀ dt, Occurs (.recorderFlushTimer dt) dt (fun s => !frozen s && !boardAlone s && s.rec_.flushing.isNone) startFlush) ∧
  (∀ dt slot ram auto, Occurs (.recCursorWrite dt slot ram auto) dt (fun s => s.tray.linkUp)
    fun s => { s with rec_ := { s.rec_ with cursor := ⟨slot % 2 ^ 23, ram, auto⟩ } }) ∧
  (∀ dt, Occurs (.recWindowAutoRead dt) dt (fun s => s.tray.linkUp && s.rec_.cursor.auto)
    fun s => { s with rec_ := { s.rec_ with cursor := { s.rec_.cursor with slot := wrapAdd 23 s.rec_.cursor.slot 64 } } }) ∧
  (∀ dt n, Occurs (.recorderEraseDone dt) dt (fun s => s.rec_.clearing = some (n, false))
    fun s => finish .recClear 0 .ok []
      (startFlush (recordSq 0x1602 1 [⟨4, n⟩] { s with rec_ := { s.rec_ with clearing := none } }))) ∧
  (∀ dt n, Occurs (.recorderEraseDone dt) dt (fun s => s.rec_.clearing = some (n, true))
    fun s => finish .recClear 0 .ok []
      (startFlush (recordSq 0x1602 1 [⟨4, n⟩] (recordSq 0x1603 1 [] { s with rec_ := { s.rec_ with clearing := none } })))) ∧
  (∀ dt, Occurs (.recorderFlushDone dt) dt (fun s => s.rec_.flushing.isSome)
    fun s => drainFlushed (finishAll .recFreeze 0 .ok [] (finishAll .recFlush 0 .ok [] (flushDone s)))) ∧
  (∀ dt f, Occurs (.freezeExpiry dt) dt (fun s => s.rec_.freeze = some f && f.started && f.until_ ≤ now s)
    fun s => startFlush { s with rec_ := { s.rec_ with freeze := none } }) ∧
  (∀ dt, Occurs (.flashProgramFail dt true) dt always (recordSq 0x1604 2 [])) ∧
  (∀ dt, Reaches (.flashProgramFail dt false) dt always
    fun _ t => t.rec_.flashFail = true ∧ t.tray.alerts.contains .flashFail = true) ∧
  (∀ cap r l l', l.length ≤ cap → placeRec cap r l = some l' →
    r ∈ l' ∧ l'.length ≤ cap ∧ (∀ x, x ∈ l → x ∈ l' ∨ displaces r.sev x = true)) ∧
  (∀ s, s.nv.flash.length ≤ 4128768 → (flushDone s).nv.flash.length ≤ 4128768) ∧
  (∀ code sev source ctx rep payload s, s.rec_.ram.length ≤ 16384 →
    (addRec code sev source ctx rep payload s).rec_.ram.length ≤ 16384)

/-! ### Gauges, snapshots and sampling (chapter 16) -/

/-- R696–R716, R727, R728: the gauge commands of mailbox 0, which speaks for no context. GAU_READ takes the open values of the gauges that
log entry 24 names from the free counter. -/
def Obligations.GaugeCommandsComplete : Prop :=
  (∀ h benches codes, Serves (.gauSelect h benches codes) h { op := 0x0C00, who := who0Own }
    (fun c s => !benches.isEmpty && benches.all (· < 252) && codes.length = 8 && codes.all (· ≤ 0x14)
      && benches.all (fun b => !unitWithheld s none (0x1000 + b)) && (viewerOf s c.mb).isNone)
    fun _ s => ok (benches.foldl (fun s b => modGau b (selectCodes codes) s) s)) ∧
  (∀ h a mask d, Serves (.gauSnapshot h a mask d) h { op := 0x0C01, who := who0Own }
    (fun c s => mask % 2 = 0 && mask < 64 && a.ns ≤ c.stamp.ns + 60000000000 && snapDest s c.mb d && s.gau.snaps.length < 4
      && s.time.t < a.ns)
    fun c s => accepted { s with
      sq := { s.sq with nextId := s.sq.nextId + 1 }
      gau := { s.gau with snaps := s.gau.snaps ++ [⟨s.sq.nextId, a, mask, d, c.mb, viewerOf s c.mb, false, none⟩] } }
      .snapshot s.sq.nextId) ∧
  (∀ h u first n, Serves (.gauRead h u first n) h { op := 0x0C02, who := whoAll, reads := true }
    (fun c s => unitExists u && 1 ≤ n && n ≤ 27 && first + n ≤ 32 && (viewerOf s c.mb).isNone && !unitWithheld s none u)
    fun _ s => okData { s with free := s.free + 4 } (((areaFor s none s.free u).drop first).take n |>.map fun x => ⟨8, x⟩)) ∧
  (∀ h c n addr k w v p, Serves (.gauSampleSet h c n addr k w v p) h { op := 0x0C03, who := who0Own, ctx := some c }
    (fun _ s => !isConf s c && ctxDefined s c && 8 ≤ n && n ≤ 20 && 10 ≤ k && k ≤ 18 && 1 ≤ w && w ≤ 2 ^ k && v < 120
      && !(samplingOf s c).enabled)
    fun _ s => ok (modSampling c (fun _ =>
      { enabled := true, n := n, logRecords := k, watermark := w, vector := v, addr := addr, prodAddr := p }) s)) ∧
  (∀ h c, Serves (.gauSampleStop h c) h { op := 0x0C04, who := who0Own, ctx := some c } (fun _ s => !isConf s c && ctxDefined s c)
    fun _ s => ok (modSampling c (fun x => { x with enabled := false }) s))

/-- R706–R709, R713, R715, R729 and, for a write to a register without behaviour of its own, R62, R193, R282, R480, R521, R606, R652,
R730: a snapshot is latched once T reaches its stamp and leaves when its image is written; a write that asks for nothing is counted. A VF reads
0 at the pages of benches that are not its context's (R194) and in the blocks that only PF0's BAR0 holds (R62, R730). -/
def Obligations.GaugeEventsAct : Prop :=
  (∀ dt id q, Occurs (.snapshotLatch dt id) dt
    (fun s => (s.gau.snaps.find? fun x => x.id = id) = some q && q.at_.ns ≤ s.time.t) (latch id)) ∧
  (∀ dt id q rest a, q.dest = .host a → Occurs (.snapshotWriteDone dt id) dt
    (fun s => takeFirst (fun q : Snapshot => q.id = id && q.image.isSome) s.gau.snaps = some (q, rest))
    fun s => finish .snapshot id .ok [] (hostWrite a (q.image.getD []) { s with gau := { s.gau with snaps := rest } })) ∧
  (∀ dt c v, c < 16 → Occurs (.gauSampleConsWrite dt 0 c v false) dt
    (fun s => s.tray.linkUp && (v % 2 ^ 32 + 2 ^ 32 - (samplingOf s c).cons) % 2 ^ 32
      ≤ ((samplingOf s c).prod + 2 ^ 32 - (samplingOf s c).cons) % 2 ^ 32)
    (modSampling c (fun x => { x with cons := v % 2 ^ 32 }))) ∧
  (∀ dt b t, (∀ m, b ≠ .mailbox m) → b ≠ .pf0 → Occurs (.readOnlyWrite dt 0 b t) dt (fun s => reachable s 0)
    fun s => countPf0 (countRoWrite b s)) ∧
  (∀ dt t, Occurs (.readOnlyWrite dt 0 .pf0 t) dt (fun s => reachable s 0)
    fun s => { s with sq := { s.sq with roWrites := satAdd 64 s.sq.roWrites 1 } }) ∧
  (∀ dt fn b t, 1 ≤ fn → fn ≤ 16 → (∀ m, b ≠ .mailbox m) → b ≠ .pf0 → b ≠ .recorder → Occurs (.readOnlyWrite dt fn b t) dt
    (fun s => reachable s fn && !ideRefused s fn t) (countRoWrite b)) ∧
  (∀ dt m t, m ≤ 16 → Occurs (.readOnlyWrite dt m (.mailbox m) t) dt
    (fun s => reachable s m && !ideRefused s m t) (violation m)) ∧
  (∀ s c b off, b < 252 → off < 0x10000 → blockOwner s (blockOf b) ≠ some c → bar0Reg s (some c) (0x1000000 + b * 0x10000 + off) = 0) ∧
  (∀ s c a, a < 0x100000 ∨ 0x180000 ≤ a ∧ a < 0x190000 → bar0Reg s (some c) a = 0)

/-! ### The machine as a whole -/

/-- Log entries 1 and 3: a step takes the command at the front of the queue and executes it with the queue's rest; an empty queue idles. -/
def Obligations.StepRunsFront : Prop :=
  (∀ (c : Instr) (r : List Instr) (s : State), step { s with pending := c :: r } = exec c { s with pending := r }) ∧
  (∀ s : State, s.pending = [] → step s = .next s)

/-- The state after reset keeps the two invariants, holds no command, and lists no memory. -/
def Obligations.ResetHoldsInvariants : Prop :=
  (MemoryCanonical State.reset) ∧
  (MeshBalanced State.reset) ∧
  (State.reset.pending = [] ∧ State.reset.mem.bytes = [])

/-- Every step of every state keeps the memory in its canonical form. -/
def Obligations.MemoryStaysCanonical : Prop :=
  ∀ s t, MemoryCanonical s → step s = .next t → MemoryCanonical t

/-- R181: every step of every state keeps each link's slots at its class's depth. -/
def Obligations.MeshStaysBalanced : Prop :=
  ∀ s t, MeshBalanced s → step s = .next t → MeshBalanced t

/-- The frame of every row: a part that the row is not listed with is as it was. -/
def Obligations.EveryRowFrame : Prop :=
  ∀ i s t, exec i s = .next t → ∀ p, ¬ p ∈ mayChange i → samePart p s t

/-- The memory frame: a row that stores nothing leaves every stored byte, its check bits and its key tag as they were. -/
def Obligations.MemoryFrame : Prop :=
  ∀ i s t, mayStore i = false → exec i s = .next t → sameStored s t

/-- R24–R26: a stamp is the later of T:0 and the successor of L, and later than L; and a message that is accepted moves L past its stamp. -/
def Obligations.StampsOnlyRise : Prop :=
  (∀ s, (issueStamp s).1 = (match s.time.last with
    | none => ⟨s.time.t, 0⟩
    | some l => stampMax ⟨s.time.t, 0⟩ (if l.lc = 0xFFFF then ⟨l.ns + 1, 0⟩ else ⟨l.ns, l.lc + 1⟩))) ∧
  (∀ s, (issueStamp s).2.time.last = some (issueStamp s).1 ∧ stampLt (issueStamp s).1 ⟨s.time.t, 0⟩ = false) ∧
  (∀ s l, s.time.last = some l → stampLt l (issueStamp s).1 = true) ∧
  (∀ m s, msgTaken m s = true → ∃ l, (msgState m s).time.last = some l ∧ stampLt m.stamp l = true)

/-- R38: the stamp rebuilt from 48 bits matches them, lies within 2^31 ns of its source's count, and is the only one that does. -/
def Obligations.RebuiltStampIsUnique : Prop :=
  ∀ r low x, 2 ^ 31 ≤ r → low < 2 ^ 48 →
    ((x.ns % 2 ^ 32 = low / 65536 ∧ x.lc = low % 65536 ∧ r - 2 ^ 31 ≤ x.ns ∧ x.ns < r + 2 ^ 31) ↔ x = rebuildStamp r low)

/-- R37: recorded events are ordered by (stamp, module number, source sequence), field by field, and totally. -/
def Obligations.EventOrderIsTotal : Prop :=
  (∀ a b, eventLt a b = true ↔ a.1.ns < b.1.ns ∨ a.1.ns = b.1.ns ∧ (a.1.lc < b.1.lc ∨ a.1.lc = b.1.lc ∧
    (a.2.1 < b.2.1 ∨ a.2.1 = b.2.1 ∧ a.2.2 < b.2.2))) ∧
  (∀ a, eventLt a a = false) ∧
  (∀ a b c, eventLt a b = true → eventLt b c = true → eventLt a c = true) ∧
  (∀ a b, a ≠ b → eventLt a b = true ∨ eventLt b a = true)

/-- R65, R69: a tail behind the current one, or more than 256 entries ahead of the head, is ignored and counted as a violation; any other tail
exposes the entries up to it. R80, R96: a command whose opcode the manual does not define, and which stands next in its mailbox, is answered
BAD_OPCODE, which counts as a violation. -/
def Obligations.DoorbellTail : Prop :=
  (∀ dt m tail w ide, m ≤ 16 → Occurs (.mbxCmdTailWrite dt m tail w ide) dt
    (fun s => reachable s m && !resetting s m && !ideRefused s m ide && !quarantined s m
      && (2 ^ 31 ≤ (tail + 2 ^ 32 - (mbxOf s m).cmdTail) % 2 ^ 32 || 256 < (tail + 2 ^ 32 - (mbxOf s m).cmdHead) % 2 ^ 32))
    fun s => violation m (putEntries m w s)) ∧
  (∀ dt m tail w ide, m ≤ 16 → Occurs (.mbxCmdTailWrite dt m tail w ide) dt
    (fun s => reachable s m && !resetting s m && !ideRefused s m ide && !quarantined s m
      && (tail + 2 ^ 32 - (mbxOf s m).cmdTail) % 2 ^ 32 < 2 ^ 31 && (tail + 2 ^ 32 - (mbxOf s m).cmdHead) % 2 ^ 32 ≤ 256)
    fun s => skipUnknown m (expose m ((tail + 2 ^ 32 - (mbxOf s m).cmdTail) % 2 ^ 32)
      (takeInput (.doorbell m tail) (putEntries m w s)))) ∧
  (∀ m s e r, (mbxOf s m).exposed = e :: r → opKnown e.head.opcode = false → reachable s m = true → quarantined s m = false →
    resetting s m = false → mustWait s m e.head.fence = false → boardAlone s = false → inService s = false →
    skipUnknown m s = refuseUnknown m r.length (close ⟨m, e.head.tag, e.head.opcode, e.stamp, e.late, true, true⟩
      ⟨modMbx m (fun b => { b with exposed := r, cmdHead := wrapAdd 32 b.cmdHead e.entries }) s, .badOpcode, [], none, true, false⟩))

/-- R86: staged commands are answered BAD_STATE while their function is RUNNING, STOPPING or STARTING, and BUSY when another mailbox holds it. -/
def Obligations.StagingIsRefused : Prop :=
  (∀ fid x c s, (funcOf s fid).state = .running ∨ (funcOf s fid).state = .stopping ∨ (funcOf s fid).state = .starting →
    stage fid x c s = no s .badState) ∧
  (∀ fid x c s, quiesced s fid = true → (funcOf s fid).holder ≠ some c.mb → stage fid x c s = no s .busy) ∧
  (∀ h m, Serves (.pwrSetDroop h m) h { op := 0x0905, who := who0Side } (fun _ s => !quiesced s fidPower) fun _ s => no s .badState) ∧
  (∀ h cfg, Serves (.paceGroupSet h cfg) h { op := 0x0910, who := who0Side }
    (fun c s => quiesced s fidPace && (funcOf s fidPace).holder ≠ some c.mb) fun _ s => no s .busy)

/-- R40, R41: a lot with limit ≤ base, over an unreachable or missing address, or over another valid lot of its context is refused with BAD_ARG;
and the lots of a context stay apart whatever LOT_SET is asked. -/
def Obligations.LotsStayApart : Prop :=
  (∀ h c i e, i < 256 → e.extractLsb' 56 8 = 0 → e.extractLsb' 46 3 = 0 → lotValid e = true →
    Serves (.lotSet h c i e) h { op := 0x0310, who := who0Own, ctx := some c, conf := true }
      (fun _ s => ctxDefined s c && (ctxOf s c).state ≠ .destroying
        && (lotLimit e ≤ lotBase e || !lotReachable (lotBase e) (lotLimit e) || lotOverlaps s c i (lotBase e) (lotLimit e)))
      fun _ s => no s .badArg) ∧
  (∀ h c i e s t, LotsApart s c → c < 16 → exec (.lotSet h c i e) s = .next t → LotsApart t c)

/-- R542: P_S is by its terms the least of them, and P_P is 1.2 times P_S. -/
def Obligations.LimitIsLeastTerm : Prop :=
  (∀ s p, p ∈ [((capTerm s : Nat) : Rat) + lentNow s, ((s.nv.localCap.getD 750 : Nat) : Rat), ((flowLimit s : Nat) : Rat),
    ((inletLimit s : Nat) : Rat), if s.pwr.cool.leak then 150 else 750, 750] → (limitOf s).1 ≤ p) ∧
  (∀ s, (limitOf s).1 ∈ [((capTerm s : Nat) : Rat) + lentNow s, ((s.nv.localCap.getD 750 : Nat) : Rat), ((flowLimit s : Nat) : Rat),
    ((inletLimit s : Nat) : Rat), if s.pwr.cool.leak then 150 else 750, 750]) ∧
  (∀ s, powerHeld s = false → (renewLimit s).pwr.pace.ps = (limitOf s).1 ∧ peakOf (renewLimit s) = (renewLimit s).pwr.pace.ps * 12 / 10)

/-- R600: the unattributed counter receives E − Σ E_c, and after every period the sum of the context counters plus the unattributed counter
equals PWR_ENERGY, if it did before. -/
def Obligations.EnergyIsAccounted : Prop :=
  (∀ dt shares rest, Reaches (.attributionPeriod dt shares rest) dt always fun s t =>
    let e := s.pwr.input.fine / 100000
    let a := (shares.map fun x => x.parts.foldl (· + ·) 0).foldl (· + ·) 0 + rest
    t.pwr.input.energy = s.pwr.input.energy + e ∧ t.pwr.input.unattributed = s.pwr.input.unattributed + (e - energyGiven e a shares)) ∧
  (∀ dt shares rest s t, (∀ x, x ∈ shares → x.ctx < 16) → contextEnergy s + s.pwr.input.unattributed = s.pwr.input.energy →
    exec (.attributionPeriod dt shares rest) s = .next t → contextEnergy t + t.pwr.input.unattributed = t.pwr.input.energy)

/-- R199, R200, R214, R216: every element of a floating format, but for NaN, is what its value is encoded as. -/
def Obligations.ElementsSurviveEncoding : Prop :=
  ∀ code f b, floatFmt code = some f → b < 2 ^ (1 + f.ebits + f.mbits) → decodeElem code b ≠ .nan →
    convert code false .nearest (decodeElem code b) = { bits := b }

/-- Bytes that are stored are read back, and every other stored byte is as it was, in any memory in its canonical form. R43, R51, R245, R276: a
host's write that a lot lets pass stores exactly its bytes: they read back, and every byte outside the 16-byte words that it touches is as it was,
where no word of memory holds an error, none waits under a yard's copy, no page waits for a sweep, and the burst is stored under its page's key;
and an injection changes no byte outside its word. -/
def Obligations.StoredBytesAreRead : Prop :=
  (∀ a l s i, MemoryCanonical s → i < l.length → cellRead (putBytes a l s).mem.bytes (a + i) = l.getD i 0) ∧
  (∀ a l s b, MemoryCanonical s → b < a ∨ a + l.length ≤ b → cellRead (putBytes a l s).mem.bytes b = cellRead s.mem.bytes b) ∧
  (∀ lo hi s b, cellRead (clearRange lo hi s).mem.bytes b = if lo ≤ b ∧ b < hi then 0 else cellRead s.mem.bytes b) ∧
  (∀ dt vf off data t, Reaches (.bar4Write dt vf off data t) dt
    (fun s => bar4Open s vf && !ideRefused s vf t && off + data.length ≤ 0x10000000000
      && lotPasses s (vf - 1) off data.length .w true && memoryWf s)
    fun _ u => ∀ i, i < data.length → cellRead u.mem.bytes (off + i) = data.getD i 0) ∧
  (∀ dt vf off data t, Reaches (.bar4Write dt vf off data t) dt
    (fun s => bar4Open s vf && !ideRefused s vf t && off + data.length ≤ 0x10000000000
      && lotPasses s (vf - 1) off data.length .w true && memoryWf s && s.mem.hidden.isEmpty && s.mem.chk.isEmpty
      && (List.range 16).all fun c => (ctxOf s c).oldPages.isEmpty)
    fun s u => ∀ b, b < off / 16 * 16 ∨ (off + data.length + 15) / 16 * 16 ≤ b → tget s.mem.bkey (b / 256) 0 = keyFor s b →
      cellRead u.mem.bytes b = cellRead s.mem.bytes b) ∧
  (∀ a d x s b, MemoryCanonical s → b < a ∨ a + 16 ≤ b → cellRead (inject a d x s).mem.bytes b = cellRead s.mem.bytes b)
end

