-- ==== Sys2Proof/Laws/Tab.lean ====
section
/-! SUPPORT. What a sparse table reads as after a write, and the order of its keys. -/
namespace Sys2Proof.Machine

theorem tget_tset {α : Type} (t : Tab α) (k j : Nat) (v d : α) : tget (tset t k v) j d = if k = j then v else tget t j d := by
  induction t with
  | nil => simp [tset, tget]
  | cons x r ih =>
    obtain ⟨a, b⟩ := x
    simp only [tset]
    split
    · simp only [tget]
    · split
      · subst k; simp only [tget]; split <;> simp_all
      · simp only [tget, ih]; split <;> simp_all

@[simp] theorem tget_tset_same {α : Type} (t : Tab α) (k : Nat) (v d : α) : tget (tset t k v) k d = v := by simp [tget_tset]

theorem tget_tset_ne {α : Type} (t : Tab α) {k j : Nat} (v d : α) (h : k ≠ j) : tget (tset t k v) j d = tget t j d := by
  simp [tget_tset, h]

@[simp] theorem tget_tmod_same {α : Type} (t : Tab α) (k : Nat) (d : α) (f : α → α) : tget (tmod t k d f) k d = f (tget t k d) := by
  simp [tmod]

theorem tget_tmod {α : Type} (t : Tab α) (k j : Nat) (d : α) (f : α → α) :
    tget (tmod t k d f) j d = if k = j then f (tget t k d) else tget t j d := by simp [tmod, tget_tset]

theorem tget_tdel {α : Type} (t : Tab α) (k j : Nat) (d : α) : tget (tdel t k) j d = if k = j then d else tget t j d := by
  induction t with
  | nil => simp [tdel, tget]
  | cons x r ih => obtain ⟨a, b⟩ := x; simp only [tdel]; split <;> simp only [tget, ih] <;> grind

end Sys2Proof.Machine
end

