-- ==== Sys2Proof/Laws/Ops.lean ====
section
/-! SUPPORT. What the shared operations can change: stamps, mailbox responses, notifications and recorder entries leave everything
but the stamp unit's L, the mailboxes' responses, the recorder and what is sent to a peer as it was. -/
namespace Sys2Proof.Machine

/-! ### The stamp unit, mailboxes and functions -/

theorem mbxOf_modMbx (m j : Nat) (f : Mailbox → Mailbox) (s : State) :
    mbxOf (modMbx m f s) j = if m = j then f (mbxOf s m) else mbxOf s j := tget_tmod ..

theorem funcOf_modFunc (m j : Nat) (f : Func → Func) (s : State) :
    funcOf (modFunc m f s) j = if m = j then f (funcOf s m) else funcOf s j := tget_tmod ..

/-- R72: the stamp issued is later than L, and it becomes L. -/
theorem issueStamp_last (s : State) : (issueStamp s).2.time.last = some (issueStamp s).1 := rfl

/-! ### What a response, a notification or a message to a peer changes -/

/-- Only a mailbox's responses and notifications differ. -/
def BoxTalks (a b : Mailbox) : Prop :=
  b = { a with rsps := b.rsps, rspTail := b.rspTail, rspHead := b.rspHead, waiting := b.waiting, held := b.held
               notifyLost := b.notifyLost, lostFlag := b.lostFlag }

/-- Only L, the mailboxes' responses, their interrupts, the output port's journals, and what goes to other modules differ. -/
structure Talks (s t : State) : Prop where
  time : t.time = { s.time with last := t.time.last }
  sq : t.sq = { s.sq with mbx := t.sq.mbx, msix := t.sq.msix, vote := t.sq.vote }
  boxes : ∀ m, BoxTalks (mbxOf s m) (mbxOf t m)
  net : t.net = { s.net with tx := t.net.tx, lanes := t.net.lanes, ops := t.net.ops, tagWait := t.net.tagWait, ships := t.net.ships, ports := t.net.ports }
  tray : t.tray = { s.tray with ibis := t.tray.ibis }
  rest : t = { s with time := t.time, sq := t.sq, net := t.net, tray := t.tray }

theorem Talks.refl (s : State) : Talks s s := ⟨rfl, rfl, fun _ => rfl, rfl, rfl, rfl⟩

theorem Talks.trans {s t u : State} (a : Talks s t) (b : Talks t u) : Talks s u := by
  obtain ⟨a1, a2, a3, a4, a5, a6⟩ := a
  obtain ⟨b1, b2, b3, b4, b5, b6⟩ := b
  refine ⟨?_, ?_, fun m => ?_, ?_, ?_, ?_⟩
  · rw [b1, a1]
  · rw [b2, a2]
  · have h := a3 m
    have k := b3 m
    unfold BoxTalks at *
    rw [k, h]
  · rw [b4, a4]
  · rw [b5, a5]
  · rw [b6, a6]

theorem issueStamp_talks (s : State) : Talks s (issueStamp s).2 := ⟨rfl, rfl, fun _ => rfl, rfl, rfl, rfl⟩

theorem releaseWord_talks (s : State) : Talks s (releaseWord s) := ⟨rfl, rfl, fun _ => rfl, rfl, rfl, rfl⟩

theorem takeInput_talks (i : SqInput) (s : State) : Talks s (takeInput i s) := ⟨rfl, rfl, fun _ => rfl, rfl, rfl, rfl⟩

theorem modPort_talks (p : Nat) (f : Port → Port) (s : State) : Talks s (modPort p f s) := ⟨rfl, rfl, fun _ => rfl, rfl, rfl, rfl⟩

theorem modLane_talks (p : Nat) (f : Lane → Lane) (s : State) : Talks s (modLane p f s) := ⟨rfl, rfl, fun _ => rfl, rfl, rfl, rfl⟩

theorem modMbx_talks (m : Nat) (f : Mailbox → Mailbox) (h : ∀ b, BoxTalks b (f b)) (s : State) : Talks s (modMbx m f s) := by
  refine ⟨rfl, rfl, fun j => ?_, rfl, rfl, rfl⟩
  rw [mbxOf_modMbx]
  split
  · next e => subst e; exact h _
  · rfl

theorem transmit_talks (x : Sent) (s : State) : Talks s (transmit x s) := by
  unfold transmit
  split
  · exact .refl s
  · exact ⟨rfl, rfl, fun _ => rfl, rfl, rfl, rfl⟩

theorem notePage_talks (x : Sent) (s : State) : Talks s (notePage x s) := ⟨rfl, rfl, fun _ => rfl, rfl, rfl, rfl⟩

theorem drainLane_talks (n fuel : Nat) (s : State) : Talks s (drainLane n fuel s) := by
  induction fuel generalizing s with
  | zero => exact .refl s
  | succ k ih =>
    unfold drainLane
    dsimp only
    split
    · exact .refl s
    · split
      · exact .refl s
      · exact (((modLane_talks ..).trans (transmit_talks ..)).trans (notePage_talks ..)).trans (ih _)

theorem laneFor_talks (c p pc port : Nat) (b : Bool) (s : State) : Talks s (laneFor c p pc port b s).2 := by
  unfold laneFor openLane sendOpen
  split
  · exact .refl s
  · split
    · exact .refl s
    · exact (modLane_talks ..).trans (transmit_talks ..)

theorem sendOp_talks (n : Nat) (p : OpFor) (x : Sent) (s : State) : Talks s (sendOp n p x s) := by
  unfold sendOp sendLane
  split
  · exact ⟨rfl, rfl, fun _ => rfl, rfl, rfl, rfl⟩
  · refine Talks.trans ?_ (Talks.trans (modLane_talks ..) (drainLane_talks ..))
    exact ⟨rfl, rfl, fun _ => rfl, rfl, rfl, rfl⟩

theorem sendControl_talks (m : Nat) (d : List Byte) (s : State) : Talks s (sendControl m d s) := by
  unfold sendControl
  split
  · exact .refl s
  · next b _ =>
    have h := laneFor_talks 0 b.peer 0 ((portTo s b.peer).getD 0) true s
    split
    · next n t e => rw [e] at h; exact h.trans (sendOp_talks ..)
    · next t e => rw [e] at h; exact h

theorem takeResponses_talks (m : Nat) (s : State) : Talks s (takeResponses m s) := by
  unfold takeResponses
  split
  · exact modMbx_talks _ _ (fun _ => by unfold BoxTalks; rfl) _
  · exact .refl s

theorem putRsp_talks (m : Nat) (r : Response) (s : State) : Talks s (putRsp m r s) := by
  unfold putRsp
  dsimp only
  have h : Talks s (takeResponses m (releaseWord (modMbx m (fun b => { b with
      rsps := { r with rspStamp := (issueStamp s).1 } :: b.rsps, rspTail := wrapAdd 32 b.rspTail (rspEntries r) }) (issueStamp s).2))) :=
    (((issueStamp_talks s).trans (modMbx_talks _ _ (fun _ => by unfold BoxTalks; rfl) _)).trans (releaseWord_talks _)).trans
      (takeResponses_talks ..)
  split
  · exact h.trans (sendControl_talks ..)
  · split
    · exact h.trans ⟨rfl, rfl, fun _ => rfl, rfl, rfl, rfl⟩
    · split
      · exact h.trans ⟨rfl, rfl, fun _ => rfl, rfl, rfl, rfl⟩
      · exact h

theorem writeRsp_talks (m : Nat) (r : Response) (s : State) : Talks s (writeRsp m r s) := by
  unfold writeRsp
  dsimp only
  split
  · exact putRsp_talks ..
  · exact modMbx_talks _ _ (fun _ => by unfold BoxTalks; rfl) _

theorem notifyOne_talks (m : Nat) (n : Notif) (s : State) : Talks s (notifyOne m n s) := by
  unfold notifyOne
  dsimp only
  split
  · exact (modMbx_talks m _ (fun _ => by unfold BoxTalks; rfl) s).trans (putRsp_talks ..)
  · split <;> exact modMbx_talks _ _ (fun _ => by unfold BoxTalks; rfl) _

theorem foldl_talks {α : Type} (f : State → α → State) (h : ∀ s a, Talks s (f s a)) (l : List α) (s : State) :
    Talks s (l.foldl f s) := by
  induction l generalizing s with
  | nil => exact .refl s
  | cons a r ih => exact (h s a).trans (ih _)

theorem notify_talks (c k x : Nat) (s : State) : Talks s (notify c k x s) := by
  unfold notify
  refine foldl_talks _ (fun s m => ?_) _ _
  split
  · exact notifyOne_talks ..
  · exact .refl s

theorem finishWork_talks (w : Work) (st : Status) (d : List Fld) (s : State) : Talks s (finishWork w st d s) := by
  unfold finishWork
  split
  · exact .refl s
  · exact writeRsp_talks ..

/-! ### What a recorder entry changes -/

/-- As `Talks`, but the recorder's RAM may differ as well. -/
def Records (s t : State) : Prop := Talks { s with rec_ := t.rec_ } t

theorem Talks.records {s t : State} (h : Talks s t) : Records s t := by
  unfold Records
  have e : t.rec_ = s.rec_ := by rw [h.rest]
  rw [e]
  exact h

theorem Records.trans {s t u : State} (a : Records s t) (b : Records t u) : Records s u := by
  have h : Talks { s with rec_ := u.rec_ } { t with rec_ := u.rec_ } := by
    obtain ⟨a1, a2, a3, a4, a5, a6⟩ := a
    refine ⟨a1, a2, a3, a4, a5, ?_⟩
    rw [a6]
  exact h.trans b

theorem Records.refl (s : State) : Records s s := (Talks.refl s).records

theorem addRec_records (c v x : Nat) (k : Option Nat) (r : Bool) (p : List Fld) (s : State) : Records s (addRec c v x k r p s) := by
  unfold addRec
  dsimp only
  split
  · exact ⟨rfl, rfl, fun _ => rfl, rfl, rfl, rfl⟩
  · split <;> exact ⟨rfl, rfl, fun _ => rfl, rfl, rfl, rfl⟩

theorem setRec_records (r : RecSt) (s : State) : Records s { s with rec_ := r } := ⟨rfl, rfl, fun _ => rfl, rfl, rfl, rfl⟩

theorem startFlush_records (s : State) : Records s (startFlush s) := by
  unfold startFlush
  dsimp only
  split
  · exact setRec_records ..
  · exact ((setRec_records ..).trans (addRec_records ..)).trans (setRec_records ..)

theorem endFreezeEarly_records (s : State) : Records s (endFreezeEarly s) := by
  unfold endFreezeEarly
  split
  · exact (setRec_records ..).trans (addRec_records ..)
  · exact .refl s

theorem record_records (c v x : Nat) (k : Option Nat) (r : Bool) (p : List Fld) (s : State) : Records s (record c v x k r p s) := by
  refine (takeInput_talks (.event c) s).records.trans ?_
  unfold record
  generalize takeInput (.event c) s = s
  dsimp only
  split
  · exact ⟨rfl, rfl, fun _ => rfl, rfl, rfl, rfl⟩
  · have h : Records s (if 2 ≤ v then notify 3 c x (addRec c v x k r p s) else addRec c v x k r p s) := by
      split
      · exact (addRec_records ..).trans (notify_talks ..).records
      · exact addRec_records ..
    change Records s ((fun u => if v = 3 then startFlush (endFreezeEarly u)
      else if 12288 ≤ u.rec_.ram.length && !frozen u && u.rec_.flushing.isNone then startFlush u else u)
      (if 2 ≤ v then notify 3 c x (addRec c v x k r p s) else addRec c v x k r p s))
    generalize (if 2 ≤ v then notify 3 c x (addRec c v x k r p s) else addRec c v x k r p s) = u at *
    dsimp only
    split
    · exact h.trans ((endFreezeEarly_records _).trans (startFlush_records _))
    · split
      · exact h.trans (startFlush_records _)
      · exact h

theorem recordSq_records (c v : Nat) (p : List Fld) (s : State) : Records s (recordSq c v p s) := record_records ..

end Sys2Proof.Machine
end

