-- ==== Sys2Proof/Laws/Frames.lean ====
section
/-! SUPPORT. What responses, notifications, recorder entries and messages to other modules leave unchanged, field by field. -/
namespace Sys2Proof.Machine

@[simp] theorem transmit_benches (x : Sent) (s : State) : (transmit x s).benches = s.benches := by rw [(transmit_talks x s).rest]
@[simp] theorem transmit_serve (x : Sent) (s : State) : (transmit x s).serve = s.serve := by rw [(transmit_talks x s).rest]
@[simp] theorem transmit_opr (x : Sent) (s : State) : (transmit x s).opr = s.opr := by rw [(transmit_talks x s).rest]
@[simp] theorem transmit_vid (x : Sent) (s : State) : (transmit x s).vid = s.vid := by rw [(transmit_talks x s).rest]
@[simp] theorem transmit_red (x : Sent) (s : State) : (transmit x s).red = s.red := by rw [(transmit_talks x s).rest]
@[simp] theorem transmit_pwr (x : Sent) (s : State) : (transmit x s).pwr = s.pwr := by rw [(transmit_talks x s).rest]
@[simp] theorem transmit_mem (x : Sent) (s : State) : (transmit x s).mem = s.mem := by rw [(transmit_talks x s).rest]
@[simp] theorem transmit_gau (x : Sent) (s : State) : (transmit x s).gau = s.gau := by rw [(transmit_talks x s).rest]
@[simp] theorem transmit_nv (x : Sent) (s : State) : (transmit x s).nv = s.nv := by rw [(transmit_talks x s).rest]
@[simp] theorem transmit_boot (x : Sent) (s : State) : (transmit x s).boot = s.boot := by rw [(transmit_talks x s).rest]
@[simp] theorem transmit_sec (x : Sent) (s : State) : (transmit x s).sec = s.sec := by rw [(transmit_talks x s).rest]
@[simp] theorem transmit_hostWrites (x : Sent) (s : State) : (transmit x s).hostWrites = s.hostWrites := by rw [(transmit_talks x s).rest]
@[simp] theorem transmit_free (x : Sent) (s : State) : (transmit x s).free = s.free := by rw [(transmit_talks x s).rest]
@[simp] theorem transmit_pending (x : Sent) (s : State) : (transmit x s).pending = s.pending := by rw [(transmit_talks x s).rest]
@[simp] theorem transmit_rec (x : Sent) (s : State) : (transmit x s).rec_ = s.rec_ := by rw [(transmit_talks x s).rest]
@[simp] theorem transmit_t (x : Sent) (s : State) : (transmit x s).time.t = s.time.t := by rw [(transmit_talks x s).time]
@[simp] theorem transmit_up (x : Sent) (s : State) : (transmit x s).time.up = s.time.up := by rw [(transmit_talks x s).time]
@[simp] theorem transmit_funcs (x : Sent) (s : State) : (transmit x s).sq.funcs = s.sq.funcs := by rw [(transmit_talks x s).sq]
@[simp] theorem transmit_cores (x : Sent) (s : State) : (transmit x s).sq.cores = s.sq.cores := by rw [(transmit_talks x s).sq]
@[simp] theorem transmit_mode (x : Sent) (s : State) : (transmit x s).sq.mode = s.sq.mode := by rw [(transmit_talks x s).sq]
@[simp] theorem transmit_work (x : Sent) (s : State) : (transmit x s).sq.work = s.sq.work := by rw [(transmit_talks x s).sq]
@[simp] theorem transmit_modes (x : Sent) (s : State) : (transmit x s).net.modes = s.net.modes := by rw [(transmit_talks x s).net]
@[simp] theorem transmit_peers (x : Sent) (s : State) : (transmit x s).net.peers = s.net.peers := by rw [(transmit_talks x s).net]
@[simp] theorem transmit_sister (x : Sent) (s : State) : (transmit x s).net.sister = s.net.sister := by rw [(transmit_talks x s).net]
@[simp] theorem transmit_alerts (x : Sent) (s : State) : (transmit x s).tray.alerts = s.tray.alerts := by rw [(transmit_talks x s).tray]
@[simp] theorem transmit_linkUp (x : Sent) (s : State) : (transmit x s).tray.linkUp = s.tray.linkUp := by rw [(transmit_talks x s).tray]
@[simp] theorem transmit_keepAlive (x : Sent) (s : State) : (transmit x s).tray.keepAlive = s.tray.keepAlive := by rw [(transmit_talks x s).tray]
@[simp] theorem transmit_thermTrip (x : Sent) (s : State) : (transmit x s).tray.thermTrip = s.tray.thermTrip := by rw [(transmit_talks x s).tray]
@[simp] theorem transmit_func (x : Sent) (s : State) (fid : Nat) : funcOf (transmit x s) fid = funcOf s fid := by simp [funcOf]
@[simp] theorem transmit_now (x : Sent) (s : State) : now (transmit x s) = now s := by simp [now]

@[simp] theorem writeRsp_benches (m : Nat) (r : Response) (s : State) : (writeRsp m r s).benches = s.benches := by rw [(writeRsp_talks m r s).rest]
@[simp] theorem writeRsp_serve (m : Nat) (r : Response) (s : State) : (writeRsp m r s).serve = s.serve := by rw [(writeRsp_talks m r s).rest]
@[simp] theorem writeRsp_opr (m : Nat) (r : Response) (s : State) : (writeRsp m r s).opr = s.opr := by rw [(writeRsp_talks m r s).rest]
@[simp] theorem writeRsp_vid (m : Nat) (r : Response) (s : State) : (writeRsp m r s).vid = s.vid := by rw [(writeRsp_talks m r s).rest]
@[simp] theorem writeRsp_red (m : Nat) (r : Response) (s : State) : (writeRsp m r s).red = s.red := by rw [(writeRsp_talks m r s).rest]
@[simp] theorem writeRsp_pwr (m : Nat) (r : Response) (s : State) : (writeRsp m r s).pwr = s.pwr := by rw [(writeRsp_talks m r s).rest]
@[simp] theorem writeRsp_mem (m : Nat) (r : Response) (s : State) : (writeRsp m r s).mem = s.mem := by rw [(writeRsp_talks m r s).rest]
@[simp] theorem writeRsp_gau (m : Nat) (r : Response) (s : State) : (writeRsp m r s).gau = s.gau := by rw [(writeRsp_talks m r s).rest]
@[simp] theorem writeRsp_nv (m : Nat) (r : Response) (s : State) : (writeRsp m r s).nv = s.nv := by rw [(writeRsp_talks m r s).rest]
@[simp] theorem writeRsp_boot (m : Nat) (r : Response) (s : State) : (writeRsp m r s).boot = s.boot := by rw [(writeRsp_talks m r s).rest]
@[simp] theorem writeRsp_sec (m : Nat) (r : Response) (s : State) : (writeRsp m r s).sec = s.sec := by rw [(writeRsp_talks m r s).rest]
@[simp] theorem writeRsp_hostWrites (m : Nat) (r : Response) (s : State) : (writeRsp m r s).hostWrites = s.hostWrites := by rw [(writeRsp_talks m r s).rest]
@[simp] theorem writeRsp_free (m : Nat) (r : Response) (s : State) : (writeRsp m r s).free = s.free := by rw [(writeRsp_talks m r s).rest]
@[simp] theorem writeRsp_pending (m : Nat) (r : Response) (s : State) : (writeRsp m r s).pending = s.pending := by rw [(writeRsp_talks m r s).rest]
@[simp] theorem writeRsp_rec (m : Nat) (r : Response) (s : State) : (writeRsp m r s).rec_ = s.rec_ := by rw [(writeRsp_talks m r s).rest]
@[simp] theorem writeRsp_t (m : Nat) (r : Response) (s : State) : (writeRsp m r s).time.t = s.time.t := by rw [(writeRsp_talks m r s).time]
@[simp] theorem writeRsp_up (m : Nat) (r : Response) (s : State) : (writeRsp m r s).time.up = s.time.up := by rw [(writeRsp_talks m r s).time]
@[simp] theorem writeRsp_funcs (m : Nat) (r : Response) (s : State) : (writeRsp m r s).sq.funcs = s.sq.funcs := by rw [(writeRsp_talks m r s).sq]
@[simp] theorem writeRsp_cores (m : Nat) (r : Response) (s : State) : (writeRsp m r s).sq.cores = s.sq.cores := by rw [(writeRsp_talks m r s).sq]
@[simp] theorem writeRsp_mode (m : Nat) (r : Response) (s : State) : (writeRsp m r s).sq.mode = s.sq.mode := by rw [(writeRsp_talks m r s).sq]
@[simp] theorem writeRsp_work (m : Nat) (r : Response) (s : State) : (writeRsp m r s).sq.work = s.sq.work := by rw [(writeRsp_talks m r s).sq]
@[simp] theorem writeRsp_modes (m : Nat) (r : Response) (s : State) : (writeRsp m r s).net.modes = s.net.modes := by rw [(writeRsp_talks m r s).net]
@[simp] theorem writeRsp_peers (m : Nat) (r : Response) (s : State) : (writeRsp m r s).net.peers = s.net.peers := by rw [(writeRsp_talks m r s).net]
@[simp] theorem writeRsp_sister (m : Nat) (r : Response) (s : State) : (writeRsp m r s).net.sister = s.net.sister := by rw [(writeRsp_talks m r s).net]
@[simp] theorem writeRsp_alerts (m : Nat) (r : Response) (s : State) : (writeRsp m r s).tray.alerts = s.tray.alerts := by rw [(writeRsp_talks m r s).tray]
@[simp] theorem writeRsp_linkUp (m : Nat) (r : Response) (s : State) : (writeRsp m r s).tray.linkUp = s.tray.linkUp := by rw [(writeRsp_talks m r s).tray]
@[simp] theorem writeRsp_keepAlive (m : Nat) (r : Response) (s : State) : (writeRsp m r s).tray.keepAlive = s.tray.keepAlive := by rw [(writeRsp_talks m r s).tray]
@[simp] theorem writeRsp_thermTrip (m : Nat) (r : Response) (s : State) : (writeRsp m r s).tray.thermTrip = s.tray.thermTrip := by rw [(writeRsp_talks m r s).tray]
@[simp] theorem writeRsp_func (m : Nat) (r : Response) (s : State) (fid : Nat) : funcOf (writeRsp m r s) fid = funcOf s fid := by simp [funcOf]
@[simp] theorem writeRsp_now (m : Nat) (r : Response) (s : State) : now (writeRsp m r s) = now s := by simp [now]

@[simp] theorem notify_benches (c k x : Nat) (s : State) : (notify c k x s).benches = s.benches := by rw [(notify_talks c k x s).rest]
@[simp] theorem notify_serve (c k x : Nat) (s : State) : (notify c k x s).serve = s.serve := by rw [(notify_talks c k x s).rest]
@[simp] theorem notify_opr (c k x : Nat) (s : State) : (notify c k x s).opr = s.opr := by rw [(notify_talks c k x s).rest]
@[simp] theorem notify_vid (c k x : Nat) (s : State) : (notify c k x s).vid = s.vid := by rw [(notify_talks c k x s).rest]
@[simp] theorem notify_red (c k x : Nat) (s : State) : (notify c k x s).red = s.red := by rw [(notify_talks c k x s).rest]
@[simp] theorem notify_pwr (c k x : Nat) (s : State) : (notify c k x s).pwr = s.pwr := by rw [(notify_talks c k x s).rest]
@[simp] theorem notify_mem (c k x : Nat) (s : State) : (notify c k x s).mem = s.mem := by rw [(notify_talks c k x s).rest]
@[simp] theorem notify_gau (c k x : Nat) (s : State) : (notify c k x s).gau = s.gau := by rw [(notify_talks c k x s).rest]
@[simp] theorem notify_nv (c k x : Nat) (s : State) : (notify c k x s).nv = s.nv := by rw [(notify_talks c k x s).rest]
@[simp] theorem notify_boot (c k x : Nat) (s : State) : (notify c k x s).boot = s.boot := by rw [(notify_talks c k x s).rest]
@[simp] theorem notify_sec (c k x : Nat) (s : State) : (notify c k x s).sec = s.sec := by rw [(notify_talks c k x s).rest]
@[simp] theorem notify_hostWrites (c k x : Nat) (s : State) : (notify c k x s).hostWrites = s.hostWrites := by rw [(notify_talks c k x s).rest]
@[simp] theorem notify_free (c k x : Nat) (s : State) : (notify c k x s).free = s.free := by rw [(notify_talks c k x s).rest]
@[simp] theorem notify_pending (c k x : Nat) (s : State) : (notify c k x s).pending = s.pending := by rw [(notify_talks c k x s).rest]
@[simp] theorem notify_rec (c k x : Nat) (s : State) : (notify c k x s).rec_ = s.rec_ := by rw [(notify_talks c k x s).rest]
@[simp] theorem notify_t (c k x : Nat) (s : State) : (notify c k x s).time.t = s.time.t := by rw [(notify_talks c k x s).time]
@[simp] theorem notify_up (c k x : Nat) (s : State) : (notify c k x s).time.up = s.time.up := by rw [(notify_talks c k x s).time]
@[simp] theorem notify_funcs (c k x : Nat) (s : State) : (notify c k x s).sq.funcs = s.sq.funcs := by rw [(notify_talks c k x s).sq]
@[simp] theorem notify_cores (c k x : Nat) (s : State) : (notify c k x s).sq.cores = s.sq.cores := by rw [(notify_talks c k x s).sq]
@[simp] theorem notify_mode (c k x : Nat) (s : State) : (notify c k x s).sq.mode = s.sq.mode := by rw [(notify_talks c k x s).sq]
@[simp] theorem notify_work (c k x : Nat) (s : State) : (notify c k x s).sq.work = s.sq.work := by rw [(notify_talks c k x s).sq]
@[simp] theorem notify_modes (c k x : Nat) (s : State) : (notify c k x s).net.modes = s.net.modes := by rw [(notify_talks c k x s).net]
@[simp] theorem notify_peers (c k x : Nat) (s : State) : (notify c k x s).net.peers = s.net.peers := by rw [(notify_talks c k x s).net]
@[simp] theorem notify_sister (c k x : Nat) (s : State) : (notify c k x s).net.sister = s.net.sister := by rw [(notify_talks c k x s).net]
@[simp] theorem notify_alerts (c k x : Nat) (s : State) : (notify c k x s).tray.alerts = s.tray.alerts := by rw [(notify_talks c k x s).tray]
@[simp] theorem notify_linkUp (c k x : Nat) (s : State) : (notify c k x s).tray.linkUp = s.tray.linkUp := by rw [(notify_talks c k x s).tray]
@[simp] theorem notify_keepAlive (c k x : Nat) (s : State) : (notify c k x s).tray.keepAlive = s.tray.keepAlive := by rw [(notify_talks c k x s).tray]
@[simp] theorem notify_thermTrip (c k x : Nat) (s : State) : (notify c k x s).tray.thermTrip = s.tray.thermTrip := by rw [(notify_talks c k x s).tray]
@[simp] theorem notify_func (c k x : Nat) (s : State) (fid : Nat) : funcOf (notify c k x s) fid = funcOf s fid := by simp [funcOf]
@[simp] theorem notify_now (c k x : Nat) (s : State) : now (notify c k x s) = now s := by simp [now]

@[simp] theorem record_benches (c v x : Nat) (k : Option Nat) (r : Bool) (p : List Fld) (s : State) : (record c v x k r p s).benches = s.benches := by rw [(record_records c v x k r p s).rest]
@[simp] theorem record_serve (c v x : Nat) (k : Option Nat) (r : Bool) (p : List Fld) (s : State) : (record c v x k r p s).serve = s.serve := by rw [(record_records c v x k r p s).rest]
@[simp] theorem record_opr (c v x : Nat) (k : Option Nat) (r : Bool) (p : List Fld) (s : State) : (record c v x k r p s).opr = s.opr := by rw [(record_records c v x k r p s).rest]
@[simp] theorem record_vid (c v x : Nat) (k : Option Nat) (r : Bool) (p : List Fld) (s : State) : (record c v x k r p s).vid = s.vid := by rw [(record_records c v x k r p s).rest]
@[simp] theorem record_red (c v x : Nat) (k : Option Nat) (r : Bool) (p : List Fld) (s : State) : (record c v x k r p s).red = s.red := by rw [(record_records c v x k r p s).rest]
@[simp] theorem record_pwr (c v x : Nat) (k : Option Nat) (r : Bool) (p : List Fld) (s : State) : (record c v x k r p s).pwr = s.pwr := by rw [(record_records c v x k r p s).rest]
@[simp] theorem record_mem (c v x : Nat) (k : Option Nat) (r : Bool) (p : List Fld) (s : State) : (record c v x k r p s).mem = s.mem := by rw [(record_records c v x k r p s).rest]
@[simp] theorem record_gau (c v x : Nat) (k : Option Nat) (r : Bool) (p : List Fld) (s : State) : (record c v x k r p s).gau = s.gau := by rw [(record_records c v x k r p s).rest]
@[simp] theorem record_nv (c v x : Nat) (k : Option Nat) (r : Bool) (p : List Fld) (s : State) : (record c v x k r p s).nv = s.nv := by rw [(record_records c v x k r p s).rest]
@[simp] theorem record_boot (c v x : Nat) (k : Option Nat) (r : Bool) (p : List Fld) (s : State) : (record c v x k r p s).boot = s.boot := by rw [(record_records c v x k r p s).rest]
@[simp] theorem record_sec (c v x : Nat) (k : Option Nat) (r : Bool) (p : List Fld) (s : State) : (record c v x k r p s).sec = s.sec := by rw [(record_records c v x k r p s).rest]
@[simp] theorem record_hostWrites (c v x : Nat) (k : Option Nat) (r : Bool) (p : List Fld) (s : State) : (record c v x k r p s).hostWrites = s.hostWrites := by rw [(record_records c v x k r p s).rest]
@[simp] theorem record_free (c v x : Nat) (k : Option Nat) (r : Bool) (p : List Fld) (s : State) : (record c v x k r p s).free = s.free := by rw [(record_records c v x k r p s).rest]
@[simp] theorem record_pending (c v x : Nat) (k : Option Nat) (r : Bool) (p : List Fld) (s : State) : (record c v x k r p s).pending = s.pending := by rw [(record_records c v x k r p s).rest]
@[simp] theorem record_t (c v x : Nat) (k : Option Nat) (r : Bool) (p : List Fld) (s : State) : (record c v x k r p s).time.t = s.time.t := by rw [(record_records c v x k r p s).time]
@[simp] theorem record_up (c v x : Nat) (k : Option Nat) (r : Bool) (p : List Fld) (s : State) : (record c v x k r p s).time.up = s.time.up := by rw [(record_records c v x k r p s).time]
@[simp] theorem record_funcs (c v x : Nat) (k : Option Nat) (r : Bool) (p : List Fld) (s : State) : (record c v x k r p s).sq.funcs = s.sq.funcs := by rw [(record_records c v x k r p s).sq]
@[simp] theorem record_cores (c v x : Nat) (k : Option Nat) (r : Bool) (p : List Fld) (s : State) : (record c v x k r p s).sq.cores = s.sq.cores := by rw [(record_records c v x k r p s).sq]
@[simp] theorem record_mode (c v x : Nat) (k : Option Nat) (r : Bool) (p : List Fld) (s : State) : (record c v x k r p s).sq.mode = s.sq.mode := by rw [(record_records c v x k r p s).sq]
@[simp] theorem record_work (c v x : Nat) (k : Option Nat) (r : Bool) (p : List Fld) (s : State) : (record c v x k r p s).sq.work = s.sq.work := by rw [(record_records c v x k r p s).sq]
@[simp] theorem record_modes (c v x : Nat) (k : Option Nat) (r : Bool) (p : List Fld) (s : State) : (record c v x k r p s).net.modes = s.net.modes := by rw [(record_records c v x k r p s).net]
@[simp] theorem record_peers (c v x : Nat) (k : Option Nat) (r : Bool) (p : List Fld) (s : State) : (record c v x k r p s).net.peers = s.net.peers := by rw [(record_records c v x k r p s).net]
@[simp] theorem record_sister (c v x : Nat) (k : Option Nat) (r : Bool) (p : List Fld) (s : State) : (record c v x k r p s).net.sister = s.net.sister := by rw [(record_records c v x k r p s).net]
@[simp] theorem record_alerts (c v x : Nat) (k : Option Nat) (r : Bool) (p : List Fld) (s : State) : (record c v x k r p s).tray.alerts = s.tray.alerts := by rw [(record_records c v x k r p s).tray]
@[simp] theorem record_linkUp (c v x : Nat) (k : Option Nat) (r : Bool) (p : List Fld) (s : State) : (record c v x k r p s).tray.linkUp = s.tray.linkUp := by rw [(record_records c v x k r p s).tray]
@[simp] theorem record_keepAlive (c v x : Nat) (k : Option Nat) (r : Bool) (p : List Fld) (s : State) : (record c v x k r p s).tray.keepAlive = s.tray.keepAlive := by rw [(record_records c v x k r p s).tray]
@[simp] theorem record_thermTrip (c v x : Nat) (k : Option Nat) (r : Bool) (p : List Fld) (s : State) : (record c v x k r p s).tray.thermTrip = s.tray.thermTrip := by rw [(record_records c v x k r p s).tray]
@[simp] theorem record_func (c v x : Nat) (k : Option Nat) (r : Bool) (p : List Fld) (s : State) (fid : Nat) : funcOf (record c v x k r p s) fid = funcOf s fid := by simp [funcOf]
@[simp] theorem record_now (c v x : Nat) (k : Option Nat) (r : Bool) (p : List Fld) (s : State) : now (record c v x k r p s) = now s := by simp [now]

@[simp] theorem recordSq_benches (c v : Nat) (p : List Fld) (s : State) : (recordSq c v p s).benches = s.benches := by rw [(recordSq_records c v p s).rest]
@[simp] theorem recordSq_serve (c v : Nat) (p : List Fld) (s : State) : (recordSq c v p s).serve = s.serve := by rw [(recordSq_records c v p s).rest]
@[simp] theorem recordSq_opr (c v : Nat) (p : List Fld) (s : State) : (recordSq c v p s).opr = s.opr := by rw [(recordSq_records c v p s).rest]
@[simp] theorem recordSq_vid (c v : Nat) (p : List Fld) (s : State) : (recordSq c v p s).vid = s.vid := by rw [(recordSq_records c v p s).rest]
@[simp] theorem recordSq_red (c v : Nat) (p : List Fld) (s : State) : (recordSq c v p s).red = s.red := by rw [(recordSq_records c v p s).rest]
@[simp] theorem recordSq_pwr (c v : Nat) (p : List Fld) (s : State) : (recordSq c v p s).pwr = s.pwr := by rw [(recordSq_records c v p s).rest]
@[simp] theorem recordSq_mem (c v : Nat) (p : List Fld) (s : State) : (recordSq c v p s).mem = s.mem := by rw [(recordSq_records c v p s).rest]
@[simp] theorem recordSq_gau (c v : Nat) (p : List Fld) (s : State) : (recordSq c v p s).gau = s.gau := by rw [(recordSq_records c v p s).rest]
@[simp] theorem recordSq_nv (c v : Nat) (p : List Fld) (s : State) : (recordSq c v p s).nv = s.nv := by rw [(recordSq_records c v p s).rest]
@[simp] theorem recordSq_boot (c v : Nat) (p : List Fld) (s : State) : (recordSq c v p s).boot = s.boot := by rw [(recordSq_records c v p s).rest]
@[simp] theorem recordSq_sec (c v : Nat) (p : List Fld) (s : State) : (recordSq c v p s).sec = s.sec := by rw [(recordSq_records c v p s).rest]
@[simp] theorem recordSq_hostWrites (c v : Nat) (p : List Fld) (s : State) : (recordSq c v p s).hostWrites = s.hostWrites := by rw [(recordSq_records c v p s).rest]
@[simp] theorem recordSq_free (c v : Nat) (p : List Fld) (s : State) : (recordSq c v p s).free = s.free := by rw [(recordSq_records c v p s).rest]
@[simp] theorem recordSq_pending (c v : Nat) (p : List Fld) (s : State) : (recordSq c v p s).pending = s.pending := by rw [(recordSq_records c v p s).rest]
@[simp] theorem recordSq_t (c v : Nat) (p : List Fld) (s : State) : (recordSq c v p s).time.t = s.time.t := by rw [(recordSq_records c v p s).time]
@[simp] theorem recordSq_up (c v : Nat) (p : List Fld) (s : State) : (recordSq c v p s).time.up = s.time.up := by rw [(recordSq_records c v p s).time]
@[simp] theorem recordSq_funcs (c v : Nat) (p : List Fld) (s : State) : (recordSq c v p s).sq.funcs = s.sq.funcs := by rw [(recordSq_records c v p s).sq]
@[simp] theorem recordSq_cores (c v : Nat) (p : List Fld) (s : State) : (recordSq c v p s).sq.cores = s.sq.cores := by rw [(recordSq_records c v p s).sq]
@[simp] theorem recordSq_mode (c v : Nat) (p : List Fld) (s : State) : (recordSq c v p s).sq.mode = s.sq.mode := by rw [(recordSq_records c v p s).sq]
@[simp] theorem recordSq_work (c v : Nat) (p : List Fld) (s : State) : (recordSq c v p s).sq.work = s.sq.work := by rw [(recordSq_records c v p s).sq]
@[simp] theorem recordSq_modes (c v : Nat) (p : List Fld) (s : State) : (recordSq c v p s).net.modes = s.net.modes := by rw [(recordSq_records c v p s).net]
@[simp] theorem recordSq_peers (c v : Nat) (p : List Fld) (s : State) : (recordSq c v p s).net.peers = s.net.peers := by rw [(recordSq_records c v p s).net]
@[simp] theorem recordSq_sister (c v : Nat) (p : List Fld) (s : State) : (recordSq c v p s).net.sister = s.net.sister := by rw [(recordSq_records c v p s).net]
@[simp] theorem recordSq_alerts (c v : Nat) (p : List Fld) (s : State) : (recordSq c v p s).tray.alerts = s.tray.alerts := by rw [(recordSq_records c v p s).tray]
@[simp] theorem recordSq_linkUp (c v : Nat) (p : List Fld) (s : State) : (recordSq c v p s).tray.linkUp = s.tray.linkUp := by rw [(recordSq_records c v p s).tray]
@[simp] theorem recordSq_keepAlive (c v : Nat) (p : List Fld) (s : State) : (recordSq c v p s).tray.keepAlive = s.tray.keepAlive := by rw [(recordSq_records c v p s).tray]
@[simp] theorem recordSq_thermTrip (c v : Nat) (p : List Fld) (s : State) : (recordSq c v p s).tray.thermTrip = s.tray.thermTrip := by rw [(recordSq_records c v p s).tray]
@[simp] theorem recordSq_func (c v : Nat) (p : List Fld) (s : State) (fid : Nat) : funcOf (recordSq c v p s) fid = funcOf s fid := by simp [funcOf]
@[simp] theorem recordSq_now (c v : Nat) (p : List Fld) (s : State) : now (recordSq c v p s) = now s := by simp [now]

end Sys2Proof.Machine
end

