-- ==== Sys2Proof/Laws/Lanes.lean ====
section
/-! SUPPORT. What is done with a message once it is taken: the lemmas that statements about messages cite in place of the checks. -/
namespace Sys2Proof.Machine

/-- A message that is taken goes on to what it does, after the acknowledgement that it carries. -/
theorem receiveModule_taken {m : XMsg} {body : State → State} {s : State} (h : msgTaken m s = true) :
    receiveModule m body s = body (msgAcked m s) := by
  simp only [msgTaken, Bool.and_eq_true] at h
  obtain ⟨hp, ha⟩ := h
  have hu : portTakes m s = (true, (portTakes m s).2) := Prod.ext hp rfl
  have hv : acceptMsg m (portTakes m s).2 = (true, (acceptMsg m (portTakes m s).2).2) := Prod.ext ha rfl
  unfold receiveModule
  rw [hu]
  dsimp only
  rw [hv]
  dsimp only
  rfl

/-- A lane message that comes with the number its lane expects has its effect, and what follows it. -/
theorem receiveLane_taken {m : XMsg} {rule : CheckRule} {hasData : Bool} {effect : State → Option Nat × State} {s : State}
    (h : laneTaken m rule hasData s = true) : receiveLane m rule hasData effect s = laneDone m (effect (laneNext m s)) := by
  simp only [laneTaken, msgTaken, Bool.and_eq_true, decide_eq_true_eq] at h
  obtain ⟨⟨⟨⟨⟨⟨hp, ha⟩, hw⟩, hc⟩, hs⟩, hm⟩, hq⟩ := h
  have hu : portTakes m s = (true, (portTakes m s).2) := Prod.ext hp rfl
  have hv : acceptMsg m (portTakes m s).2 = (true, msgState m s) := Prod.ext ha rfl
  unfold receiveLane
  rw [hu]
  dsimp only
  rw [hw, if_neg (by decide), hv]
  dsimp only
  rw [if_neg (by simp [hc, hs, hm])]
  simp only [laneState] at hq
  rw [hq]
  rfl

/-- A remote operation that its grant and its context allow changes nothing by being checked. -/
theorem remoteAllowed_none {m : XMsg} {s : State} (h : (remoteAllowed m s).1 = none) : remoteAllowed m s = (none, s) := by
  simp only [remoteAllowed] at h ⊢
  split at h
  · simp at h
  · split at h <;> simp_all

/-- A DOWEL message that is taken, and does not make the side STALE, has its effect. -/
theorem dowelMsg_taken {m : DowelMsg} {taken : Bool} {stays : RedCtx → Bool} {body : Nat → State → State} {s : State}
    (h : dowelTaken m stays s = true)
    (hs : ∀ r, stays r = true → ((r.role = .active || r.role = .activeSolo || r.role = .fenced) && r.epoch < m.epoch
      && !(taken && r.giving.isSome && m.epoch = r.epoch + 1)) = false) :
    dowelMsg m taken body s = body m.ctx (dowelState m s) := by
  simp only [dowelTaken, Bool.and_eq_true, decide_eq_true_eq, Bool.not_eq_true', Bool.or_eq_true] at h
  obtain ⟨⟨⟨⟨⟨⟨h1, h2⟩, h3⟩, h4⟩, h5⟩, h6⟩, h7⟩ := h
  have h8 := hs _ h7
  unfold dowelMsg
  change receiveModule (dowelFrame m) _ s = _
  rw [receiveModule_taken h1]
  have ha : msgAcked (dowelFrame m) s = moduleState (dowelFrame m) s := by
    simp [msgAcked, dowelFrame, blankMsg]
  rw [ha]
  simp only [dowelState]
  generalize moduleState (dowelFrame m) s = u at *
  rw [if_neg (by simp [h2]), if_neg (by rcases h3 with h3 | h3 <;> simp [h3])]
  generalize hv : (if u.net.sister = some m.srcM then { u with red := { u.red with sisterAt := now u } } else u : State) = v
  have e : redOf v m.ctx = redOf u m.ctx := by rw [← hv]; split <;> rfl
  rw [if_neg (by simp only [mirrored] at h5 ⊢; simp [e, h4, h5, h6]), e, h8]
  rfl

end Sys2Proof.Machine
end

