-- ==== Sys2Proof/Laws/PartsBase.lean ====
section
/-! SUPPORT. How each part of the machine passes through a choice and through a fold over a list:
the two laws with which the part lemmas of the next files are proved. -/
namespace Sys2Proof.Machine


section
variable {c : Prop} [Decidable c] (a b : State)
@[simp] theorem ite_nv : (if c then a else b).nv = if c then a.nv else b.nv := by split <;> rfl
@[simp] theorem ite_boot : (if c then a else b).boot = if c then a.boot else b.boot := by split <;> rfl
@[simp] theorem ite_mem : (if c then a else b).mem = if c then a.mem else b.mem := by split <;> rfl
@[simp] theorem ite_gau : (if c then a else b).gau = if c then a.gau else b.gau := by split <;> rfl
@[simp] theorem ite_benches : (if c then a else b).benches = if c then a.benches else b.benches := by split <;> rfl
@[simp] theorem ite_serve : (if c then a else b).serve = if c then a.serve else b.serve := by split <;> rfl
@[simp] theorem ite_opr : (if c then a else b).opr = if c then a.opr else b.opr := by split <;> rfl
@[simp] theorem ite_vid : (if c then a else b).vid = if c then a.vid else b.vid := by split <;> rfl
@[simp] theorem ite_red : (if c then a else b).red = if c then a.red else b.red := by split <;> rfl
@[simp] theorem ite_pwr : (if c then a else b).pwr = if c then a.pwr else b.pwr := by split <;> rfl
@[simp] theorem ite_memBytes (a b : MemSt) : (if c then a else b).bytes = if c then a.bytes else b.bytes := by split <;> rfl
@[simp] theorem ite_memChk (a b : MemSt) : (if c then a else b).chk = if c then a.chk else b.chk := by split <;> rfl
@[simp] theorem ite_memBkey (a b : MemSt) : (if c then a else b).bkey = if c then a.bkey else b.bkey := by split <;> rfl
@[simp] theorem ite_links (a b : BenchesSt) : (if c then a else b).links = if c then a.links else b.links := by split <;> rfl
@[simp] theorem ite_packets (a b : BenchesSt) : (if c then a else b).packets = if c then a.packets else b.packets := by split <;> rfl
@[simp] theorem ite_s (a b : Ans) : (if c then a else b).s = if c then a.s else b.s := by split <;> rfl
end

section
variable {α : Type} {f : State → α → State}
theorem foldl_part {β : Type} (g : State → β) (h : ∀ s a, g (f s a) = g s) (l : List α) (s : State) : g (l.foldl f s) = g s := by
  induction l generalizing s with
  | nil => rfl
  | cons x r ih => rw [List.foldl_cons, ih, h]
theorem foldl_snd_part {β γ : Type} {f : γ × State → α → γ × State} (g : State → β) (h : ∀ p a, g (f p a).2 = g p.2) (l : List α)
    (p : γ × State) : g (l.foldl f p).2 = g p.2 := by
  induction l generalizing p with
  | nil => rfl
  | cons x r ih => rw [List.foldl_cons, ih, h]
theorem foldl_fst_part {β γ : Type} {f : State × γ → α → State × γ} (g : State → β) (h : ∀ p a, g (f p a).1 = g p.1) (l : List α)
    (p : State × γ) : g (l.foldl f p).1 = g p.1 := by
  induction l generalizing p with
  | nil => rfl
  | cons x r ih => rw [List.foldl_cons, ih, h]
theorem elim_part {β : Type} (g : State → β) {s : State} {f : α → State} (h : ∀ a, g (f a) = g s) (o : Option α) : g (o.elim s f) = g s := by
  cases o with
  | none => rfl
  | some x => exact h x
@[simp] theorem foldl_nv (h : ∀ s a, (f s a).nv = s.nv) (l : List α) (s : State) : (l.foldl f s).nv = s.nv :=
  foldl_part (·.nv) h l s
@[simp] theorem foldl_snd_nv {γ : Type} {f : γ × State → α → γ × State} (h : ∀ p a, (f p a).2.nv = p.2.nv) (l : List α)
    (p : γ × State) : (l.foldl f p).2.nv = p.2.nv := foldl_snd_part (·.nv) h l p
@[simp] theorem foldl_fst_nv {γ : Type} {f : State × γ → α → State × γ} (h : ∀ p a, (f p a).1.nv = p.1.nv) (l : List α)
    (p : State × γ) : (l.foldl f p).1.nv = p.1.nv := foldl_fst_part (·.nv) h l p
@[simp] theorem elim_nv {s : State} {f : α → State} (h : ∀ a, (f a).nv = s.nv) (o : Option α) : (o.elim s f).nv = s.nv :=
  elim_part (·.nv) h o
@[simp] theorem foldl_boot (h : ∀ s a, (f s a).boot = s.boot) (l : List α) (s : State) : (l.foldl f s).boot = s.boot :=
  foldl_part (·.boot) h l s
@[simp] theorem foldl_snd_boot {γ : Type} {f : γ × State → α → γ × State} (h : ∀ p a, (f p a).2.boot = p.2.boot) (l : List α)
    (p : γ × State) : (l.foldl f p).2.boot = p.2.boot := foldl_snd_part (·.boot) h l p
@[simp] theorem foldl_fst_boot {γ : Type} {f : State × γ → α → State × γ} (h : ∀ p a, (f p a).1.boot = p.1.boot) (l : List α)
    (p : State × γ) : (l.foldl f p).1.boot = p.1.boot := foldl_fst_part (·.boot) h l p
@[simp] theorem elim_boot {s : State} {f : α → State} (h : ∀ a, (f a).boot = s.boot) (o : Option α) : (o.elim s f).boot = s.boot :=
  elim_part (·.boot) h o
@[simp] theorem foldl_mem (h : ∀ s a, (f s a).mem = s.mem) (l : List α) (s : State) : (l.foldl f s).mem = s.mem :=
  foldl_part (·.mem) h l s
@[simp] theorem foldl_snd_mem {γ : Type} {f : γ × State → α → γ × State} (h : ∀ p a, (f p a).2.mem = p.2.mem) (l : List α)
    (p : γ × State) : (l.foldl f p).2.mem = p.2.mem := foldl_snd_part (·.mem) h l p
@[simp] theorem foldl_fst_mem {γ : Type} {f : State × γ → α → State × γ} (h : ∀ p a, (f p a).1.mem = p.1.mem) (l : List α)
    (p : State × γ) : (l.foldl f p).1.mem = p.1.mem := foldl_fst_part (·.mem) h l p
@[simp] theorem elim_mem {s : State} {f : α → State} (h : ∀ a, (f a).mem = s.mem) (o : Option α) : (o.elim s f).mem = s.mem :=
  elim_part (·.mem) h o
@[simp] theorem foldl_gau (h : ∀ s a, (f s a).gau = s.gau) (l : List α) (s : State) : (l.foldl f s).gau = s.gau :=
  foldl_part (·.gau) h l s
@[simp] theorem foldl_snd_gau {γ : Type} {f : γ × State → α → γ × State} (h : ∀ p a, (f p a).2.gau = p.2.gau) (l : List α)
    (p : γ × State) : (l.foldl f p).2.gau = p.2.gau := foldl_snd_part (·.gau) h l p
@[simp] theorem foldl_fst_gau {γ : Type} {f : State × γ → α → State × γ} (h : ∀ p a, (f p a).1.gau = p.1.gau) (l : List α)
    (p : State × γ) : (l.foldl f p).1.gau = p.1.gau := foldl_fst_part (·.gau) h l p
@[simp] theorem elim_gau {s : State} {f : α → State} (h : ∀ a, (f a).gau = s.gau) (o : Option α) : (o.elim s f).gau = s.gau :=
  elim_part (·.gau) h o
@[simp] theorem foldl_benches (h : ∀ s a, (f s a).benches = s.benches) (l : List α) (s : State) : (l.foldl f s).benches = s.benches :=
  foldl_part (·.benches) h l s
@[simp] theorem foldl_snd_benches {γ : Type} {f : γ × State → α → γ × State} (h : ∀ p a, (f p a).2.benches = p.2.benches) (l : List α)
    (p : γ × State) : (l.foldl f p).2.benches = p.2.benches := foldl_snd_part (·.benches) h l p
@[simp] theorem foldl_fst_benches {γ : Type} {f : State × γ → α → State × γ} (h : ∀ p a, (f p a).1.benches = p.1.benches) (l : List α)
    (p : State × γ) : (l.foldl f p).1.benches = p.1.benches := foldl_fst_part (·.benches) h l p
@[simp] theorem elim_benches {s : State} {f : α → State} (h : ∀ a, (f a).benches = s.benches) (o : Option α) : (o.elim s f).benches = s.benches :=
  elim_part (·.benches) h o
@[simp] theorem foldl_serve (h : ∀ s a, (f s a).serve = s.serve) (l : List α) (s : State) : (l.foldl f s).serve = s.serve :=
  foldl_part (·.serve) h l s
@[simp] theorem foldl_snd_serve {γ : Type} {f : γ × State → α → γ × State} (h : ∀ p a, (f p a).2.serve = p.2.serve) (l : List α)
    (p : γ × State) : (l.foldl f p).2.serve = p.2.serve := foldl_snd_part (·.serve) h l p
@[simp] theorem foldl_fst_serve {γ : Type} {f : State × γ → α → State × γ} (h : ∀ p a, (f p a).1.serve = p.1.serve) (l : List α)
    (p : State × γ) : (l.foldl f p).1.serve = p.1.serve := foldl_fst_part (·.serve) h l p
@[simp] theorem elim_serve {s : State} {f : α → State} (h : ∀ a, (f a).serve = s.serve) (o : Option α) : (o.elim s f).serve = s.serve :=
  elim_part (·.serve) h o
@[simp] theorem foldl_opr (h : ∀ s a, (f s a).opr = s.opr) (l : List α) (s : State) : (l.foldl f s).opr = s.opr :=
  foldl_part (·.opr) h l s
@[simp] theorem foldl_snd_opr {γ : Type} {f : γ × State → α → γ × State} (h : ∀ p a, (f p a).2.opr = p.2.opr) (l : List α)
    (p : γ × State) : (l.foldl f p).2.opr = p.2.opr := foldl_snd_part (·.opr) h l p
@[simp] theorem foldl_fst_opr {γ : Type} {f : State × γ → α → State × γ} (h : ∀ p a, (f p a).1.opr = p.1.opr) (l : List α)
    (p : State × γ) : (l.foldl f p).1.opr = p.1.opr := foldl_fst_part (·.opr) h l p
@[simp] theorem elim_opr {s : State} {f : α → State} (h : ∀ a, (f a).opr = s.opr) (o : Option α) : (o.elim s f).opr = s.opr :=
  elim_part (·.opr) h o
@[simp] theorem foldl_vid (h : ∀ s a, (f s a).vid = s.vid) (l : List α) (s : State) : (l.foldl f s).vid = s.vid :=
  foldl_part (·.vid) h l s
@[simp] theorem foldl_snd_vid {γ : Type} {f : γ × State → α → γ × State} (h : ∀ p a, (f p a).2.vid = p.2.vid) (l : List α)
    (p : γ × State) : (l.foldl f p).2.vid = p.2.vid := foldl_snd_part (·.vid) h l p
@[simp] theorem foldl_fst_vid {γ : Type} {f : State × γ → α → State × γ} (h : ∀ p a, (f p a).1.vid = p.1.vid) (l : List α)
    (p : State × γ) : (l.foldl f p).1.vid = p.1.vid := foldl_fst_part (·.vid) h l p
@[simp] theorem elim_vid {s : State} {f : α → State} (h : ∀ a, (f a).vid = s.vid) (o : Option α) : (o.elim s f).vid = s.vid :=
  elim_part (·.vid) h o
@[simp] theorem foldl_red (h : ∀ s a, (f s a).red = s.red) (l : List α) (s : State) : (l.foldl f s).red = s.red :=
  foldl_part (·.red) h l s
@[simp] theorem foldl_snd_red {γ : Type} {f : γ × State → α → γ × State} (h : ∀ p a, (f p a).2.red = p.2.red) (l : List α)
    (p : γ × State) : (l.foldl f p).2.red = p.2.red := foldl_snd_part (·.red) h l p
@[simp] theorem foldl_fst_red {γ : Type} {f : State × γ → α → State × γ} (h : ∀ p a, (f p a).1.red = p.1.red) (l : List α)
    (p : State × γ) : (l.foldl f p).1.red = p.1.red := foldl_fst_part (·.red) h l p
@[simp] theorem elim_red {s : State} {f : α → State} (h : ∀ a, (f a).red = s.red) (o : Option α) : (o.elim s f).red = s.red :=
  elim_part (·.red) h o
@[simp] theorem foldl_pwr (h : ∀ s a, (f s a).pwr = s.pwr) (l : List α) (s : State) : (l.foldl f s).pwr = s.pwr :=
  foldl_part (·.pwr) h l s
@[simp] theorem foldl_snd_pwr {γ : Type} {f : γ × State → α → γ × State} (h : ∀ p a, (f p a).2.pwr = p.2.pwr) (l : List α)
    (p : γ × State) : (l.foldl f p).2.pwr = p.2.pwr := foldl_snd_part (·.pwr) h l p
@[simp] theorem foldl_fst_pwr {γ : Type} {f : State × γ → α → State × γ} (h : ∀ p a, (f p a).1.pwr = p.1.pwr) (l : List α)
    (p : State × γ) : (l.foldl f p).1.pwr = p.1.pwr := foldl_fst_part (·.pwr) h l p
@[simp] theorem elim_pwr {s : State} {f : α → State} (h : ∀ a, (f a).pwr = s.pwr) (o : Option α) : (o.elim s f).pwr = s.pwr :=
  elim_part (·.pwr) h o
@[simp] theorem foldl_mem_bytes (h : ∀ s a, (f s a).mem.bytes = s.mem.bytes) (l : List α) (s : State) : (l.foldl f s).mem.bytes = s.mem.bytes :=
  foldl_part (·.mem.bytes) h l s
@[simp] theorem foldl_snd_mem_bytes {γ : Type} {f : γ × State → α → γ × State} (h : ∀ p a, (f p a).2.mem.bytes = p.2.mem.bytes) (l : List α)
    (p : γ × State) : (l.foldl f p).2.mem.bytes = p.2.mem.bytes := foldl_snd_part (·.mem.bytes) h l p
@[simp] theorem foldl_fst_mem_bytes {γ : Type} {f : State × γ → α → State × γ} (h : ∀ p a, (f p a).1.mem.bytes = p.1.mem.bytes) (l : List α)
    (p : State × γ) : (l.foldl f p).1.mem.bytes = p.1.mem.bytes := foldl_fst_part (·.mem.bytes) h l p
@[simp] theorem elim_mem_bytes {s : State} {f : α → State} (h : ∀ a, (f a).mem.bytes = s.mem.bytes) (o : Option α) : (o.elim s f).mem.bytes = s.mem.bytes :=
  elim_part (·.mem.bytes) h o
@[simp] theorem foldl_mem_chk (h : ∀ s a, (f s a).mem.chk = s.mem.chk) (l : List α) (s : State) : (l.foldl f s).mem.chk = s.mem.chk :=
  foldl_part (·.mem.chk) h l s
@[simp] theorem foldl_snd_mem_chk {γ : Type} {f : γ × State → α → γ × State} (h : ∀ p a, (f p a).2.mem.chk = p.2.mem.chk) (l : List α)
    (p : γ × State) : (l.foldl f p).2.mem.chk = p.2.mem.chk := foldl_snd_part (·.mem.chk) h l p
@[simp] theorem foldl_fst_mem_chk {γ : Type} {f : State × γ → α → State × γ} (h : ∀ p a, (f p a).1.mem.chk = p.1.mem.chk) (l : List α)
    (p : State × γ) : (l.foldl f p).1.mem.chk = p.1.mem.chk := foldl_fst_part (·.mem.chk) h l p
@[simp] theorem elim_mem_chk {s : State} {f : α → State} (h : ∀ a, (f a).mem.chk = s.mem.chk) (o : Option α) : (o.elim s f).mem.chk = s.mem.chk :=
  elim_part (·.mem.chk) h o
@[simp] theorem foldl_mem_bkey (h : ∀ s a, (f s a).mem.bkey = s.mem.bkey) (l : List α) (s : State) : (l.foldl f s).mem.bkey = s.mem.bkey :=
  foldl_part (·.mem.bkey) h l s
@[simp] theorem foldl_snd_mem_bkey {γ : Type} {f : γ × State → α → γ × State} (h : ∀ p a, (f p a).2.mem.bkey = p.2.mem.bkey) (l : List α)
    (p : γ × State) : (l.foldl f p).2.mem.bkey = p.2.mem.bkey := foldl_snd_part (·.mem.bkey) h l p
@[simp] theorem foldl_fst_mem_bkey {γ : Type} {f : State × γ → α → State × γ} (h : ∀ p a, (f p a).1.mem.bkey = p.1.mem.bkey) (l : List α)
    (p : State × γ) : (l.foldl f p).1.mem.bkey = p.1.mem.bkey := foldl_fst_part (·.mem.bkey) h l p
@[simp] theorem elim_mem_bkey {s : State} {f : α → State} (h : ∀ a, (f a).mem.bkey = s.mem.bkey) (o : Option α) : (o.elim s f).mem.bkey = s.mem.bkey :=
  elim_part (·.mem.bkey) h o
@[simp] theorem foldl_benches_links (h : ∀ s a, (f s a).benches.links = s.benches.links) (l : List α) (s : State) : (l.foldl f s).benches.links = s.benches.links :=
  foldl_part (·.benches.links) h l s
@[simp] theorem foldl_snd_benches_links {γ : Type} {f : γ × State → α → γ × State} (h : ∀ p a, (f p a).2.benches.links = p.2.benches.links) (l : List α)
    (p : γ × State) : (l.foldl f p).2.benches.links = p.2.benches.links := foldl_snd_part (·.benches.links) h l p
@[simp] theorem foldl_fst_benches_links {γ : Type} {f : State × γ → α → State × γ} (h : ∀ p a, (f p a).1.benches.links = p.1.benches.links) (l : List α)
    (p : State × γ) : (l.foldl f p).1.benches.links = p.1.benches.links := foldl_fst_part (·.benches.links) h l p
@[simp] theorem elim_benches_links {s : State} {f : α → State} (h : ∀ a, (f a).benches.links = s.benches.links) (o : Option α) : (o.elim s f).benches.links = s.benches.links :=
  elim_part (·.benches.links) h o
@[simp] theorem foldl_benches_packets (h : ∀ s a, (f s a).benches.packets = s.benches.packets) (l : List α) (s : State) : (l.foldl f s).benches.packets = s.benches.packets :=
  foldl_part (·.benches.packets) h l s
@[simp] theorem foldl_snd_benches_packets {γ : Type} {f : γ × State → α → γ × State} (h : ∀ p a, (f p a).2.benches.packets = p.2.benches.packets) (l : List α)
    (p : γ × State) : (l.foldl f p).2.benches.packets = p.2.benches.packets := foldl_snd_part (·.benches.packets) h l p
@[simp] theorem foldl_fst_benches_packets {γ : Type} {f : State × γ → α → State × γ} (h : ∀ p a, (f p a).1.benches.packets = p.1.benches.packets) (l : List α)
    (p : State × γ) : (l.foldl f p).1.benches.packets = p.1.benches.packets := foldl_fst_part (·.benches.packets) h l p
@[simp] theorem elim_benches_packets {s : State} {f : α → State} (h : ∀ a, (f a).benches.packets = s.benches.packets) (o : Option α) : (o.elim s f).benches.packets = s.benches.packets :=
  elim_part (·.benches.packets) h o
end
theorem drainMbx_part {β : Type} (g : State → β) {m : Nat} (hw : ∀ r s, g (writeRsp m r s) = g s)
    (hn : ∀ x s, g (notifyOne m x s) = g s) (hm : ∀ f s, g (modMbx m f s) = g s) (s : State) : g (drainMbx m s) = g s := by
  unfold drainMbx
  refine Eq.trans (foldl_part g (fun s x => hn x s) _ _) ?_
  refine Eq.trans (hm _ _) ?_
  exact Eq.trans (foldl_part g (fun s x => hw x s) _ _) (hm _ _)
end Sys2Proof.Machine
end

