-- ==== Sys2Proof/Laws/PartsA.lean ====
section
/-! SUPPORT. For each shared operation of the machine, the parts of the state it leaves as they were
(`<operation>_parts`; callees stand before their callers). -/
namespace Sys2Proof.Machine

@[simp] theorem advance_parts (a0 : Nat) (s : State) :
    (advance a0 s).nv = s.nv ∧ (advance a0 s).boot = s.boot ∧ (advance a0 s).mem = s.mem ∧ (advance a0 s).gau = s.gau ∧
      (advance a0 s).benches = s.benches ∧ (advance a0 s).serve = s.serve ∧ (advance a0 s).opr = s.opr ∧ (advance a0 s).vid = s.vid ∧
      (advance a0 s).red = s.red ∧ (advance a0 s).pwr = s.pwr := by
  simp [advance]

@[simp] theorem issueStamp_parts (s : State) :
    (issueStamp s).2.nv = s.nv ∧ (issueStamp s).2.boot = s.boot ∧ (issueStamp s).2.mem = s.mem ∧ (issueStamp s).2.gau = s.gau ∧
      (issueStamp s).2.benches = s.benches ∧ (issueStamp s).2.serve = s.serve ∧ (issueStamp s).2.opr = s.opr ∧
      (issueStamp s).2.vid = s.vid ∧ (issueStamp s).2.red = s.red ∧ (issueStamp s).2.pwr = s.pwr := by
  simp [issueStamp]

@[simp] theorem causal_parts (a0 : Stamp) (s : State) :
    (causal a0 s).nv = s.nv ∧ (causal a0 s).boot = s.boot ∧ (causal a0 s).mem = s.mem ∧ (causal a0 s).gau = s.gau ∧
      (causal a0 s).benches = s.benches ∧ (causal a0 s).serve = s.serve ∧ (causal a0 s).opr = s.opr ∧ (causal a0 s).vid = s.vid ∧
      (causal a0 s).red = s.red ∧ (causal a0 s).pwr = s.pwr := by
  simp [causal]

@[simp] theorem takeFree_parts (s : State) :
    (takeFree s).2.nv = s.nv ∧ (takeFree s).2.boot = s.boot ∧ (takeFree s).2.mem = s.mem ∧ (takeFree s).2.gau = s.gau ∧
      (takeFree s).2.benches = s.benches ∧ (takeFree s).2.serve = s.serve ∧ (takeFree s).2.opr = s.opr ∧ (takeFree s).2.vid = s.vid ∧
      (takeFree s).2.red = s.red ∧ (takeFree s).2.pwr = s.pwr := by
  simp [takeFree]

@[simp] theorem takeInput_parts (a0 : SqInput) (s : State) :
    (takeInput a0 s).nv = s.nv ∧ (takeInput a0 s).boot = s.boot ∧ (takeInput a0 s).mem = s.mem ∧ (takeInput a0 s).gau = s.gau ∧
      (takeInput a0 s).benches = s.benches ∧ (takeInput a0 s).serve = s.serve ∧ (takeInput a0 s).opr = s.opr ∧
      (takeInput a0 s).vid = s.vid ∧ (takeInput a0 s).red = s.red ∧ (takeInput a0 s).pwr = s.pwr := by
  simp [takeInput]

@[simp] theorem releaseWord_parts (s : State) :
    (releaseWord s).nv = s.nv ∧ (releaseWord s).boot = s.boot ∧ (releaseWord s).mem = s.mem ∧ (releaseWord s).gau = s.gau ∧
      (releaseWord s).benches = s.benches ∧ (releaseWord s).serve = s.serve ∧ (releaseWord s).opr = s.opr ∧
      (releaseWord s).vid = s.vid ∧ (releaseWord s).red = s.red ∧ (releaseWord s).pwr = s.pwr := by
  simp [releaseWord]

@[simp] theorem modCtx_parts (a0 : Nat) (a1 : CtxSt → CtxSt) (s : State) :
    (modCtx a0 a1 s).nv = s.nv ∧ (modCtx a0 a1 s).boot = s.boot ∧ (modCtx a0 a1 s).mem = s.mem ∧ (modCtx a0 a1 s).gau = s.gau ∧
      (modCtx a0 a1 s).benches = s.benches ∧ (modCtx a0 a1 s).serve = s.serve ∧ (modCtx a0 a1 s).opr = s.opr ∧
      (modCtx a0 a1 s).vid = s.vid ∧ (modCtx a0 a1 s).red = s.red ∧ (modCtx a0 a1 s).pwr = s.pwr := by
  simp [modCtx]

@[simp] theorem modMbx_parts (a0 : Nat) (a1 : Mailbox → Mailbox) (s : State) :
    (modMbx a0 a1 s).nv = s.nv ∧ (modMbx a0 a1 s).boot = s.boot ∧ (modMbx a0 a1 s).mem = s.mem ∧ (modMbx a0 a1 s).gau = s.gau ∧
      (modMbx a0 a1 s).benches = s.benches ∧ (modMbx a0 a1 s).serve = s.serve ∧ (modMbx a0 a1 s).opr = s.opr ∧
      (modMbx a0 a1 s).vid = s.vid ∧ (modMbx a0 a1 s).red = s.red ∧ (modMbx a0 a1 s).pwr = s.pwr := by
  simp [modMbx]

@[simp] theorem modFunc_parts (a0 : Nat) (a1 : Func → Func) (s : State) :
    (modFunc a0 a1 s).nv = s.nv ∧ (modFunc a0 a1 s).boot = s.boot ∧ (modFunc a0 a1 s).mem = s.mem ∧ (modFunc a0 a1 s).gau = s.gau ∧
      (modFunc a0 a1 s).benches = s.benches ∧ (modFunc a0 a1 s).serve = s.serve ∧ (modFunc a0 a1 s).opr = s.opr ∧
      (modFunc a0 a1 s).vid = s.vid ∧ (modFunc a0 a1 s).red = s.red ∧ (modFunc a0 a1 s).pwr = s.pwr := by
  simp [modFunc]

@[simp] theorem modPort_parts (a0 : Nat) (a1 : Port → Port) (s : State) :
    (modPort a0 a1 s).nv = s.nv ∧ (modPort a0 a1 s).boot = s.boot ∧ (modPort a0 a1 s).mem = s.mem ∧ (modPort a0 a1 s).gau = s.gau ∧
      (modPort a0 a1 s).benches = s.benches ∧ (modPort a0 a1 s).serve = s.serve ∧ (modPort a0 a1 s).opr = s.opr ∧
      (modPort a0 a1 s).vid = s.vid ∧ (modPort a0 a1 s).red = s.red ∧ (modPort a0 a1 s).pwr = s.pwr := by
  simp [modPort]

@[simp] theorem modPeer_parts (a0 : Nat) (a1 : Peer → Peer) (s : State) :
    (modPeer a0 a1 s).nv = s.nv ∧ (modPeer a0 a1 s).boot = s.boot ∧ (modPeer a0 a1 s).mem = s.mem ∧ (modPeer a0 a1 s).gau = s.gau ∧
      (modPeer a0 a1 s).benches = s.benches ∧ (modPeer a0 a1 s).serve = s.serve ∧ (modPeer a0 a1 s).opr = s.opr ∧
      (modPeer a0 a1 s).vid = s.vid ∧ (modPeer a0 a1 s).red = s.red ∧ (modPeer a0 a1 s).pwr = s.pwr := by
  simp [modPeer]

@[simp] theorem modLane_parts (a0 : Nat) (a1 : Lane → Lane) (s : State) :
    (modLane a0 a1 s).nv = s.nv ∧ (modLane a0 a1 s).boot = s.boot ∧ (modLane a0 a1 s).mem = s.mem ∧ (modLane a0 a1 s).gau = s.gau ∧
      (modLane a0 a1 s).benches = s.benches ∧ (modLane a0 a1 s).serve = s.serve ∧ (modLane a0 a1 s).opr = s.opr ∧
      (modLane a0 a1 s).vid = s.vid ∧ (modLane a0 a1 s).red = s.red ∧ (modLane a0 a1 s).pwr = s.pwr := by
  simp [modLane]

@[simp] theorem transmit_parts (a0 : Sent) (s : State) :
    (transmit a0 s).nv = s.nv ∧ (transmit a0 s).boot = s.boot ∧ (transmit a0 s).mem = s.mem ∧ (transmit a0 s).gau = s.gau ∧
      (transmit a0 s).benches = s.benches ∧ (transmit a0 s).serve = s.serve ∧ (transmit a0 s).opr = s.opr ∧
      (transmit a0 s).vid = s.vid ∧ (transmit a0 s).red = s.red ∧ (transmit a0 s).pwr = s.pwr := by
  simp [transmit]

@[simp] theorem sendModule_parts (a0 : Nat) (a1 : Nat) (a2 : Nat) (a3 : XMsg) (s : State) :
    (sendModule a0 a1 a2 a3 s).nv = s.nv ∧ (sendModule a0 a1 a2 a3 s).boot = s.boot ∧ (sendModule a0 a1 a2 a3 s).mem = s.mem ∧
      (sendModule a0 a1 a2 a3 s).gau = s.gau ∧ (sendModule a0 a1 a2 a3 s).benches = s.benches ∧
      (sendModule a0 a1 a2 a3 s).serve = s.serve ∧ (sendModule a0 a1 a2 a3 s).opr = s.opr ∧ (sendModule a0 a1 a2 a3 s).vid = s.vid ∧
      (sendModule a0 a1 a2 a3 s).red = s.red ∧ (sendModule a0 a1 a2 a3 s).pwr = s.pwr := by
  simp only [sendModule]
  (repeat' split) <;> simp

@[simp] theorem sendNak_parts (a0 : Nat) (a1 : XMsg) (a2 : Nat) (s : State) :
    (sendNak a0 a1 a2 s).nv = s.nv ∧ (sendNak a0 a1 a2 s).boot = s.boot ∧ (sendNak a0 a1 a2 s).mem = s.mem ∧
      (sendNak a0 a1 a2 s).gau = s.gau ∧ (sendNak a0 a1 a2 s).benches = s.benches ∧ (sendNak a0 a1 a2 s).serve = s.serve ∧
      (sendNak a0 a1 a2 s).opr = s.opr ∧ (sendNak a0 a1 a2 s).vid = s.vid ∧ (sendNak a0 a1 a2 s).red = s.red ∧
      (sendNak a0 a1 a2 s).pwr = s.pwr := by
  simp [sendNak]

@[simp] theorem notePage_parts (a0 : Sent) (s : State) :
    (notePage a0 s).nv = s.nv ∧ (notePage a0 s).boot = s.boot ∧ (notePage a0 s).mem = s.mem ∧ (notePage a0 s).gau = s.gau ∧
      (notePage a0 s).benches = s.benches ∧ (notePage a0 s).serve = s.serve ∧ (notePage a0 s).opr = s.opr ∧
      (notePage a0 s).vid = s.vid ∧ (notePage a0 s).red = s.red ∧ (notePage a0 s).pwr = s.pwr := by
  simp [notePage]

@[simp] theorem drainLane_parts (a0 : Nat) (a1 : Nat) (s : State) :
    (drainLane a0 a1 s).nv = s.nv ∧ (drainLane a0 a1 s).boot = s.boot ∧ (drainLane a0 a1 s).mem = s.mem ∧
      (drainLane a0 a1 s).gau = s.gau ∧ (drainLane a0 a1 s).benches = s.benches ∧ (drainLane a0 a1 s).serve = s.serve ∧
      (drainLane a0 a1 s).opr = s.opr ∧ (drainLane a0 a1 s).vid = s.vid ∧ (drainLane a0 a1 s).red = s.red ∧
      (drainLane a0 a1 s).pwr = s.pwr := by
  induction a1 generalizing s with
  | zero => simp [drainLane]
  | succ n ih =>
    simp only [drainLane]
    (repeat' split) <;> simp [ih]

@[simp] theorem sendOpen_parts (a0 : Nat) (s : State) :
    (sendOpen a0 s).nv = s.nv ∧ (sendOpen a0 s).boot = s.boot ∧ (sendOpen a0 s).mem = s.mem ∧ (sendOpen a0 s).gau = s.gau ∧
      (sendOpen a0 s).benches = s.benches ∧ (sendOpen a0 s).serve = s.serve ∧ (sendOpen a0 s).opr = s.opr ∧
      (sendOpen a0 s).vid = s.vid ∧ (sendOpen a0 s).red = s.red ∧ (sendOpen a0 s).pwr = s.pwr := by
  simp [sendOpen]

@[simp] theorem openLane_parts (a0 : Nat) (a1 : Nat) (a2 : Nat) (a3 : Nat) (a4 : Bool) (s : State) :
    (openLane a0 a1 a2 a3 a4 s).2.nv = s.nv ∧ (openLane a0 a1 a2 a3 a4 s).2.boot = s.boot ∧ (openLane a0 a1 a2 a3 a4 s).2.mem = s.mem ∧
      (openLane a0 a1 a2 a3 a4 s).2.gau = s.gau ∧ (openLane a0 a1 a2 a3 a4 s).2.benches = s.benches ∧
      (openLane a0 a1 a2 a3 a4 s).2.serve = s.serve ∧ (openLane a0 a1 a2 a3 a4 s).2.opr = s.opr ∧
      (openLane a0 a1 a2 a3 a4 s).2.vid = s.vid ∧ (openLane a0 a1 a2 a3 a4 s).2.red = s.red ∧
      (openLane a0 a1 a2 a3 a4 s).2.pwr = s.pwr := by
  unfold openLane
  split <;> simp

@[simp] theorem laneFor_parts (a0 : Nat) (a1 : Nat) (a2 : Nat) (a3 : Nat) (a4 : Bool) (s : State) :
    (laneFor a0 a1 a2 a3 a4 s).2.nv = s.nv ∧ (laneFor a0 a1 a2 a3 a4 s).2.boot = s.boot ∧ (laneFor a0 a1 a2 a3 a4 s).2.mem = s.mem ∧
      (laneFor a0 a1 a2 a3 a4 s).2.gau = s.gau ∧ (laneFor a0 a1 a2 a3 a4 s).2.benches = s.benches ∧
      (laneFor a0 a1 a2 a3 a4 s).2.serve = s.serve ∧ (laneFor a0 a1 a2 a3 a4 s).2.opr = s.opr ∧
      (laneFor a0 a1 a2 a3 a4 s).2.vid = s.vid ∧ (laneFor a0 a1 a2 a3 a4 s).2.red = s.red ∧ (laneFor a0 a1 a2 a3 a4 s).2.pwr = s.pwr := by
  simp only [laneFor]
  (repeat' split) <;> simp

@[simp] theorem sendLane_parts (a0 : Nat) (a1 : Sent) (s : State) :
    (sendLane a0 a1 s).nv = s.nv ∧ (sendLane a0 a1 s).boot = s.boot ∧ (sendLane a0 a1 s).mem = s.mem ∧ (sendLane a0 a1 s).gau = s.gau ∧
      (sendLane a0 a1 s).benches = s.benches ∧ (sendLane a0 a1 s).serve = s.serve ∧ (sendLane a0 a1 s).opr = s.opr ∧
      (sendLane a0 a1 s).vid = s.vid ∧ (sendLane a0 a1 s).red = s.red ∧ (sendLane a0 a1 s).pwr = s.pwr := by
  simp [sendLane]

@[simp] theorem sendOp_parts (a0 : Nat) (a1 : OpFor) (a2 : Sent) (s : State) :
    (sendOp a0 a1 a2 s).nv = s.nv ∧ (sendOp a0 a1 a2 s).boot = s.boot ∧ (sendOp a0 a1 a2 s).mem = s.mem ∧
      (sendOp a0 a1 a2 s).gau = s.gau ∧ (sendOp a0 a1 a2 s).benches = s.benches ∧ (sendOp a0 a1 a2 s).serve = s.serve ∧
      (sendOp a0 a1 a2 s).opr = s.opr ∧ (sendOp a0 a1 a2 s).vid = s.vid ∧ (sendOp a0 a1 a2 s).red = s.red ∧
      (sendOp a0 a1 a2 s).pwr = s.pwr := by
  simp only [sendOp]
  (repeat' split) <;> simp

@[simp] theorem retryTags_parts (s : State) :
    (retryTags s).nv = s.nv ∧ (retryTags s).boot = s.boot ∧ (retryTags s).mem = s.mem ∧ (retryTags s).gau = s.gau ∧ (retryTags
      s).benches = s.benches ∧ (retryTags s).serve = s.serve ∧ (retryTags s).opr = s.opr ∧ (retryTags s).vid = s.vid ∧
      (retryTags s).red = s.red ∧ (retryTags s).pwr = s.pwr := by
  simp [retryTags]

@[simp] theorem addRec_parts (a0 : Nat) (a1 : Nat) (a2 : Nat) (a3 : Option Nat) (a4 : Bool) (a5 : List Fld) (s : State) :
    (addRec a0 a1 a2 a3 a4 a5 s).nv = s.nv ∧ (addRec a0 a1 a2 a3 a4 a5 s).boot = s.boot ∧ (addRec a0 a1 a2 a3 a4 a5 s).mem = s.mem ∧
      (addRec a0 a1 a2 a3 a4 a5 s).gau = s.gau ∧ (addRec a0 a1 a2 a3 a4 a5 s).benches = s.benches ∧
      (addRec a0 a1 a2 a3 a4 a5 s).serve = s.serve ∧ (addRec a0 a1 a2 a3 a4 a5 s).opr = s.opr ∧
      (addRec a0 a1 a2 a3 a4 a5 s).vid = s.vid ∧ (addRec a0 a1 a2 a3 a4 a5 s).red = s.red ∧ (addRec a0 a1 a2 a3 a4 a5 s).pwr = s.pwr := by
  simp only [addRec]
  (repeat' split) <;> simp

@[simp] theorem startFlush_parts (s : State) :
    (startFlush s).nv = s.nv ∧ (startFlush s).boot = s.boot ∧ (startFlush s).mem = s.mem ∧ (startFlush s).gau = s.gau ∧
      (startFlush s).benches = s.benches ∧ (startFlush s).serve = s.serve ∧ (startFlush s).opr = s.opr ∧ (startFlush s).vid = s.vid ∧
      (startFlush s).red = s.red ∧ (startFlush s).pwr = s.pwr := by
  simp [startFlush]

@[simp] theorem endFreezeEarly_parts (s : State) :
    (endFreezeEarly s).nv = s.nv ∧ (endFreezeEarly s).boot = s.boot ∧ (endFreezeEarly s).mem = s.mem ∧ (endFreezeEarly s).gau = s.gau ∧
      (endFreezeEarly s).benches = s.benches ∧ (endFreezeEarly s).serve = s.serve ∧ (endFreezeEarly s).opr = s.opr ∧
      (endFreezeEarly s).vid = s.vid ∧ (endFreezeEarly s).red = s.red ∧ (endFreezeEarly s).pwr = s.pwr := by
  simp only [endFreezeEarly]
  (repeat' split) <;> simp

@[simp] theorem sendControl_parts (a0 : Nat) (a1 : List Byte) (s : State) :
    (sendControl a0 a1 s).nv = s.nv ∧ (sendControl a0 a1 s).boot = s.boot ∧ (sendControl a0 a1 s).mem = s.mem ∧
      (sendControl a0 a1 s).gau = s.gau ∧ (sendControl a0 a1 s).benches = s.benches ∧ (sendControl a0 a1 s).serve = s.serve ∧
      (sendControl a0 a1 s).opr = s.opr ∧ (sendControl a0 a1 s).vid = s.vid ∧ (sendControl a0 a1 s).red = s.red ∧
      (sendControl a0 a1 s).pwr = s.pwr := by
  simp only [sendControl]
  (repeat' split) <;> grind [laneFor_parts, sendOp_parts]

@[simp] theorem takeResponses_parts (a0 : Nat) (s : State) :
    (takeResponses a0 s).nv = s.nv ∧ (takeResponses a0 s).boot = s.boot ∧ (takeResponses a0 s).mem = s.mem ∧
      (takeResponses a0 s).gau = s.gau ∧ (takeResponses a0 s).benches = s.benches ∧ (takeResponses a0 s).serve = s.serve ∧
      (takeResponses a0 s).opr = s.opr ∧ (takeResponses a0 s).vid = s.vid ∧ (takeResponses a0 s).red = s.red ∧
      (takeResponses a0 s).pwr = s.pwr := by
  simp [takeResponses]

@[simp] theorem putRsp_parts (a0 : Nat) (a1 : Response) (s : State) :
    (putRsp a0 a1 s).nv = s.nv ∧ (putRsp a0 a1 s).boot = s.boot ∧ (putRsp a0 a1 s).mem = s.mem ∧ (putRsp a0 a1 s).gau = s.gau ∧
      (putRsp a0 a1 s).benches = s.benches ∧ (putRsp a0 a1 s).serve = s.serve ∧ (putRsp a0 a1 s).opr = s.opr ∧
      (putRsp a0 a1 s).vid = s.vid ∧ (putRsp a0 a1 s).red = s.red ∧ (putRsp a0 a1 s).pwr = s.pwr := by
  simp [putRsp]

@[simp] theorem writeRsp_parts (a0 : Nat) (a1 : Response) (s : State) :
    (writeRsp a0 a1 s).nv = s.nv ∧ (writeRsp a0 a1 s).boot = s.boot ∧ (writeRsp a0 a1 s).mem = s.mem ∧ (writeRsp a0 a1 s).gau = s.gau ∧
      (writeRsp a0 a1 s).benches = s.benches ∧ (writeRsp a0 a1 s).serve = s.serve ∧ (writeRsp a0 a1 s).opr = s.opr ∧
      (writeRsp a0 a1 s).vid = s.vid ∧ (writeRsp a0 a1 s).red = s.red ∧ (writeRsp a0 a1 s).pwr = s.pwr := by
  simp [writeRsp]

@[simp] theorem notifyOne_parts (a0 : Nat) (a1 : Notif) (s : State) :
    (notifyOne a0 a1 s).nv = s.nv ∧ (notifyOne a0 a1 s).boot = s.boot ∧ (notifyOne a0 a1 s).mem = s.mem ∧
      (notifyOne a0 a1 s).gau = s.gau ∧ (notifyOne a0 a1 s).benches = s.benches ∧ (notifyOne a0 a1 s).serve = s.serve ∧
      (notifyOne a0 a1 s).opr = s.opr ∧ (notifyOne a0 a1 s).vid = s.vid ∧ (notifyOne a0 a1 s).red = s.red ∧
      (notifyOne a0 a1 s).pwr = s.pwr := by
  simp [notifyOne]

@[simp] theorem notify_parts (a0 : Nat) (a1 : Nat) (a2 : Nat) (s : State) :
    (notify a0 a1 a2 s).nv = s.nv ∧ (notify a0 a1 a2 s).boot = s.boot ∧ (notify a0 a1 a2 s).mem = s.mem ∧
      (notify a0 a1 a2 s).gau = s.gau ∧ (notify a0 a1 a2 s).benches = s.benches ∧ (notify a0 a1 a2 s).serve = s.serve ∧
      (notify a0 a1 a2 s).opr = s.opr ∧ (notify a0 a1 a2 s).vid = s.vid ∧ (notify a0 a1 a2 s).red = s.red ∧
      (notify a0 a1 a2 s).pwr = s.pwr := by
  simp [notify]

@[simp] theorem record_parts (a0 : Nat) (a1 : Nat) (a2 : Nat) (a3 : Option Nat) (a4 : Bool) (a5 : List Fld) (s : State) :
    (record a0 a1 a2 a3 a4 a5 s).nv = s.nv ∧ (record a0 a1 a2 a3 a4 a5 s).boot = s.boot ∧ (record a0 a1 a2 a3 a4 a5 s).mem = s.mem ∧
      (record a0 a1 a2 a3 a4 a5 s).gau = s.gau ∧ (record a0 a1 a2 a3 a4 a5 s).benches = s.benches ∧
      (record a0 a1 a2 a3 a4 a5 s).serve = s.serve ∧ (record a0 a1 a2 a3 a4 a5 s).opr = s.opr ∧
      (record a0 a1 a2 a3 a4 a5 s).vid = s.vid ∧ (record a0 a1 a2 a3 a4 a5 s).red = s.red ∧ (record a0 a1 a2 a3 a4 a5 s).pwr = s.pwr := by
  simp only [record]
  (repeat' split) <;> simp

@[simp] theorem recordSq_parts (a0 : Nat) (a1 : Nat) (a2 : List Fld) (s : State) :
    (recordSq a0 a1 a2 s).nv = s.nv ∧ (recordSq a0 a1 a2 s).boot = s.boot ∧ (recordSq a0 a1 a2 s).mem = s.mem ∧
      (recordSq a0 a1 a2 s).gau = s.gau ∧ (recordSq a0 a1 a2 s).benches = s.benches ∧ (recordSq a0 a1 a2 s).serve = s.serve ∧
      (recordSq a0 a1 a2 s).opr = s.opr ∧ (recordSq a0 a1 a2 s).vid = s.vid ∧ (recordSq a0 a1 a2 s).red = s.red ∧
      (recordSq a0 a1 a2 s).pwr = s.pwr := by
  simp [recordSq]

@[simp] theorem ok_parts (s : State) :
    (ok s).s.nv = s.nv ∧ (ok s).s.boot = s.boot ∧ (ok s).s.mem = s.mem ∧ (ok s).s.gau = s.gau ∧ (ok s).s.benches = s.benches ∧
      (ok s).s.serve = s.serve ∧ (ok s).s.opr = s.opr ∧ (ok s).s.vid = s.vid ∧ (ok s).s.red = s.red ∧ (ok s).s.pwr = s.pwr := by
  simp [ok]

@[simp] theorem okData_parts (s : State) (a1 : List Fld) :
    (okData s a1).s.nv = s.nv ∧ (okData s a1).s.boot = s.boot ∧ (okData s a1).s.mem = s.mem ∧ (okData s a1).s.gau = s.gau ∧
      (okData s a1).s.benches = s.benches ∧ (okData s a1).s.serve = s.serve ∧ (okData s a1).s.opr = s.opr ∧
      (okData s a1).s.vid = s.vid ∧ (okData s a1).s.red = s.red ∧ (okData s a1).s.pwr = s.pwr := by
  simp [okData]

@[simp] theorem no_parts (s : State) (a1 : Status) :
    (no s a1).s.nv = s.nv ∧ (no s a1).s.boot = s.boot ∧ (no s a1).s.mem = s.mem ∧ (no s a1).s.gau = s.gau ∧
      (no s a1).s.benches = s.benches ∧ (no s a1).s.serve = s.serve ∧ (no s a1).s.opr = s.opr ∧ (no s a1).s.vid = s.vid ∧
      (no s a1).s.red = s.red ∧ (no s a1).s.pwr = s.pwr := by
  simp [no]

@[simp] theorem noData_parts (s : State) (a1 : Status) (a2 : List Fld) :
    (noData s a1 a2).s.nv = s.nv ∧ (noData s a1 a2).s.boot = s.boot ∧ (noData s a1 a2).s.mem = s.mem ∧ (noData s a1 a2).s.gau = s.gau ∧
      (noData s a1 a2).s.benches = s.benches ∧ (noData s a1 a2).s.serve = s.serve ∧ (noData s a1 a2).s.opr = s.opr ∧
      (noData s a1 a2).s.vid = s.vid ∧ (noData s a1 a2).s.red = s.red ∧ (noData s a1 a2).s.pwr = s.pwr := by
  simp [noData]

@[simp] theorem badReserved_parts (s : State) :
    (badReserved s).s.nv = s.nv ∧ (badReserved s).s.boot = s.boot ∧ (badReserved s).s.mem = s.mem ∧ (badReserved s).s.gau = s.gau ∧
      (badReserved s).s.benches = s.benches ∧ (badReserved s).s.serve = s.serve ∧ (badReserved s).s.opr = s.opr ∧
      (badReserved s).s.vid = s.vid ∧ (badReserved s).s.red = s.red ∧ (badReserved s).s.pwr = s.pwr := by
  simp [badReserved]

@[simp] theorem accepted_parts (s : State) (a1 : WorkKind) (a2 : Nat) :
    (accepted s a1 a2).s.nv = s.nv ∧ (accepted s a1 a2).s.boot = s.boot ∧ (accepted s a1 a2).s.mem = s.mem ∧
      (accepted s a1 a2).s.gau = s.gau ∧ (accepted s a1 a2).s.benches = s.benches ∧ (accepted s a1 a2).s.serve = s.serve ∧
      (accepted s a1 a2).s.opr = s.opr ∧ (accepted s a1 a2).s.vid = s.vid ∧ (accepted s a1 a2).s.red = s.red ∧
      (accepted s a1 a2).s.pwr = s.pwr := by
  simp [accepted]

@[simp] theorem withheld_parts (s : State) (a0 : WorkKind) (a1 : Nat) :
    (withheld s a0 a1).s.nv = s.nv ∧ (withheld s a0 a1).s.boot = s.boot ∧ (withheld s a0 a1).s.mem = s.mem ∧
      (withheld s a0 a1).s.gau = s.gau ∧ (withheld s a0 a1).s.benches = s.benches ∧ (withheld s a0 a1).s.serve = s.serve ∧
      (withheld s a0 a1).s.opr = s.opr ∧ (withheld s a0 a1).s.vid = s.vid ∧ (withheld s a0 a1).s.red = s.red ∧
      (withheld s a0 a1).s.pwr = s.pwr := by
  simp [withheld]

@[simp] theorem finishWork_parts (a0 : Work) (a1 : Status) (a2 : List Fld) (s : State) :
    (finishWork a0 a1 a2 s).nv = s.nv ∧ (finishWork a0 a1 a2 s).boot = s.boot ∧ (finishWork a0 a1 a2 s).mem = s.mem ∧
      (finishWork a0 a1 a2 s).gau = s.gau ∧ (finishWork a0 a1 a2 s).benches = s.benches ∧ (finishWork a0 a1 a2 s).serve = s.serve ∧
      (finishWork a0 a1 a2 s).opr = s.opr ∧ (finishWork a0 a1 a2 s).vid = s.vid ∧ (finishWork a0 a1 a2 s).red = s.red ∧
      (finishWork a0 a1 a2 s).pwr = s.pwr := by
  simp [finishWork]

@[simp] theorem setFunc_parts (a0 : Nat) (a1 : Func → Func) (s : State) :
    (setFunc a0 a1 s).nv = s.nv ∧ (setFunc a0 a1 s).boot = s.boot ∧ (setFunc a0 a1 s).mem = s.mem ∧ (setFunc a0 a1 s).gau = s.gau ∧
      (setFunc a0 a1 s).benches = s.benches ∧ (setFunc a0 a1 s).serve = s.serve ∧ (setFunc a0 a1 s).opr = s.opr ∧
      (setFunc a0 a1 s).vid = s.vid ∧ (setFunc a0 a1 s).red = s.red ∧ (setFunc a0 a1 s).pwr = s.pwr := by
  simp [setFunc]

@[simp] theorem beginRevert_parts (a0 : Nat) (s : State) :
    (beginRevert a0 s).nv = s.nv ∧ (beginRevert a0 s).boot = s.boot ∧ (beginRevert a0 s).mem = s.mem ∧ (beginRevert a0 s).gau = s.gau ∧
      (beginRevert a0 s).benches = s.benches ∧ (beginRevert a0 s).serve = s.serve ∧ (beginRevert a0 s).opr = s.opr ∧
      (beginRevert a0 s).vid = s.vid ∧ (beginRevert a0 s).red = s.red ∧ (beginRevert a0 s).pwr = s.pwr := by
  simp [beginRevert]

@[simp] theorem revertNow_parts (a0 : Nat) (a1 : RevertCause) (s : State) :
    (revertNow a0 a1 s).nv = s.nv ∧ (revertNow a0 a1 s).boot = s.boot ∧ (revertNow a0 a1 s).mem = s.mem ∧
      (revertNow a0 a1 s).gau = s.gau ∧ (revertNow a0 a1 s).benches = s.benches ∧ (revertNow a0 a1 s).serve = s.serve ∧
      (revertNow a0 a1 s).opr = s.opr ∧ (revertNow a0 a1 s).vid = s.vid ∧ (revertNow a0 a1 s).red = s.red ∧
      (revertNow a0 a1 s).pwr = s.pwr := by
  simp [revertNow]

@[simp] theorem revertFor_parts (a0 : Nat) (a1 : RevertCause) (s : State) :
    (revertFor a0 a1 s).nv = s.nv ∧ (revertFor a0 a1 s).boot = s.boot ∧ (revertFor a0 a1 s).mem = s.mem ∧
      (revertFor a0 a1 s).gau = s.gau ∧ (revertFor a0 a1 s).benches = s.benches ∧ (revertFor a0 a1 s).serve = s.serve ∧
      (revertFor a0 a1 s).opr = s.opr ∧ (revertFor a0 a1 s).vid = s.vid ∧ (revertFor a0 a1 s).red = s.red ∧
      (revertFor a0 a1 s).pwr = s.pwr := by
  simp only [revertFor]
  (repeat' split) <;> simp

@[simp] theorem pendingRevert_parts (a0 : Nat) (s : State) :
    (pendingRevert a0 s).nv = s.nv ∧ (pendingRevert a0 s).boot = s.boot ∧ (pendingRevert a0 s).mem = s.mem ∧
      (pendingRevert a0 s).gau = s.gau ∧ (pendingRevert a0 s).benches = s.benches ∧ (pendingRevert a0 s).serve = s.serve ∧
      (pendingRevert a0 s).opr = s.opr ∧ (pendingRevert a0 s).vid = s.vid ∧ (pendingRevert a0 s).red = s.red ∧
      (pendingRevert a0 s).pwr = s.pwr := by
  unfold pendingRevert
  split
  · split <;> simp
  · simp

@[simp] theorem revertHeld_parts (a0 : Nat) (a1 : RevertCause) (s : State) :
    (revertHeld a0 a1 s).nv = s.nv ∧ (revertHeld a0 a1 s).boot = s.boot ∧ (revertHeld a0 a1 s).mem = s.mem ∧
      (revertHeld a0 a1 s).gau = s.gau ∧ (revertHeld a0 a1 s).benches = s.benches ∧ (revertHeld a0 a1 s).serve = s.serve ∧
      (revertHeld a0 a1 s).opr = s.opr ∧ (revertHeld a0 a1 s).vid = s.vid ∧ (revertHeld a0 a1 s).red = s.red ∧
      (revertHeld a0 a1 s).pwr = s.pwr := by
  simp [revertHeld]

@[simp] theorem quarantine_parts (a0 : Nat) (s : State) :
    (quarantine a0 s).nv = s.nv ∧ (quarantine a0 s).boot = s.boot ∧ (quarantine a0 s).mem = s.mem ∧ (quarantine a0 s).gau = s.gau ∧
      (quarantine a0 s).benches = s.benches ∧ (quarantine a0 s).serve = s.serve ∧ (quarantine a0 s).opr = s.opr ∧
      (quarantine a0 s).vid = s.vid ∧ (quarantine a0 s).red = s.red ∧ (quarantine a0 s).pwr = s.pwr := by
  simp [quarantine]

@[simp] theorem violation_parts (a0 : Nat) (s : State) :
    (violation a0 s).nv = s.nv ∧ (violation a0 s).boot = s.boot ∧ (violation a0 s).mem = s.mem ∧ (violation a0 s).gau = s.gau ∧
      (violation a0 s).benches = s.benches ∧ (violation a0 s).serve = s.serve ∧ (violation a0 s).opr = s.opr ∧
      (violation a0 s).vid = s.vid ∧ (violation a0 s).red = s.red ∧ (violation a0 s).pwr = s.pwr := by
  simp [violation]

@[simp] theorem countIdeDrop_parts (s : State) :
    (countIdeDrop s).nv = s.nv ∧ (countIdeDrop s).boot = s.boot ∧ (countIdeDrop s).mem = s.mem ∧ (countIdeDrop s).gau = s.gau ∧
      (countIdeDrop s).benches = s.benches ∧ (countIdeDrop s).serve = s.serve ∧ (countIdeDrop s).opr = s.opr ∧
      (countIdeDrop s).vid = s.vid ∧ (countIdeDrop s).red = s.red ∧ (countIdeDrop s).pwr = s.pwr := by
  simp [countIdeDrop]

@[simp] theorem exposeAll_parts (a0 : Nat) (a1 : Nat) (a2 : Nat) (s : State) :
    (exposeAll a0 a1 a2 s).nv = s.nv ∧ (exposeAll a0 a1 a2 s).boot = s.boot ∧ (exposeAll a0 a1 a2 s).mem = s.mem ∧
      (exposeAll a0 a1 a2 s).gau = s.gau ∧ (exposeAll a0 a1 a2 s).benches = s.benches ∧ (exposeAll a0 a1 a2 s).serve = s.serve ∧
      (exposeAll a0 a1 a2 s).opr = s.opr ∧ (exposeAll a0 a1 a2 s).vid = s.vid ∧ (exposeAll a0 a1 a2 s).red = s.red ∧
      (exposeAll a0 a1 a2 s).pwr = s.pwr := by
  induction a1 generalizing a2 s with
  | zero => simp [exposeAll]
  | succ n ih =>
    unfold exposeAll
    dsimp only
    split
    · simp [ih]
    · simp

@[simp] theorem expose_parts (a0 : Nat) (a1 : Nat) (s : State) :
    (expose a0 a1 s).nv = s.nv ∧ (expose a0 a1 s).boot = s.boot ∧ (expose a0 a1 s).mem = s.mem ∧ (expose a0 a1 s).gau = s.gau ∧
      (expose a0 a1 s).benches = s.benches ∧ (expose a0 a1 s).serve = s.serve ∧ (expose a0 a1 s).opr = s.opr ∧
      (expose a0 a1 s).vid = s.vid ∧ (expose a0 a1 s).red = s.red ∧ (expose a0 a1 s).pwr = s.pwr := by
  simp [expose]

theorem takeExposed_eq {m : Nat} {s : State} {op : Nat} {p : Exposed × State} (e : takeExposed m op s = some p) : ∃ f, p.2 = modMbx m f s := by
  unfold takeExposed at e
  split at e
  · split at e
    · injection e with e; subst e; exact ⟨_, rfl⟩
    · cases e
  · cases e

@[simp] theorem arrive_parts (a0 : Nat) (s : State) :
    (arrive a0 s).2.nv = s.nv ∧ (arrive a0 s).2.boot = s.boot ∧ (arrive a0 s).2.mem = s.mem ∧ (arrive a0 s).2.gau = s.gau ∧
      (arrive a0 s).2.benches = s.benches ∧ (arrive a0 s).2.serve = s.serve ∧ (arrive a0 s).2.opr = s.opr ∧
      (arrive a0 s).2.vid = s.vid ∧ (arrive a0 s).2.red = s.red ∧ (arrive a0 s).2.pwr = s.pwr := by
  simp [arrive]

theorem close_gen {β : Type} (g : State → β) (h1 : ∀ m r s, g (writeRsp m r s) = g s)
    (h2 : ∀ s w, g { s with sq := { s.sq with work := w } } = g s) (h3 : ∀ m s, g (violation m s) = g s) (c : Call) (a : Ans) :
    g (close c a) = g a.s := by
  unfold close
  dsimp only
  split <;> split <;> split <;> simp only [h1, h2, h3]

@[simp] theorem close_parts (c : Call) (a : Ans) :
    (close c a).nv = a.s.nv ∧ (close c a).boot = a.s.boot ∧ (close c a).mem = a.s.mem ∧ (close c a).gau = a.s.gau ∧
      (close c a).benches = a.s.benches ∧ (close c a).serve = a.s.serve ∧ (close c a).opr = a.s.opr ∧ (close c a).vid = a.s.vid ∧
      (close c a).red = a.s.red ∧ (close c a).pwr = a.s.pwr := by
  refine ⟨?_, ?_, ?_, ?_, ?_, ?_, ?_, ?_, ?_, ?_⟩ <;> exact close_gen _ (by simp) (by simp) (by simp) c a

theorem precheck_s {h : Hdr} {p : Spec} {c : Call} {s : State} {a : Ans} (e : precheck h p c s = some a) : a.s = s := by
  unfold precheck at e
  repeat' split at e
  all_goals first | (cases e; done) | (injection e with e; subst e; rfl)

/-- The commands with unknown opcodes that follow are answered by responses and violations alone. -/
theorem refuseUnknown_gen {β : Type} (g : State → β) (h1 : ∀ m f s, g (modMbx m f s) = g s) (h2 : ∀ c a, g (close c a) = g a.s)
    (m n : Nat) (s : State) : g (refuseUnknown m n s) = g s := by
  induction n generalizing s with
  | zero => rfl
  | succ n ih =>
    unfold refuseUnknown
    split
    · rfl
    · split
      · rfl
      · split
        · rfl
        · next e =>
          obtain ⟨f, hf⟩ := takeExposed_eq e
          dsimp only at hf
          subst hf
          dsimp only
          rw [ih, h2]
          split <;> exact h1 ..

@[simp] theorem refuseUnknown_parts (a0 : Nat) (a1 : Nat) (s : State) :
    (refuseUnknown a0 a1 s).nv = s.nv ∧ (refuseUnknown a0 a1 s).boot = s.boot ∧ (refuseUnknown a0 a1 s).mem = s.mem ∧
      (refuseUnknown a0 a1 s).gau = s.gau ∧ (refuseUnknown a0 a1 s).benches = s.benches ∧
      (refuseUnknown a0 a1 s).serve = s.serve ∧ (refuseUnknown a0 a1 s).opr = s.opr ∧ (refuseUnknown a0 a1 s).vid = s.vid ∧
      (refuseUnknown a0 a1 s).red = s.red ∧ (refuseUnknown a0 a1 s).pwr = s.pwr := by
  refine ⟨?_, ?_, ?_, ?_, ?_, ?_, ?_, ?_, ?_, ?_⟩ <;> exact refuseUnknown_gen _ (by simp) (by simp) _ _ _

@[simp] theorem skipUnknown_parts (a0 : Nat) (s : State) :
    (skipUnknown a0 s).nv = s.nv ∧ (skipUnknown a0 s).boot = s.boot ∧ (skipUnknown a0 s).mem = s.mem ∧
      (skipUnknown a0 s).gau = s.gau ∧ (skipUnknown a0 s).benches = s.benches ∧ (skipUnknown a0 s).serve = s.serve ∧
      (skipUnknown a0 s).opr = s.opr ∧ (skipUnknown a0 s).vid = s.vid ∧ (skipUnknown a0 s).red = s.red ∧
      (skipUnknown a0 s).pwr = s.pwr := by
  refine ⟨?_, ?_, ?_, ?_, ?_, ?_, ?_, ?_, ?_, ?_⟩ <;> exact refuseUnknown_gen _ (by simp) (by simp) _ _ _

@[simp] theorem takeEntries_parts (a0 : Nat) (a1 : List Byte) (s : State) :
    (takeEntries a0 a1 s).nv = s.nv ∧ (takeEntries a0 a1 s).boot = s.boot ∧ (takeEntries a0 a1 s).mem = s.mem ∧
      (takeEntries a0 a1 s).gau = s.gau ∧ (takeEntries a0 a1 s).benches = s.benches ∧ (takeEntries a0 a1 s).serve = s.serve ∧
      (takeEntries a0 a1 s).opr = s.opr ∧ (takeEntries a0 a1 s).vid = s.vid ∧ (takeEntries a0 a1 s).red = s.red ∧
      (takeEntries a0 a1 s).pwr = s.pwr := by
  simp [takeEntries]

@[simp] theorem sideMessage_parts (a0 : Nat) (a1 : Hdr) (s : State) :
    (sideMessage a0 a1 s).nv = s.nv ∧ (sideMessage a0 a1 s).boot = s.boot ∧ (sideMessage a0 a1 s).mem = s.mem ∧
      (sideMessage a0 a1 s).gau = s.gau ∧ (sideMessage a0 a1 s).benches = s.benches ∧ (sideMessage a0 a1 s).serve = s.serve ∧
      (sideMessage a0 a1 s).opr = s.opr ∧ (sideMessage a0 a1 s).vid = s.vid ∧ (sideMessage a0 a1 s).red = s.red ∧
      (sideMessage a0 a1 s).pwr = s.pwr := by
  simp [sideMessage]

@[simp] theorem enter_parts (a0 : Hdr) (a1 : Nat) (s : State) :
    (enter a0 a1 s).1.nv = s.nv ∧ (enter a0 a1 s).1.boot = s.boot ∧ (enter a0 a1 s).1.mem = s.mem ∧
      (enter a0 a1 s).1.gau = s.gau ∧ (enter a0 a1 s).1.benches = s.benches ∧ (enter a0 a1 s).1.serve = s.serve ∧
      (enter a0 a1 s).1.opr = s.opr ∧ (enter a0 a1 s).1.vid = s.vid ∧ (enter a0 a1 s).1.red = s.red ∧
      (enter a0 a1 s).1.pwr = s.pwr := by
  unfold enter
  dsimp only
  (repeat' split) <;> first
    | (simp; done)
    | (rename_i e; obtain ⟨f, hf⟩ := takeExposed_eq e; subst hf; simp; done)
    | (rename_i e; obtain ⟨f, hf⟩ := takeExposed_eq e; subst hf; split <;> simp)

@[simp] theorem finish_parts (a0 : WorkKind) (a1 : Nat) (a2 : Status) (a3 : List Fld) (s : State) :
    (finish a0 a1 a2 a3 s).nv = s.nv ∧ (finish a0 a1 a2 a3 s).boot = s.boot ∧ (finish a0 a1 a2 a3 s).mem = s.mem ∧
      (finish a0 a1 a2 a3 s).gau = s.gau ∧ (finish a0 a1 a2 a3 s).benches = s.benches ∧ (finish a0 a1 a2 a3 s).serve = s.serve ∧
      (finish a0 a1 a2 a3 s).opr = s.opr ∧ (finish a0 a1 a2 a3 s).vid = s.vid ∧ (finish a0 a1 a2 a3 s).red = s.red ∧
      (finish a0 a1 a2 a3 s).pwr = s.pwr := by
  simp only [finish]
  (repeat' split) <;> simp

@[simp] theorem finishBad_parts (a0 : Bool) (a1 : WorkKind) (a2 : Nat) (a3 : Status) (a4 : List Fld) (s : State) :
    (finishBad a0 a1 a2 a3 a4 s).nv = s.nv ∧ (finishBad a0 a1 a2 a3 a4 s).boot = s.boot ∧
      (finishBad a0 a1 a2 a3 a4 s).mem = s.mem ∧ (finishBad a0 a1 a2 a3 a4 s).gau = s.gau ∧
      (finishBad a0 a1 a2 a3 a4 s).benches = s.benches ∧ (finishBad a0 a1 a2 a3 a4 s).serve = s.serve ∧
      (finishBad a0 a1 a2 a3 a4 s).opr = s.opr ∧ (finishBad a0 a1 a2 a3 a4 s).vid = s.vid ∧
      (finishBad a0 a1 a2 a3 a4 s).red = s.red ∧ (finishBad a0 a1 a2 a3 a4 s).pwr = s.pwr := by
  simp only [finishBad]
  (repeat' split) <;> simp

@[simp] theorem answered_parts (c : Call) (a : Ans) :
    (answered c a).nv = a.s.nv ∧ (answered c a).boot = a.s.boot ∧ (answered c a).mem = a.s.mem ∧ (answered c a).gau = a.s.gau ∧
      (answered c a).benches = a.s.benches ∧ (answered c a).serve = a.s.serve ∧ (answered c a).opr = a.s.opr ∧
      (answered c a).vid = a.s.vid ∧ (answered c a).red = a.s.red ∧ (answered c a).pwr = a.s.pwr := by
  refine ⟨?_, ?_, ?_, ?_, ?_, ?_, ?_, ?_, ?_, ?_⟩ <;>
    exact (refuseUnknown_gen _ (by simp) (by simp) _ _ _).trans (by simp)

theorem command_gen {β : Type} (g : State → β) (h0 : ∀ d s, g (advance d s) = g s) (h1 : ∀ h o s, g (enter h o s).1 = g s)
    (h2 : ∀ c a, g (answered c a) = g a.s) (h : Hdr) (p : Spec) (body : Call → State → Ans) (s : State)
    (hb : ∀ c s, g (body c s).s = g s) : g (command h p body s) = g s := by
  have h4 := h1 h p.op (advance h.dt s)
  rw [h0] at h4
  unfold command
  dsimp only
  split
  · next e => rw [e] at h4; exact h4
  · next e =>
    rw [e] at h4
    split
    · next e => rw [h2, precheck_s e]; exact h4
    · rw [h2, hb]; exact h4

@[simp] theorem command_nv {h : Hdr} {p : Spec} {body : Call → State → Ans} {s : State} (hb : ∀ c s, (body c s).s.nv = s.nv) : (command h p body s).nv = s.nv :=
  command_gen (·.nv) (by simp) (by simp) (by simp) h p body s hb

@[simp] theorem command_boot {h : Hdr} {p : Spec} {body : Call → State → Ans} {s : State} (hb : ∀ c s, (body c s).s.boot = s.boot) : (command h p body s).boot = s.boot :=
  command_gen (·.boot) (by simp) (by simp) (by simp) h p body s hb

@[simp] theorem command_mem {h : Hdr} {p : Spec} {body : Call → State → Ans} {s : State} (hb : ∀ c s, (body c s).s.mem = s.mem) : (command h p body s).mem = s.mem :=
  command_gen (·.mem) (by simp) (by simp) (by simp) h p body s hb

@[simp] theorem command_gau {h : Hdr} {p : Spec} {body : Call → State → Ans} {s : State} (hb : ∀ c s, (body c s).s.gau = s.gau) : (command h p body s).gau = s.gau :=
  command_gen (·.gau) (by simp) (by simp) (by simp) h p body s hb

@[simp] theorem command_benches {h : Hdr} {p : Spec} {body : Call → State → Ans} {s : State} (hb : ∀ c s, (body c s).s.benches = s.benches) : (command h p body s).benches = s.benches :=
  command_gen (·.benches) (by simp) (by simp) (by simp) h p body s hb

@[simp] theorem command_serve {h : Hdr} {p : Spec} {body : Call → State → Ans} {s : State} (hb : ∀ c s, (body c s).s.serve = s.serve) : (command h p body s).serve = s.serve :=
  command_gen (·.serve) (by simp) (by simp) (by simp) h p body s hb

@[simp] theorem command_opr {h : Hdr} {p : Spec} {body : Call → State → Ans} {s : State} (hb : ∀ c s, (body c s).s.opr = s.opr) : (command h p body s).opr = s.opr :=
  command_gen (·.opr) (by simp) (by simp) (by simp) h p body s hb

@[simp] theorem command_vid {h : Hdr} {p : Spec} {body : Call → State → Ans} {s : State} (hb : ∀ c s, (body c s).s.vid = s.vid) : (command h p body s).vid = s.vid :=
  command_gen (·.vid) (by simp) (by simp) (by simp) h p body s hb

@[simp] theorem command_red {h : Hdr} {p : Spec} {body : Call → State → Ans} {s : State} (hb : ∀ c s, (body c s).s.red = s.red) : (command h p body s).red = s.red :=
  command_gen (·.red) (by simp) (by simp) (by simp) h p body s hb

@[simp] theorem command_pwr {h : Hdr} {p : Spec} {body : Call → State → Ans} {s : State} (hb : ∀ c s, (body c s).s.pwr = s.pwr) : (command h p body s).pwr = s.pwr :=
  command_gen (·.pwr) (by simp) (by simp) (by simp) h p body s hb

@[simp] theorem stage_parts (a0 : Nat) (a1 : Staged) (a2 : Call) (s : State) :
    (stage a0 a1 a2 s).s.nv = s.nv ∧ (stage a0 a1 a2 s).s.boot = s.boot ∧ (stage a0 a1 a2 s).s.mem = s.mem ∧
      (stage a0 a1 a2 s).s.gau = s.gau ∧ (stage a0 a1 a2 s).s.benches = s.benches ∧ (stage a0 a1 a2 s).s.serve = s.serve ∧
      (stage a0 a1 a2 s).s.opr = s.opr ∧ (stage a0 a1 a2 s).s.vid = s.vid ∧ (stage a0 a1 a2 s).s.red = s.red ∧
      (stage a0 a1 a2 s).s.pwr = s.pwr := by
  simp [stage]

@[simp] theorem freshId_parts (s : State) :
    (freshId s).2.nv = s.nv ∧ (freshId s).2.boot = s.boot ∧ (freshId s).2.mem = s.mem ∧ (freshId s).2.gau = s.gau ∧
      (freshId s).2.benches = s.benches ∧ (freshId s).2.serve = s.serve ∧ (freshId s).2.opr = s.opr ∧ (freshId s).2.vid = s.vid ∧
      (freshId s).2.red = s.red ∧ (freshId s).2.pwr = s.pwr := by
  simp [freshId]

@[simp] theorem raiseAlert_parts (a0 : Alert) (s : State) :
    (raiseAlert a0 s).nv = s.nv ∧ (raiseAlert a0 s).boot = s.boot ∧ (raiseAlert a0 s).mem = s.mem ∧ (raiseAlert a0 s).gau = s.gau ∧
      (raiseAlert a0 s).benches = s.benches ∧ (raiseAlert a0 s).serve = s.serve ∧ (raiseAlert a0 s).opr = s.opr ∧
      (raiseAlert a0 s).vid = s.vid ∧ (raiseAlert a0 s).red = s.red ∧ (raiseAlert a0 s).pwr = s.pwr := by
  simp [raiseAlert]

@[simp] theorem clearAlert_parts (a0 : Alert) (s : State) :
    (clearAlert a0 s).nv = s.nv ∧ (clearAlert a0 s).boot = s.boot ∧ (clearAlert a0 s).mem = s.mem ∧ (clearAlert a0 s).gau = s.gau ∧
      (clearAlert a0 s).benches = s.benches ∧ (clearAlert a0 s).serve = s.serve ∧ (clearAlert a0 s).opr = s.opr ∧
      (clearAlert a0 s).vid = s.vid ∧ (clearAlert a0 s).red = s.red ∧ (clearAlert a0 s).pwr = s.pwr := by
  simp [clearAlert]

@[simp] theorem enterService_parts (a0 : Nat) (a1 : Nat) (s : State) :
    (enterService a0 a1 s).nv = s.nv ∧ (enterService a0 a1 s).mem = s.mem ∧ (enterService a0 a1 s).gau = s.gau ∧
      (enterService a0 a1 s).benches = s.benches ∧ (enterService a0 a1 s).serve = s.serve ∧ (enterService a0 a1 s).opr = s.opr ∧
      (enterService a0 a1 s).vid = s.vid ∧ (enterService a0 a1 s).red = s.red ∧ (enterService a0 a1 s).pwr = s.pwr := by
  simp [enterService]

@[simp] theorem hostWrite_parts (a0 : Nat) (a1 : List Fld) (s : State) :
    (hostWrite a0 a1 s).nv = s.nv ∧ (hostWrite a0 a1 s).boot = s.boot ∧ (hostWrite a0 a1 s).mem = s.mem ∧
      (hostWrite a0 a1 s).gau = s.gau ∧ (hostWrite a0 a1 s).benches = s.benches ∧ (hostWrite a0 a1 s).serve = s.serve ∧
      (hostWrite a0 a1 s).opr = s.opr ∧ (hostWrite a0 a1 s).vid = s.vid ∧ (hostWrite a0 a1 s).red = s.red ∧
      (hostWrite a0 a1 s).pwr = s.pwr := by
  simp [hostWrite]

@[simp] theorem flushDone_parts (s : State) :
    (flushDone s).boot = s.boot ∧ (flushDone s).mem = s.mem ∧ (flushDone s).gau = s.gau ∧ (flushDone s).benches = s.benches ∧
      (flushDone s).serve = s.serve ∧ (flushDone s).opr = s.opr ∧ (flushDone s).vid = s.vid ∧ (flushDone s).red = s.red ∧
      (flushDone s).pwr = s.pwr := by
  simp only [flushDone]
  (repeat' split) <;> simp

@[simp] theorem finalFlush_parts (s : State) :
    (finalFlush s).boot = s.boot ∧ (finalFlush s).mem = s.mem ∧ (finalFlush s).gau = s.gau ∧ (finalFlush s).benches = s.benches ∧
      (finalFlush s).serve = s.serve ∧ (finalFlush s).opr = s.opr ∧ (finalFlush s).vid = s.vid ∧ (finalFlush s).red = s.red ∧
      (finalFlush s).pwr = s.pwr := by
  simp [finalFlush]

@[simp] theorem modItem_parts (a0 : Nat) (a1 : Nat) (a2 : ItemProgress → ItemProgress) (s : State) :
    (modItem a0 a1 a2 s).nv = s.nv ∧ (modItem a0 a1 a2 s).mem = s.mem ∧ (modItem a0 a1 a2 s).gau = s.gau ∧
      (modItem a0 a1 a2 s).benches = s.benches ∧ (modItem a0 a1 a2 s).serve = s.serve ∧ (modItem a0 a1 a2 s).opr = s.opr ∧
      (modItem a0 a1 a2 s).vid = s.vid ∧ (modItem a0 a1 a2 s).red = s.red ∧ (modItem a0 a1 a2 s).pwr = s.pwr := by
  simp [modItem]

@[simp] theorem journal_parts (a0 : Nat) (a1 : Nat) (a2 : Nat) (a3 : Nat) (a4 : Nat) (a5 : Nat) (a6 : Nat) (a7 : Nat) (a8 : Nat) (s : State) :
    (journal a0 a1 a2 a3 a4 a5 a6 a7 a8 s).mem = s.mem ∧ (journal a0 a1 a2 a3 a4 a5 a6 a7 a8 s).gau = s.gau ∧
      (journal a0 a1 a2 a3 a4 a5 a6 a7 a8 s).benches = s.benches ∧ (journal a0 a1 a2 a3 a4 a5 a6 a7 a8 s).serve = s.serve ∧
      (journal a0 a1 a2 a3 a4 a5 a6 a7 a8 s).opr = s.opr ∧ (journal a0 a1 a2 a3 a4 a5 a6 a7 a8 s).vid = s.vid ∧
      (journal a0 a1 a2 a3 a4 a5 a6 a7 a8 s).red = s.red ∧ (journal a0 a1 a2 a3 a4 a5 a6 a7 a8 s).pwr = s.pwr := by
  simp only [journal]
  (repeat' split) <;> simp

@[simp] theorem releaseJournal_parts (a0 : Bool) (s : State) :
    (releaseJournal a0 s).mem = s.mem ∧ (releaseJournal a0 s).gau = s.gau ∧ (releaseJournal a0 s).benches = s.benches ∧
      (releaseJournal a0 s).serve = s.serve ∧ (releaseJournal a0 s).opr = s.opr ∧ (releaseJournal a0 s).vid = s.vid ∧
      (releaseJournal a0 s).red = s.red ∧ (releaseJournal a0 s).pwr = s.pwr := by
  simp [releaseJournal]

@[simp] theorem startStep_parts (a0 : Nat) (s : State) :
    (startStep a0 s).mem = s.mem ∧ (startStep a0 s).gau = s.gau ∧ (startStep a0 s).benches = s.benches ∧
      (startStep a0 s).serve = s.serve ∧ (startStep a0 s).opr = s.opr ∧ (startStep a0 s).vid = s.vid ∧ (startStep a0 s).red = s.red ∧
      (startStep a0 s).pwr = s.pwr := by
  simp [startStep, foldN]

@[simp] theorem dropCleared_parts (s : State) :
    (dropCleared s).boot = s.boot ∧ (dropCleared s).mem = s.mem ∧ (dropCleared s).gau = s.gau ∧
      (dropCleared s).benches = s.benches ∧ (dropCleared s).serve = s.serve ∧ (dropCleared s).opr = s.opr ∧
      (dropCleared s).vid = s.vid ∧ (dropCleared s).red = s.red ∧ (dropCleared s).pwr = s.pwr := by
  simp [dropCleared]

@[simp] theorem clearNextBoot_parts (a0 : Nat) (s : State) :
    (clearNextBoot a0 s).boot = s.boot ∧ (clearNextBoot a0 s).mem = s.mem ∧ (clearNextBoot a0 s).gau = s.gau ∧
      (clearNextBoot a0 s).benches = s.benches ∧ (clearNextBoot a0 s).serve = s.serve ∧ (clearNextBoot a0 s).opr = s.opr ∧
      (clearNextBoot a0 s).vid = s.vid ∧ (clearNextBoot a0 s).red = s.red ∧ (clearNextBoot a0 s).pwr = s.pwr := by
  simp [clearNextBoot]

@[simp] theorem endStep_parts (a0 : Nat) (s : State) :
    (endStep a0 s).nv = s.nv ∧ (endStep a0 s).mem = s.mem ∧ (endStep a0 s).gau = s.gau ∧ (endStep a0 s).benches = s.benches ∧
      (endStep a0 s).serve = s.serve ∧ (endStep a0 s).opr = s.opr ∧ (endStep a0 s).vid = s.vid ∧ (endStep a0 s).red = s.red ∧
      (endStep a0 s).pwr = s.pwr := by
  simp [endStep]

@[simp] theorem bootProgress_parts (a0 : Nat) (s : State) :
    (bootProgress a0 s).mem = s.mem ∧ (bootProgress a0 s).gau = s.gau ∧ (bootProgress a0 s).benches = s.benches ∧
      (bootProgress a0 s).serve = s.serve ∧ (bootProgress a0 s).opr = s.opr ∧ (bootProgress a0 s).vid = s.vid ∧
      (bootProgress a0 s).red = s.red ∧ (bootProgress a0 s).pwr = s.pwr := by
  induction a0 generalizing s with
  | zero => simp [bootProgress]
  | succ n ih =>
    simp only [bootProgress]
    (repeat' split) <;> simp [ih]

@[simp] theorem startBoot_parts (s : State) :
    (startBoot s).mem = s.mem ∧ (startBoot s).gau = s.gau ∧ (startBoot s).benches = s.benches ∧ (startBoot s).serve = s.serve ∧
      (startBoot s).opr = s.opr ∧ (startBoot s).vid = s.vid ∧ (startBoot s).red = s.red ∧ (startBoot s).pwr = s.pwr := by
  simp [startBoot]

@[simp] theorem tryBoot_parts (s : State) :
    (tryBoot s).mem = s.mem ∧ (tryBoot s).gau = s.gau ∧ (tryBoot s).benches = s.benches ∧ (tryBoot s).serve = s.serve ∧
      (tryBoot s).opr = s.opr ∧ (tryBoot s).vid = s.vid ∧ (tryBoot s).red = s.red ∧ (tryBoot s).pwr = s.pwr := by
  simp [tryBoot]

@[simp] theorem modSlot_parts (a0 : Nat) (a1 : Slot → Slot) (s : State) :
    (modSlot a0 a1 s).boot = s.boot ∧ (modSlot a0 a1 s).mem = s.mem ∧ (modSlot a0 a1 s).gau = s.gau ∧
      (modSlot a0 a1 s).benches = s.benches ∧ (modSlot a0 a1 s).serve = s.serve ∧ (modSlot a0 a1 s).opr = s.opr ∧
      (modSlot a0 a1 s).vid = s.vid ∧ (modSlot a0 a1 s).red = s.red ∧ (modSlot a0 a1 s).pwr = s.pwr := by
  simp [modSlot]

@[simp] theorem applySetting_parts (a0 : Setting) (a1 : Option Nat) (s : State) :
    (applySetting a0 a1 s).boot = s.boot ∧ (applySetting a0 a1 s).mem = s.mem ∧ (applySetting a0 a1 s).gau = s.gau ∧
      (applySetting a0 a1 s).benches = s.benches ∧ (applySetting a0 a1 s).serve = s.serve ∧ (applySetting a0 a1 s).opr = s.opr ∧
      (applySetting a0 a1 s).vid = s.vid ∧ (applySetting a0 a1 s).red = s.red ∧ (applySetting a0 a1 s).pwr = s.pwr := by
  simp only [applySetting]
  (repeat' split) <;> simp

@[simp] theorem setLocal_parts (a0 : Setting) (a1 : Nat) (s : State) :
    (setLocal a0 a1 s).boot = s.boot ∧ (setLocal a0 a1 s).mem = s.mem ∧ (setLocal a0 a1 s).gau = s.gau ∧
      (setLocal a0 a1 s).benches = s.benches ∧ (setLocal a0 a1 s).serve = s.serve ∧ (setLocal a0 a1 s).opr = s.opr ∧
      (setLocal a0 a1 s).vid = s.vid ∧ (setLocal a0 a1 s).red = s.red ∧ (setLocal a0 a1 s).pwr = s.pwr := by
  simp [setLocal]

@[simp] theorem markSlot_parts (a0 : Nat) (a1 : SlotState) (a2 : (Slot → Slot)) (s : State) :
    (markSlot a0 a1 a2 s).boot = s.boot ∧ (markSlot a0 a1 a2 s).mem = s.mem ∧ (markSlot a0 a1 a2 s).gau = s.gau ∧ (markSlot a0
      a1 a2 s).benches = s.benches ∧ (markSlot a0 a1 a2 s).serve = s.serve ∧ (markSlot a0 a1 a2 s).opr = s.opr ∧ (markSlot a0 a1
      a2 s).vid = s.vid ∧ (markSlot a0 a1 a2 s).red = s.red ∧ (markSlot a0 a1 a2 s).pwr = s.pwr := by
  simp [markSlot]

@[simp] theorem endLongTrial_parts (a0 : Nat) (s : State) :
    (endLongTrial a0 s).boot = s.boot ∧ (endLongTrial a0 s).mem = s.mem ∧ (endLongTrial a0 s).gau = s.gau ∧
      (endLongTrial a0 s).benches = s.benches ∧ (endLongTrial a0 s).serve = s.serve ∧ (endLongTrial a0 s).opr = s.opr ∧
      (endLongTrial a0 s).vid = s.vid ∧ (endLongTrial a0 s).red = s.red ∧ (endLongTrial a0 s).pwr = s.pwr := by
  simp [endLongTrial]

@[simp] theorem enterTrial_parts (s : State) :
    (enterTrial s).boot = s.boot ∧ (enterTrial s).mem = s.mem ∧ (enterTrial s).gau = s.gau ∧
      (enterTrial s).benches = s.benches ∧ (enterTrial s).serve = s.serve ∧ (enterTrial s).opr = s.opr ∧
      (enterTrial s).vid = s.vid ∧ (enterTrial s).red = s.red ∧ (enterTrial s).pwr = s.pwr := by
  simp only [enterTrial]
  (repeat' split) <;> simp

@[simp] theorem selectSlot_parts (s : State) :
    (selectSlot s).mem = s.mem ∧ (selectSlot s).gau = s.gau ∧ (selectSlot s).benches = s.benches ∧ (selectSlot s).serve = s.serve ∧
      (selectSlot s).opr = s.opr ∧ (selectSlot s).vid = s.vid ∧ (selectSlot s).red = s.red ∧ (selectSlot s).pwr = s.pwr := by
  simp [selectSlot]

@[simp] theorem confirmSlot_parts (a0 : Nat) (s : State) :
    (confirmSlot a0 s).boot = s.boot ∧ (confirmSlot a0 s).mem = s.mem ∧ (confirmSlot a0 s).gau = s.gau ∧
      (confirmSlot a0 s).benches = s.benches ∧ (confirmSlot a0 s).serve = s.serve ∧ (confirmSlot a0 s).opr = s.opr ∧
      (confirmSlot a0 s).vid = s.vid ∧ (confirmSlot a0 s).red = s.red ∧ (confirmSlot a0 s).pwr = s.pwr := by
  simp [confirmSlot]

@[simp] theorem computeCapacity_parts (s : State) :
    (computeCapacity s).nv = s.nv ∧ (computeCapacity s).mem = s.mem ∧ (computeCapacity s).gau = s.gau ∧
      (computeCapacity s).benches = s.benches ∧ (computeCapacity s).serve = s.serve ∧ (computeCapacity s).opr = s.opr ∧
      (computeCapacity s).vid = s.vid ∧ (computeCapacity s).red = s.red ∧ (computeCapacity s).pwr = s.pwr := by
  simp [computeCapacity, foldN]

@[simp] theorem becomeReady_parts (s : State) :
    (becomeReady s).mem = s.mem ∧ (becomeReady s).gau = s.gau ∧ (becomeReady s).benches = s.benches ∧ (becomeReady s).serve = s.serve ∧
      (becomeReady s).opr = s.opr ∧ (becomeReady s).vid = s.vid ∧ (becomeReady s).red = s.red := by
  simp [becomeReady]

@[simp] theorem mandatoryFailed_parts (a0 : Nat) (s : State) :
    (mandatoryFailed a0 s).mem = s.mem ∧ (mandatoryFailed a0 s).gau = s.gau ∧ (mandatoryFailed a0 s).benches = s.benches ∧
      (mandatoryFailed a0 s).serve = s.serve ∧ (mandatoryFailed a0 s).opr = s.opr ∧ (mandatoryFailed a0 s).vid = s.vid ∧
      (mandatoryFailed a0 s).red = s.red ∧ (mandatoryFailed a0 s).pwr = s.pwr := by
  simp [mandatoryFailed]

@[simp] theorem deriveIdentity_parts (s : State) :
    (deriveIdentity s).nv = s.nv ∧ (deriveIdentity s).mem = s.mem ∧ (deriveIdentity s).gau = s.gau ∧
      (deriveIdentity s).benches = s.benches ∧ (deriveIdentity s).serve = s.serve ∧ (deriveIdentity s).opr = s.opr ∧
      (deriveIdentity s).vid = s.vid ∧ (deriveIdentity s).red = s.red ∧ (deriveIdentity s).pwr = s.pwr := by
  simp [deriveIdentity]

@[simp] theorem deriveKeys_parts (s : State) :
    (deriveKeys s).nv = s.nv ∧ (deriveKeys s).mem = s.mem ∧ (deriveKeys s).gau = s.gau ∧ (deriveKeys s).benches = s.benches ∧
      (deriveKeys s).serve = s.serve ∧ (deriveKeys s).opr = s.opr ∧ (deriveKeys s).vid = s.vid ∧ (deriveKeys s).red = s.red ∧
      (deriveKeys s).pwr = s.pwr := by
  simp [deriveKeys]

@[simp] theorem selfTested_parts (a0 : BootEnd) (s : State) :
    (selfTested a0 s).nv = s.nv ∧ (selfTested a0 s).boot = s.boot ∧ (selfTested a0 s).mem = s.mem ∧ (selfTested a0 s).gau = s.gau ∧
      (selfTested a0 s).benches = s.benches ∧ (selfTested a0 s).serve = s.serve ∧ (selfTested a0 s).opr = s.opr ∧
      (selfTested a0 s).vid = s.vid ∧ (selfTested a0 s).red = s.red ∧ (selfTested a0 s).pwr = s.pwr := by
  simp only [selfTested]
  (repeat' split) <;> simp

@[simp] theorem readStraps_parts (a0 : BootEnd) (s : State) :
    (readStraps a0 s).boot = s.boot ∧ (readStraps a0 s).mem = s.mem ∧ (readStraps a0 s).gau = s.gau ∧
      (readStraps a0 s).benches = s.benches ∧ (readStraps a0 s).serve = s.serve ∧ (readStraps a0 s).opr = s.opr ∧
      (readStraps a0 s).vid = s.vid ∧ (readStraps a0 s).red = s.red ∧ (readStraps a0 s).pwr = s.pwr := by
  simp [readStraps]

@[simp] theorem railsReports_parts (a0 : BootEnd) (s : State) :
    (railsReports a0 s).nv = s.nv ∧ (railsReports a0 s).boot = s.boot ∧ (railsReports a0 s).mem = s.mem ∧
      (railsReports a0 s).gau = s.gau ∧ (railsReports a0 s).benches = s.benches ∧ (railsReports a0 s).serve = s.serve ∧
      (railsReports a0 s).opr = s.opr ∧ (railsReports a0 s).vid = s.vid ∧ (railsReports a0 s).red = s.red ∧
      (railsReports a0 s).pwr = s.pwr := by
  simp [railsReports]

@[simp] theorem journalChecked_parts (a0 : BootEnd) (s : State) :
    (journalChecked a0 s).mem = s.mem ∧ (journalChecked a0 s).gau = s.gau ∧ (journalChecked a0 s).benches = s.benches ∧
      (journalChecked a0 s).serve = s.serve ∧ (journalChecked a0 s).opr = s.opr ∧ (journalChecked a0 s).vid = s.vid ∧
      (journalChecked a0 s).red = s.red ∧ (journalChecked a0 s).pwr = s.pwr := by
  simp [journalChecked]

@[simp] theorem recordsChecked_parts (a0 : BootEnd) (s : State) :
    (recordsChecked a0 s).boot = s.boot ∧ (recordsChecked a0 s).mem = s.mem ∧ (recordsChecked a0 s).gau = s.gau ∧
      (recordsChecked a0 s).benches = s.benches ∧ (recordsChecked a0 s).serve = s.serve ∧ (recordsChecked a0 s).opr = s.opr ∧
      (recordsChecked a0 s).vid = s.vid ∧ (recordsChecked a0 s).red = s.red ∧ (recordsChecked a0 s).pwr = s.pwr := by
  simp [recordsChecked, foldN]

@[simp] theorem loadFirmware_parts (s : State) :
    (loadFirmware s).nv = s.nv ∧ (loadFirmware s).mem = s.mem ∧ (loadFirmware s).gau = s.gau ∧
      (loadFirmware s).benches = s.benches ∧ (loadFirmware s).serve = s.serve ∧ (loadFirmware s).opr = s.opr ∧
      (loadFirmware s).vid = s.vid ∧ (loadFirmware s).red = s.red ∧ (loadFirmware s).pwr = s.pwr := by
  simp [loadFirmware]

@[simp] theorem mandatoryPassed_parts (a0 : BootEnd) (s : State) :
    (mandatoryPassed a0 s).mem = s.mem ∧ (mandatoryPassed a0 s).gau = s.gau ∧ (mandatoryPassed a0 s).benches = s.benches ∧
      (mandatoryPassed a0 s).serve = s.serve ∧ (mandatoryPassed a0 s).opr = s.opr ∧ (mandatoryPassed a0 s).vid = s.vid ∧
      (mandatoryPassed a0 s).red = s.red ∧ (mandatoryPassed a0 s).pwr = s.pwr := by
  simp only [mandatoryPassed]
  (repeat' split) <;> simp

@[simp] theorem mandatoryEnd_parts (a0 : BootEnd) (s : State) :
    (mandatoryEnd a0 s).mem = s.mem ∧ (mandatoryEnd a0 s).gau = s.gau ∧ (mandatoryEnd a0 s).benches = s.benches ∧
      (mandatoryEnd a0 s).serve = s.serve ∧ (mandatoryEnd a0 s).opr = s.opr ∧ (mandatoryEnd a0 s).vid = s.vid ∧
      (mandatoryEnd a0 s).red = s.red ∧ (mandatoryEnd a0 s).pwr = s.pwr := by
  simp [mandatoryEnd]

@[simp] theorem settle_parts (a0 : BootEnd) (a1 : Nat) (a2 : Nat) (a3 : Bool) (s : State) :
    (settle a0 a1 a2 a3 s).mem = s.mem ∧ (settle a0 a1 a2 a3 s).gau = s.gau ∧ (settle a0 a1 a2 a3 s).benches = s.benches ∧
      (settle a0 a1 a2 a3 s).serve = s.serve ∧ (settle a0 a1 a2 a3 s).opr = s.opr ∧ (settle a0 a1 a2 a3 s).vid = s.vid ∧
      (settle a0 a1 a2 a3 s).red = s.red ∧ (settle a0 a1 a2 a3 s).pwr = s.pwr := by
  simp [settle]

@[simp] theorem timeInit_parts (a0 : Nat) (s : State) :
    (timeInit a0 s).nv = s.nv ∧ (timeInit a0 s).boot = s.boot ∧ (timeInit a0 s).mem = s.mem ∧ (timeInit a0 s).gau = s.gau ∧
      (timeInit a0 s).benches = s.benches ∧ (timeInit a0 s).serve = s.serve ∧ (timeInit a0 s).opr = s.opr ∧
      (timeInit a0 s).vid = s.vid ∧ (timeInit a0 s).red = s.red ∧ (timeInit a0 s).pwr = s.pwr := by
  simp [timeInit]

@[simp] theorem slotVerified_parts (a0 : Nat) (s : State) :
    (slotVerified a0 s).mem = s.mem ∧ (slotVerified a0 s).gau = s.gau ∧ (slotVerified a0 s).benches = s.benches ∧
      (slotVerified a0 s).serve = s.serve ∧ (slotVerified a0 s).opr = s.opr ∧ (slotVerified a0 s).vid = s.vid ∧
      (slotVerified a0 s).red = s.red ∧ (slotVerified a0 s).pwr = s.pwr := by
  simp [slotVerified]

@[simp] theorem storeParams_parts (a0 : Nat) (a1 : Bool) (s : State) :
    (storeParams a0 a1 s).boot = s.boot ∧ (storeParams a0 a1 s).mem = s.mem ∧ (storeParams a0 a1 s).gau = s.gau ∧ (storeParams
      a0 a1 s).benches = s.benches ∧ (storeParams a0 a1 s).serve = s.serve ∧ (storeParams a0 a1 s).opr = s.opr ∧ (storeParams a0
      a1 s).vid = s.vid ∧ (storeParams a0 a1 s).red = s.red ∧ (storeParams a0 a1 s).pwr = s.pwr := by
  simp [storeParams]

@[simp] theorem itemPassed_parts (a0 : BootEnd) (a1 : Nat) (s : State) :
    (itemPassed a0 a1 s).mem = s.mem ∧ (itemPassed a0 a1 s).gau = s.gau ∧ (itemPassed a0 a1 s).benches = s.benches ∧
      (itemPassed a0 a1 s).serve = s.serve ∧ (itemPassed a0 a1 s).opr = s.opr ∧ (itemPassed a0 a1 s).vid = s.vid ∧
      (itemPassed a0 a1 s).red = s.red ∧ (itemPassed a0 a1 s).pwr = s.pwr := by
  simp only [itemPassed]
  (repeat' split) <;> simp

@[simp] theorem bothSlotsFailed_parts (a0 : BootEnd) (s : State) :
    (bothSlotsFailed a0 s).mem = s.mem ∧ (bothSlotsFailed a0 s).gau = s.gau ∧ (bothSlotsFailed a0 s).benches = s.benches ∧
      (bothSlotsFailed a0 s).serve = s.serve ∧ (bothSlotsFailed a0 s).opr = s.opr ∧ (bothSlotsFailed a0 s).vid = s.vid ∧
      (bothSlotsFailed a0 s).red = s.red ∧ (bothSlotsFailed a0 s).pwr = s.pwr := by
  simp [bothSlotsFailed]

@[simp] theorem tryNext_parts (a0 : BootEnd) (a1 : Nat) (a2 : ItemProgress → ItemProgress) (s : State) :
    (tryNext a0 a1 a2 s).mem = s.mem ∧ (tryNext a0 a1 a2 s).gau = s.gau ∧ (tryNext a0 a1 a2 s).benches = s.benches ∧
      (tryNext a0 a1 a2 s).serve = s.serve ∧ (tryNext a0 a1 a2 s).opr = s.opr ∧ (tryNext a0 a1 a2 s).vid = s.vid ∧
      (tryNext a0 a1 a2 s).red = s.red ∧ (tryNext a0 a1 a2 s).pwr = s.pwr := by
  simp [tryNext]

@[simp] theorem failRecord_parts (a0 : BootEnd) (s : State) :
    (failRecord a0 s).mem = s.mem ∧ (failRecord a0 s).gau = s.gau ∧ (failRecord a0 s).benches = s.benches ∧
      (failRecord a0 s).serve = s.serve ∧ (failRecord a0 s).opr = s.opr ∧ (failRecord a0 s).vid = s.vid ∧
      (failRecord a0 s).red = s.red ∧ (failRecord a0 s).pwr = s.pwr := by
  simp [failRecord]

@[simp] theorem itemFailed_parts (a0 : BootEnd) (s : State) :
    (itemFailed a0 s).mem = s.mem ∧ (itemFailed a0 s).gau = s.gau ∧ (itemFailed a0 s).benches = s.benches ∧
      (itemFailed a0 s).serve = s.serve ∧ (itemFailed a0 s).opr = s.opr ∧ (itemFailed a0 s).vid = s.vid ∧
      (itemFailed a0 s).red = s.red ∧ (itemFailed a0 s).pwr = s.pwr := by
  simp [itemFailed]

@[simp] theorem itemEnd_parts (a0 : BootEnd) (s : State) :
    (itemEnd a0 s).mem = s.mem ∧ (itemEnd a0 s).gau = s.gau ∧ (itemEnd a0 s).benches = s.benches ∧ (itemEnd a0 s).serve = s.serve ∧
      (itemEnd a0 s).opr = s.opr ∧ (itemEnd a0 s).vid = s.vid ∧ (itemEnd a0 s).red = s.red ∧ (itemEnd a0 s).pwr = s.pwr := by
  simp [itemEnd]

@[simp] theorem monitorEnd_parts (a0 : BootEnd) (s : State) :
    (monitorEnd a0 s).mem = s.mem ∧ (monitorEnd a0 s).gau = s.gau ∧ (monitorEnd a0 s).benches = s.benches ∧
      (monitorEnd a0 s).serve = s.serve ∧ (monitorEnd a0 s).opr = s.opr ∧ (monitorEnd a0 s).vid = s.vid ∧
      (monitorEnd a0 s).red = s.red ∧ (monitorEnd a0 s).pwr = s.pwr := by
  simp [monitorEnd]

@[simp] theorem dropLostLink_parts (s : State) :
    (dropLostLink s).nv = s.nv ∧ (dropLostLink s).boot = s.boot ∧ (dropLostLink s).mem = s.mem ∧ (dropLostLink s).gau = s.gau ∧
      (dropLostLink s).benches = s.benches ∧ (dropLostLink s).serve = s.serve ∧ (dropLostLink s).opr = s.opr ∧
      (dropLostLink s).vid = s.vid ∧ (dropLostLink s).red = s.red ∧ (dropLostLink s).pwr = s.pwr := by
  simp [dropLostLink]

@[simp] theorem clearHistory_parts (a0 : Option Nat) (s : State) :
    (clearHistory a0 s).boot = s.boot ∧ (clearHistory a0 s).mem = s.mem ∧ (clearHistory a0 s).gau = s.gau ∧
      (clearHistory a0 s).benches = s.benches ∧ (clearHistory a0 s).serve = s.serve ∧ (clearHistory a0 s).opr = s.opr ∧
      (clearHistory a0 s).vid = s.vid ∧ (clearHistory a0 s).red = s.red ∧ (clearHistory a0 s).pwr = s.pwr := by
  simp [clearHistory]

@[simp] theorem clearItem_parts (a0 : Nat) (s : State) :
    (clearItem a0 s).boot = s.boot ∧ (clearItem a0 s).mem = s.mem ∧ (clearItem a0 s).gau = s.gau ∧
      (clearItem a0 s).benches = s.benches ∧ (clearItem a0 s).serve = s.serve ∧ (clearItem a0 s).opr = s.opr ∧
      (clearItem a0 s).vid = s.vid ∧ (clearItem a0 s).red = s.red ∧ (clearItem a0 s).pwr = s.pwr := by
  simp [clearItem]

@[simp] theorem clearAll_parts (s : State) :
    (clearAll s).boot = s.boot ∧ (clearAll s).mem = s.mem ∧ (clearAll s).gau = s.gau ∧ (clearAll s).benches = s.benches ∧
      (clearAll s).serve = s.serve ∧ (clearAll s).opr = s.opr ∧ (clearAll s).vid = s.vid ∧ (clearAll s).red = s.red ∧
      (clearAll s).pwr = s.pwr := by
  simp [clearAll]

@[simp] theorem walkComplete_parts (a0 : Nat) (s : State) :
    (walkComplete a0 s).mem = s.mem ∧ (walkComplete a0 s).gau = s.gau ∧ (walkComplete a0 s).benches = s.benches ∧
      (walkComplete a0 s).serve = s.serve ∧ (walkComplete a0 s).opr = s.opr ∧ (walkComplete a0 s).vid = s.vid ∧
      (walkComplete a0 s).red = s.red ∧ (walkComplete a0 s).pwr = s.pwr := by
  simp [walkComplete]

@[simp] theorem componentDone_parts (a0 : Nat) (a1 : List Nat) (a2 : Walk) (s : State) :
    (componentDone a0 a1 a2 s).mem = s.mem ∧ (componentDone a0 a1 a2 s).gau = s.gau ∧
      (componentDone a0 a1 a2 s).benches = s.benches ∧ (componentDone a0 a1 a2 s).serve = s.serve ∧
      (componentDone a0 a1 a2 s).opr = s.opr ∧ (componentDone a0 a1 a2 s).vid = s.vid ∧ (componentDone a0 a1 a2 s).red = s.red ∧
      (componentDone a0 a1 a2 s).pwr = s.pwr := by
  simp [componentDone]

@[simp] theorem walkFails_parts (a0 : Nat) (a1 : Walk) (s : State) :
    (walkFails a0 a1 s).nv = s.nv ∧ (walkFails a0 a1 s).mem = s.mem ∧ (walkFails a0 a1 s).gau = s.gau ∧
      (walkFails a0 a1 s).benches = s.benches ∧ (walkFails a0 a1 s).serve = s.serve ∧ (walkFails a0 a1 s).opr = s.opr ∧
      (walkFails a0 a1 s).vid = s.vid ∧ (walkFails a0 a1 s).red = s.red ∧ (walkFails a0 a1 s).pwr = s.pwr := by
  simp [walkFails]

@[simp] theorem endTrial_parts (s : State) :
    (endTrial s).mem = s.mem ∧ (endTrial s).gau = s.gau ∧ (endTrial s).benches = s.benches ∧ (endTrial s).serve = s.serve ∧
      (endTrial s).opr = s.opr ∧ (endTrial s).vid = s.vid ∧ (endTrial s).red = s.red ∧ (endTrial s).pwr = s.pwr := by
  simp [endTrial]

@[simp] theorem putEntries_parts (a0 : Nat) (a1 : List Byte) (s : State) :
    (putEntries a0 a1 s).nv = s.nv ∧ (putEntries a0 a1 s).boot = s.boot ∧ (putEntries a0 a1 s).mem = s.mem ∧
      (putEntries a0 a1 s).gau = s.gau ∧ (putEntries a0 a1 s).benches = s.benches ∧ (putEntries a0 a1 s).serve = s.serve ∧
      (putEntries a0 a1 s).opr = s.opr ∧ (putEntries a0 a1 s).vid = s.vid ∧ (putEntries a0 a1 s).red = s.red ∧
      (putEntries a0 a1 s).pwr = s.pwr := by
  simp [putEntries]

@[simp] theorem ring_parts (a0 : Nat) (a1 : Nat) (s : State) :
    (ring a0 a1 s).nv = s.nv ∧ (ring a0 a1 s).boot = s.boot ∧ (ring a0 a1 s).mem = s.mem ∧ (ring a0 a1 s).gau = s.gau ∧ (ring a0
      a1 s).benches = s.benches ∧ (ring a0 a1 s).serve = s.serve ∧ (ring a0 a1 s).opr = s.opr ∧ (ring a0 a1 s).vid = s.vid ∧
      (ring a0 a1 s).red = s.red ∧ (ring a0 a1 s).pwr = s.pwr := by
  simp [ring]

@[simp] theorem drainMbx_parts (a0 : Nat) (s : State) :
    (drainMbx a0 s).nv = s.nv ∧ (drainMbx a0 s).boot = s.boot ∧ (drainMbx a0 s).mem = s.mem ∧ (drainMbx a0 s).gau = s.gau ∧
      (drainMbx a0 s).benches = s.benches ∧ (drainMbx a0 s).serve = s.serve ∧ (drainMbx a0 s).opr = s.opr ∧
      (drainMbx a0 s).vid = s.vid ∧ (drainMbx a0 s).red = s.red ∧ (drainMbx a0 s).pwr = s.pwr :=
  ⟨drainMbx_part (·.nv) (fun _ _ => by simp) (fun _ _ => by simp) (fun _ _ => by simp) s,
   drainMbx_part (·.boot) (fun _ _ => by simp) (fun _ _ => by simp) (fun _ _ => by simp) s,
   drainMbx_part (·.mem) (fun _ _ => by simp) (fun _ _ => by simp) (fun _ _ => by simp) s,
   drainMbx_part (·.gau) (fun _ _ => by simp) (fun _ _ => by simp) (fun _ _ => by simp) s,
   drainMbx_part (·.benches) (fun _ _ => by simp) (fun _ _ => by simp) (fun _ _ => by simp) s,
   drainMbx_part (·.serve) (fun _ _ => by simp) (fun _ _ => by simp) (fun _ _ => by simp) s,
   drainMbx_part (·.opr) (fun _ _ => by simp) (fun _ _ => by simp) (fun _ _ => by simp) s,
   drainMbx_part (·.vid) (fun _ _ => by simp) (fun _ _ => by simp) (fun _ _ => by simp) s,
   drainMbx_part (·.red) (fun _ _ => by simp) (fun _ _ => by simp) (fun _ _ => by simp) s,
   drainMbx_part (·.pwr) (fun _ _ => by simp) (fun _ _ => by simp) (fun _ _ => by simp) s⟩

@[simp] theorem resetMailbox_parts (a0 : Nat) (a1 : Nat) (s : State) :
    (resetMailbox a0 a1 s).nv = s.nv ∧ (resetMailbox a0 a1 s).boot = s.boot ∧ (resetMailbox a0 a1 s).mem = s.mem ∧
      (resetMailbox a0 a1 s).gau = s.gau ∧ (resetMailbox a0 a1 s).benches = s.benches ∧ (resetMailbox a0 a1 s).serve = s.serve ∧
      (resetMailbox a0 a1 s).opr = s.opr ∧ (resetMailbox a0 a1 s).vid = s.vid ∧ (resetMailbox a0 a1 s).red = s.red ∧
      (resetMailbox a0 a1 s).pwr = s.pwr := by
  simp [resetMailbox]

@[simp] theorem resyncEnd_parts (a0 : Nat) (a1 : Bool) (s : State) :
    (resyncEnd a0 a1 s).nv = s.nv ∧ (resyncEnd a0 a1 s).boot = s.boot ∧ (resyncEnd a0 a1 s).mem = s.mem ∧
      (resyncEnd a0 a1 s).gau = s.gau ∧ (resyncEnd a0 a1 s).benches = s.benches ∧ (resyncEnd a0 a1 s).serve = s.serve ∧
      (resyncEnd a0 a1 s).opr = s.opr ∧ (resyncEnd a0 a1 s).vid = s.vid ∧ (resyncEnd a0 a1 s).red = s.red ∧
      (resyncEnd a0 a1 s).pwr = s.pwr := by
  simp [resyncEnd]

@[simp] theorem startResync_parts (s : State) :
    (startResync s).nv = s.nv ∧ (startResync s).boot = s.boot ∧ (startResync s).mem = s.mem ∧ (startResync s).gau = s.gau ∧
      (startResync s).benches = s.benches ∧ (startResync s).serve = s.serve ∧ (startResync s).opr = s.opr ∧
      (startResync s).vid = s.vid ∧ (startResync s).red = s.red ∧ (startResync s).pwr = s.pwr := by
  simp [startResync, foldN]

@[simp] theorem takeCheckpoint_parts (s : State) :
    (takeCheckpoint s).nv = s.nv ∧ (takeCheckpoint s).boot = s.boot ∧ (takeCheckpoint s).mem = s.mem ∧
      (takeCheckpoint s).gau = s.gau ∧ (takeCheckpoint s).benches = s.benches ∧ (takeCheckpoint s).serve = s.serve ∧
      (takeCheckpoint s).opr = s.opr ∧ (takeCheckpoint s).vid = s.vid ∧ (takeCheckpoint s).red = s.red ∧
      (takeCheckpoint s).pwr = s.pwr := by
  simp [takeCheckpoint]

@[simp] theorem skipAll_parts (s : State) :
    (skipAll s).nv = s.nv ∧ (skipAll s).boot = s.boot ∧ (skipAll s).mem = s.mem ∧ (skipAll s).gau = s.gau ∧
      (skipAll s).benches = s.benches ∧ (skipAll s).serve = s.serve ∧ (skipAll s).opr = s.opr ∧ (skipAll s).vid = s.vid ∧
      (skipAll s).red = s.red ∧ (skipAll s).pwr = s.pwr := by
  simp [skipAll, foldN]

@[simp] theorem replayOutputs_parts (s : State) :
    (replayOutputs s).nv = s.nv ∧ (replayOutputs s).boot = s.boot ∧ (replayOutputs s).mem = s.mem ∧
      (replayOutputs s).gau = s.gau ∧ (replayOutputs s).benches = s.benches ∧ (replayOutputs s).serve = s.serve ∧
      (replayOutputs s).opr = s.opr ∧ (replayOutputs s).vid = s.vid ∧ (replayOutputs s).red = s.red ∧
      (replayOutputs s).pwr = s.pwr := by
  simp [replayOutputs]

@[simp] theorem restart_parts (s : State) :
    (restart s).nv = s.nv ∧ (restart s).boot = s.boot ∧ (restart s).mem = s.mem ∧ (restart s).gau = s.gau ∧
      (restart s).benches = s.benches ∧ (restart s).serve = s.serve ∧ (restart s).opr = s.opr ∧ (restart s).vid = s.vid ∧
      (restart s).red = s.red ∧ (restart s).pwr = s.pwr := by
  simp [restart]

@[simp] theorem releaseSide_parts (a0 : Nat) (s : State) :
    (releaseSide a0 s).nv = s.nv ∧ (releaseSide a0 s).boot = s.boot ∧ (releaseSide a0 s).mem = s.mem ∧ (releaseSide a0 s).gau = s.gau ∧
      (releaseSide a0 s).benches = s.benches ∧ (releaseSide a0 s).serve = s.serve ∧ (releaseSide a0 s).opr = s.opr ∧
      (releaseSide a0 s).vid = s.vid ∧ (releaseSide a0 s).red = s.red ∧ (releaseSide a0 s).pwr = s.pwr := by
  simp [releaseSide]

@[simp] theorem releaseAllSides_parts (s : State) :
    (releaseAllSides s).nv = s.nv ∧ (releaseAllSides s).boot = s.boot ∧ (releaseAllSides s).mem = s.mem ∧
      (releaseAllSides s).gau = s.gau ∧ (releaseAllSides s).benches = s.benches ∧ (releaseAllSides s).serve = s.serve ∧
      (releaseAllSides s).opr = s.opr ∧ (releaseAllSides s).vid = s.vid ∧ (releaseAllSides s).red = s.red ∧
      (releaseAllSides s).pwr = s.pwr := by
  simp [releaseAllSides]

@[simp] theorem sideAnswer_parts (a0 : Nat) (a1 : List Fld) (s : State) :
    (sideAnswer a0 a1 s).nv = s.nv ∧ (sideAnswer a0 a1 s).boot = s.boot ∧ (sideAnswer a0 a1 s).mem = s.mem ∧
      (sideAnswer a0 a1 s).gau = s.gau ∧ (sideAnswer a0 a1 s).benches = s.benches ∧ (sideAnswer a0 a1 s).serve = s.serve ∧
      (sideAnswer a0 a1 s).opr = s.opr ∧ (sideAnswer a0 a1 s).vid = s.vid ∧ (sideAnswer a0 a1 s).red = s.red ∧
      (sideAnswer a0 a1 s).pwr = s.pwr := by
  simp [sideAnswer]

@[simp] theorem eraseEnds_parts (s : State) :
    (eraseEnds s).nv = s.nv ∧ (eraseEnds s).boot = s.boot ∧ (eraseEnds s).mem = s.mem ∧ (eraseEnds s).gau = s.gau ∧ (eraseEnds
      s).benches = s.benches ∧ (eraseEnds s).serve = s.serve ∧ (eraseEnds s).opr = s.opr ∧ (eraseEnds s).vid = s.vid ∧
      (eraseEnds s).red = s.red ∧ (eraseEnds s).pwr = s.pwr := by
  simp only [eraseEnds]
  (repeat' split) <;> simp

@[simp] theorem finishAll_parts (a0 : WorkKind) (a1 : Nat) (a2 : Status) (a3 : List Fld) (s : State) :
    (finishAll a0 a1 a2 a3 s).nv = s.nv ∧ (finishAll a0 a1 a2 a3 s).boot = s.boot ∧ (finishAll a0 a1 a2 a3 s).mem = s.mem ∧
      (finishAll a0 a1 a2 a3 s).gau = s.gau ∧ (finishAll a0 a1 a2 a3 s).benches = s.benches ∧
      (finishAll a0 a1 a2 a3 s).serve = s.serve ∧ (finishAll a0 a1 a2 a3 s).opr = s.opr ∧ (finishAll a0 a1 a2 a3 s).vid = s.vid ∧
      (finishAll a0 a1 a2 a3 s).red = s.red ∧ (finishAll a0 a1 a2 a3 s).pwr = s.pwr := by
  simp [finishAll]

@[simp] theorem drainFlushed_parts (s : State) :
    (drainFlushed s).nv = s.nv ∧ (drainFlushed s).boot = s.boot ∧ (drainFlushed s).mem = s.mem ∧ (drainFlushed s).gau = s.gau ∧
      (drainFlushed s).benches = s.benches ∧ (drainFlushed s).serve = s.serve ∧ (drainFlushed s).opr = s.opr ∧
      (drainFlushed s).vid = s.vid ∧ (drainFlushed s).pwr = s.pwr := by
  simp [drainFlushed]

@[simp] theorem modGroup_parts (a0 : Nat) (a1 : GroupSt → GroupSt) (s : State) :
    (modGroup a0 a1 s).nv = s.nv ∧ (modGroup a0 a1 s).boot = s.boot ∧ (modGroup a0 a1 s).mem.bytes = s.mem.bytes ∧
      (modGroup a0 a1 s).mem.chk = s.mem.chk ∧ (modGroup a0 a1 s).mem.bkey = s.mem.bkey ∧ (modGroup a0 a1 s).gau = s.gau ∧
      (modGroup a0 a1 s).benches = s.benches ∧ (modGroup a0 a1 s).serve = s.serve ∧ (modGroup a0 a1 s).opr = s.opr ∧
      (modGroup a0 a1 s).vid = s.vid ∧ (modGroup a0 a1 s).red = s.red ∧ (modGroup a0 a1 s).pwr = s.pwr := by
  simp [modGroup]

@[simp] theorem modYard_parts (a0 : Nat) (a1 : YardSt → YardSt) (s : State) :
    (modYard a0 a1 s).nv = s.nv ∧ (modYard a0 a1 s).boot = s.boot ∧ (modYard a0 a1 s).mem.bytes = s.mem.bytes ∧
      (modYard a0 a1 s).mem.chk = s.mem.chk ∧ (modYard a0 a1 s).mem.bkey = s.mem.bkey ∧ (modYard a0 a1 s).gau = s.gau ∧
      (modYard a0 a1 s).benches = s.benches ∧ (modYard a0 a1 s).serve = s.serve ∧ (modYard a0 a1 s).opr = s.opr ∧
      (modYard a0 a1 s).vid = s.vid ∧ (modYard a0 a1 s).red = s.red ∧ (modYard a0 a1 s).pwr = s.pwr := by
  simp [modYard]

@[simp] theorem gauge_parts (a0 : Nat) (a1 : Nat) (a2 : Nat) (s : State) :
    (gauge a0 a1 a2 s).nv = s.nv ∧ (gauge a0 a1 a2 s).boot = s.boot ∧ (gauge a0 a1 a2 s).mem = s.mem ∧
      (gauge a0 a1 a2 s).benches = s.benches ∧ (gauge a0 a1 a2 s).serve = s.serve ∧ (gauge a0 a1 a2 s).opr = s.opr ∧
      (gauge a0 a1 a2 s).vid = s.vid ∧ (gauge a0 a1 a2 s).red = s.red ∧ (gauge a0 a1 a2 s).pwr = s.pwr := by
  simp [gauge]

@[simp] theorem clearRange_parts (a0 : Nat) (a1 : Nat) (s : State) :
    (clearRange a0 a1 s).nv = s.nv ∧ (clearRange a0 a1 s).boot = s.boot ∧ (clearRange a0 a1 s).gau = s.gau ∧
      (clearRange a0 a1 s).benches = s.benches ∧ (clearRange a0 a1 s).serve = s.serve ∧ (clearRange a0 a1 s).opr = s.opr ∧
      (clearRange a0 a1 s).vid = s.vid ∧ (clearRange a0 a1 s).red = s.red ∧ (clearRange a0 a1 s).pwr = s.pwr := by
  simp [clearRange]

@[simp] theorem putByte_parts (a0 : Nat) (a1 : Byte) (s : State) :
    (putByte a0 a1 s).nv = s.nv ∧ (putByte a0 a1 s).boot = s.boot ∧ (putByte a0 a1 s).mem.chk = s.mem.chk ∧
      (putByte a0 a1 s).mem.bkey = s.mem.bkey ∧ (putByte a0 a1 s).gau = s.gau ∧ (putByte a0 a1 s).benches = s.benches ∧
      (putByte a0 a1 s).serve = s.serve ∧ (putByte a0 a1 s).opr = s.opr ∧ (putByte a0 a1 s).vid = s.vid ∧
      (putByte a0 a1 s).red = s.red ∧ (putByte a0 a1 s).pwr = s.pwr := by
  simp [putByte]

@[simp] theorem putBytes_parts (a0 : Nat) (a1 : List Byte) (s : State) :
    (putBytes a0 a1 s).nv = s.nv ∧ (putBytes a0 a1 s).boot = s.boot ∧ (putBytes a0 a1 s).mem.chk = s.mem.chk ∧
      (putBytes a0 a1 s).mem.bkey = s.mem.bkey ∧ (putBytes a0 a1 s).gau = s.gau ∧ (putBytes a0 a1 s).benches = s.benches ∧
      (putBytes a0 a1 s).serve = s.serve ∧ (putBytes a0 a1 s).opr = s.opr ∧ (putBytes a0 a1 s).vid = s.vid ∧
      (putBytes a0 a1 s).red = s.red ∧ (putBytes a0 a1 s).pwr = s.pwr := by
  induction a1 generalizing a0 s with
  | nil => simp [putBytes]
  | cons v r ih => simp [putBytes, ih]

@[simp] theorem putChk_parts (a0 : Nat) (a1 : Nat) (s : State) :
    (putChk a0 a1 s).nv = s.nv ∧ (putChk a0 a1 s).boot = s.boot ∧ (putChk a0 a1 s).mem.bytes = s.mem.bytes ∧
      (putChk a0 a1 s).mem.bkey = s.mem.bkey ∧ (putChk a0 a1 s).gau = s.gau ∧ (putChk a0 a1 s).benches = s.benches ∧
      (putChk a0 a1 s).serve = s.serve ∧ (putChk a0 a1 s).opr = s.opr ∧ (putChk a0 a1 s).vid = s.vid ∧ (putChk a0 a1 s).red = s.red ∧
      (putChk a0 a1 s).pwr = s.pwr := by
  simp [putChk]

@[simp] theorem ceThreshold_parts (a0 : Nat) (a1 : Nat) (s : State) :
    (ceThreshold a0 a1 s).boot = s.boot ∧ (ceThreshold a0 a1 s).mem = s.mem ∧ (ceThreshold a0 a1 s).gau = s.gau ∧ (ceThreshold
      a0 a1 s).benches = s.benches ∧ (ceThreshold a0 a1 s).serve = s.serve ∧ (ceThreshold a0 a1 s).opr = s.opr ∧ (ceThreshold a0
      a1 s).vid = s.vid ∧ (ceThreshold a0 a1 s).red = s.red ∧ (ceThreshold a0 a1 s).pwr = s.pwr := by
  simp only [ceThreshold]
  (repeat' split) <;> grind [notify_parts, record_parts]

@[simp] theorem dueThreshold_parts (a0 : Nat) (a1 : Nat) (s : State) :
    (dueThreshold a0 a1 s).boot = s.boot ∧ (dueThreshold a0 a1 s).mem = s.mem ∧ (dueThreshold a0 a1 s).gau = s.gau ∧
      (dueThreshold a0 a1 s).benches = s.benches ∧ (dueThreshold a0 a1 s).serve = s.serve ∧ (dueThreshold a0 a1 s).opr = s.opr ∧
      (dueThreshold a0 a1 s).vid = s.vid ∧ (dueThreshold a0 a1 s).red = s.red ∧ (dueThreshold a0 a1 s).pwr = s.pwr := by
  simp [dueThreshold]

@[simp] theorem countGroup_parts (a0 : Nat) (a1 : Nat) (a2 : WordOutcome) (a3 : Nat) (s : State) :
    (countGroup a0 a1 a2 a3 s).boot = s.boot ∧ (countGroup a0 a1 a2 a3 s).mem.bytes = s.mem.bytes ∧
      (countGroup a0 a1 a2 a3 s).mem.chk = s.mem.chk ∧ (countGroup a0 a1 a2 a3 s).mem.bkey = s.mem.bkey ∧
      (countGroup a0 a1 a2 a3 s).gau = s.gau ∧ (countGroup a0 a1 a2 a3 s).benches = s.benches ∧
      (countGroup a0 a1 a2 a3 s).serve = s.serve ∧ (countGroup a0 a1 a2 a3 s).opr = s.opr ∧ (countGroup a0 a1 a2 a3 s).vid = s.vid ∧
      (countGroup a0 a1 a2 a3 s).red = s.red ∧ (countGroup a0 a1 a2 a3 s).pwr = s.pwr := by
  simp only [countGroup]
  (repeat' split) <;> grind [issueStamp_parts, ceThreshold_parts, modGroup_parts, dueThreshold_parts]

@[simp] theorem countErr_parts (a0 : Nat) (a1 : Nat) (s : State) :
    (countErr a0 a1 s).boot = s.boot ∧ (countErr a0 a1 s).mem.bytes = s.mem.bytes ∧ (countErr a0 a1 s).mem.chk = s.mem.chk ∧
      (countErr a0 a1 s).mem.bkey = s.mem.bkey ∧ (countErr a0 a1 s).gau = s.gau ∧ (countErr a0 a1 s).benches = s.benches ∧
      (countErr a0 a1 s).serve = s.serve ∧ (countErr a0 a1 s).opr = s.opr ∧ (countErr a0 a1 s).vid = s.vid ∧
      (countErr a0 a1 s).red = s.red ∧ (countErr a0 a1 s).pwr = s.pwr := by
  simp only [countErr]
  (repeat' split) <;> simp

@[simp] theorem consumeCount_parts (a0 : Nat) (a1 : Nat) (s : State) :
    (consumeCount a0 a1 s).boot = s.boot ∧ (consumeCount a0 a1 s).mem.bytes = s.mem.bytes ∧
      (consumeCount a0 a1 s).mem.chk = s.mem.chk ∧ (consumeCount a0 a1 s).mem.bkey = s.mem.bkey ∧ (consumeCount a0 a1 s).gau = s.gau ∧
      (consumeCount a0 a1 s).benches = s.benches ∧ (consumeCount a0 a1 s).serve = s.serve ∧ (consumeCount a0 a1 s).opr = s.opr ∧
      (consumeCount a0 a1 s).vid = s.vid ∧ (consumeCount a0 a1 s).red = s.red ∧ (consumeCount a0 a1 s).pwr = s.pwr := by
  simp [consumeCount]

@[simp] theorem tagBurst_parts (a0 a1 : Nat) (s : State) :
    (tagBurst a0 a1 s).nv = s.nv ∧ (tagBurst a0 a1 s).boot = s.boot ∧ (tagBurst a0 a1 s).mem.bytes = s.mem.bytes ∧ (tagBurst a0 a1 s).mem.chk = s.mem.chk ∧ (tagBurst a0 a1 s).gau = s.gau ∧ (tagBurst a0 a1 s).benches = s.benches ∧
      (tagBurst a0 a1 s).serve = s.serve ∧ (tagBurst a0 a1 s).opr = s.opr ∧ (tagBurst a0 a1 s).vid = s.vid ∧ (tagBurst a0 a1 s).red = s.red ∧ (tagBurst a0 a1 s).pwr = s.pwr := by
  simp [tagBurst]

@[simp] theorem engineWord_parts (a0 : Nat) (s : State) :
    (engineWord a0 s).boot = s.boot ∧ (engineWord a0 s).mem.bkey = s.mem.bkey ∧ (engineWord a0 s).gau = s.gau ∧
      (engineWord a0 s).benches = s.benches ∧ (engineWord a0 s).serve = s.serve ∧ (engineWord a0 s).opr = s.opr ∧
      (engineWord a0 s).vid = s.vid ∧ (engineWord a0 s).red = s.red ∧ (engineWord a0 s).pwr = s.pwr := by
  simp only [engineWord]
  (repeat' split) <;> simp

@[simp] theorem passEngine_parts (a0 : Nat) (s : State) :
    (passEngine a0 s).boot = s.boot ∧ (passEngine a0 s).mem.bkey = s.mem.bkey ∧ (passEngine a0 s).gau = s.gau ∧
      (passEngine a0 s).benches = s.benches ∧ (passEngine a0 s).serve = s.serve ∧ (passEngine a0 s).opr = s.opr ∧
      (passEngine a0 s).vid = s.vid ∧ (passEngine a0 s).red = s.red ∧ (passEngine a0 s).pwr = s.pwr := by
  simp [passEngine]

@[simp] theorem rekeyBurst_parts (a0 : Nat) (s : State) :
    (rekeyBurst a0 s).boot = s.boot ∧ (rekeyBurst a0 s).gau = s.gau ∧ (rekeyBurst a0 s).benches = s.benches ∧
      (rekeyBurst a0 s).serve = s.serve ∧ (rekeyBurst a0 s).opr = s.opr ∧ (rekeyBurst a0 s).vid = s.vid ∧
      (rekeyBurst a0 s).red = s.red ∧ (rekeyBurst a0 s).pwr = s.pwr := by
  simp [rekeyBurst]

@[simp] theorem writeWord_parts (a0 : Nat) (a1 : List Byte) (a2 : Nat) (s : State) :
    (writeWord a0 a1 a2 s).boot = s.boot ∧ (writeWord a0 a1 a2 s).mem.bkey = s.mem.bkey ∧ (writeWord a0 a1 a2 s).gau = s.gau ∧
      (writeWord a0 a1 a2 s).benches = s.benches ∧ (writeWord a0 a1 a2 s).serve = s.serve ∧ (writeWord a0 a1 a2 s).opr = s.opr ∧
      (writeWord a0 a1 a2 s).vid = s.vid ∧ (writeWord a0 a1 a2 s).red = s.red ∧ (writeWord a0 a1 a2 s).pwr = s.pwr := by
  simp [writeWord]

@[simp] theorem writeChunks_parts (a0 : Nat) (a1 : Nat) (a2 : List Byte) (a3 : List Nat) (s : State) :
    (writeChunks a0 a1 a2 a3 s).boot = s.boot ∧ (writeChunks a0 a1 a2 a3 s).gau = s.gau ∧
      (writeChunks a0 a1 a2 a3 s).benches = s.benches ∧ (writeChunks a0 a1 a2 a3 s).serve = s.serve ∧
      (writeChunks a0 a1 a2 a3 s).opr = s.opr ∧ (writeChunks a0 a1 a2 a3 s).vid = s.vid ∧ (writeChunks a0 a1 a2 a3 s).red = s.red ∧
      (writeChunks a0 a1 a2 a3 s).pwr = s.pwr := by
  induction a0 generalizing a1 a2 a3 s with
  | zero => simp [writeChunks]
  | succ n ih =>
    simp only [writeChunks]
    split <;> simp [ih]

@[simp] theorem writeBytes_parts (a0 : Nat) (a1 : List Byte) (a2 : List Nat) (s : State) :
    (writeBytes a0 a1 a2 s).boot = s.boot ∧ (writeBytes a0 a1 a2 s).gau = s.gau ∧ (writeBytes a0 a1 a2 s).benches = s.benches ∧
      (writeBytes a0 a1 a2 s).serve = s.serve ∧ (writeBytes a0 a1 a2 s).opr = s.opr ∧ (writeBytes a0 a1 a2 s).vid = s.vid ∧
      (writeBytes a0 a1 a2 s).red = s.red ∧ (writeBytes a0 a1 a2 s).pwr = s.pwr := by
  simp [writeBytes]

end Sys2Proof.Machine
end

