-- ==== Sys2Proof/Laws/PartsB.lean ====
section
/-! SUPPORT. For each shared operation of the machine, the parts of the state it leaves as they were
(`<operation>_parts`; callees stand before their callers). -/
namespace Sys2Proof.Machine

@[simp] theorem edgeTag_parts (a0 : Nat) (s : State) :
    (edgeTag a0 s).nv = s.nv ∧ (edgeTag a0 s).boot = s.boot ∧ (edgeTag a0 s).mem.bytes = s.mem.bytes ∧
      (edgeTag a0 s).mem.chk = s.mem.chk ∧ (edgeTag a0 s).mem.bkey = s.mem.bkey ∧ (edgeTag a0 s).gau = s.gau ∧
      (edgeTag a0 s).benches = s.benches ∧ (edgeTag a0 s).serve = s.serve ∧ (edgeTag a0 s).opr = s.opr ∧
      (edgeTag a0 s).vid = s.vid ∧ (edgeTag a0 s).red = s.red ∧ (edgeTag a0 s).pwr = s.pwr := by
  simp only [edgeTag]
  (repeat' split) <;> simp

@[simp] theorem uncover_parts (a0 : Nat) (a1 : Line) (s : State) :
    (uncover a0 a1 s).nv = s.nv ∧ (uncover a0 a1 s).boot = s.boot ∧ (uncover a0 a1 s).mem.bkey = s.mem.bkey ∧
      (uncover a0 a1 s).gau = s.gau ∧ (uncover a0 a1 s).benches = s.benches ∧ (uncover a0 a1 s).serve = s.serve ∧
      (uncover a0 a1 s).opr = s.opr ∧ (uncover a0 a1 s).vid = s.vid ∧ (uncover a0 a1 s).red = s.red ∧ (uncover a0 a1 s).pwr = s.pwr := by
  simp [uncover]

@[simp] theorem setBeneath_parts (a0 : Nat) (a1 : Nat) (a2 : Nat) (s : State) :
    (setBeneath a0 a1 a2 s).nv = s.nv ∧ (setBeneath a0 a1 a2 s).boot = s.boot ∧
      (setBeneath a0 a1 a2 s).mem.bytes = s.mem.bytes ∧ (setBeneath a0 a1 a2 s).mem.chk = s.mem.chk ∧
      (setBeneath a0 a1 a2 s).mem.bkey = s.mem.bkey ∧ (setBeneath a0 a1 a2 s).gau = s.gau ∧
      (setBeneath a0 a1 a2 s).benches = s.benches ∧ (setBeneath a0 a1 a2 s).serve = s.serve ∧
      (setBeneath a0 a1 a2 s).opr = s.opr ∧ (setBeneath a0 a1 a2 s).vid = s.vid ∧ (setBeneath a0 a1 a2 s).red = s.red ∧
      (setBeneath a0 a1 a2 s).pwr = s.pwr := by
  simp [setBeneath]

@[simp] theorem engineBeneath_parts (a0 : Nat) (s : State) :
    (engineBeneath a0 s).boot = s.boot ∧ (engineBeneath a0 s).mem.bytes = s.mem.bytes ∧
      (engineBeneath a0 s).mem.chk = s.mem.chk ∧ (engineBeneath a0 s).mem.bkey = s.mem.bkey ∧ (engineBeneath a0 s).gau = s.gau ∧
      (engineBeneath a0 s).benches = s.benches ∧ (engineBeneath a0 s).serve = s.serve ∧ (engineBeneath a0 s).opr = s.opr ∧
      (engineBeneath a0 s).vid = s.vid ∧ (engineBeneath a0 s).red = s.red ∧ (engineBeneath a0 s).pwr = s.pwr := by
  simp only [engineBeneath]
  (repeat' split) <;> simp

@[simp] theorem fillLine_parts (a0 : Nat) (a1 : Nat) (s : State) :
    (fillLine a0 a1 s).boot = s.boot ∧ (fillLine a0 a1 s).benches = s.benches ∧ (fillLine a0 a1 s).serve = s.serve ∧
      (fillLine a0 a1 s).opr = s.opr ∧ (fillLine a0 a1 s).vid = s.vid ∧ (fillLine a0 a1 s).red = s.red ∧
      (fillLine a0 a1 s).pwr = s.pwr := by
  simp only [fillLine, rekeyBurst_parts]
  (repeat' split)
  · simp
  · refine ⟨?_, ?_, ?_, ?_, ?_, ?_, ?_⟩
    · exact (foldl_part (·.boot) (fun s a => by split <;> simp [changeCopy]) _ _).trans (by simp)
    · exact (foldl_part (·.benches) (fun s a => by split <;> simp [changeCopy]) _ _).trans (by simp)
    · exact (foldl_part (·.serve) (fun s a => by split <;> simp [changeCopy]) _ _).trans (by simp)
    · exact (foldl_part (·.opr) (fun s a => by split <;> simp [changeCopy]) _ _).trans (by simp)
    · exact (foldl_part (·.vid) (fun s a => by split <;> simp [changeCopy]) _ _).trans (by simp)
    · exact (foldl_part (·.red) (fun s a => by split <;> simp [changeCopy]) _ _).trans (by simp)
    · exact (foldl_part (·.pwr) (fun s a => by split <;> simp [changeCopy]) _ _).trans (by simp)

@[simp] theorem sweepEnded_parts (a0 : Nat) (a1 : Bool) (s : State) :
    (sweepEnded a0 a1 s).nv = s.nv ∧ (sweepEnded a0 a1 s).boot = s.boot ∧ (sweepEnded a0 a1 s).mem = s.mem ∧
      (sweepEnded a0 a1 s).gau = s.gau ∧ (sweepEnded a0 a1 s).benches = s.benches ∧ (sweepEnded a0 a1 s).serve = s.serve ∧
      (sweepEnded a0 a1 s).opr = s.opr ∧ (sweepEnded a0 a1 s).vid = s.vid ∧ (sweepEnded a0 a1 s).red = s.red ∧
      (sweepEnded a0 a1 s).pwr = s.pwr := by
  simp [sweepEnded]

@[simp] theorem sweepOne_parts (a0 : Nat) (a1 : Nat) (s : State) :
    (sweepOne a0 a1 s).boot = s.boot ∧ (sweepOne a0 a1 s).benches = s.benches ∧ (sweepOne a0 a1 s).serve = s.serve ∧
      (sweepOne a0 a1 s).opr = s.opr ∧ (sweepOne a0 a1 s).vid = s.vid ∧ (sweepOne a0 a1 s).red = s.red ∧
      (sweepOne a0 a1 s).pwr = s.pwr := by
  simp [sweepOne]

@[simp] theorem sweepFirst_parts (a0 : Nat) (s : State) :
    (sweepFirst a0 s).boot = s.boot ∧ (sweepFirst a0 s).benches = s.benches ∧ (sweepFirst a0 s).serve = s.serve ∧
      (sweepFirst a0 s).opr = s.opr ∧ (sweepFirst a0 s).vid = s.vid ∧ (sweepFirst a0 s).red = s.red ∧
      (sweepFirst a0 s).pwr = s.pwr := by
  simp only [sweepFirst]
  (repeat' split) <;> simp

@[simp] theorem writeBack_parts (a0 : Nat) (s : State) :
    (writeBack a0 s).boot = s.boot ∧ (writeBack a0 s).benches = s.benches ∧ (writeBack a0 s).serve = s.serve ∧
      (writeBack a0 s).opr = s.opr ∧ (writeBack a0 s).vid = s.vid ∧ (writeBack a0 s).red = s.red ∧ (writeBack a0 s).pwr = s.pwr := by
  simp [writeBack]

@[simp] theorem dropLine_parts (a0 : Nat) (a1 : Line) (s : State) :
    (dropLine a0 a1 s).boot = s.boot ∧ (dropLine a0 a1 s).benches = s.benches ∧ (dropLine a0 a1 s).serve = s.serve ∧ (dropLine
      a0 a1 s).opr = s.opr ∧ (dropLine a0 a1 s).vid = s.vid ∧ (dropLine a0 a1 s).red = s.red ∧ (dropLine a0 a1 s).pwr = s.pwr := by
  simp [dropLine]

@[simp] theorem allocLine_parts (a0 : Nat) (a1 : Nat) (a2 : Bool) (a3 : Bool) (a4 : Option Nat) (s : State) :
    (allocLine a0 a1 a2 a3 a4 s).boot = s.boot ∧ (allocLine a0 a1 a2 a3 a4 s).benches = s.benches ∧
      (allocLine a0 a1 a2 a3 a4 s).serve = s.serve ∧ (allocLine a0 a1 a2 a3 a4 s).opr = s.opr ∧
      (allocLine a0 a1 a2 a3 a4 s).vid = s.vid ∧ (allocLine a0 a1 a2 a3 a4 s).red = s.red ∧
      (allocLine a0 a1 a2 a3 a4 s).pwr = s.pwr := by
  simp only [allocLine]
  (repeat' split) <;> simp

@[simp] theorem engineRead_parts (a0 : Nat) (s : State) :
    (engineRead a0 s).boot = s.boot ∧ (engineRead a0 s).mem.bytes = s.mem.bytes ∧ (engineRead a0 s).mem.chk = s.mem.chk ∧
      (engineRead a0 s).mem.bkey = s.mem.bkey ∧ (engineRead a0 s).gau = s.gau ∧ (engineRead a0 s).benches = s.benches ∧
      (engineRead a0 s).serve = s.serve ∧ (engineRead a0 s).opr = s.opr ∧ (engineRead a0 s).vid = s.vid ∧
      (engineRead a0 s).red = s.red ∧ (engineRead a0 s).pwr = s.pwr := by
  simp [engineRead]

@[simp] theorem touchLine_parts (a0 : Nat) (a1 : Nat) (a2 : TrafficClass) (a3 : YardUse) (a4 : Bool) (s : State) :
    (touchLine a0 a1 a2 a3 a4 s).boot = s.boot ∧ (touchLine a0 a1 a2 a3 a4 s).benches = s.benches ∧
      (touchLine a0 a1 a2 a3 a4 s).serve = s.serve ∧ (touchLine a0 a1 a2 a3 a4 s).opr = s.opr ∧
      (touchLine a0 a1 a2 a3 a4 s).vid = s.vid ∧ (touchLine a0 a1 a2 a3 a4 s).red = s.red ∧
      (touchLine a0 a1 a2 a3 a4 s).pwr = s.pwr := by
  simp [touchLine]

@[simp] theorem fillPrefetch_parts (a0 : Nat) (a1 : Prefetch) (s : State) :
    (fillPrefetch a0 a1 s).boot = s.boot ∧ (fillPrefetch a0 a1 s).benches = s.benches ∧ (fillPrefetch a0 a1 s).serve = s.serve ∧
      (fillPrefetch a0 a1 s).opr = s.opr ∧ (fillPrefetch a0 a1 s).vid = s.vid ∧ (fillPrefetch a0 a1 s).red = s.red ∧
      (fillPrefetch a0 a1 s).pwr = s.pwr := by
  simp [fillPrefetch]

@[simp] theorem yardAccess_parts (a0 : Nat) (a1 : Nat) (a2 : TrafficClass) (a3 : YardUse) (s : State) :
    (yardAccess a0 a1 a2 a3 s).boot = s.boot ∧ (yardAccess a0 a1 a2 a3 s).benches = s.benches ∧
      (yardAccess a0 a1 a2 a3 s).serve = s.serve ∧ (yardAccess a0 a1 a2 a3 s).opr = s.opr ∧
      (yardAccess a0 a1 a2 a3 s).vid = s.vid ∧ (yardAccess a0 a1 a2 a3 s).red = s.red ∧ (yardAccess a0 a1 a2 a3 s).pwr = s.pwr := by
  unfold yardAccess
  split
  · refine ⟨foldl_part (·.boot) (fun s a => ?_) _ _, foldl_part (·.benches) (fun s a => ?_) _ _, foldl_part (·.serve) (fun s a => ?_) _ _, foldl_part (·.opr) (fun s a => ?_) _ _, foldl_part (·.vid) (fun s a => ?_) _ _, foldl_part (·.red) (fun s a => ?_) _ _, foldl_part (·.pwr) (fun s a => ?_) _ _⟩ <;> split <;> simp
  · simp
  · simp

@[simp] theorem flushYard_parts (a0 : Nat) (a1 : (Line → Bool)) (s : State) :
    (flushYard a0 a1 s).boot = s.boot ∧ (flushYard a0 a1 s).benches = s.benches ∧ (flushYard a0 a1 s).serve = s.serve ∧
      (flushYard a0 a1 s).opr = s.opr ∧ (flushYard a0 a1 s).vid = s.vid ∧ (flushYard a0 a1 s).red = s.red ∧
      (flushYard a0 a1 s).pwr = s.pwr := by
  simp [flushYard]

@[simp] theorem modLink_parts (a0 : Nat) (a1 : MeshClass) (a2 : LinkSt → LinkSt) (s : State) :
    (modLink a0 a1 a2 s).nv = s.nv ∧ (modLink a0 a1 a2 s).boot = s.boot ∧ (modLink a0 a1 a2 s).mem = s.mem ∧
      (modLink a0 a1 a2 s).gau = s.gau ∧ (modLink a0 a1 a2 s).benches.packets = s.benches.packets ∧
      (modLink a0 a1 a2 s).serve = s.serve ∧ (modLink a0 a1 a2 s).opr = s.opr ∧ (modLink a0 a1 a2 s).vid = s.vid ∧
      (modLink a0 a1 a2 s).red = s.red ∧ (modLink a0 a1 a2 s).pwr = s.pwr := by
  simp [modLink]

@[simp] theorem injectPacket_parts (a0 : Nat) (a1 : MeshClass) (a2 : Nat) (a3 : Nat) (a4 : Payload) (s : State) :
    (injectPacket a0 a1 a2 a3 a4 s).nv = s.nv ∧ (injectPacket a0 a1 a2 a3 a4 s).boot = s.boot ∧
      (injectPacket a0 a1 a2 a3 a4 s).mem = s.mem ∧ (injectPacket a0 a1 a2 a3 a4 s).gau = s.gau ∧
      (injectPacket a0 a1 a2 a3 a4 s).benches.links = s.benches.links ∧
      (injectPacket a0 a1 a2 a3 a4 s).benches.packets = s.benches.packets ∧ (injectPacket a0 a1 a2 a3 a4 s).serve = s.serve ∧
      (injectPacket a0 a1 a2 a3 a4 s).opr = s.opr ∧ (injectPacket a0 a1 a2 a3 a4 s).vid = s.vid ∧
      (injectPacket a0 a1 a2 a3 a4 s).red = s.red ∧ (injectPacket a0 a1 a2 a3 a4 s).pwr = s.pwr := by
  simp [injectPacket]

@[simp] theorem sendSquare_parts (a0 : MeshOp) (a1 : Nat) (s : State) :
    (sendSquare a0 a1 s).nv = s.nv ∧ (sendSquare a0 a1 s).boot = s.boot ∧ (sendSquare a0 a1 s).mem = s.mem ∧
      (sendSquare a0 a1 s).gau = s.gau ∧ (sendSquare a0 a1 s).benches.links = s.benches.links ∧
      (sendSquare a0 a1 s).benches.packets = s.benches.packets ∧ (sendSquare a0 a1 s).serve = s.serve ∧
      (sendSquare a0 a1 s).opr = s.opr ∧ (sendSquare a0 a1 s).vid = s.vid ∧ (sendSquare a0 a1 s).red = s.red ∧
      (sendSquare a0 a1 s).pwr = s.pwr := by
  simp [sendSquare]

@[simp] theorem sendLaunch_parts (a0 : Nat) (a1 : Nat) (s : State) :
    (sendLaunch a0 a1 s).nv = s.nv ∧ (sendLaunch a0 a1 s).boot = s.boot ∧ (sendLaunch a0 a1 s).mem = s.mem ∧
      (sendLaunch a0 a1 s).gau = s.gau ∧ (sendLaunch a0 a1 s).benches.links = s.benches.links ∧
      (sendLaunch a0 a1 s).benches.packets = s.benches.packets ∧ (sendLaunch a0 a1 s).serve = s.serve ∧
      (sendLaunch a0 a1 s).opr = s.opr ∧ (sendLaunch a0 a1 s).vid = s.vid ∧ (sendLaunch a0 a1 s).red = s.red ∧
      (sendLaunch a0 a1 s).pwr = s.pwr := by
  simp [sendLaunch]

@[simp] theorem sendHalo_parts (a0 : Nat) (a1 : Nat) (a2 : Nat × Nat) (s : State) :
    (sendHalo a0 a1 a2 s).nv = s.nv ∧ (sendHalo a0 a1 a2 s).boot = s.boot ∧ (sendHalo a0 a1 a2 s).mem = s.mem ∧
      (sendHalo a0 a1 a2 s).gau = s.gau ∧ (sendHalo a0 a1 a2 s).benches.links = s.benches.links ∧
      (sendHalo a0 a1 a2 s).benches.packets = s.benches.packets ∧ (sendHalo a0 a1 a2 s).serve = s.serve ∧
      (sendHalo a0 a1 a2 s).opr = s.opr ∧ (sendHalo a0 a1 a2 s).vid = s.vid ∧ (sendHalo a0 a1 a2 s).red = s.red ∧
      (sendHalo a0 a1 a2 s).pwr = s.pwr := by
  simp [sendHalo, foldN]

@[simp] theorem leaveLink_parts (a0 : Nat) (a1 : MeshClass) (s : State) :
    (leaveLink a0 a1 s).nv = s.nv ∧ (leaveLink a0 a1 s).boot = s.boot ∧ (leaveLink a0 a1 s).mem = s.mem ∧
      (leaveLink a0 a1 s).gau = s.gau ∧ (leaveLink a0 a1 s).benches.packets = s.benches.packets ∧ (leaveLink a0 a1 s).serve = s.serve ∧
      (leaveLink a0 a1 s).opr = s.opr ∧ (leaveLink a0 a1 s).vid = s.vid ∧ (leaveLink a0 a1 s).red = s.red ∧
      (leaveLink a0 a1 s).pwr = s.pwr := by
  simp [leaveLink]

@[simp] theorem takeCredit_parts (a0 : Nat) (a1 : MeshClass) (s : State) :
    (takeCredit a0 a1 s).nv = s.nv ∧ (takeCredit a0 a1 s).boot = s.boot ∧ (takeCredit a0 a1 s).mem = s.mem ∧
      (takeCredit a0 a1 s).gau = s.gau ∧ (takeCredit a0 a1 s).benches.packets = s.benches.packets ∧
      (takeCredit a0 a1 s).serve = s.serve ∧ (takeCredit a0 a1 s).opr = s.opr ∧ (takeCredit a0 a1 s).vid = s.vid ∧
      (takeCredit a0 a1 s).red = s.red ∧ (takeCredit a0 a1 s).pwr = s.pwr := by
  simp [takeCredit]

@[simp] theorem removePacket_parts (a0 : Nat) (a1 : MeshClass) (a2 : List Packet) (s : State) :
    (removePacket a0 a1 a2 s).nv = s.nv ∧ (removePacket a0 a1 a2 s).boot = s.boot ∧ (removePacket a0 a1 a2 s).mem = s.mem ∧
      (removePacket a0 a1 a2 s).gau = s.gau ∧ (removePacket a0 a1 a2 s).serve = s.serve ∧
      (removePacket a0 a1 a2 s).opr = s.opr ∧ (removePacket a0 a1 a2 s).vid = s.vid ∧ (removePacket a0 a1 a2 s).red = s.red ∧
      (removePacket a0 a1 a2 s).pwr = s.pwr := by
  simp [removePacket]

@[simp] theorem noteTurn_parts (a0 : Nat) (a1 : MeshClass) (s : State) :
    (noteTurn a0 a1 s).nv = s.nv ∧ (noteTurn a0 a1 s).boot = s.boot ∧ (noteTurn a0 a1 s).mem = s.mem ∧
      (noteTurn a0 a1 s).gau = s.gau ∧ (noteTurn a0 a1 s).benches.links = s.benches.links ∧
      (noteTurn a0 a1 s).benches.packets = s.benches.packets ∧ (noteTurn a0 a1 s).serve = s.serve ∧
      (noteTurn a0 a1 s).opr = s.opr ∧ (noteTurn a0 a1 s).vid = s.vid ∧ (noteTurn a0 a1 s).red = s.red ∧
      (noteTurn a0 a1 s).pwr = s.pwr := by
  simp [noteTurn]

@[simp] theorem edgeAnswer_parts (a0 : Nat) (a1 : MeshClass) (a2 : Nat) (a3 : Payload) (s : State) :
    (edgeAnswer a0 a1 a2 a3 s).nv = s.nv ∧ (edgeAnswer a0 a1 a2 a3 s).boot = s.boot ∧ (edgeAnswer a0 a1 a2 a3 s).mem = s.mem ∧
      (edgeAnswer a0 a1 a2 a3 s).gau = s.gau ∧ (edgeAnswer a0 a1 a2 a3 s).benches.links = s.benches.links ∧
      (edgeAnswer a0 a1 a2 a3 s).benches.packets = s.benches.packets ∧ (edgeAnswer a0 a1 a2 a3 s).serve = s.serve ∧
      (edgeAnswer a0 a1 a2 a3 s).opr = s.opr ∧ (edgeAnswer a0 a1 a2 a3 s).vid = s.vid ∧ (edgeAnswer a0 a1 a2 a3 s).red = s.red ∧
      (edgeAnswer a0 a1 a2 a3 s).pwr = s.pwr := by
  simp only [edgeAnswer]
  (repeat' split) <;> simp

@[simp] theorem meshTraffic_parts (a0 : MeshSource) (a1 : Nat) (a2 : Nat) (a3 : TrafficClass) (a4 : YardUse) (s : State) :
    (meshTraffic a0 a1 a2 a3 a4 s).nv = s.nv ∧ (meshTraffic a0 a1 a2 a3 a4 s).boot = s.boot ∧
      (meshTraffic a0 a1 a2 a3 a4 s).mem = s.mem ∧ (meshTraffic a0 a1 a2 a3 a4 s).gau = s.gau ∧
      (meshTraffic a0 a1 a2 a3 a4 s).benches.links = s.benches.links ∧
      (meshTraffic a0 a1 a2 a3 a4 s).benches.packets = s.benches.packets ∧ (meshTraffic a0 a1 a2 a3 a4 s).serve = s.serve ∧
      (meshTraffic a0 a1 a2 a3 a4 s).opr = s.opr ∧ (meshTraffic a0 a1 a2 a3 a4 s).vid = s.vid ∧
      (meshTraffic a0 a1 a2 a3 a4 s).red = s.red ∧ (meshTraffic a0 a1 a2 a3 a4 s).pwr = s.pwr := by
  unfold meshTraffic
  refine ⟨foldl_part (·.nv) (fun s a => ?_) _ _, foldl_part (·.boot) (fun s a => ?_) _ _, foldl_part (·.mem) (fun s a => ?_) _ _, foldl_part (·.gau) (fun s a => ?_) _ _, foldl_part (·.benches.links) (fun s a => ?_) _ _, foldl_part (·.benches.packets) (fun s a => ?_) _ _, foldl_part (·.serve) (fun s a => ?_) _ _, foldl_part (·.opr) (fun s a => ?_) _ _, foldl_part (·.vid) (fun s a => ?_) _ _, foldl_part (·.red) (fun s a => ?_) _ _, foldl_part (·.pwr) (fun s a => ?_) _ _⟩ <;> (repeat' split) <;> simp

@[simp] theorem touchYard_parts (a0 : MeshSource) (a1 : Nat) (a2 : Nat) (a3 : TrafficClass) (a4 : YardUse) (s : State) :
    (touchYard a0 a1 a2 a3 a4 s).boot = s.boot ∧ (touchYard a0 a1 a2 a3 a4 s).benches.links = s.benches.links ∧
      (touchYard a0 a1 a2 a3 a4 s).benches.packets = s.benches.packets ∧ (touchYard a0 a1 a2 a3 a4 s).serve = s.serve ∧
      (touchYard a0 a1 a2 a3 a4 s).opr = s.opr ∧ (touchYard a0 a1 a2 a3 a4 s).vid = s.vid ∧
      (touchYard a0 a1 a2 a3 a4 s).red = s.red ∧ (touchYard a0 a1 a2 a3 a4 s).pwr = s.pwr := by
  simp only [touchYard]
  (repeat' split) <;> simp

@[simp] theorem squareReads_parts (a0 : List (Nat × Nat)) (s : State) :
    (squareReads a0 s).boot = s.boot ∧ (squareReads a0 s).benches.links = s.benches.links ∧
      (squareReads a0 s).benches.packets = s.benches.packets ∧ (squareReads a0 s).serve = s.serve ∧
      (squareReads a0 s).opr = s.opr ∧ (squareReads a0 s).vid = s.vid ∧ (squareReads a0 s).red = s.red ∧
      (squareReads a0 s).pwr = s.pwr := by
  simp [squareReads]

@[simp] theorem squareWrite_parts (a0 : Nat) (a1 : List Byte) (s : State) :
    (squareWrite a0 a1 s).boot = s.boot ∧ (squareWrite a0 a1 s).benches.links = s.benches.links ∧
      (squareWrite a0 a1 s).benches.packets = s.benches.packets ∧ (squareWrite a0 a1 s).serve = s.serve ∧
      (squareWrite a0 a1 s).opr = s.opr ∧ (squareWrite a0 a1 s).vid = s.vid ∧ (squareWrite a0 a1 s).red = s.red ∧
      (squareWrite a0 a1 s).pwr = s.pwr := by
  simp [squareWrite]

@[simp] theorem takePortTag_parts (a0 : Nat) (a1 : Nat) (s : State) :
    (takePortTag a0 a1 s).nv = s.nv ∧ (takePortTag a0 a1 s).boot = s.boot ∧ (takePortTag a0 a1 s).mem.bytes = s.mem.bytes ∧
      (takePortTag a0 a1 s).mem.chk = s.mem.chk ∧ (takePortTag a0 a1 s).mem.bkey = s.mem.bkey ∧
      (takePortTag a0 a1 s).gau = s.gau ∧ (takePortTag a0 a1 s).benches = s.benches ∧ (takePortTag a0 a1 s).serve = s.serve ∧
      (takePortTag a0 a1 s).opr = s.opr ∧ (takePortTag a0 a1 s).vid = s.vid ∧ (takePortTag a0 a1 s).red = s.red ∧
      (takePortTag a0 a1 s).pwr = s.pwr := by
  simp [takePortTag]

@[simp] theorem returnPortTag_parts (a0 : Nat) (a1 : Nat) (s : State) :
    (returnPortTag a0 a1 s).nv = s.nv ∧ (returnPortTag a0 a1 s).boot = s.boot ∧
      (returnPortTag a0 a1 s).mem.bytes = s.mem.bytes ∧ (returnPortTag a0 a1 s).mem.chk = s.mem.chk ∧
      (returnPortTag a0 a1 s).mem.bkey = s.mem.bkey ∧ (returnPortTag a0 a1 s).gau = s.gau ∧
      (returnPortTag a0 a1 s).benches = s.benches ∧ (returnPortTag a0 a1 s).serve = s.serve ∧
      (returnPortTag a0 a1 s).opr = s.opr ∧ (returnPortTag a0 a1 s).vid = s.vid ∧ (returnPortTag a0 a1 s).red = s.red ∧
      (returnPortTag a0 a1 s).pwr = s.pwr := by
  simp [returnPortTag]

@[simp] theorem modBench_parts (a0 : Nat) (a1 : BenchSt → BenchSt) (s : State) :
    (modBench a0 a1 s).nv = s.nv ∧ (modBench a0 a1 s).boot = s.boot ∧ (modBench a0 a1 s).mem = s.mem ∧ (modBench a0 a1 s).gau = s.gau ∧
      (modBench a0 a1 s).benches.links = s.benches.links ∧ (modBench a0 a1 s).benches.packets = s.benches.packets ∧
      (modBench a0 a1 s).serve = s.serve ∧ (modBench a0 a1 s).opr = s.opr ∧ (modBench a0 a1 s).vid = s.vid ∧
      (modBench a0 a1 s).red = s.red ∧ (modBench a0 a1 s).pwr = s.pwr := by
  simp [modBench]

@[simp] theorem modGau_parts (a0 : Nat) (a1 : BenchGau → BenchGau) (s : State) :
    (modGau a0 a1 s).nv = s.nv ∧ (modGau a0 a1 s).boot = s.boot ∧ (modGau a0 a1 s).mem = s.mem ∧ (modGau a0 a1 s).benches = s.benches ∧
      (modGau a0 a1 s).serve = s.serve ∧ (modGau a0 a1 s).opr = s.opr ∧ (modGau a0 a1 s).vid = s.vid ∧ (modGau a0 a1 s).red = s.red ∧
      (modGau a0 a1 s).pwr = s.pwr := by
  simp [modGau]

@[simp] theorem countCode_parts (a0 : Nat) (a1 : Nat) (a2 : Nat) (s : State) :
    (countCode a0 a1 a2 s).nv = s.nv ∧ (countCode a0 a1 a2 s).boot = s.boot ∧ (countCode a0 a1 a2 s).mem = s.mem ∧
      (countCode a0 a1 a2 s).benches = s.benches ∧ (countCode a0 a1 a2 s).serve = s.serve ∧ (countCode a0 a1 a2 s).opr = s.opr ∧
      (countCode a0 a1 a2 s).vid = s.vid ∧ (countCode a0 a1 a2 s).red = s.red ∧ (countCode a0 a1 a2 s).pwr = s.pwr := by
  simp [countCode]

@[simp] theorem countSlots_parts (a0 : Nat) (a1 : Option Stall) (a2 : Nat) (s : State) :
    (countSlots a0 a1 a2 s).nv = s.nv ∧ (countSlots a0 a1 a2 s).boot = s.boot ∧ (countSlots a0 a1 a2 s).mem = s.mem ∧
      (countSlots a0 a1 a2 s).benches = s.benches ∧ (countSlots a0 a1 a2 s).serve = s.serve ∧ (countSlots a0 a1 a2 s).opr = s.opr ∧
      (countSlots a0 a1 a2 s).vid = s.vid ∧ (countSlots a0 a1 a2 s).red = s.red ∧ (countSlots a0 a1 a2 s).pwr = s.pwr := by
  simp [countSlots]

@[simp] theorem wasteSlots_parts (a0 : Nat) (a1 : Nat) (s : State) :
    (wasteSlots a0 a1 s).nv = s.nv ∧ (wasteSlots a0 a1 s).boot = s.boot ∧ (wasteSlots a0 a1 s).mem = s.mem ∧
      (wasteSlots a0 a1 s).benches = s.benches ∧ (wasteSlots a0 a1 s).serve = s.serve ∧ (wasteSlots a0 a1 s).opr = s.opr ∧
      (wasteSlots a0 a1 s).vid = s.vid ∧ (wasteSlots a0 a1 s).red = s.red ∧ (wasteSlots a0 a1 s).pwr = s.pwr := by
  simp [wasteSlots]

@[simp] theorem modServe_parts (a0 : Nat) (a1 : ServeCtx → ServeCtx) (s : State) :
    (modServe a0 a1 s).nv = s.nv ∧ (modServe a0 a1 s).boot = s.boot ∧ (modServe a0 a1 s).mem = s.mem ∧ (modServe a0 a1 s).gau = s.gau ∧
      (modServe a0 a1 s).benches = s.benches ∧ (modServe a0 a1 s).opr = s.opr ∧ (modServe a0 a1 s).vid = s.vid ∧
      (modServe a0 a1 s).red = s.red ∧ (modServe a0 a1 s).pwr = s.pwr := by
  simp [modServe]

@[simp] theorem modReq_parts (a0 : Nat) (a1 : Request → Request) (s : State) :
    (modReq a0 a1 s).nv = s.nv ∧ (modReq a0 a1 s).boot = s.boot ∧ (modReq a0 a1 s).mem = s.mem ∧ (modReq a0 a1 s).gau = s.gau ∧
      (modReq a0 a1 s).benches = s.benches ∧ (modReq a0 a1 s).opr = s.opr ∧ (modReq a0 a1 s).vid = s.vid ∧
      (modReq a0 a1 s).red = s.red ∧ (modReq a0 a1 s).pwr = s.pwr := by
  simp [modReq]

@[simp] theorem writeList_parts (a0 : Nat) (a1 : Nat) (s : State) :
    (writeList a0 a1 s).boot = s.boot ∧ (writeList a0 a1 s).benches.links = s.benches.links ∧
      (writeList a0 a1 s).benches.packets = s.benches.packets ∧ (writeList a0 a1 s).serve = s.serve ∧
      (writeList a0 a1 s).opr = s.opr ∧ (writeList a0 a1 s).vid = s.vid ∧ (writeList a0 a1 s).red = s.red ∧
      (writeList a0 a1 s).pwr = s.pwr := by
  simp [writeList]

@[simp] theorem initPage_parts (a0 : Nat) (a1 : Model) (a2 : List Nat) (a3 : Nat) (s : State) :
    (initPage a0 a1 a2 a3 s).boot = s.boot ∧ (initPage a0 a1 a2 a3 s).benches.links = s.benches.links ∧
      (initPage a0 a1 a2 a3 s).benches.packets = s.benches.packets ∧ (initPage a0 a1 a2 a3 s).serve = s.serve ∧
      (initPage a0 a1 a2 a3 s).opr = s.opr ∧ (initPage a0 a1 a2 a3 s).vid = s.vid ∧ (initPage a0 a1 a2 a3 s).red = s.red ∧
      (initPage a0 a1 a2 a3 s).pwr = s.pwr := by
  simp only [initPage]
  (repeat' split) <;> simp

theorem addPageSet_parts {c x : Nat} {u : PageUse} {s t : State} (e : addPageSet c x u s = some t) :
    t.boot = s.boot ∧ t.benches.links = s.benches.links ∧ t.benches.packets = s.benches.packets ∧ t.opr = s.opr ∧ t.vid = s.vid ∧ t.red = s.red ∧ t.pwr = s.pwr := by
  unfold addPageSet at e
  split at e
  · cases e
  · dsimp only at e
    split at e
    · cases e
    · injection e with e
      subst e
      simp [foldN]

@[simp] theorem freeRequestPages_parts (a0 : Nat) (a1 : Nat) (a2 : PageUse) (s : State) :
    (freeRequestPages a0 a1 a2 s).nv = s.nv ∧ (freeRequestPages a0 a1 a2 s).boot = s.boot ∧ (freeRequestPages a0 a1 a2 s).mem = s.mem ∧
      (freeRequestPages a0 a1 a2 s).gau = s.gau ∧ (freeRequestPages a0 a1 a2 s).benches = s.benches ∧
      (freeRequestPages a0 a1 a2 s).opr = s.opr ∧ (freeRequestPages a0 a1 a2 s).vid = s.vid ∧
      (freeRequestPages a0 a1 a2 s).red = s.red ∧ (freeRequestPages a0 a1 a2 s).pwr = s.pwr := by
  simp [freeRequestPages]

theorem securePages_parts {c x n : Nat} {u : PageUse} {fuel : Nat} {s t : State} (e : securePages c x n u fuel s = some t) :
    t.boot = s.boot ∧ t.benches.links = s.benches.links ∧ t.benches.packets = s.benches.packets ∧ t.opr = s.opr ∧ t.vid = s.vid ∧ t.red = s.red ∧ t.pwr = s.pwr := by
  induction fuel generalizing s with
  | zero => cases e
  | succ k ih =>
    unfold securePages at e
    split at e
    · cases e
    · split at e
      · injection e with e; subst e; simp
      · split at e
        · next h =>
          have a := addPageSet_parts h
          have b := ih e
          simp_all
        · cases e

@[simp] theorem noteHead_parts (a0 : Nat) (a1 : Nat) (a2 : Nat) (a3 : Nat) (a4 : Bool) (a5 : Num) (a6 : Nat) (s : State) :
    (noteHead a0 a1 a2 a3 a4 a5 a6 s).boot = s.boot ∧ (noteHead a0 a1 a2 a3 a4 a5 a6 s).benches = s.benches ∧
      (noteHead a0 a1 a2 a3 a4 a5 a6 s).opr = s.opr ∧ (noteHead a0 a1 a2 a3 a4 a5 a6 s).vid = s.vid ∧
      (noteHead a0 a1 a2 a3 a4 a5 a6 s).red = s.red ∧ (noteHead a0 a1 a2 a3 a4 a5 a6 s).pwr = s.pwr := by
  simp [noteHead, foldN]

@[simp] theorem storeRow_parts (a0 : Nat) (a1 : Nat) (a2 : Nat) (a3 : Nat) (a4 : Nat) (a5 : Nat) (a6 : Bool) (a7 : List Num) (s : State) :
    (storeRow a0 a1 a2 a3 a4 a5 a6 a7 s).boot = s.boot ∧ (storeRow a0 a1 a2 a3 a4 a5 a6 a7 s).benches = s.benches ∧
      (storeRow a0 a1 a2 a3 a4 a5 a6 a7 s).opr = s.opr ∧ (storeRow a0 a1 a2 a3 a4 a5 a6 a7 s).vid = s.vid ∧
      (storeRow a0 a1 a2 a3 a4 a5 a6 a7 s).red = s.red ∧ (storeRow a0 a1 a2 a3 a4 a5 a6 a7 s).pwr = s.pwr := by
  simp only [storeRow, foldN]
  (repeat' split) <;> first | (simp; done) | exact ⟨foldl_part (·.boot) (fun s a => by (try dsimp only); (repeat' split) <;> simp) _ _,
    foldl_part (·.benches) (fun s a => by (try dsimp only); (repeat' split) <;> simp) _ _,
    foldl_part (·.opr) (fun s a => by (try dsimp only); (repeat' split) <;> simp) _ _,
    foldl_part (·.vid) (fun s a => by (try dsimp only); (repeat' split) <;> simp) _ _,
    foldl_part (·.red) (fun s a => by (try dsimp only); (repeat' split) <;> simp) _ _,
    foldl_part (·.pwr) (fun s a => by (try dsimp only); (repeat' split) <;> simp) _ _⟩

@[simp] theorem modRun_parts (a0 : Nat) (a1 : Run → Run) (s : State) :
    (modRun a0 a1 s).nv = s.nv ∧ (modRun a0 a1 s).boot = s.boot ∧ (modRun a0 a1 s).mem = s.mem ∧ (modRun a0 a1 s).gau = s.gau ∧
      (modRun a0 a1 s).benches.links = s.benches.links ∧ (modRun a0 a1 s).benches.packets = s.benches.packets ∧
      (modRun a0 a1 s).serve = s.serve ∧ (modRun a0 a1 s).opr = s.opr ∧ (modRun a0 a1 s).vid = s.vid ∧ (modRun a0 a1 s).red = s.red ∧
      (modRun a0 a1 s).pwr = s.pwr := by
  simp [modRun]

@[simp] theorem settleBench_parts (a0 : Nat) (s : State) :
    (settleBench a0 s).nv = s.nv ∧ (settleBench a0 s).boot = s.boot ∧ (settleBench a0 s).mem = s.mem ∧ (settleBench a0 s).gau = s.gau ∧
      (settleBench a0 s).benches.links = s.benches.links ∧ (settleBench a0 s).benches.packets = s.benches.packets ∧
      (settleBench a0 s).serve = s.serve ∧ (settleBench a0 s).opr = s.opr ∧ (settleBench a0 s).vid = s.vid ∧
      (settleBench a0 s).red = s.red ∧ (settleBench a0 s).pwr = s.pwr := by
  simp only [settleBench]
  (repeat' split) <;> simp

@[simp] theorem stopRun_parts (a0 : Nat) (s : State) :
    (stopRun a0 s).nv = s.nv ∧ (stopRun a0 s).boot = s.boot ∧ (stopRun a0 s).mem = s.mem ∧ (stopRun a0 s).gau = s.gau ∧
      (stopRun a0 s).benches.links = s.benches.links ∧ (stopRun a0 s).benches.packets = s.benches.packets ∧
      (stopRun a0 s).serve = s.serve ∧ (stopRun a0 s).opr = s.opr ∧ (stopRun a0 s).vid = s.vid ∧ (stopRun a0 s).red = s.red ∧
      (stopRun a0 s).pwr = s.pwr := by
  simp only [stopRun]
  (repeat' split) <;> simp

@[simp] theorem stopRuns_parts (a0 : Nat) (s : State) :
    (stopRuns a0 s).nv = s.nv ∧ (stopRuns a0 s).boot = s.boot ∧ (stopRuns a0 s).mem = s.mem ∧ (stopRuns a0 s).gau = s.gau ∧
      (stopRuns a0 s).benches.links = s.benches.links ∧ (stopRuns a0 s).benches.packets = s.benches.packets ∧
      (stopRuns a0 s).serve = s.serve ∧ (stopRuns a0 s).opr = s.opr ∧ (stopRuns a0 s).vid = s.vid ∧ (stopRuns a0 s).red = s.red ∧
      (stopRuns a0 s).pwr = s.pwr := by
  simp [stopRuns]

@[simp] theorem benchFault_parts (a0 : Nat) (a1 : Nat) (a2 : Nat) (a3 : Nat) (a4 : List Fld) (s : State) :
    (benchFault a0 a1 a2 a3 a4 s).nv = s.nv ∧ (benchFault a0 a1 a2 a3 a4 s).boot = s.boot ∧ (benchFault a0 a1 a2 a3 a4 s).mem = s.mem ∧
      (benchFault a0 a1 a2 a3 a4 s).gau = s.gau ∧ (benchFault a0 a1 a2 a3 a4 s).benches.links = s.benches.links ∧
      (benchFault a0 a1 a2 a3 a4 s).benches.packets = s.benches.packets ∧ (benchFault a0 a1 a2 a3 a4 s).serve = s.serve ∧
      (benchFault a0 a1 a2 a3 a4 s).opr = s.opr ∧ (benchFault a0 a1 a2 a3 a4 s).vid = s.vid ∧
      (benchFault a0 a1 a2 a3 a4 s).red = s.red ∧ (benchFault a0 a1 a2 a3 a4 s).pwr = s.pwr := by
  simp only [benchFault]
  (repeat' split) <;> simp

@[simp] theorem recordPoison_parts (a0 : Nat) (a1 : Option Nat) (a2 a3 a4 : Nat) (s : State) :
    (recordPoison a0 a1 a2 a3 a4 s).nv = s.nv ∧ (recordPoison a0 a1 a2 a3 a4 s).boot = s.boot ∧ (recordPoison a0 a1 a2 a3 a4 s).mem = s.mem ∧
      (recordPoison a0 a1 a2 a3 a4 s).gau = s.gau ∧ (recordPoison a0 a1 a2 a3 a4 s).benches = s.benches ∧ (recordPoison a0 a1 a2 a3 a4 s).serve = s.serve ∧
      (recordPoison a0 a1 a2 a3 a4 s).opr = s.opr ∧ (recordPoison a0 a1 a2 a3 a4 s).vid = s.vid ∧ (recordPoison a0 a1 a2 a3 a4 s).red = s.red ∧ (recordPoison a0 a1 a2 a3 a4 s).pwr = s.pwr := by
  simp [recordPoison]

@[simp] theorem consumeOperand_parts (a0 : Nat) (a1 : Desc) (s : State) :
    (consumeOperand a0 a1 s).boot = s.boot ∧ (consumeOperand a0 a1 s).mem.bytes = s.mem.bytes ∧
      (consumeOperand a0 a1 s).mem.chk = s.mem.chk ∧ (consumeOperand a0 a1 s).mem.bkey = s.mem.bkey ∧
      (consumeOperand a0 a1 s).gau = s.gau ∧ (consumeOperand a0 a1 s).benches = s.benches ∧ (consumeOperand a0 a1 s).serve = s.serve ∧
      (consumeOperand a0 a1 s).opr = s.opr ∧ (consumeOperand a0 a1 s).vid = s.vid ∧ (consumeOperand a0 a1 s).red = s.red ∧
      (consumeOperand a0 a1 s).pwr = s.pwr := by
  simp [consumeOperand]

@[simp] theorem useFree_parts (a0 : Nat) (s : State) :
    (useFree a0 s).nv = s.nv ∧ (useFree a0 s).boot = s.boot ∧ (useFree a0 s).mem = s.mem ∧ (useFree a0 s).gau = s.gau ∧
      (useFree a0 s).benches = s.benches ∧ (useFree a0 s).serve = s.serve ∧ (useFree a0 s).opr = s.opr ∧ (useFree a0 s).vid = s.vid ∧
      (useFree a0 s).red = s.red ∧ (useFree a0 s).pwr = s.pwr := by
  simp [useFree]

@[simp] theorem countConvs_parts (a0 : Nat) (a1 : List Conv) (s : State) :
    (countConvs a0 a1 s).nv = s.nv ∧ (countConvs a0 a1 s).boot = s.boot ∧ (countConvs a0 a1 s).mem = s.mem ∧
      (countConvs a0 a1 s).benches = s.benches ∧ (countConvs a0 a1 s).serve = s.serve ∧ (countConvs a0 a1 s).opr = s.opr ∧
      (countConvs a0 a1 s).vid = s.vid ∧ (countConvs a0 a1 s).red = s.red ∧ (countConvs a0 a1 s).pwr = s.pwr := by
  simp [countConvs]

@[simp] theorem setAcc_parts (a0 : Nat) (a1 : List (Nat × Nat)) (s : State) :
    (setAcc a0 a1 s).nv = s.nv ∧ (setAcc a0 a1 s).boot = s.boot ∧ (setAcc a0 a1 s).mem = s.mem ∧ (setAcc a0 a1 s).gau = s.gau ∧
      (setAcc a0 a1 s).benches.links = s.benches.links ∧ (setAcc a0 a1 s).benches.packets = s.benches.packets ∧
      (setAcc a0 a1 s).serve = s.serve ∧ (setAcc a0 a1 s).opr = s.opr ∧ (setAcc a0 a1 s).vid = s.vid ∧ (setAcc a0 a1 s).red = s.red ∧
      (setAcc a0 a1 s).pwr = s.pwr := by
  simp [setAcc]

@[simp] theorem doMma_parts (a0 : Nat) (a1 : InFlight) (s : State) :
    (doMma a0 a1 s).nv = s.nv ∧ (doMma a0 a1 s).boot = s.boot ∧ (doMma a0 a1 s).mem = s.mem ∧
      (doMma a0 a1 s).benches.links = s.benches.links ∧ (doMma a0 a1 s).benches.packets = s.benches.packets ∧
      (doMma a0 a1 s).serve = s.serve ∧ (doMma a0 a1 s).opr = s.opr ∧ (doMma a0 a1 s).vid = s.vid ∧ (doMma a0 a1 s).red = s.red ∧
      (doMma a0 a1 s).pwr = s.pwr := by
  simp [doMma]

@[simp] theorem doMmaGrp_parts (a0 : Nat) (a1 : InFlight) (s : State) :
    (doMmaGrp a0 a1 s).nv = s.nv ∧ (doMmaGrp a0 a1 s).boot = s.boot ∧ (doMmaGrp a0 a1 s).mem = s.mem ∧ (doMmaGrp a0 a1 s).gau = s.gau ∧
      (doMmaGrp a0 a1 s).benches.links = s.benches.links ∧ (doMmaGrp a0 a1 s).benches.packets = s.benches.packets ∧
      (doMmaGrp a0 a1 s).serve = s.serve ∧ (doMmaGrp a0 a1 s).opr = s.opr ∧ (doMmaGrp a0 a1 s).vid = s.vid ∧
      (doMmaGrp a0 a1 s).red = s.red ∧ (doMmaGrp a0 a1 s).pwr = s.pwr := by
  simp [doMmaGrp]

@[simp] theorem doAccOut_parts (a0 : Nat) (a1 : InFlight) (s : State) :
    (doAccOut a0 a1 s).boot = s.boot ∧ (doAccOut a0 a1 s).benches = s.benches ∧ (doAccOut a0 a1 s).serve = s.serve ∧ (doAccOut
      a0 a1 s).opr = s.opr ∧ (doAccOut a0 a1 s).vid = s.vid ∧ (doAccOut a0 a1 s).red = s.red ∧ (doAccOut a0 a1 s).pwr = s.pwr := by
  simp only [doAccOut, foldN]
  (repeat' split) <;> simp

@[simp] theorem setV_parts (a0 : Nat) (a1 : Nat) (a2 : List Byte) (s : State) :
    (setV a0 a1 a2 s).nv = s.nv ∧ (setV a0 a1 a2 s).boot = s.boot ∧ (setV a0 a1 a2 s).mem = s.mem ∧ (setV a0 a1 a2 s).gau = s.gau ∧
      (setV a0 a1 a2 s).benches.links = s.benches.links ∧ (setV a0 a1 a2 s).benches.packets = s.benches.packets ∧
      (setV a0 a1 a2 s).serve = s.serve ∧ (setV a0 a1 a2 s).opr = s.opr ∧ (setV a0 a1 a2 s).vid = s.vid ∧
      (setV a0 a1 a2 s).red = s.red ∧ (setV a0 a1 a2 s).pwr = s.pwr := by
  simp [setV]

@[simp] theorem doVld_parts (a0 : Nat) (a1 : InFlight) (s : State) :
    (doVld a0 a1 s).nv = s.nv ∧ (doVld a0 a1 s).boot = s.boot ∧ (doVld a0 a1 s).mem = s.mem ∧ (doVld a0 a1 s).gau = s.gau ∧
      (doVld a0 a1 s).benches.links = s.benches.links ∧ (doVld a0 a1 s).benches.packets = s.benches.packets ∧
      (doVld a0 a1 s).serve = s.serve ∧ (doVld a0 a1 s).opr = s.opr ∧ (doVld a0 a1 s).vid = s.vid ∧ (doVld a0 a1 s).red = s.red ∧
      (doVld a0 a1 s).pwr = s.pwr := by
  simp [doVld]

@[simp] theorem landBytes_parts (a0 : Nat) (a1 : Desc) (a2 : Nat) (a3 : Nat) (a4 : List Byte) (a5 : List Nat) (s : State) :
    (landBytes a0 a1 a2 a3 a4 a5 s).boot = s.boot ∧ (landBytes a0 a1 a2 a3 a4 a5 s).gau = s.gau ∧
      (landBytes a0 a1 a2 a3 a4 a5 s).benches = s.benches ∧ (landBytes a0 a1 a2 a3 a4 a5 s).serve = s.serve ∧
      (landBytes a0 a1 a2 a3 a4 a5 s).opr = s.opr ∧ (landBytes a0 a1 a2 a3 a4 a5 s).vid = s.vid ∧
      (landBytes a0 a1 a2 a3 a4 a5 s).red = s.red ∧ (landBytes a0 a1 a2 a3 a4 a5 s).pwr = s.pwr := by
  simp [landBytes]

@[simp] theorem doVst_parts (a0 : Nat) (a1 : InFlight) (s : State) :
    (doVst a0 a1 s).boot = s.boot ∧ (doVst a0 a1 s).gau = s.gau ∧ (doVst a0 a1 s).benches = s.benches ∧
      (doVst a0 a1 s).serve = s.serve ∧ (doVst a0 a1 s).opr = s.opr ∧ (doVst a0 a1 s).vid = s.vid ∧ (doVst a0 a1 s).red = s.red ∧
      (doVst a0 a1 s).pwr = s.pwr := by
  simp [doVst]

@[simp] theorem doMxq_parts (a0 : Nat) (a1 : Jig) (a2 : Op) (s : State) :
    (doMxq a0 a1 a2 s).2.nv = s.nv ∧ (doMxq a0 a1 a2 s).2.boot = s.boot ∧ (doMxq a0 a1 a2 s).2.mem = s.mem ∧
      (doMxq a0 a1 a2 s).2.gau = s.gau ∧ (doMxq a0 a1 a2 s).2.benches.links = s.benches.links ∧
      (doMxq a0 a1 a2 s).2.benches.packets = s.benches.packets ∧ (doMxq a0 a1 a2 s).2.serve = s.serve ∧
      (doMxq a0 a1 a2 s).2.opr = s.opr ∧ (doMxq a0 a1 a2 s).2.vid = s.vid ∧ (doMxq a0 a1 a2 s).2.red = s.red ∧
      (doMxq a0 a1 a2 s).2.pwr = s.pwr := by
  simp [doMxq]

@[simp] theorem doVop_parts (a0 : Nat) (a1 : Jig) (a2 : InFlight) (s : State) :
    (doVop a0 a1 a2 s).nv = s.nv ∧ (doVop a0 a1 a2 s).boot = s.boot ∧ (doVop a0 a1 a2 s).mem = s.mem ∧
      (doVop a0 a1 a2 s).benches.links = s.benches.links ∧ (doVop a0 a1 a2 s).benches.packets = s.benches.packets ∧
      (doVop a0 a1 a2 s).serve = s.serve ∧ (doVop a0 a1 a2 s).opr = s.opr ∧ (doVop a0 a1 a2 s).vid = s.vid ∧
      (doVop a0 a1 a2 s).red = s.red ∧ (doVop a0 a1 a2 s).pwr = s.pwr := by
  simp only [doVop]
  (repeat' split) <;> simp

@[simp] theorem doVred_parts (a0 : Nat) (a1 : Jig) (a2 : InFlight) (s : State) :
    (doVred a0 a1 a2 s).nv = s.nv ∧ (doVred a0 a1 a2 s).boot = s.boot ∧ (doVred a0 a1 a2 s).mem = s.mem ∧
      (doVred a0 a1 a2 s).benches.links = s.benches.links ∧ (doVred a0 a1 a2 s).benches.packets = s.benches.packets ∧
      (doVred a0 a1 a2 s).serve = s.serve ∧ (doVred a0 a1 a2 s).opr = s.opr ∧ (doVred a0 a1 a2 s).vid = s.vid ∧
      (doVred a0 a1 a2 s).red = s.red ∧ (doVred a0 a1 a2 s).pwr = s.pwr := by
  simp only [doVred]
  (repeat' split) <;> simp

@[simp] theorem doWin_parts (a0 : Nat) (a1 : InFlight) (s : State) :
    (doWin a0 a1 s).boot = s.boot ∧ (doWin a0 a1 s).gau = s.gau ∧ (doWin a0 a1 s).benches = s.benches ∧
      (doWin a0 a1 s).serve = s.serve ∧ (doWin a0 a1 s).opr = s.opr ∧ (doWin a0 a1 s).vid = s.vid ∧ (doWin a0 a1 s).red = s.red ∧
      (doWin a0 a1 s).pwr = s.pwr := by
  simp [doWin, foldN]

@[simp] theorem landPoison_parts (a0 : Nat) (a1 : Desc) (a2 : Nat) (a3 : Nat) (s : State) :
    (landPoison a0 a1 a2 a3 s).nv = s.nv ∧ (landPoison a0 a1 a2 a3 s).boot = s.boot ∧
      (landPoison a0 a1 a2 a3 s).mem.bytes = s.mem.bytes ∧ (landPoison a0 a1 a2 a3 s).mem.bkey = s.mem.bkey ∧
      (landPoison a0 a1 a2 a3 s).gau = s.gau ∧ (landPoison a0 a1 a2 a3 s).benches = s.benches ∧
      (landPoison a0 a1 a2 a3 s).serve = s.serve ∧ (landPoison a0 a1 a2 a3 s).opr = s.opr ∧
      (landPoison a0 a1 a2 a3 s).vid = s.vid ∧ (landPoison a0 a1 a2 a3 s).red = s.red ∧ (landPoison a0 a1 a2 a3 s).pwr = s.pwr := by
  simp [landPoison, foldN]

@[simp] theorem codecError_parts (a0 : Nat) (a1 : Nat) (s : State) :
    (codecError a0 a1 s).nv = s.nv ∧ (codecError a0 a1 s).boot = s.boot ∧ (codecError a0 a1 s).mem.bytes = s.mem.bytes ∧
      (codecError a0 a1 s).mem.chk = s.mem.chk ∧ (codecError a0 a1 s).mem.bkey = s.mem.bkey ∧ (codecError a0 a1 s).gau = s.gau ∧
      (codecError a0 a1 s).benches = s.benches ∧ (codecError a0 a1 s).serve = s.serve ∧ (codecError a0 a1 s).opr = s.opr ∧
      (codecError a0 a1 s).vid = s.vid ∧ (codecError a0 a1 s).red = s.red ∧ (codecError a0 a1 s).pwr = s.pwr := by
  simp [codecError]

@[simp] theorem codecPart_parts (a0 : Nat) (a1 : Nat) (a2 : Nat) (s : State) :
    (codecPart a0 a1 a2 s).2.boot = s.boot ∧ (codecPart a0 a1 a2 s).2.benches = s.benches ∧
      (codecPart a0 a1 a2 s).2.serve = s.serve ∧ (codecPart a0 a1 a2 s).2.opr = s.opr ∧ (codecPart a0 a1 a2 s).2.vid = s.vid ∧
      (codecPart a0 a1 a2 s).2.red = s.red ∧ (codecPart a0 a1 a2 s).2.pwr = s.pwr := by
  simp only [codecPart]
  (repeat' split) <;> grind [gauge_parts, yardAccess_parts, consumeCount_parts, codecError_parts]

@[simp] theorem doAtomic_parts (a0 : Nat) (a1 : Nat) (a2 : Nat) (a3 : Nat) (s : State) :
    (doAtomic a0 a1 a2 a3 s).2.boot = s.boot ∧ (doAtomic a0 a1 a2 a3 s).2.benches = s.benches ∧
      (doAtomic a0 a1 a2 a3 s).2.serve = s.serve ∧ (doAtomic a0 a1 a2 a3 s).2.opr = s.opr ∧ (doAtomic a0 a1 a2 a3 s).2.vid = s.vid ∧
      (doAtomic a0 a1 a2 a3 s).2.red = s.red ∧ (doAtomic a0 a1 a2 a3 s).2.pwr = s.pwr := by
  simp only [doAtomic]
  (repeat' split) <;> simp

@[simp] theorem modSampling_parts (a0 : Nat) (a1 : Sampling → Sampling) (s : State) :
    (modSampling a0 a1 s).nv = s.nv ∧ (modSampling a0 a1 s).boot = s.boot ∧ (modSampling a0 a1 s).mem = s.mem ∧
      (modSampling a0 a1 s).benches = s.benches ∧ (modSampling a0 a1 s).serve = s.serve ∧ (modSampling a0 a1 s).opr = s.opr ∧
      (modSampling a0 a1 s).vid = s.vid ∧ (modSampling a0 a1 s).red = s.red ∧ (modSampling a0 a1 s).pwr = s.pwr := by
  simp [modSampling]

@[simp] theorem sendMsix_parts (a0 : Nat) (a1 : Nat) (s : State) :
    (sendMsix a0 a1 s).nv = s.nv ∧ (sendMsix a0 a1 s).boot = s.boot ∧ (sendMsix a0 a1 s).mem = s.mem ∧ (sendMsix a0 a1 s).gau = s.gau ∧
      (sendMsix a0 a1 s).benches = s.benches ∧ (sendMsix a0 a1 s).serve = s.serve ∧ (sendMsix a0 a1 s).opr = s.opr ∧
      (sendMsix a0 a1 s).vid = s.vid ∧ (sendMsix a0 a1 s).red = s.red ∧ (sendMsix a0 a1 s).pwr = s.pwr := by
  simp [sendMsix]

@[simp] theorem dropSample_parts (a0 : Nat) (s : State) :
    (dropSample a0 s).nv = s.nv ∧ (dropSample a0 s).boot = s.boot ∧ (dropSample a0 s).mem = s.mem ∧
      (dropSample a0 s).benches = s.benches ∧ (dropSample a0 s).serve = s.serve ∧ (dropSample a0 s).opr = s.opr ∧
      (dropSample a0 s).vid = s.vid ∧ (dropSample a0 s).red = s.red ∧ (dropSample a0 s).pwr = s.pwr := by
  simp [dropSample]

@[simp] theorem putSample_parts (a0 : Nat) (a1 : Nat) (a2 : Bool → List Fld) (s : State) :
    (putSample a0 a1 a2 s).nv = s.nv ∧ (putSample a0 a1 a2 s).boot = s.boot ∧ (putSample a0 a1 a2 s).mem = s.mem ∧
      (putSample a0 a1 a2 s).benches = s.benches ∧ (putSample a0 a1 a2 s).serve = s.serve ∧ (putSample a0 a1 a2 s).opr = s.opr ∧
      (putSample a0 a1 a2 s).vid = s.vid ∧ (putSample a0 a1 a2 s).red = s.red ∧ (putSample a0 a1 a2 s).pwr = s.pwr := by
  simp [putSample]

@[simp] theorem samplePickOp_parts (a0 : Nat) (a1 : Nat) (s : State) :
    (samplePickOp a0 a1 s).2.nv = s.nv ∧ (samplePickOp a0 a1 s).2.boot = s.boot ∧ (samplePickOp a0 a1 s).2.mem = s.mem ∧
      (samplePickOp a0 a1 s).2.benches = s.benches ∧ (samplePickOp a0 a1 s).2.serve = s.serve ∧
      (samplePickOp a0 a1 s).2.opr = s.opr ∧ (samplePickOp a0 a1 s).2.vid = s.vid ∧ (samplePickOp a0 a1 s).2.red = s.red ∧
      (samplePickOp a0 a1 s).2.pwr = s.pwr := by
  simp only [samplePickOp]
  (repeat' split) <;> simp

@[simp] theorem benchLane_parts (a0 : Nat) (a1 : Nat) (a2 : Nat) (s : State) :
    (benchLane a0 a1 a2 s).2.nv = s.nv ∧ (benchLane a0 a1 a2 s).2.boot = s.boot ∧ (benchLane a0 a1 a2 s).2.mem = s.mem ∧
      (benchLane a0 a1 a2 s).2.gau = s.gau ∧ (benchLane a0 a1 a2 s).2.benches = s.benches ∧ (benchLane a0 a1 a2 s).2.serve = s.serve ∧
      (benchLane a0 a1 a2 s).2.opr = s.opr ∧ (benchLane a0 a1 a2 s).2.vid = s.vid ∧ (benchLane a0 a1 a2 s).2.red = s.red ∧
      (benchLane a0 a1 a2 s).2.pwr = s.pwr := by
  simp [benchLane]

@[simp] theorem modFlight_parts (a0 : Nat) (a1 : Nat) (a2 : (InFlight → InFlight)) (s : State) :
    (modFlight a0 a1 a2 s).nv = s.nv ∧ (modFlight a0 a1 a2 s).boot = s.boot ∧ (modFlight a0 a1 a2 s).mem = s.mem ∧
      (modFlight a0 a1 a2 s).gau = s.gau ∧ (modFlight a0 a1 a2 s).benches.links = s.benches.links ∧
      (modFlight a0 a1 a2 s).benches.packets = s.benches.packets ∧ (modFlight a0 a1 a2 s).serve = s.serve ∧
      (modFlight a0 a1 a2 s).opr = s.opr ∧ (modFlight a0 a1 a2 s).vid = s.vid ∧ (modFlight a0 a1 a2 s).red = s.red ∧
      (modFlight a0 a1 a2 s).pwr = s.pwr := by
  simp [modFlight]

@[simp] theorem sendFault_parts (a0 : Nat) (a1 : Nat) (a2 : InFlight) (a3 : Nat) (a4 : List Fld) (s : State) :
    (sendFault a0 a1 a2 a3 a4 s).nv = s.nv ∧ (sendFault a0 a1 a2 a3 a4 s).boot = s.boot ∧
      (sendFault a0 a1 a2 a3 a4 s).mem = s.mem ∧ (sendFault a0 a1 a2 a3 a4 s).gau = s.gau ∧
      (sendFault a0 a1 a2 a3 a4 s).benches.links = s.benches.links ∧
      (sendFault a0 a1 a2 a3 a4 s).benches.packets = s.benches.packets ∧ (sendFault a0 a1 a2 a3 a4 s).serve = s.serve ∧
      (sendFault a0 a1 a2 a3 a4 s).opr = s.opr ∧ (sendFault a0 a1 a2 a3 a4 s).vid = s.vid ∧
      (sendFault a0 a1 a2 a3 a4 s).red = s.red ∧ (sendFault a0 a1 a2 a3 a4 s).pwr = s.pwr := by
  simp [sendFault]

@[simp] theorem poisonRead_parts (a0 : Nat) (a1 : Payload) (s : State) :
    (poisonRead a0 a1 s).nv = s.nv ∧ (poisonRead a0 a1 s).boot = s.boot ∧ (poisonRead a0 a1 s).mem.bytes = s.mem.bytes ∧
      (poisonRead a0 a1 s).mem.bkey = s.mem.bkey ∧ (poisonRead a0 a1 s).gau = s.gau ∧ (poisonRead a0 a1 s).benches = s.benches ∧
      (poisonRead a0 a1 s).serve = s.serve ∧ (poisonRead a0 a1 s).opr = s.opr ∧ (poisonRead a0 a1 s).vid = s.vid ∧
      (poisonRead a0 a1 s).red = s.red ∧ (poisonRead a0 a1 s).pwr = s.pwr := by
  simp only [poisonRead]
  (repeat' split) <;> simp

@[simp] theorem lotFault_parts (a0 : Nat) (a1 : Nat) (a2 : InFlight) (a3 : Payload) (s : State) :
    (lotFault a0 a1 a2 a3 s).nv = s.nv ∧ (lotFault a0 a1 a2 a3 s).boot = s.boot ∧
      (lotFault a0 a1 a2 a3 s).mem.bytes = s.mem.bytes ∧ (lotFault a0 a1 a2 a3 s).mem.bkey = s.mem.bkey ∧
      (lotFault a0 a1 a2 a3 s).gau = s.gau ∧ (lotFault a0 a1 a2 a3 s).benches.links = s.benches.links ∧
      (lotFault a0 a1 a2 a3 s).benches.packets = s.benches.packets ∧ (lotFault a0 a1 a2 a3 s).serve = s.serve ∧
      (lotFault a0 a1 a2 a3 s).opr = s.opr ∧ (lotFault a0 a1 a2 a3 s).vid = s.vid ∧ (lotFault a0 a1 a2 a3 s).red = s.red ∧
      (lotFault a0 a1 a2 a3 s).pwr = s.pwr := by
  simp only [lotFault]
  (repeat' split) <;> simp

@[simp] theorem departMesh_parts (a0 : Nat) (a1 : Nat) (a2 : Payload) (s : State) :
    (departMesh a0 a1 a2 s).nv = s.nv ∧ (departMesh a0 a1 a2 s).boot = s.boot ∧ (departMesh a0 a1 a2 s).mem = s.mem ∧
      (departMesh a0 a1 a2 s).benches.links = s.benches.links ∧ (departMesh a0 a1 a2 s).benches.packets = s.benches.packets ∧
      (departMesh a0 a1 a2 s).serve = s.serve ∧ (departMesh a0 a1 a2 s).opr = s.opr ∧ (departMesh a0 a1 a2 s).vid = s.vid ∧
      (departMesh a0 a1 a2 s).red = s.red ∧ (departMesh a0 a1 a2 s).pwr = s.pwr := by
  simp only [departMesh]
  (repeat' split) <;> simp

@[simp] theorem departRemote_parts (a0 : Nat) (a1 : Nat) (a2 : Nat) (a3 : InFlight) (a4 : Nat) (a5 : Payload) (s : State) :
    (departRemote a0 a1 a2 a3 a4 a5 s).nv = s.nv ∧ (departRemote a0 a1 a2 a3 a4 a5 s).boot = s.boot ∧
      (departRemote a0 a1 a2 a3 a4 a5 s).mem.bytes = s.mem.bytes ∧ (departRemote a0 a1 a2 a3 a4 a5 s).mem.bkey = s.mem.bkey ∧
      (departRemote a0 a1 a2 a3 a4 a5 s).benches.links = s.benches.links ∧
      (departRemote a0 a1 a2 a3 a4 a5 s).benches.packets = s.benches.packets ∧
      (departRemote a0 a1 a2 a3 a4 a5 s).serve = s.serve ∧ (departRemote a0 a1 a2 a3 a4 a5 s).opr = s.opr ∧
      (departRemote a0 a1 a2 a3 a4 a5 s).vid = s.vid ∧ (departRemote a0 a1 a2 a3 a4 a5 s).red = s.red ∧
      (departRemote a0 a1 a2 a3 a4 a5 s).pwr = s.pwr := by
  simp only [departRemote]
  (repeat' split) <;> simp

@[simp] theorem formPackets_parts (a0 : Nat) (s : State) :
    (formPackets a0 s).nv = s.nv ∧ (formPackets a0 s).boot = s.boot ∧ (formPackets a0 s).mem = s.mem ∧
      (formPackets a0 s).benches.links = s.benches.links ∧ (formPackets a0 s).benches.packets = s.benches.packets ∧
      (formPackets a0 s).serve = s.serve ∧ (formPackets a0 s).opr = s.opr ∧ (formPackets a0 s).vid = s.vid ∧
      (formPackets a0 s).red = s.red ∧ (formPackets a0 s).pwr = s.pwr := by
  simp only [formPackets]
  (repeat' split) <;> simp

@[simp] theorem sendNext_parts (a0 : Nat) (a1 : Nat) (s : State) :
    (sendNext a0 a1 s).nv = s.nv ∧ (sendNext a0 a1 s).boot = s.boot ∧ (sendNext a0 a1 s).mem.bytes = s.mem.bytes ∧
      (sendNext a0 a1 s).mem.bkey = s.mem.bkey ∧ (sendNext a0 a1 s).benches.links = s.benches.links ∧
      (sendNext a0 a1 s).benches.packets = s.benches.packets ∧ (sendNext a0 a1 s).serve = s.serve ∧
      (sendNext a0 a1 s).opr = s.opr ∧ (sendNext a0 a1 s).vid = s.vid ∧ (sendNext a0 a1 s).red = s.red ∧
      (sendNext a0 a1 s).pwr = s.pwr := by
  simp only [sendNext]
  (repeat' split) <;> simp

@[simp] theorem streamOn_parts (a0 : Nat) (s : State) :
    (streamOn a0 s).nv = s.nv ∧ (streamOn a0 s).boot = s.boot ∧ (streamOn a0 s).mem.bytes = s.mem.bytes ∧
      (streamOn a0 s).mem.bkey = s.mem.bkey ∧ (streamOn a0 s).benches.links = s.benches.links ∧
      (streamOn a0 s).benches.packets = s.benches.packets ∧ (streamOn a0 s).serve = s.serve ∧ (streamOn a0 s).opr = s.opr ∧
      (streamOn a0 s).vid = s.vid ∧ (streamOn a0 s).red = s.red ∧ (streamOn a0 s).pwr = s.pwr := by
  simp only [streamOn]
  (repeat' split) <;> simp

@[simp] theorem prefetchLine_parts (a0 : Nat) (a1 : Nat) (s : State) :
    (prefetchLine a0 a1 s).boot = s.boot ∧ (prefetchLine a0 a1 s).benches = s.benches ∧ (prefetchLine a0 a1 s).serve = s.serve ∧
      (prefetchLine a0 a1 s).opr = s.opr ∧ (prefetchLine a0 a1 s).vid = s.vid ∧ (prefetchLine a0 a1 s).red = s.red ∧
      (prefetchLine a0 a1 s).pwr = s.pwr := by
  simp only [prefetchLine]
  (repeat' split) <;> simp

@[simp] theorem servePacket_parts (a0 : Payload) (s : State) :
    (servePacket a0 s).2.boot = s.boot ∧ (servePacket a0 s).2.benches = s.benches ∧ (servePacket a0 s).2.opr = s.opr ∧
      (servePacket a0 s).2.vid = s.vid ∧ (servePacket a0 s).2.red = s.red ∧ (servePacket a0 s).2.pwr = s.pwr := by
  simp only [servePacket]
  (repeat' split) <;> simp

@[simp] theorem settleDrains_parts (s : State) :
    (settleDrains s).nv = s.nv ∧ (settleDrains s).boot = s.boot ∧ (settleDrains s).mem = s.mem ∧ (settleDrains s).gau = s.gau ∧
      (settleDrains s).benches.links = s.benches.links ∧ (settleDrains s).benches.packets = s.benches.packets ∧ (settleDrains
      s).serve = s.serve ∧ (settleDrains s).opr = s.opr ∧ (settleDrains s).vid = s.vid ∧ (settleDrains s).red = s.red ∧
      (settleDrains s).pwr = s.pwr := by
  simp [settleDrains]

@[simp] theorem ackOp_parts (a0 : Nat × Nat × Nat) (s : State) :
    (ackOp a0 s).nv = s.nv ∧ (ackOp a0 s).boot = s.boot ∧ (ackOp a0 s).mem = s.mem ∧ (ackOp a0 s).gau = s.gau ∧
      (ackOp a0 s).benches.links = s.benches.links ∧ (ackOp a0 s).benches.packets = s.benches.packets ∧ (ackOp a0 s).serve = s.serve ∧
      (ackOp a0 s).opr = s.opr ∧ (ackOp a0 s).vid = s.vid ∧ (ackOp a0 s).red = s.red ∧ (ackOp a0 s).pwr = s.pwr := by
  simp [ackOp]

@[simp] theorem modWaiting_parts (a0 : Nat × Nat × Nat) (a1 : (InFlight → InFlight)) (s : State) :
    (modWaiting a0 a1 s).nv = s.nv ∧ (modWaiting a0 a1 s).boot = s.boot ∧ (modWaiting a0 a1 s).mem = s.mem ∧
      (modWaiting a0 a1 s).gau = s.gau ∧ (modWaiting a0 a1 s).benches.links = s.benches.links ∧
      (modWaiting a0 a1 s).benches.packets = s.benches.packets ∧ (modWaiting a0 a1 s).serve = s.serve ∧
      (modWaiting a0 a1 s).opr = s.opr ∧ (modWaiting a0 a1 s).vid = s.vid ∧ (modWaiting a0 a1 s).red = s.red ∧
      (modWaiting a0 a1 s).pwr = s.pwr := by
  simp [modWaiting]

@[simp] theorem landList_parts (a0 : Nat × Nat × Nat) (a1 : Option Nat) (a2 : List Byte) (a3 : Nat) (a4 : Nat) (s : State) :
    (landList a0 a1 a2 a3 a4 s).nv = s.nv ∧ (landList a0 a1 a2 a3 a4 s).boot = s.boot ∧
      (landList a0 a1 a2 a3 a4 s).mem = s.mem ∧ (landList a0 a1 a2 a3 a4 s).gau = s.gau ∧
      (landList a0 a1 a2 a3 a4 s).benches.links = s.benches.links ∧
      (landList a0 a1 a2 a3 a4 s).benches.packets = s.benches.packets ∧ (landList a0 a1 a2 a3 a4 s).serve = s.serve ∧
      (landList a0 a1 a2 a3 a4 s).opr = s.opr ∧ (landList a0 a1 a2 a3 a4 s).vid = s.vid ∧
      (landList a0 a1 a2 a3 a4 s).red = s.red ∧ (landList a0 a1 a2 a3 a4 s).pwr = s.pwr := by
  simp only [landList]
  (repeat' split) <;> simp

@[simp] theorem landAnswer_parts (a0 : Payload) (s : State) :
    (landAnswer a0 s).nv = s.nv ∧ (landAnswer a0 s).boot = s.boot ∧ (landAnswer a0 s).mem = s.mem ∧
      (landAnswer a0 s).gau = s.gau ∧ (landAnswer a0 s).benches.links = s.benches.links ∧
      (landAnswer a0 s).benches.packets = s.benches.packets ∧ (landAnswer a0 s).serve = s.serve ∧
      (landAnswer a0 s).opr = s.opr ∧ (landAnswer a0 s).vid = s.vid ∧ (landAnswer a0 s).red = s.red ∧
      (landAnswer a0 s).pwr = s.pwr := by
  simp only [landAnswer]
  (repeat' split) <;> simp

@[simp] theorem arriveEdge_parts (a0 : Payload) (a1 : Nat) (s : State) :
    (arriveEdge a0 a1 s).nv = s.nv ∧ (arriveEdge a0 a1 s).boot = s.boot ∧ (arriveEdge a0 a1 s).mem = s.mem ∧
      (arriveEdge a0 a1 s).gau = s.gau ∧ (arriveEdge a0 a1 s).benches.links = s.benches.links ∧
      (arriveEdge a0 a1 s).benches.packets = s.benches.packets ∧ (arriveEdge a0 a1 s).serve = s.serve ∧
      (arriveEdge a0 a1 s).opr = s.opr ∧ (arriveEdge a0 a1 s).vid = s.vid ∧ (arriveEdge a0 a1 s).red = s.red ∧
      (arriveEdge a0 a1 s).pwr = s.pwr := by
  unfold arriveEdge
  dsimp only
  (repeat' split) <;> first | (simp; done) | (simp_all; done) | grind [ackOp_parts, benchFault_parts, benchLane_parts, sendOp_parts]

@[simp] theorem answerRemote_parts (a0 : Nat) (a1 : Nat) (a2 : Payload) (s : State) :
    (answerRemote a0 a1 a2 s).nv = s.nv ∧ (answerRemote a0 a1 a2 s).boot = s.boot ∧ (answerRemote a0 a1 a2 s).mem = s.mem ∧
      (answerRemote a0 a1 a2 s).gau = s.gau ∧ (answerRemote a0 a1 a2 s).benches.links = s.benches.links ∧
      (answerRemote a0 a1 a2 s).benches.packets = s.benches.packets ∧ (answerRemote a0 a1 a2 s).serve = s.serve ∧
      (answerRemote a0 a1 a2 s).opr = s.opr ∧ (answerRemote a0 a1 a2 s).vid = s.vid ∧ (answerRemote a0 a1 a2 s).red = s.red ∧
      (answerRemote a0 a1 a2 s).pwr = s.pwr := by
  simp [answerRemote]

@[simp] theorem setPartition_parts (a0 : Nat) (a1 : Nat) (s : State) :
    (setPartition a0 a1 s).boot = s.boot ∧ (setPartition a0 a1 s).benches = s.benches ∧ (setPartition a0 a1 s).serve = s.serve ∧
      (setPartition a0 a1 s).opr = s.opr ∧ (setPartition a0 a1 s).vid = s.vid ∧ (setPartition a0 a1 s).red = s.red ∧
      (setPartition a0 a1 s).pwr = s.pwr := by
  simp [setPartition, foldN]

@[simp] theorem inject_parts (a0 : Nat) (a1 : Nat) (a2 : Nat) (s : State) :
    (inject a0 a1 a2 s).nv = s.nv ∧ (inject a0 a1 a2 s).boot = s.boot ∧ (inject a0 a1 a2 s).mem.bkey = s.mem.bkey ∧
      (inject a0 a1 a2 s).gau = s.gau ∧ (inject a0 a1 a2 s).benches = s.benches ∧ (inject a0 a1 a2 s).serve = s.serve ∧
      (inject a0 a1 a2 s).opr = s.opr ∧ (inject a0 a1 a2 s).vid = s.vid ∧ (inject a0 a1 a2 s).red = s.red ∧
      (inject a0 a1 a2 s).pwr = s.pwr := by
  simp [inject]

@[simp] theorem complete_parts (a0 : Completion) (s : State) :
    (complete a0 s).nv = s.nv ∧ (complete a0 s).boot = s.boot ∧ (complete a0 s).mem.bytes = s.mem.bytes ∧
      (complete a0 s).mem.chk = s.mem.chk ∧ (complete a0 s).mem.bkey = s.mem.bkey ∧ (complete a0 s).gau = s.gau ∧
      (complete a0 s).benches = s.benches ∧ (complete a0 s).serve = s.serve ∧ (complete a0 s).opr = s.opr ∧
      (complete a0 s).vid = s.vid ∧ (complete a0 s).red = s.red ∧ (complete a0 s).pwr = s.pwr := by
  simp [complete]

@[simp] theorem logAer_parts (s : State) :
    (logAer s).nv = s.nv ∧ (logAer s).boot = s.boot ∧ (logAer s).mem.bytes = s.mem.bytes ∧ (logAer s).mem.chk = s.mem.chk ∧
      (logAer s).mem.bkey = s.mem.bkey ∧ (logAer s).gau = s.gau ∧ (logAer s).benches = s.benches ∧ (logAer s).serve = s.serve ∧
      (logAer s).opr = s.opr ∧ (logAer s).vid = s.vid ∧ (logAer s).red = s.red ∧ (logAer s).pwr = s.pwr := by
  simp [logAer]

@[simp] theorem scrubWord_parts (a0 : Nat) (a1 : Nat) (s : State) :
    (scrubWord a0 a1 s).boot = s.boot ∧ (scrubWord a0 a1 s).mem.bkey = s.mem.bkey ∧ (scrubWord a0 a1 s).gau = s.gau ∧
      (scrubWord a0 a1 s).benches = s.benches ∧ (scrubWord a0 a1 s).serve = s.serve ∧ (scrubWord a0 a1 s).opr = s.opr ∧
      (scrubWord a0 a1 s).vid = s.vid ∧ (scrubWord a0 a1 s).red = s.red ∧ (scrubWord a0 a1 s).pwr = s.pwr := by
  simp only [scrubWord]
  (repeat' split) <;> simp

@[simp] theorem sramWord_parts (a0 : Nat) (s : State) :
    (sramWord a0 s).nv = s.nv ∧ (sramWord a0 s).boot = s.boot ∧ (sramWord a0 s).mem.bkey = s.mem.bkey ∧ (sramWord a0 s).gau = s.gau ∧
      (sramWord a0 s).benches = s.benches ∧ (sramWord a0 s).serve = s.serve ∧ (sramWord a0 s).opr = s.opr ∧
      (sramWord a0 s).vid = s.vid ∧ (sramWord a0 s).red = s.red ∧ (sramWord a0 s).pwr = s.pwr := by
  simp only [sramWord]
  (repeat' split) <;> simp [changeCopy] <;> (repeat' split) <;> simp

@[simp] theorem releaseBlock_parts (a0 : Nat) (s : State) :
    (releaseBlock a0 s).nv = s.nv ∧ (releaseBlock a0 s).boot = s.boot ∧ (releaseBlock a0 s).mem = s.mem ∧
      (releaseBlock a0 s).gau = s.gau ∧ (releaseBlock a0 s).benches.links = s.benches.links ∧
      (releaseBlock a0 s).benches.packets = s.benches.packets ∧ (releaseBlock a0 s).serve = s.serve ∧ (releaseBlock a0 s).opr = s.opr ∧
      (releaseBlock a0 s).vid = s.vid ∧ (releaseBlock a0 s).red = s.red ∧ (releaseBlock a0 s).pwr = s.pwr := by
  simp [releaseBlock]

@[simp] theorem clearBlock_parts (a0 : Nat) (s : State) :
    (clearBlock a0 s).nv = s.nv ∧ (clearBlock a0 s).boot = s.boot ∧ (clearBlock a0 s).gau = s.gau ∧
      (clearBlock a0 s).benches.links = s.benches.links ∧ (clearBlock a0 s).benches.packets = s.benches.packets ∧
      (clearBlock a0 s).serve = s.serve ∧ (clearBlock a0 s).opr = s.opr ∧ (clearBlock a0 s).vid = s.vid ∧
      (clearBlock a0 s).red = s.red ∧ (clearBlock a0 s).pwr = s.pwr := by
  simp [clearBlock]

@[simp] theorem modBenchFor_parts (a0 : Nat) (a1 : Nat) (a2 : BenchSt → BenchSt) (s : State) :
    (modBenchFor a0 a1 a2 s).nv = s.nv ∧ (modBenchFor a0 a1 a2 s).boot = s.boot ∧ (modBenchFor a0 a1 a2 s).mem = s.mem ∧
      (modBenchFor a0 a1 a2 s).gau = s.gau ∧ (modBenchFor a0 a1 a2 s).benches.links = s.benches.links ∧
      (modBenchFor a0 a1 a2 s).benches.packets = s.benches.packets ∧ (modBenchFor a0 a1 a2 s).serve = s.serve ∧
      (modBenchFor a0 a1 a2 s).opr = s.opr ∧ (modBenchFor a0 a1 a2 s).vid = s.vid ∧ (modBenchFor a0 a1 a2 s).red = s.red ∧
      (modBenchFor a0 a1 a2 s).pwr = s.pwr := by
  simp [modBenchFor]

@[simp] theorem sendJig_parts (a0 : Nat) (a1 : List Nat) (a2 : Jig) (s : State) :
    (sendJig a0 a1 a2 s).nv = s.nv ∧ (sendJig a0 a1 a2 s).boot = s.boot ∧ (sendJig a0 a1 a2 s).mem = s.mem ∧
      (sendJig a0 a1 a2 s).gau = s.gau ∧ (sendJig a0 a1 a2 s).benches.links = s.benches.links ∧
      (sendJig a0 a1 a2 s).benches.packets = s.benches.packets ∧ (sendJig a0 a1 a2 s).serve = s.serve ∧
      (sendJig a0 a1 a2 s).opr = s.opr ∧ (sendJig a0 a1 a2 s).vid = s.vid ∧ (sendJig a0 a1 a2 s).red = s.red ∧
      (sendJig a0 a1 a2 s).pwr = s.pwr := by
  simp [sendJig, foldN]

@[simp] theorem acceptLoad_parts (a0 : Nat) (a1 : Nat) (a2 : Nat) (a3 : Jig) (a4 : JigRefusal) (s : State) :
    (acceptLoad a0 a1 a2 a3 a4 s).s.nv = s.nv ∧ (acceptLoad a0 a1 a2 a3 a4 s).s.boot = s.boot ∧
      (acceptLoad a0 a1 a2 a3 a4 s).s.mem = s.mem ∧ (acceptLoad a0 a1 a2 a3 a4 s).s.gau = s.gau ∧
      (acceptLoad a0 a1 a2 a3 a4 s).s.benches.links = s.benches.links ∧
      (acceptLoad a0 a1 a2 a3 a4 s).s.benches.packets = s.benches.packets ∧ (acceptLoad a0 a1 a2 a3 a4 s).s.serve = s.serve ∧
      (acceptLoad a0 a1 a2 a3 a4 s).s.opr = s.opr ∧ (acceptLoad a0 a1 a2 a3 a4 s).s.vid = s.vid ∧
      (acceptLoad a0 a1 a2 a3 a4 s).s.red = s.red ∧ (acceptLoad a0 a1 a2 a3 a4 s).s.pwr = s.pwr := by
  simp [acceptLoad]

@[simp] theorem queueRun_parts (a0 : Nat) (a1 : Nat) (a2 : List Nat) (a3 : List Nat) (s : State) :
    (queueRun a0 a1 a2 a3 s).2.nv = s.nv ∧ (queueRun a0 a1 a2 a3 s).2.boot = s.boot ∧ (queueRun a0 a1 a2 a3 s).2.mem = s.mem ∧
      (queueRun a0 a1 a2 a3 s).2.gau = s.gau ∧ (queueRun a0 a1 a2 a3 s).2.benches.links = s.benches.links ∧
      (queueRun a0 a1 a2 a3 s).2.benches.packets = s.benches.packets ∧ (queueRun a0 a1 a2 a3 s).2.serve = s.serve ∧
      (queueRun a0 a1 a2 a3 s).2.opr = s.opr ∧ (queueRun a0 a1 a2 a3 s).2.vid = s.vid ∧ (queueRun a0 a1 a2 a3 s).2.red = s.red ∧
      (queueRun a0 a1 a2 a3 s).2.pwr = s.pwr := by
  simp [queueRun]

@[simp] theorem startRun_parts (a0 : Nat) (s : State) :
    (startRun a0 s).nv = s.nv ∧ (startRun a0 s).boot = s.boot ∧ (startRun a0 s).mem = s.mem ∧ (startRun a0 s).gau = s.gau ∧
      (startRun a0 s).benches.links = s.benches.links ∧ (startRun a0 s).benches.packets = s.benches.packets ∧
      (startRun a0 s).serve = s.serve ∧ (startRun a0 s).opr = s.opr ∧ (startRun a0 s).vid = s.vid ∧ (startRun a0 s).red = s.red ∧
      (startRun a0 s).pwr = s.pwr := by
  simp only [startRun]
  (repeat' split) <;> simp

@[simp] theorem passEvents_parts (a0 : Nat) (a1 : Nat) (s : State) :
    (passEvents a0 a1 s).nv = s.nv ∧ (passEvents a0 a1 s).boot = s.boot ∧ (passEvents a0 a1 s).mem = s.mem ∧
      (passEvents a0 a1 s).benches.links = s.benches.links ∧ (passEvents a0 a1 s).benches.packets = s.benches.packets ∧
      (passEvents a0 a1 s).serve = s.serve ∧ (passEvents a0 a1 s).opr = s.opr ∧ (passEvents a0 a1 s).vid = s.vid ∧
      (passEvents a0 a1 s).red = s.red ∧ (passEvents a0 a1 s).pwr = s.pwr := by
  simp [passEvents]

@[simp] theorem countOp_parts (a0 : Nat) (a1 : Op) (s : State) :
    (countOp a0 a1 s).nv = s.nv ∧ (countOp a0 a1 s).boot = s.boot ∧ (countOp a0 a1 s).mem = s.mem ∧
      (countOp a0 a1 s).benches = s.benches ∧ (countOp a0 a1 s).serve = s.serve ∧ (countOp a0 a1 s).opr = s.opr ∧
      (countOp a0 a1 s).vid = s.vid ∧ (countOp a0 a1 s).red = s.red ∧ (countOp a0 a1 s).pwr = s.pwr := by
  simp [countOp]

@[simp] theorem issueOp_parts (a0 : Nat) (a1 : Nat) (a2 : Jig) (a3 : BenchRun) (a4 : Nat) (a5 : Op) (s : State) :
    (issueOp a0 a1 a2 a3 a4 a5 s).nv = s.nv ∧ (issueOp a0 a1 a2 a3 a4 a5 s).boot = s.boot ∧
      (issueOp a0 a1 a2 a3 a4 a5 s).mem.bytes = s.mem.bytes ∧ (issueOp a0 a1 a2 a3 a4 a5 s).mem.bkey = s.mem.bkey ∧
      (issueOp a0 a1 a2 a3 a4 a5 s).benches.links = s.benches.links ∧
      (issueOp a0 a1 a2 a3 a4 a5 s).benches.packets = s.benches.packets ∧ (issueOp a0 a1 a2 a3 a4 a5 s).serve = s.serve ∧
      (issueOp a0 a1 a2 a3 a4 a5 s).opr = s.opr ∧ (issueOp a0 a1 a2 a3 a4 a5 s).vid = s.vid ∧
      (issueOp a0 a1 a2 a3 a4 a5 s).red = s.red ∧ (issueOp a0 a1 a2 a3 a4 a5 s).pwr = s.pwr := by
  simp only [issueOp]
  (repeat' split) <;> simp

@[simp] theorem stallEvents_parts (a0 : Nat) (a1 : Nat) (a2 : Jig) (a3 : Op) (a4 : Option Stall) (a5 : Nat) (s : State) :
    (stallEvents a0 a1 a2 a3 a4 a5 s).nv = s.nv ∧ (stallEvents a0 a1 a2 a3 a4 a5 s).boot = s.boot ∧
      (stallEvents a0 a1 a2 a3 a4 a5 s).mem = s.mem ∧ (stallEvents a0 a1 a2 a3 a4 a5 s).benches.links = s.benches.links ∧
      (stallEvents a0 a1 a2 a3 a4 a5 s).benches.packets = s.benches.packets ∧
      (stallEvents a0 a1 a2 a3 a4 a5 s).serve = s.serve ∧ (stallEvents a0 a1 a2 a3 a4 a5 s).opr = s.opr ∧
      (stallEvents a0 a1 a2 a3 a4 a5 s).vid = s.vid ∧ (stallEvents a0 a1 a2 a3 a4 a5 s).red = s.red ∧
      (stallEvents a0 a1 a2 a3 a4 a5 s).pwr = s.pwr := by
  simp only [stallEvents]
  (repeat' split) <;> simp

@[simp] theorem attribute__parts (a0 : Nat) (a1 : Option Nat) (a2 : List BankUser) (a3 : Nat) (s : State) :
    (attribute_ a0 a1 a2 a3 s).nv = s.nv ∧ (attribute_ a0 a1 a2 a3 s).boot = s.boot ∧ (attribute_ a0 a1 a2 a3 s).mem = s.mem ∧
      (attribute_ a0 a1 a2 a3 s).benches.links = s.benches.links ∧
      (attribute_ a0 a1 a2 a3 s).benches.packets = s.benches.packets ∧ (attribute_ a0 a1 a2 a3 s).serve = s.serve ∧
      (attribute_ a0 a1 a2 a3 s).opr = s.opr ∧ (attribute_ a0 a1 a2 a3 s).vid = s.vid ∧ (attribute_ a0 a1 a2 a3 s).red = s.red ∧
      (attribute_ a0 a1 a2 a3 s).pwr = s.pwr := by
  unfold attribute_
  refine ⟨foldl_part (·.nv) (fun s a => ?_) _ _, foldl_part (·.boot) (fun s a => ?_) _ _, foldl_part (·.mem) (fun s a => ?_) _ _, foldl_part (·.benches.links) (fun s a => ?_) _ _, foldl_part (·.benches.packets) (fun s a => ?_) _ _, foldl_part (·.serve) (fun s a => ?_) _ _, foldl_part (·.opr) (fun s a => ?_) _ _, foldl_part (·.vid) (fun s a => ?_) _ _, foldl_part (·.red) (fun s a => ?_) _ _, foldl_part (·.pwr) (fun s a => ?_) _ _⟩ <;> (repeat' split) <;> simp

@[simp] theorem benchEvents_parts (a0 : Nat) (a1 : Option Nat) (a2 : List BankUser) (a3 : Nat) (s : State) :
    (benchEvents a0 a1 a2 a3 s).nv = s.nv ∧ (benchEvents a0 a1 a2 a3 s).boot = s.boot ∧
      (benchEvents a0 a1 a2 a3 s).mem = s.mem ∧ (benchEvents a0 a1 a2 a3 s).benches.links = s.benches.links ∧
      (benchEvents a0 a1 a2 a3 s).benches.packets = s.benches.packets ∧ (benchEvents a0 a1 a2 a3 s).serve = s.serve ∧
      (benchEvents a0 a1 a2 a3 s).opr = s.opr ∧ (benchEvents a0 a1 a2 a3 s).vid = s.vid ∧
      (benchEvents a0 a1 a2 a3 s).red = s.red ∧ (benchEvents a0 a1 a2 a3 s).pwr = s.pwr := by
  simp [benchEvents]

@[simp] theorem waitBanks_parts (a0 : Nat) (a1 : Nat) (a2 : Jig) (a3 : BenchRun) (a4 : Op) (a5 : Option Stall) (s : State) :
    (waitBanks a0 a1 a2 a3 a4 a5 s).nv = s.nv ∧ (waitBanks a0 a1 a2 a3 a4 a5 s).boot = s.boot ∧
      (waitBanks a0 a1 a2 a3 a4 a5 s).mem = s.mem ∧ (waitBanks a0 a1 a2 a3 a4 a5 s).gau = s.gau ∧
      (waitBanks a0 a1 a2 a3 a4 a5 s).benches.links = s.benches.links ∧
      (waitBanks a0 a1 a2 a3 a4 a5 s).benches.packets = s.benches.packets ∧ (waitBanks a0 a1 a2 a3 a4 a5 s).serve = s.serve ∧
      (waitBanks a0 a1 a2 a3 a4 a5 s).opr = s.opr ∧ (waitBanks a0 a1 a2 a3 a4 a5 s).vid = s.vid ∧
      (waitBanks a0 a1 a2 a3 a4 a5 s).red = s.red ∧ (waitBanks a0 a1 a2 a3 a4 a5 s).pwr = s.pwr := by
  simp [waitBanks]

@[simp] theorem opEffect_parts (a0 : Nat) (a1 : Jig) (a2 : InFlight) (s : State) :
    (opEffect a0 a1 a2 s).2.boot = s.boot ∧ (opEffect a0 a1 a2 s).2.benches.links = s.benches.links ∧
      (opEffect a0 a1 a2 s).2.benches.packets = s.benches.packets ∧ (opEffect a0 a1 a2 s).2.serve = s.serve ∧
      (opEffect a0 a1 a2 s).2.opr = s.opr ∧ (opEffect a0 a1 a2 s).2.vid = s.vid ∧ (opEffect a0 a1 a2 s).2.red = s.red ∧
      (opEffect a0 a1 a2 s).2.pwr = s.pwr := by
  simp only [opEffect]
  (repeat' split) <;> simp

@[simp] theorem completeOp_parts (a0 : Nat) (a1 : Jig) (a2 : BenchRun) (a3 : InFlight) (a4 : List InFlight) (s : State) :
    (completeOp a0 a1 a2 a3 a4 s).boot = s.boot ∧ (completeOp a0 a1 a2 a3 a4 s).benches.links = s.benches.links ∧ (completeOp a0
      a1 a2 a3 a4 s).benches.packets = s.benches.packets ∧ (completeOp a0 a1 a2 a3 a4 s).serve = s.serve ∧ (completeOp a0 a1 a2
      a3 a4 s).opr = s.opr ∧ (completeOp a0 a1 a2 a3 a4 s).vid = s.vid ∧ (completeOp a0 a1 a2 a3 a4 s).red = s.red ∧ (completeOp
      a0 a1 a2 a3 a4 s).pwr = s.pwr := by
  simp only [completeOp]
  (repeat' split) <;> simp

@[simp] theorem endRun_parts (a0 : Nat) (s : State) :
    (endRun a0 s).nv = s.nv ∧ (endRun a0 s).boot = s.boot ∧ (endRun a0 s).mem = s.mem ∧ (endRun a0 s).benches.links = s.benches.links ∧
      (endRun a0 s).benches.packets = s.benches.packets ∧ (endRun a0 s).serve = s.serve ∧ (endRun a0 s).opr = s.opr ∧
      (endRun a0 s).vid = s.vid ∧ (endRun a0 s).red = s.red ∧ (endRun a0 s).pwr = s.pwr := by
  simp only [endRun]
  (repeat' split) <;> simp

@[simp] theorem arriveBench_parts (a0 : Nat) (a1 : Packet) (s : State) :
    (arriveBench a0 a1 s).boot = s.boot ∧ (arriveBench a0 a1 s).benches.links = s.benches.links ∧
      (arriveBench a0 a1 s).benches.packets = s.benches.packets ∧ (arriveBench a0 a1 s).opr = s.opr ∧
      (arriveBench a0 a1 s).vid = s.vid ∧ (arriveBench a0 a1 s).red = s.red ∧ (arriveBench a0 a1 s).pwr = s.pwr := by
  simp only [arriveBench]
  (repeat' split) <;> simp

@[simp] theorem arriveYard_parts (a0 : Nat) (a1 : Packet) (s : State) :
    (arriveYard a0 a1 s).boot = s.boot ∧ (arriveYard a0 a1 s).benches.links = s.benches.links ∧
      (arriveYard a0 a1 s).benches.packets = s.benches.packets ∧ (arriveYard a0 a1 s).opr = s.opr ∧
      (arriveYard a0 a1 s).vid = s.vid ∧ (arriveYard a0 a1 s).red = s.red ∧ (arriveYard a0 a1 s).pwr = s.pwr := by
  simp only [arriveYard]
  (repeat' split) <;> simp

@[simp] theorem moveOn_parts (a0 : Nat) (a1 : MeshClass) (a2 : Packet) (a3 : List Packet) (s : State) :
    (moveOn a0 a1 a2 a3 s).nv = s.nv ∧ (moveOn a0 a1 a2 a3 s).boot = s.boot ∧ (moveOn a0 a1 a2 a3 s).mem.bytes = s.mem.bytes ∧
      (moveOn a0 a1 a2 a3 s).mem.bkey = s.mem.bkey ∧ (moveOn a0 a1 a2 a3 s).serve = s.serve ∧
      (moveOn a0 a1 a2 a3 s).opr = s.opr ∧ (moveOn a0 a1 a2 a3 s).vid = s.vid ∧ (moveOn a0 a1 a2 a3 s).red = s.red ∧
      (moveOn a0 a1 a2 a3 s).pwr = s.pwr := by
  simp only [moveOn]
  (repeat' split) <;> simp

@[simp] theorem countToken_parts (a0 : Nat) (a1 : Nat) (s : State) :
    (countToken a0 a1 s).nv = s.nv ∧ (countToken a0 a1 s).boot = s.boot ∧ (countToken a0 a1 s).mem = s.mem ∧
      (countToken a0 a1 s).gau = s.gau ∧ (countToken a0 a1 s).benches.links = s.benches.links ∧
      (countToken a0 a1 s).benches.packets = s.benches.packets ∧ (countToken a0 a1 s).serve = s.serve ∧
      (countToken a0 a1 s).opr = s.opr ∧ (countToken a0 a1 s).vid = s.vid ∧ (countToken a0 a1 s).red = s.red ∧
      (countToken a0 a1 s).pwr = s.pwr := by
  simp [countToken]

@[simp] theorem landInbound_parts (a0 : Nat) (a1 : Payload) (s : State) :
    (landInbound a0 a1 s).boot = s.boot ∧ (landInbound a0 a1 s).benches.links = s.benches.links ∧
      (landInbound a0 a1 s).benches.packets = s.benches.packets ∧ (landInbound a0 a1 s).serve = s.serve ∧
      (landInbound a0 a1 s).opr = s.opr ∧ (landInbound a0 a1 s).vid = s.vid ∧ (landInbound a0 a1 s).red = s.red ∧
      (landInbound a0 a1 s).pwr = s.pwr := by
  simp [landInbound]

@[simp] theorem takeBanks_parts (a0 : Nat) (a1 : Payload) (s : State) :
    (takeBanks a0 a1 s).nv = s.nv ∧ (takeBanks a0 a1 s).boot = s.boot ∧ (takeBanks a0 a1 s).mem = s.mem ∧
      (takeBanks a0 a1 s).gau = s.gau ∧ (takeBanks a0 a1 s).benches.links = s.benches.links ∧
      (takeBanks a0 a1 s).benches.packets = s.benches.packets ∧ (takeBanks a0 a1 s).serve = s.serve ∧
      (takeBanks a0 a1 s).opr = s.opr ∧ (takeBanks a0 a1 s).vid = s.vid ∧ (takeBanks a0 a1 s).red = s.red ∧
      (takeBanks a0 a1 s).pwr = s.pwr := by
  simp [takeBanks]

@[simp] theorem countJigLine_parts (a0 : Nat) (a1 : LineOutcome) (s : State) :
    (countJigLine a0 a1 s).nv = s.nv ∧ (countJigLine a0 a1 s).boot = s.boot ∧ (countJigLine a0 a1 s).mem.bytes = s.mem.bytes ∧
      (countJigLine a0 a1 s).mem.chk = s.mem.chk ∧ (countJigLine a0 a1 s).mem.bkey = s.mem.bkey ∧
      (countJigLine a0 a1 s).gau = s.gau ∧ (countJigLine a0 a1 s).benches = s.benches ∧ (countJigLine a0 a1 s).serve = s.serve ∧
      (countJigLine a0 a1 s).opr = s.opr ∧ (countJigLine a0 a1 s).vid = s.vid ∧ (countJigLine a0 a1 s).red = s.red ∧
      (countJigLine a0 a1 s).pwr = s.pwr := by
  simp only [countJigLine]
  (repeat' split) <;> simp

@[simp] theorem modPace_parts (a0 : PaceSt → PaceSt) (s : State) :
    (modPace a0 s).nv = s.nv ∧ (modPace a0 s).boot = s.boot ∧ (modPace a0 s).mem = s.mem ∧ (modPace a0 s).gau = s.gau ∧
      (modPace a0 s).benches = s.benches ∧ (modPace a0 s).serve = s.serve ∧ (modPace a0 s).opr = s.opr ∧ (modPace a0 s).vid = s.vid ∧
      (modPace a0 s).red = s.red := by
  simp [modPace]

@[simp] theorem modInput_parts (a0 : InputSt → InputSt) (s : State) :
    (modInput a0 s).nv = s.nv ∧ (modInput a0 s).boot = s.boot ∧ (modInput a0 s).mem = s.mem ∧ (modInput a0 s).gau = s.gau ∧
      (modInput a0 s).benches = s.benches ∧ (modInput a0 s).serve = s.serve ∧ (modInput a0 s).opr = s.opr ∧
      (modInput a0 s).vid = s.vid ∧ (modInput a0 s).red = s.red := by
  simp [modInput]

@[simp] theorem modCool_parts (a0 : CoolSt → CoolSt) (s : State) :
    (modCool a0 s).nv = s.nv ∧ (modCool a0 s).boot = s.boot ∧ (modCool a0 s).mem = s.mem ∧ (modCool a0 s).gau = s.gau ∧
      (modCool a0 s).benches = s.benches ∧ (modCool a0 s).serve = s.serve ∧ (modCool a0 s).opr = s.opr ∧ (modCool a0 s).vid = s.vid ∧
      (modCool a0 s).red = s.red := by
  simp [modCool]

@[simp] theorem modHeat_parts (a0 : Nat) (a1 : BlockHeat → BlockHeat) (s : State) :
    (modHeat a0 a1 s).nv = s.nv ∧ (modHeat a0 a1 s).boot = s.boot ∧ (modHeat a0 a1 s).mem = s.mem ∧ (modHeat a0 a1 s).gau = s.gau ∧
      (modHeat a0 a1 s).benches = s.benches ∧ (modHeat a0 a1 s).serve = s.serve ∧ (modHeat a0 a1 s).opr = s.opr ∧
      (modHeat a0 a1 s).vid = s.vid ∧ (modHeat a0 a1 s).red = s.red := by
  simp [modHeat]

@[simp] theorem setTarget_parts (a0 : Nat) (s : State) :
    (setTarget a0 s).nv = s.nv ∧ (setTarget a0 s).boot = s.boot ∧ (setTarget a0 s).mem = s.mem ∧ (setTarget a0 s).gau = s.gau ∧
      (setTarget a0 s).benches = s.benches ∧ (setTarget a0 s).serve = s.serve ∧ (setTarget a0 s).opr = s.opr ∧
      (setTarget a0 s).vid = s.vid ∧ (setTarget a0 s).red = s.red := by
  simp [setTarget]

@[simp] theorem setLimit_parts (a0 : Rat × Nat) (s : State) :
    (setLimit a0 s).nv = s.nv ∧ (setLimit a0 s).boot = s.boot ∧ (setLimit a0 s).mem = s.mem ∧ (setLimit a0 s).gau = s.gau ∧
      (setLimit a0 s).benches = s.benches ∧ (setLimit a0 s).serve = s.serve ∧ (setLimit a0 s).opr = s.opr ∧
      (setLimit a0 s).vid = s.vid ∧ (setLimit a0 s).red = s.red := by
  simp [setLimit]

@[simp] theorem lowerLimit_parts (s : State) :
    (lowerLimit s).nv = s.nv ∧ (lowerLimit s).boot = s.boot ∧ (lowerLimit s).mem = s.mem ∧ (lowerLimit s).gau = s.gau ∧
      (lowerLimit s).benches = s.benches ∧ (lowerLimit s).serve = s.serve ∧ (lowerLimit s).opr = s.opr ∧ (lowerLimit s).vid = s.vid ∧
      (lowerLimit s).red = s.red := by
  simp [lowerLimit]

@[simp] theorem lowerCap_parts (s : State) :
    (lowerCap s).nv = s.nv ∧ (lowerCap s).boot = s.boot ∧ (lowerCap s).mem = s.mem ∧ (lowerCap s).gau = s.gau ∧ (lowerCap
      s).benches = s.benches ∧ (lowerCap s).serve = s.serve ∧ (lowerCap s).opr = s.opr ∧ (lowerCap s).vid = s.vid ∧ (lowerCap
      s).red = s.red := by
  simp [lowerCap]

@[simp] theorem renewLimit_parts (s : State) :
    (renewLimit s).nv = s.nv ∧ (renewLimit s).boot = s.boot ∧ (renewLimit s).mem = s.mem ∧ (renewLimit s).gau = s.gau ∧
      (renewLimit s).benches = s.benches ∧ (renewLimit s).serve = s.serve ∧ (renewLimit s).opr = s.opr ∧ (renewLimit s).vid = s.vid ∧
      (renewLimit s).red = s.red := by
  simp [renewLimit]

@[simp] theorem applyBlock_parts (a0 : Nat) (s : State) :
    (applyBlock a0 s).nv = s.nv ∧ (applyBlock a0 s).boot = s.boot ∧ (applyBlock a0 s).mem = s.mem ∧ (applyBlock a0 s).gau = s.gau ∧
      (applyBlock a0 s).benches.links = s.benches.links ∧ (applyBlock a0 s).benches.packets = s.benches.packets ∧
      (applyBlock a0 s).serve = s.serve ∧ (applyBlock a0 s).opr = s.opr ∧ (applyBlock a0 s).vid = s.vid ∧
      (applyBlock a0 s).red = s.red ∧ (applyBlock a0 s).pwr = s.pwr := by
  simp [applyBlock]

@[simp] theorem softOpen_parts (a0 : Bool) (a1 : Nat) (s : State) :
    (softOpen a0 a1 s).nv = s.nv ∧ (softOpen a0 a1 s).boot = s.boot ∧ (softOpen a0 a1 s).mem = s.mem ∧
      (softOpen a0 a1 s).gau = s.gau ∧ (softOpen a0 a1 s).benches.links = s.benches.links ∧
      (softOpen a0 a1 s).benches.packets = s.benches.packets ∧ (softOpen a0 a1 s).serve = s.serve ∧
      (softOpen a0 a1 s).opr = s.opr ∧ (softOpen a0 a1 s).vid = s.vid ∧ (softOpen a0 a1 s).red = s.red ∧
      (softOpen a0 a1 s).pwr = s.pwr := by
  simp [softOpen]

@[simp] theorem applyBlocks_parts (s : State) :
    (applyBlocks s).nv = s.nv ∧ (applyBlocks s).boot = s.boot ∧ (applyBlocks s).mem = s.mem ∧ (applyBlocks s).gau = s.gau ∧
      (applyBlocks s).benches.links = s.benches.links ∧ (applyBlocks s).benches.packets = s.benches.packets ∧
      (applyBlocks s).serve = s.serve ∧ (applyBlocks s).opr = s.opr ∧ (applyBlocks s).vid = s.vid ∧ (applyBlocks s).red = s.red ∧
      (applyBlocks s).pwr = s.pwr := by
  simp [applyBlocks, foldN]

@[simp] theorem pauseVideo_parts (s : State) :
    (pauseVideo s).nv = s.nv ∧ (pauseVideo s).boot = s.boot ∧ (pauseVideo s).mem = s.mem ∧ (pauseVideo s).gau = s.gau ∧
      (pauseVideo s).benches = s.benches ∧ (pauseVideo s).serve = s.serve ∧ (pauseVideo s).opr = s.opr ∧ (pauseVideo s).red = s.red ∧
      (pauseVideo s).pwr = s.pwr := by
  simp [pauseVideo]

@[simp] theorem sendReport_parts (s : State) :
    (sendReport s).nv = s.nv ∧ (sendReport s).boot = s.boot ∧ (sendReport s).mem = s.mem ∧ (sendReport s).gau = s.gau ∧
      (sendReport s).benches = s.benches ∧ (sendReport s).serve = s.serve ∧ (sendReport s).opr = s.opr ∧ (sendReport s).vid = s.vid ∧
      (sendReport s).red = s.red ∧ (sendReport s).pwr = s.pwr := by
  simp only [sendReport]
  (repeat' split) <;> simp

theorem reporting_gen {β : Type} (g : State → β) (h1 : ∀ s, g (sendReport s) = g s) (f : State → State) (s : State)
    (hb : ∀ s, g (f s) = g s) : g (reporting f s) = g s := by
  unfold reporting
  dsimp only
  split
  · exact hb s
  · rw [h1, hb]

@[simp] theorem reporting_nv {f : State → State} {s : State} (hb : ∀ s, (f s).nv = s.nv) : (reporting f s).nv = s.nv :=
  reporting_gen (·.nv) (by simp) f s hb

@[simp] theorem reporting_boot {f : State → State} {s : State} (hb : ∀ s, (f s).boot = s.boot) : (reporting f s).boot = s.boot :=
  reporting_gen (·.boot) (by simp) f s hb

@[simp] theorem reporting_mem {f : State → State} {s : State} (hb : ∀ s, (f s).mem = s.mem) : (reporting f s).mem = s.mem :=
  reporting_gen (·.mem) (by simp) f s hb

@[simp] theorem reporting_gau {f : State → State} {s : State} (hb : ∀ s, (f s).gau = s.gau) : (reporting f s).gau = s.gau :=
  reporting_gen (·.gau) (by simp) f s hb

@[simp] theorem reporting_benches {f : State → State} {s : State} (hb : ∀ s, (f s).benches = s.benches) : (reporting f s).benches = s.benches :=
  reporting_gen (·.benches) (by simp) f s hb

@[simp] theorem reporting_serve {f : State → State} {s : State} (hb : ∀ s, (f s).serve = s.serve) : (reporting f s).serve = s.serve :=
  reporting_gen (·.serve) (by simp) f s hb

@[simp] theorem reporting_opr {f : State → State} {s : State} (hb : ∀ s, (f s).opr = s.opr) : (reporting f s).opr = s.opr :=
  reporting_gen (·.opr) (by simp) f s hb

@[simp] theorem reporting_vid {f : State → State} {s : State} (hb : ∀ s, (f s).vid = s.vid) : (reporting f s).vid = s.vid :=
  reporting_gen (·.vid) (by simp) f s hb

@[simp] theorem reporting_red {f : State → State} {s : State} (hb : ∀ s, (f s).red = s.red) : (reporting f s).red = s.red :=
  reporting_gen (·.red) (by simp) f s hb

@[simp] theorem reporting_pwr {f : State → State} {s : State} (hb : ∀ s, (f s).pwr = s.pwr) : (reporting f s).pwr = s.pwr :=
  reporting_gen (·.pwr) (by simp) f s hb

end Sys2Proof.Machine
end

