-- ==== Sys2Proof/Laws/PartsC.lean ====
section
/-! SUPPORT. For each shared operation of the machine, the parts of the state it leaves as they were
(`<operation>_parts`; callees stand before their callers). -/
namespace Sys2Proof.Machine

@[simp] theorem modPaceGroup_parts (a0 : GroupPace → GroupPace) (s : State) :
    (modPaceGroup a0 s).nv = s.nv ∧ (modPaceGroup a0 s).boot = s.boot ∧ (modPaceGroup a0 s).mem = s.mem ∧
      (modPaceGroup a0 s).gau = s.gau ∧ (modPaceGroup a0 s).benches = s.benches ∧ (modPaceGroup a0 s).serve = s.serve ∧
      (modPaceGroup a0 s).opr = s.opr ∧ (modPaceGroup a0 s).vid = s.vid ∧ (modPaceGroup a0 s).red = s.red := by
  simp [modPaceGroup]

@[simp] theorem lagBehind_parts (s : State) :
    (lagBehind s).nv = s.nv ∧ (lagBehind s).boot = s.boot ∧ (lagBehind s).mem = s.mem ∧ (lagBehind s).gau = s.gau ∧
      (lagBehind s).benches = s.benches ∧ (lagBehind s).serve = s.serve ∧ (lagBehind s).opr = s.opr ∧ (lagBehind s).vid = s.vid ∧
      (lagBehind s).red = s.red := by
  simp only [lagBehind, foldS]
  (repeat' split) <;> simp

@[simp] theorem modRed_parts (a0 : Nat) (a1 : RedCtx → RedCtx) (s : State) :
    (modRed a0 a1 s).nv = s.nv ∧ (modRed a0 a1 s).boot = s.boot ∧ (modRed a0 a1 s).mem = s.mem ∧ (modRed a0 a1 s).gau = s.gau ∧
      (modRed a0 a1 s).benches = s.benches ∧ (modRed a0 a1 s).serve = s.serve ∧ (modRed a0 a1 s).opr = s.opr ∧
      (modRed a0 a1 s).vid = s.vid ∧ (modRed a0 a1 s).pwr = s.pwr := by
  simp [modRed]

@[simp] theorem modRing_parts (a0 : Nat) (a1 : Nat) (a2 : Ring → Ring) (s : State) :
    (modRing a0 a1 a2 s).nv = s.nv ∧ (modRing a0 a1 a2 s).boot = s.boot ∧ (modRing a0 a1 a2 s).mem = s.mem ∧
      (modRing a0 a1 a2 s).gau = s.gau ∧ (modRing a0 a1 a2 s).benches = s.benches ∧ (modRing a0 a1 a2 s).opr = s.opr ∧
      (modRing a0 a1 a2 s).vid = s.vid ∧ (modRing a0 a1 a2 s).red = s.red ∧ (modRing a0 a1 a2 s).pwr = s.pwr := by
  simp [modRing]

@[simp] theorem remoteWrite_parts (a0 : Nat) (a1 : Nat) (a2 : Nat) (a3 : Nat) (a4 : List Byte) (a5 : List Nat) (a6 : OpFor) (s : State) :
    (remoteWrite a0 a1 a2 a3 a4 a5 a6 s).boot = s.boot ∧ (remoteWrite a0 a1 a2 a3 a4 a5 a6 s).benches.links = s.benches.links ∧
      (remoteWrite a0 a1 a2 a3 a4 a5 a6 s).benches.packets = s.benches.packets ∧
      (remoteWrite a0 a1 a2 a3 a4 a5 a6 s).serve = s.serve ∧ (remoteWrite a0 a1 a2 a3 a4 a5 a6 s).opr = s.opr ∧
      (remoteWrite a0 a1 a2 a3 a4 a5 a6 s).vid = s.vid ∧ (remoteWrite a0 a1 a2 a3 a4 a5 a6 s).red = s.red ∧
      (remoteWrite a0 a1 a2 a3 a4 a5 a6 s).pwr = s.pwr := by
  unfold remoteWrite
  dsimp only
  (repeat' split) <;> first | (simp; done) | (simp_all; done) | grind [writeBytes_parts, touchYard_parts, laneFor_parts, sendOp_parts]

@[simp] theorem remoteCopy_parts (a0 : Nat) (a1 : Nat) (a2 : Nat) (a3 : Nat) (a4 : Nat) (a5 : Nat) (a6 : OpFor) (s : State) :
    (remoteCopy a0 a1 a2 a3 a4 a5 a6 s).boot = s.boot ∧ (remoteCopy a0 a1 a2 a3 a4 a5 a6 s).benches.links = s.benches.links ∧
      (remoteCopy a0 a1 a2 a3 a4 a5 a6 s).benches.packets = s.benches.packets ∧
      (remoteCopy a0 a1 a2 a3 a4 a5 a6 s).serve = s.serve ∧ (remoteCopy a0 a1 a2 a3 a4 a5 a6 s).opr = s.opr ∧
      (remoteCopy a0 a1 a2 a3 a4 a5 a6 s).vid = s.vid ∧ (remoteCopy a0 a1 a2 a3 a4 a5 a6 s).red = s.red ∧
      (remoteCopy a0 a1 a2 a3 a4 a5 a6 s).pwr = s.pwr := by
  simp [remoteCopy, foldN]

@[simp] theorem journalWrite_parts (a0 : Nat) (a1 : Nat) (a2 : Nat) (a3 : Nat) (a4 : Nat) (a5 : Nat) (s : State) :
    (journalWrite a0 a1 a2 a3 a4 a5 s).boot = s.boot ∧ (journalWrite a0 a1 a2 a3 a4 a5 s).benches.links = s.benches.links ∧
      (journalWrite a0 a1 a2 a3 a4 a5 s).benches.packets = s.benches.packets ∧
      (journalWrite a0 a1 a2 a3 a4 a5 s).serve = s.serve ∧ (journalWrite a0 a1 a2 a3 a4 a5 s).opr = s.opr ∧
      (journalWrite a0 a1 a2 a3 a4 a5 s).vid = s.vid ∧ (journalWrite a0 a1 a2 a3 a4 a5 s).red = s.red ∧
      (journalWrite a0 a1 a2 a3 a4 a5 s).pwr = s.pwr := by
  simp [journalWrite]

@[simp] theorem gateFor_parts (a0 : Nat) (a1 : Nat) (a2 : Nat) (a3 : Bool) (s : State) :
    (gateFor a0 a1 a2 a3 s).2.boot = s.boot ∧ (gateFor a0 a1 a2 a3 s).2.benches.links = s.benches.links ∧
      (gateFor a0 a1 a2 a3 s).2.benches.packets = s.benches.packets ∧ (gateFor a0 a1 a2 a3 s).2.serve = s.serve ∧
      (gateFor a0 a1 a2 a3 s).2.opr = s.opr ∧ (gateFor a0 a1 a2 a3 s).2.vid = s.vid ∧ (gateFor a0 a1 a2 a3 s).2.red = s.red ∧
      (gateFor a0 a1 a2 a3 s).2.pwr = s.pwr := by
  simp only [gateFor]
  (repeat' split) <;> simp

@[simp] theorem placeRecord_parts (a0 : Nat) (a1 : Nat) (a2 : TokenRec) (a3 : Bool) (a4 : Gate) (s : State) :
    (placeRecord a0 a1 a2 a3 a4 s).nv = s.nv ∧ (placeRecord a0 a1 a2 a3 a4 s).boot = s.boot ∧
      (placeRecord a0 a1 a2 a3 a4 s).mem = s.mem ∧ (placeRecord a0 a1 a2 a3 a4 s).gau = s.gau ∧
      (placeRecord a0 a1 a2 a3 a4 s).benches = s.benches ∧ (placeRecord a0 a1 a2 a3 a4 s).opr = s.opr ∧
      (placeRecord a0 a1 a2 a3 a4 s).vid = s.vid ∧ (placeRecord a0 a1 a2 a3 a4 s).red = s.red ∧
      (placeRecord a0 a1 a2 a3 a4 s).pwr = s.pwr := by
  simp only [placeRecord]
  (repeat' split) <;> simp

@[simp] theorem placeNote_parts (a0 : Nat) (a1 : Nat) (a2 : Nat) (a3 : Nat) (a4 : Stamp) (s : State) :
    (placeNote a0 a1 a2 a3 a4 s).nv = s.nv ∧ (placeNote a0 a1 a2 a3 a4 s).boot = s.boot ∧ (placeNote a0 a1 a2 a3 a4 s).mem = s.mem ∧
      (placeNote a0 a1 a2 a3 a4 s).gau = s.gau ∧ (placeNote a0 a1 a2 a3 a4 s).benches = s.benches ∧
      (placeNote a0 a1 a2 a3 a4 s).opr = s.opr ∧ (placeNote a0 a1 a2 a3 a4 s).vid = s.vid ∧ (placeNote a0 a1 a2 a3 a4 s).red = s.red ∧
      (placeNote a0 a1 a2 a3 a4 s).pwr = s.pwr := by
  simp [placeNote]

@[simp] theorem placeSwitched_parts (a0 : Nat) (a1 : Nat) (s : State) :
    (placeSwitched a0 a1 s).nv = s.nv ∧ (placeSwitched a0 a1 s).boot = s.boot ∧ (placeSwitched a0 a1 s).mem = s.mem ∧
      (placeSwitched a0 a1 s).gau = s.gau ∧ (placeSwitched a0 a1 s).benches = s.benches ∧ (placeSwitched a0 a1 s).opr = s.opr ∧
      (placeSwitched a0 a1 s).vid = s.vid ∧ (placeSwitched a0 a1 s).red = s.red ∧ (placeSwitched a0 a1 s).pwr = s.pwr := by
  simp only [placeSwitched]
  (repeat' split) <;> simp

@[simp] theorem publishToken_parts (a0 : Nat) (a1 : Nat) (a2 : TokenRec) (s : State) :
    (publishToken a0 a1 a2 s).boot = s.boot ∧ (publishToken a0 a1 a2 s).benches.links = s.benches.links ∧
      (publishToken a0 a1 a2 s).benches.packets = s.benches.packets ∧ (publishToken a0 a1 a2 s).opr = s.opr ∧
      (publishToken a0 a1 a2 s).vid = s.vid ∧ (publishToken a0 a1 a2 s).red = s.red ∧ (publishToken a0 a1 a2 s).pwr = s.pwr := by
  simp [publishToken]

@[simp] theorem modVen_parts (a0 : Nat) (a1 : Veneer → Veneer) (s : State) :
    (modVen a0 a1 s).nv = s.nv ∧ (modVen a0 a1 s).boot = s.boot ∧ (modVen a0 a1 s).mem = s.mem ∧ (modVen a0 a1 s).gau = s.gau ∧
      (modVen a0 a1 s).benches = s.benches ∧ (modVen a0 a1 s).opr = s.opr ∧ (modVen a0 a1 s).vid = s.vid ∧
      (modVen a0 a1 s).red = s.red ∧ (modVen a0 a1 s).pwr = s.pwr := by
  simp [modVen]

@[simp] theorem retireVeneer_parts (a0 : Nat) (s : State) :
    (retireVeneer a0 s).nv = s.nv ∧ (retireVeneer a0 s).boot = s.boot ∧ (retireVeneer a0 s).mem = s.mem ∧
      (retireVeneer a0 s).gau = s.gau ∧ (retireVeneer a0 s).benches = s.benches ∧ (retireVeneer a0 s).opr = s.opr ∧
      (retireVeneer a0 s).vid = s.vid ∧ (retireVeneer a0 s).red = s.red ∧ (retireVeneer a0 s).pwr = s.pwr := by
  simp [retireVeneer]

@[simp] theorem freeEntry_parts (a0 : Nat) (s : State) :
    (freeEntry a0 s).nv = s.nv ∧ (freeEntry a0 s).boot = s.boot ∧ (freeEntry a0 s).mem = s.mem ∧ (freeEntry a0 s).gau = s.gau ∧
      (freeEntry a0 s).benches = s.benches ∧ (freeEntry a0 s).opr = s.opr ∧ (freeEntry a0 s).vid = s.vid ∧
      (freeEntry a0 s).red = s.red ∧ (freeEntry a0 s).pwr = s.pwr := by
  simp [freeEntry]

@[simp] theorem deliverHost_parts (a0 : Nat) (a1 : Nat) (a2 : Ring) (a3 : PendRec) (s : State) :
    (deliverHost a0 a1 a2 a3 s).nv = s.nv ∧ (deliverHost a0 a1 a2 a3 s).boot = s.boot ∧ (deliverHost a0 a1 a2 a3 s).mem = s.mem ∧
      (deliverHost a0 a1 a2 a3 s).gau = s.gau ∧ (deliverHost a0 a1 a2 a3 s).benches = s.benches ∧
      (deliverHost a0 a1 a2 a3 s).opr = s.opr ∧ (deliverHost a0 a1 a2 a3 s).vid = s.vid ∧ (deliverHost a0 a1 a2 a3 s).red = s.red ∧
      (deliverHost a0 a1 a2 a3 s).pwr = s.pwr := by
  simp [deliverHost]

@[simp] theorem deliverRemote_parts (a0 : Nat) (a1 : Nat) (a2 : Ring) (a3 : PendRec) (s : State) :
    (deliverRemote a0 a1 a2 a3 s).boot = s.boot ∧ (deliverRemote a0 a1 a2 a3 s).benches.links = s.benches.links ∧
      (deliverRemote a0 a1 a2 a3 s).benches.packets = s.benches.packets ∧ (deliverRemote a0 a1 a2 a3 s).serve = s.serve ∧
      (deliverRemote a0 a1 a2 a3 s).opr = s.opr ∧ (deliverRemote a0 a1 a2 a3 s).vid = s.vid ∧
      (deliverRemote a0 a1 a2 a3 s).red = s.red ∧ (deliverRemote a0 a1 a2 a3 s).pwr = s.pwr := by
  simp [deliverRemote]

@[simp] theorem deliver_parts (a0 : Nat) (a1 : PendRec) (s : State) :
    (deliver a0 a1 s).boot = s.boot ∧ (deliver a0 a1 s).benches.links = s.benches.links ∧
      (deliver a0 a1 s).benches.packets = s.benches.packets ∧ (deliver a0 a1 s).opr = s.opr ∧ (deliver a0 a1 s).vid = s.vid ∧
      (deliver a0 a1 s).red = s.red ∧ (deliver a0 a1 s).pwr = s.pwr := by
  simp only [deliver]
  (repeat' split) <;> simp

@[simp] theorem flushPend_parts (a0 : Nat) (s : State) :
    (flushPend a0 s).boot = s.boot ∧ (flushPend a0 s).benches.links = s.benches.links ∧
      (flushPend a0 s).benches.packets = s.benches.packets ∧ (flushPend a0 s).opr = s.opr ∧ (flushPend a0 s).vid = s.vid ∧
      (flushPend a0 s).red = s.red ∧ (flushPend a0 s).pwr = s.pwr := by
  unfold flushPend
  dsimp only
  simp only [modServe_parts]
  refine ⟨?_, ?_, ?_, ?_, ?_, ?_, ?_⟩
  · rw [foldl_fst_boot (fun a p => by (try dsimp only); split <;> simp)]; simp
  · rw [foldl_fst_benches_links (fun a p => by (try dsimp only); split <;> simp)]; simp
  · rw [foldl_fst_benches_packets (fun a p => by (try dsimp only); split <;> simp)]; simp
  · rw [foldl_fst_opr (fun a p => by (try dsimp only); split <;> simp)]; simp
  · rw [foldl_fst_vid (fun a p => by (try dsimp only); split <;> simp)]; simp
  · rw [foldl_fst_red (fun a p => by (try dsimp only); split <;> simp)]; simp
  · rw [foldl_fst_pwr (fun a p => by (try dsimp only); split <;> simp)]; simp

@[simp] theorem addEnding_parts (a0 : Nat) (a1 : Ending) (s : State) :
    (addEnding a0 a1 s).nv = s.nv ∧ (addEnding a0 a1 s).boot = s.boot ∧ (addEnding a0 a1 s).mem = s.mem ∧
      (addEnding a0 a1 s).gau = s.gau ∧ (addEnding a0 a1 s).benches = s.benches ∧ (addEnding a0 a1 s).opr = s.opr ∧
      (addEnding a0 a1 s).vid = s.vid ∧ (addEnding a0 a1 s).red = s.red ∧ (addEnding a0 a1 s).pwr = s.pwr := by
  simp [addEnding]

@[simp] theorem modShip_parts (a0 : Nat) (a1 : Shipment → Shipment) (s : State) :
    (modShip a0 a1 s).nv = s.nv ∧ (modShip a0 a1 s).boot = s.boot ∧ (modShip a0 a1 s).mem = s.mem ∧ (modShip a0 a1 s).gau = s.gau ∧
      (modShip a0 a1 s).benches = s.benches ∧ (modShip a0 a1 s).serve = s.serve ∧ (modShip a0 a1 s).opr = s.opr ∧
      (modShip a0 a1 s).vid = s.vid ∧ (modShip a0 a1 s).red = s.red ∧ (modShip a0 a1 s).pwr = s.pwr := by
  simp [modShip]

@[simp] theorem dropShip_parts (a0 : Nat) (s : State) :
    (dropShip a0 s).nv = s.nv ∧ (dropShip a0 s).boot = s.boot ∧ (dropShip a0 s).mem = s.mem ∧ (dropShip a0 s).gau = s.gau ∧
      (dropShip a0 s).benches = s.benches ∧ (dropShip a0 s).serve = s.serve ∧ (dropShip a0 s).opr = s.opr ∧
      (dropShip a0 s).vid = s.vid ∧ (dropShip a0 s).red = s.red ∧ (dropShip a0 s).pwr = s.pwr := by
  simp [dropShip]

@[simp] theorem unship_parts (a0 : Nat) (a1 : Nat) (s : State) :
    (unship a0 a1 s).nv = s.nv ∧ (unship a0 a1 s).boot = s.boot ∧ (unship a0 a1 s).mem = s.mem ∧ (unship a0 a1 s).gau = s.gau ∧
      (unship a0 a1 s).benches = s.benches ∧ (unship a0 a1 s).opr = s.opr ∧ (unship a0 a1 s).vid = s.vid ∧
      (unship a0 a1 s).red = s.red ∧ (unship a0 a1 s).pwr = s.pwr := by
  simp only [unship]
  (repeat' split) <;> simp

@[simp] theorem failShip_parts (a0 : Nat) (a1 : Bool) (s : State) :
    (failShip a0 a1 s).nv = s.nv ∧ (failShip a0 a1 s).boot = s.boot ∧ (failShip a0 a1 s).mem = s.mem ∧ (failShip a0 a1 s).gau = s.gau ∧
      (failShip a0 a1 s).benches = s.benches ∧ (failShip a0 a1 s).opr = s.opr ∧ (failShip a0 a1 s).vid = s.vid ∧
      (failShip a0 a1 s).red = s.red ∧ (failShip a0 a1 s).pwr = s.pwr := by
  simp only [failShip]
  (repeat' split) <;> simp

@[simp] theorem endRequest_parts (a0 : Nat) (a1 : Nat) (a2 : Ending) (a3 : Bool) (s : State) :
    (endRequest a0 a1 a2 a3 s).boot = s.boot ∧ (endRequest a0 a1 a2 a3 s).benches.links = s.benches.links ∧
      (endRequest a0 a1 a2 a3 s).benches.packets = s.benches.packets ∧ (endRequest a0 a1 a2 a3 s).opr = s.opr ∧
      (endRequest a0 a1 a2 a3 s).vid = s.vid ∧ (endRequest a0 a1 a2 a3 s).red = s.red ∧ (endRequest a0 a1 a2 a3 s).pwr = s.pwr := by
  simp [endRequest]

@[simp] theorem endAll_parts (a0 : Nat) (a1 : Nat) (a2 : (Request → Bool)) (s : State) :
    (endAll a0 a1 a2 s).boot = s.boot ∧ (endAll a0 a1 a2 s).benches.links = s.benches.links ∧
      (endAll a0 a1 a2 s).benches.packets = s.benches.packets ∧ (endAll a0 a1 a2 s).opr = s.opr ∧
      (endAll a0 a1 a2 s).vid = s.vid ∧ (endAll a0 a1 a2 s).red = s.red ∧ (endAll a0 a1 a2 s).pwr = s.pwr := by
  simp [endAll]

@[simp] theorem sendDowel_parts (a0 : Nat) (a1 : Nat) (a2 : Nat) (a3 : Nat) (a4 : List Byte) (s : State) :
    (sendDowel a0 a1 a2 a3 a4 s).nv = s.nv ∧ (sendDowel a0 a1 a2 a3 a4 s).boot = s.boot ∧ (sendDowel a0 a1 a2 a3 a4 s).mem = s.mem ∧
      (sendDowel a0 a1 a2 a3 a4 s).gau = s.gau ∧ (sendDowel a0 a1 a2 a3 a4 s).benches = s.benches ∧
      (sendDowel a0 a1 a2 a3 a4 s).serve = s.serve ∧ (sendDowel a0 a1 a2 a3 a4 s).opr = s.opr ∧
      (sendDowel a0 a1 a2 a3 a4 s).vid = s.vid ∧ (sendDowel a0 a1 a2 a3 a4 s).red = s.red ∧ (sendDowel a0 a1 a2 a3 a4 s).pwr = s.pwr := by
  simp [sendDowel]

@[simp] theorem toSister_parts (a0 : Nat) (a1 : Nat) (a2 : Nat) (s : State) :
    (toSister a0 a1 a2 s).nv = s.nv ∧ (toSister a0 a1 a2 s).boot = s.boot ∧ (toSister a0 a1 a2 s).mem = s.mem ∧
      (toSister a0 a1 a2 s).gau = s.gau ∧ (toSister a0 a1 a2 s).benches = s.benches ∧ (toSister a0 a1 a2 s).serve = s.serve ∧
      (toSister a0 a1 a2 s).opr = s.opr ∧ (toSister a0 a1 a2 s).vid = s.vid ∧ (toSister a0 a1 a2 s).red = s.red ∧
      (toSister a0 a1 a2 s).pwr = s.pwr := by
  simp only [toSister]
  (repeat' split) <;> simp

@[simp] theorem toArbiter_parts (a0 : Nat) (a1 : Nat) (a2 : Nat) (s : State) :
    (toArbiter a0 a1 a2 s).nv = s.nv ∧ (toArbiter a0 a1 a2 s).boot = s.boot ∧ (toArbiter a0 a1 a2 s).mem = s.mem ∧
      (toArbiter a0 a1 a2 s).gau = s.gau ∧ (toArbiter a0 a1 a2 s).benches = s.benches ∧ (toArbiter a0 a1 a2 s).serve = s.serve ∧
      (toArbiter a0 a1 a2 s).opr = s.opr ∧ (toArbiter a0 a1 a2 s).vid = s.vid ∧ (toArbiter a0 a1 a2 s).red = s.red ∧
      (toArbiter a0 a1 a2 s).pwr = s.pwr := by
  simp only [toArbiter]
  (repeat' split) <;> simp

@[simp] theorem mirrorWrite_parts (a0 : Nat) (a1 : List Byte) (a2 : List Nat) (a3 : Nat) (s : State) :
    (mirrorWrite a0 a1 a2 a3 s).nv = s.nv ∧ (mirrorWrite a0 a1 a2 a3 s).boot = s.boot ∧ (mirrorWrite a0 a1 a2 a3 s).mem = s.mem ∧
      (mirrorWrite a0 a1 a2 a3 s).gau = s.gau ∧ (mirrorWrite a0 a1 a2 a3 s).benches = s.benches ∧
      (mirrorWrite a0 a1 a2 a3 s).serve = s.serve ∧ (mirrorWrite a0 a1 a2 a3 s).opr = s.opr ∧ (mirrorWrite a0 a1 a2 a3 s).vid = s.vid ∧
      (mirrorWrite a0 a1 a2 a3 s).red = s.red ∧ (mirrorWrite a0 a1 a2 a3 s).pwr = s.pwr := by
  simp only [mirrorWrite]
  (repeat' split) <;> grind [laneFor_parts, sendOp_parts]

@[simp] theorem mirrorSpan_parts (a0 : Nat) (a1 : Nat × Nat) (s : State) :
    (mirrorSpan a0 a1 s).nv = s.nv ∧ (mirrorSpan a0 a1 s).boot = s.boot ∧ (mirrorSpan a0 a1 s).mem = s.mem ∧
      (mirrorSpan a0 a1 s).gau = s.gau ∧ (mirrorSpan a0 a1 s).benches = s.benches ∧ (mirrorSpan a0 a1 s).serve = s.serve ∧
      (mirrorSpan a0 a1 s).opr = s.opr ∧ (mirrorSpan a0 a1 s).vid = s.vid ∧ (mirrorSpan a0 a1 s).red = s.red ∧
      (mirrorSpan a0 a1 s).pwr = s.pwr := by
  simp [mirrorSpan, foldN]

@[simp] theorem mirrorRows_parts (a0 : Nat) (a1 : Nat) (a2 : Nat) (a3 : Nat) (s : State) :
    (mirrorRows a0 a1 a2 a3 s).nv = s.nv ∧ (mirrorRows a0 a1 a2 a3 s).boot = s.boot ∧ (mirrorRows a0 a1 a2 a3 s).mem = s.mem ∧
      (mirrorRows a0 a1 a2 a3 s).gau = s.gau ∧ (mirrorRows a0 a1 a2 a3 s).benches = s.benches ∧
      (mirrorRows a0 a1 a2 a3 s).serve = s.serve ∧ (mirrorRows a0 a1 a2 a3 s).opr = s.opr ∧ (mirrorRows a0 a1 a2 a3 s).vid = s.vid ∧
      (mirrorRows a0 a1 a2 a3 s).red = s.red ∧ (mirrorRows a0 a1 a2 a3 s).pwr = s.pwr := by
  unfold mirrorRows
  split
  · simp
  · dsimp only [foldS]
    refine ⟨?_, ?_, ?_, ?_, ?_, ?_, ?_, ?_, ?_, ?_⟩
    · exact foldl_nv (fun s a => by (try dsimp only); (repeat' split) <;> simp) _ _
    · exact foldl_boot (fun s a => by (try dsimp only); (repeat' split) <;> simp) _ _
    · exact foldl_mem (fun s a => by (try dsimp only); (repeat' split) <;> simp) _ _
    · exact foldl_gau (fun s a => by (try dsimp only); (repeat' split) <;> simp) _ _
    · exact foldl_benches (fun s a => by (try dsimp only); (repeat' split) <;> simp) _ _
    · exact foldl_serve (fun s a => by (try dsimp only); (repeat' split) <;> simp) _ _
    · exact foldl_opr (fun s a => by (try dsimp only); (repeat' split) <;> simp) _ _
    · exact foldl_vid (fun s a => by (try dsimp only); (repeat' split) <;> simp) _ _
    · exact foldl_red (fun s a => by (try dsimp only); (repeat' split) <;> simp) _ _
    · exact foldl_pwr (fun s a => by (try dsimp only); (repeat' split) <;> simp) _ _

@[simp] theorem mirrorRequest_parts (a0 : Nat) (a1 : Nat) (a2 : Request) (s : State) :
    (mirrorRequest a0 a1 a2 s).nv = s.nv ∧ (mirrorRequest a0 a1 a2 s).boot = s.boot ∧ (mirrorRequest a0 a1 a2 s).mem = s.mem ∧
      (mirrorRequest a0 a1 a2 s).gau = s.gau ∧ (mirrorRequest a0 a1 a2 s).benches = s.benches ∧
      (mirrorRequest a0 a1 a2 s).serve = s.serve ∧ (mirrorRequest a0 a1 a2 s).opr = s.opr ∧ (mirrorRequest a0 a1 a2 s).vid = s.vid ∧
      (mirrorRequest a0 a1 a2 s).red = s.red ∧ (mirrorRequest a0 a1 a2 s).pwr = s.pwr := by
  simp [mirrorRequest, foldN]

@[simp] theorem mirrorVeneers_parts (a0 : Nat) (a1 : Tab Veneer) (s : State) :
    (mirrorVeneers a0 a1 s).nv = s.nv ∧ (mirrorVeneers a0 a1 s).boot = s.boot ∧ (mirrorVeneers a0 a1 s).mem = s.mem ∧
      (mirrorVeneers a0 a1 s).gau = s.gau ∧ (mirrorVeneers a0 a1 s).benches = s.benches ∧ (mirrorVeneers a0 a1 s).serve = s.serve ∧
      (mirrorVeneers a0 a1 s).opr = s.opr ∧ (mirrorVeneers a0 a1 s).vid = s.vid ∧ (mirrorVeneers a0 a1 s).red = s.red ∧
      (mirrorVeneers a0 a1 s).pwr = s.pwr := by
  simp [mirrorVeneers]

@[simp] theorem sendCommit_parts (a0 : Nat) (s : State) :
    (sendCommit a0 s).nv = s.nv ∧ (sendCommit a0 s).boot = s.boot ∧ (sendCommit a0 s).mem = s.mem ∧ (sendCommit a0 s).gau = s.gau ∧
      (sendCommit a0 s).benches = s.benches ∧ (sendCommit a0 s).serve = s.serve ∧ (sendCommit a0 s).opr = s.opr ∧
      (sendCommit a0 s).vid = s.vid ∧ (sendCommit a0 s).pwr = s.pwr := by
  simp only [sendCommit]
  (repeat' split) <;> simp

@[simp] theorem commitBoundary_parts (a0 : Nat) (s : State) :
    (commitBoundary a0 s).nv = s.nv ∧ (commitBoundary a0 s).boot = s.boot ∧ (commitBoundary a0 s).mem = s.mem ∧
      (commitBoundary a0 s).gau = s.gau ∧ (commitBoundary a0 s).benches = s.benches ∧ (commitBoundary a0 s).serve = s.serve ∧
      (commitBoundary a0 s).opr = s.opr ∧ (commitBoundary a0 s).vid = s.vid ∧ (commitBoundary a0 s).pwr = s.pwr := by
  simp [commitBoundary]

@[simp] theorem dropUnacked_parts (a0 : Nat) (s : State) :
    (dropUnacked a0 s).nv = s.nv ∧ (dropUnacked a0 s).boot = s.boot ∧ (dropUnacked a0 s).mem = s.mem ∧ (dropUnacked a0 s).gau = s.gau ∧
      (dropUnacked a0 s).benches.links = s.benches.links ∧ (dropUnacked a0 s).benches.packets = s.benches.packets ∧
      (dropUnacked a0 s).opr = s.opr ∧ (dropUnacked a0 s).vid = s.vid ∧ (dropUnacked a0 s).red = s.red ∧
      (dropUnacked a0 s).pwr = s.pwr := by
  simp [dropUnacked]

@[simp] theorem trySwap_parts (a0 : Nat) (s : State) :
    (trySwap a0 s).nv = s.nv ∧ (trySwap a0 s).boot = s.boot ∧ (trySwap a0 s).mem = s.mem ∧ (trySwap a0 s).gau = s.gau ∧
      (trySwap a0 s).benches = s.benches ∧ (trySwap a0 s).serve = s.serve ∧ (trySwap a0 s).opr = s.opr ∧ (trySwap a0 s).vid = s.vid ∧
      (trySwap a0 s).pwr = s.pwr := by
  simp [trySwap]

@[simp] theorem startSwap_parts (a0 : Nat) (s : State) :
    (startSwap a0 s).nv = s.nv ∧ (startSwap a0 s).boot = s.boot ∧ (startSwap a0 s).mem = s.mem ∧ (startSwap a0 s).gau = s.gau ∧
      (startSwap a0 s).benches = s.benches ∧ (startSwap a0 s).serve = s.serve ∧ (startSwap a0 s).opr = s.opr ∧
      (startSwap a0 s).vid = s.vid ∧ (startSwap a0 s).pwr = s.pwr := by
  simp [startSwap]

@[simp] theorem releaseDowel_parts (a0 : Bool) (a1 : Nat) (s : State) :
    (releaseDowel a0 a1 s).nv = s.nv ∧ (releaseDowel a0 a1 s).boot = s.boot ∧ (releaseDowel a0 a1 s).mem = s.mem ∧
      (releaseDowel a0 a1 s).gau = s.gau ∧ (releaseDowel a0 a1 s).benches.links = s.benches.links ∧
      (releaseDowel a0 a1 s).benches.packets = s.benches.packets ∧ (releaseDowel a0 a1 s).opr = s.opr ∧
      (releaseDowel a0 a1 s).vid = s.vid ∧ (releaseDowel a0 a1 s).pwr = s.pwr := by
  simp [releaseDowel]

@[simp] theorem releaseAll_parts (s : State) :
    (releaseAll s).nv = s.nv ∧ (releaseAll s).boot = s.boot ∧ (releaseAll s).mem = s.mem ∧ (releaseAll s).gau = s.gau ∧
      (releaseAll s).benches.links = s.benches.links ∧ (releaseAll s).benches.packets = s.benches.packets ∧
      (releaseAll s).opr = s.opr ∧ (releaseAll s).vid = s.vid ∧ (releaseAll s).pwr = s.pwr := by
  simp [releaseAll, foldS]

@[simp] theorem dueSwap_parts (a0 : Nat) (s : State) :
    (dueSwap a0 s).nv = s.nv ∧ (dueSwap a0 s).boot = s.boot ∧ (dueSwap a0 s).mem = s.mem ∧ (dueSwap a0 s).gau = s.gau ∧
      (dueSwap a0 s).benches = s.benches ∧ (dueSwap a0 s).serve = s.serve ∧ (dueSwap a0 s).opr = s.opr ∧ (dueSwap a0 s).vid = s.vid ∧
      (dueSwap a0 s).pwr = s.pwr := by
  simp [dueSwap]

@[simp] theorem drainFlush_parts (s : State) :
    (drainFlush s).nv = s.nv ∧ (drainFlush s).boot = s.boot ∧ (drainFlush s).mem = s.mem ∧ (drainFlush s).gau = s.gau ∧
      (drainFlush s).benches = s.benches ∧ (drainFlush s).serve = s.serve ∧ (drainFlush s).opr = s.opr ∧ (drainFlush s).vid = s.vid ∧
      (drainFlush s).pwr = s.pwr := by
  simp [drainFlush]

@[simp] theorem shutGates_parts (s : State) :
    (shutGates s).nv = s.nv ∧ (shutGates s).boot = s.boot ∧ (shutGates s).mem = s.mem ∧ (shutGates s).gau = s.gau ∧
      (shutGates s).benches.links = s.benches.links ∧ (shutGates s).benches.packets = s.benches.packets ∧
      (shutGates s).serve = s.serve ∧ (shutGates s).opr = s.opr ∧ (shutGates s).red = s.red := by
  simp [shutGates]

@[simp] theorem drainProgress_parts (s : State) :
    (drainProgress s).nv = s.nv ∧ (drainProgress s).boot = s.boot ∧ (drainProgress s).mem = s.mem ∧ (drainProgress s).gau = s.gau ∧
      (drainProgress s).benches.links = s.benches.links ∧ (drainProgress s).benches.packets = s.benches.packets ∧
      (drainProgress s).opr = s.opr := by
  simp [drainProgress, foldS]

@[simp] theorem moveTail_parts (a0 : Nat) (a1 : Nat) (s : State) :
    (moveTail a0 a1 s).nv = s.nv ∧ (moveTail a0 a1 s).boot = s.boot ∧ (moveTail a0 a1 s).mem = s.mem ∧
      (moveTail a0 a1 s).gau = s.gau ∧ (moveTail a0 a1 s).benches = s.benches ∧ (moveTail a0 a1 s).opr = s.opr ∧
      (moveTail a0 a1 s).vid = s.vid ∧ (moveTail a0 a1 s).red = s.red ∧ (moveTail a0 a1 s).pwr = s.pwr := by
  simp only [moveTail]
  (repeat' split) <;> simp

@[simp] theorem setDraftLen_parts (a0 : Nat) (a1 : Nat) (a2 : Nat) (s : State) :
    (setDraftLen a0 a1 a2 s).nv = s.nv ∧ (setDraftLen a0 a1 a2 s).boot = s.boot ∧ (setDraftLen a0 a1 a2 s).mem = s.mem ∧
      (setDraftLen a0 a1 a2 s).gau = s.gau ∧ (setDraftLen a0 a1 a2 s).benches = s.benches ∧ (setDraftLen a0 a1 a2 s).opr = s.opr ∧
      (setDraftLen a0 a1 a2 s).vid = s.vid ∧ (setDraftLen a0 a1 a2 s).red = s.red ∧ (setDraftLen a0 a1 a2 s).pwr = s.pwr := by
  simp [setDraftLen]

@[simp] theorem adaptDraft_parts (a0 : Nat) (a1 : Nat) (s : State) :
    (adaptDraft a0 a1 s).nv = s.nv ∧ (adaptDraft a0 a1 s).boot = s.boot ∧ (adaptDraft a0 a1 s).mem = s.mem ∧
      (adaptDraft a0 a1 s).gau = s.gau ∧ (adaptDraft a0 a1 s).benches = s.benches ∧ (adaptDraft a0 a1 s).opr = s.opr ∧
      (adaptDraft a0 a1 s).vid = s.vid ∧ (adaptDraft a0 a1 s).red = s.red ∧ (adaptDraft a0 a1 s).pwr = s.pwr := by
  simp only [adaptDraft]
  (repeat' split) <;> simp

@[simp] theorem settleRequest_parts (a0 : Nat) (a1 : Nat) (s : State) :
    (settleRequest a0 a1 s).boot = s.boot ∧ (settleRequest a0 a1 s).benches.links = s.benches.links ∧
      (settleRequest a0 a1 s).benches.packets = s.benches.packets ∧ (settleRequest a0 a1 s).opr = s.opr ∧
      (settleRequest a0 a1 s).vid = s.vid ∧ (settleRequest a0 a1 s).red = s.red ∧ (settleRequest a0 a1 s).pwr = s.pwr := by
  simp only [settleRequest]
  (repeat' split) <;> simp

@[simp] theorem receiveShipment_parts (a0 : Nat) (a1 : Nat) (s : State) :
    (receiveShipment a0 a1 s).nv = s.nv ∧ (receiveShipment a0 a1 s).boot = s.boot ∧ (receiveShipment a0 a1 s).mem = s.mem ∧
      (receiveShipment a0 a1 s).gau = s.gau ∧ (receiveShipment a0 a1 s).benches = s.benches ∧ (receiveShipment a0 a1 s).opr = s.opr ∧
      (receiveShipment a0 a1 s).vid = s.vid ∧ (receiveShipment a0 a1 s).red = s.red ∧ (receiveShipment a0 a1 s).pwr = s.pwr := by
  simp only [receiveShipment]
  (repeat' split) <;> grind [modReq_parts, laneFor_parts, sendOp_parts, dropShip_parts]

@[simp] theorem sendAnnounce_parts (a0 : Nat) (a1 : Nat) (s : State) :
    (sendAnnounce a0 a1 s).nv = s.nv ∧ (sendAnnounce a0 a1 s).boot = s.boot ∧ (sendAnnounce a0 a1 s).mem = s.mem ∧
      (sendAnnounce a0 a1 s).gau = s.gau ∧ (sendAnnounce a0 a1 s).benches = s.benches ∧ (sendAnnounce a0 a1 s).serve = s.serve ∧
      (sendAnnounce a0 a1 s).opr = s.opr ∧ (sendAnnounce a0 a1 s).vid = s.vid ∧ (sendAnnounce a0 a1 s).red = s.red ∧
      (sendAnnounce a0 a1 s).pwr = s.pwr := by
  simp only [sendAnnounce]
  (repeat' split) <;> simp

@[simp] theorem announceShip_parts (a0 : Nat) (a1 : Nat) (s : State) :
    (announceShip a0 a1 s).nv = s.nv ∧ (announceShip a0 a1 s).boot = s.boot ∧ (announceShip a0 a1 s).mem = s.mem ∧
      (announceShip a0 a1 s).gau = s.gau ∧ (announceShip a0 a1 s).benches = s.benches ∧ (announceShip a0 a1 s).opr = s.opr ∧
      (announceShip a0 a1 s).vid = s.vid ∧ (announceShip a0 a1 s).red = s.red ∧ (announceShip a0 a1 s).pwr = s.pwr := by
  simp only [announceShip]
  (repeat' split) <;> simp

@[simp] theorem applyChanges_parts (a0 : Nat) (s : State) :
    (applyChanges a0 s).nv = s.nv ∧ (applyChanges a0 s).boot = s.boot ∧ (applyChanges a0 s).mem = s.mem ∧
      (applyChanges a0 s).gau = s.gau ∧ (applyChanges a0 s).benches = s.benches ∧ (applyChanges a0 s).opr = s.opr ∧
      (applyChanges a0 s).vid = s.vid ∧ (applyChanges a0 s).red = s.red ∧ (applyChanges a0 s).pwr = s.pwr := by
  simp [applyChanges]

@[simp] theorem returnIndex_parts (a0 : Nat) (a1 : Nat) (a2 : Nat) (s : State) :
    (returnIndex a0 a1 a2 s).nv = s.nv ∧ (returnIndex a0 a1 a2 s).boot = s.boot ∧ (returnIndex a0 a1 a2 s).mem = s.mem ∧
      (returnIndex a0 a1 a2 s).gau = s.gau ∧ (returnIndex a0 a1 a2 s).benches = s.benches ∧ (returnIndex a0 a1 a2 s).opr = s.opr ∧
      (returnIndex a0 a1 a2 s).vid = s.vid ∧ (returnIndex a0 a1 a2 s).red = s.red ∧ (returnIndex a0 a1 a2 s).pwr = s.pwr := by
  simp only [returnIndex]
  (repeat' split) <;> simp

@[simp] theorem readCons_parts (a0 : Nat) (s : State) :
    (readCons a0 s).boot = s.boot ∧ (readCons a0 s).benches.links = s.benches.links ∧
      (readCons a0 s).benches.packets = s.benches.packets ∧ (readCons a0 s).opr = s.opr ∧ (readCons a0 s).vid = s.vid ∧
      (readCons a0 s).red = s.red ∧ (readCons a0 s).pwr = s.pwr := by
  unfold readCons
  refine ⟨foldl_part (·.boot) (fun s a => ?_) _ _, foldl_part (·.benches.links) (fun s a => ?_) _ _, foldl_part (·.benches.packets) (fun s a => ?_) _ _, foldl_part (·.opr) (fun s a => ?_) _ _, foldl_part (·.vid) (fun s a => ?_) _ _, foldl_part (·.red) (fun s a => ?_) _ _, foldl_part (·.pwr) (fun s a => ?_) _ _⟩ <;> (repeat' split) <;> simp

@[simp] theorem holdRing_parts (a0 : Nat) (a1 : Nat) (s : State) :
    (holdRing a0 a1 s).nv = s.nv ∧ (holdRing a0 a1 s).boot = s.boot ∧ (holdRing a0 a1 s).mem = s.mem ∧ (holdRing a0 a1 s).gau = s.gau ∧
      (holdRing a0 a1 s).benches = s.benches ∧ (holdRing a0 a1 s).opr = s.opr ∧ (holdRing a0 a1 s).vid = s.vid ∧
      (holdRing a0 a1 s).red = s.red ∧ (holdRing a0 a1 s).pwr = s.pwr := by
  simp only [holdRing]
  (repeat' split) <;> simp

@[simp] theorem heldFinals_parts (a0 : Nat) (s : State) :
    (heldFinals a0 s).nv = s.nv ∧ (heldFinals a0 s).boot = s.boot ∧ (heldFinals a0 s).mem = s.mem ∧ (heldFinals a0 s).gau = s.gau ∧
      (heldFinals a0 s).benches = s.benches ∧ (heldFinals a0 s).serve = s.serve ∧ (heldFinals a0 s).opr = s.opr ∧
      (heldFinals a0 s).vid = s.vid ∧ (heldFinals a0 s).red = s.red ∧ (heldFinals a0 s).pwr = s.pwr := by
  unfold heldFinals
  (try dsimp only)
  refine ⟨?_, ?_, ?_, ?_, ?_, ?_, ?_, ?_, ?_, ?_⟩
  · exact foldl_nv (fun s a => by (try dsimp only); (repeat' split) <;> simp) _ _
  · exact foldl_boot (fun s a => by (try dsimp only); (repeat' split) <;> simp) _ _
  · exact foldl_mem (fun s a => by (try dsimp only); (repeat' split) <;> simp) _ _
  · exact foldl_gau (fun s a => by (try dsimp only); (repeat' split) <;> simp) _ _
  · exact foldl_benches (fun s a => by (try dsimp only); (repeat' split) <;> simp) _ _
  · exact foldl_serve (fun s a => by (try dsimp only); (repeat' split) <;> simp) _ _
  · exact foldl_opr (fun s a => by (try dsimp only); (repeat' split) <;> simp) _ _
  · exact foldl_vid (fun s a => by (try dsimp only); (repeat' split) <;> simp) _ _
  · exact foldl_red (fun s a => by (try dsimp only); (repeat' split) <;> simp) _ _
  · exact foldl_pwr (fun s a => by (try dsimp only); (repeat' split) <;> simp) _ _

@[simp] theorem evictRequest_parts (a0 : Nat) (a1 : Nat) (a2 : Nat) (s : State) :
    (evictRequest a0 a1 a2 s).boot = s.boot ∧ (evictRequest a0 a1 a2 s).benches.links = s.benches.links ∧
      (evictRequest a0 a1 a2 s).benches.packets = s.benches.packets ∧ (evictRequest a0 a1 a2 s).opr = s.opr ∧
      (evictRequest a0 a1 a2 s).vid = s.vid ∧ (evictRequest a0 a1 a2 s).red = s.red ∧ (evictRequest a0 a1 a2 s).pwr = s.pwr := by
  simp [evictRequest]

@[simp] theorem secureEvicting_parts (a0 : Nat) (a1 : Nat) (a2 : Nat) (a3 : Bool) (a4 : Nat) (s : State) :
    (secureEvicting a0 a1 a2 a3 a4 s).2.boot = s.boot ∧ (secureEvicting a0 a1 a2 a3 a4 s).2.benches.links = s.benches.links ∧
      (secureEvicting a0 a1 a2 a3 a4 s).2.benches.packets = s.benches.packets ∧
      (secureEvicting a0 a1 a2 a3 a4 s).2.opr = s.opr ∧ (secureEvicting a0 a1 a2 a3 a4 s).2.vid = s.vid ∧
      (secureEvicting a0 a1 a2 a3 a4 s).2.red = s.red ∧ (secureEvicting a0 a1 a2 a3 a4 s).2.pwr = s.pwr := by
  induction a4 generalizing s with
  | zero => simp [secureEvicting]
  | succ n ih =>
    simp only [secureEvicting]
    split
    · next e => have := securePages_parts e; simp_all
    · (repeat' split) <;> simp [ih]

@[simp] theorem parkRequest_parts (a0 : Nat) (a1 : Nat) (s : State) :
    (parkRequest a0 a1 s).nv = s.nv ∧ (parkRequest a0 a1 s).boot = s.boot ∧ (parkRequest a0 a1 s).mem = s.mem ∧
      (parkRequest a0 a1 s).gau = s.gau ∧ (parkRequest a0 a1 s).benches = s.benches ∧ (parkRequest a0 a1 s).opr = s.opr ∧
      (parkRequest a0 a1 s).vid = s.vid ∧ (parkRequest a0 a1 s).red = s.red ∧ (parkRequest a0 a1 s).pwr = s.pwr := by
  simp [parkRequest]

@[simp] theorem secureRequest_parts (a0 : Nat) (a1 : Nat) (s : State) :
    (secureRequest a0 a1 s).boot = s.boot ∧ (secureRequest a0 a1 s).benches.links = s.benches.links ∧
      (secureRequest a0 a1 s).benches.packets = s.benches.packets ∧ (secureRequest a0 a1 s).opr = s.opr ∧
      (secureRequest a0 a1 s).vid = s.vid ∧ (secureRequest a0 a1 s).red = s.red ∧ (secureRequest a0 a1 s).pwr = s.pwr := by
  simp [secureRequest]

@[simp] theorem parkOrReturn_parts (a0 : Nat) (a1 : Nat) (s : State) :
    (parkOrReturn a0 a1 s).nv = s.nv ∧ (parkOrReturn a0 a1 s).boot = s.boot ∧ (parkOrReturn a0 a1 s).mem = s.mem ∧
      (parkOrReturn a0 a1 s).gau = s.gau ∧ (parkOrReturn a0 a1 s).benches = s.benches ∧ (parkOrReturn a0 a1 s).opr = s.opr ∧
      (parkOrReturn a0 a1 s).vid = s.vid ∧ (parkOrReturn a0 a1 s).red = s.red ∧ (parkOrReturn a0 a1 s).pwr = s.pwr := by
  simp [parkOrReturn]

@[simp] theorem startAdmitted_parts (a0 : Nat) (a1 : Nat) (s : State) :
    (startAdmitted a0 a1 s).boot = s.boot ∧ (startAdmitted a0 a1 s).benches.links = s.benches.links ∧
      (startAdmitted a0 a1 s).benches.packets = s.benches.packets ∧ (startAdmitted a0 a1 s).opr = s.opr ∧
      (startAdmitted a0 a1 s).vid = s.vid ∧ (startAdmitted a0 a1 s).red = s.red ∧ (startAdmitted a0 a1 s).pwr = s.pwr := by
  unfold startAdmitted
  dsimp only
  (repeat' split) <;> first | (simp; done) | (next e => have := securePages_parts e; simp_all)

@[simp] theorem lookAhead_parts (a0 : Nat) (a1 : Nat) (s : State) :
    (lookAhead a0 a1 s).boot = s.boot ∧ (lookAhead a0 a1 s).benches.links = s.benches.links ∧
      (lookAhead a0 a1 s).benches.packets = s.benches.packets ∧ (lookAhead a0 a1 s).opr = s.opr ∧
      (lookAhead a0 a1 s).vid = s.vid ∧ (lookAhead a0 a1 s).red = s.red ∧ (lookAhead a0 a1 s).pwr = s.pwr := by
  unfold lookAhead
  dsimp only
  (repeat' split) <;> first | (simp; done) | (next e => have := securePages_parts e; simp_all)

@[simp] theorem markStarved_parts (a0 : Nat) (a1 : Nat) (s : State) :
    (markStarved a0 a1 s).nv = s.nv ∧ (markStarved a0 a1 s).boot = s.boot ∧ (markStarved a0 a1 s).mem = s.mem ∧
      (markStarved a0 a1 s).gau = s.gau ∧ (markStarved a0 a1 s).benches = s.benches ∧ (markStarved a0 a1 s).opr = s.opr ∧
      (markStarved a0 a1 s).vid = s.vid ∧ (markStarved a0 a1 s).red = s.red ∧ (markStarved a0 a1 s).pwr = s.pwr := by
  simp [markStarved]

@[simp] theorem haltPool_parts (a0 : Nat) (s : State) :
    (haltPool a0 s).boot = s.boot ∧ (haltPool a0 s).benches.links = s.benches.links ∧
      (haltPool a0 s).benches.packets = s.benches.packets ∧ (haltPool a0 s).opr = s.opr ∧ (haltPool a0 s).vid = s.vid ∧
      (haltPool a0 s).red = s.red ∧ (haltPool a0 s).pwr = s.pwr := by
  simp [haltPool]

@[simp] theorem checkPool_parts (a0 : Nat) (s : State) :
    (checkPool a0 s).boot = s.boot ∧ (checkPool a0 s).benches.links = s.benches.links ∧
      (checkPool a0 s).benches.packets = s.benches.packets ∧ (checkPool a0 s).opr = s.opr ∧ (checkPool a0 s).vid = s.vid ∧
      (checkPool a0 s).red = s.red ∧ (checkPool a0 s).pwr = s.pwr := by
  simp [checkPool]

@[simp] theorem writeTails_parts (a0 : Nat) (a1 : List (Nat × Nat × Nat × Nat)) (s : State) :
    (writeTails a0 a1 s).nv = s.nv ∧ (writeTails a0 a1 s).boot = s.boot ∧ (writeTails a0 a1 s).mem = s.mem ∧
      (writeTails a0 a1 s).gau = s.gau ∧ (writeTails a0 a1 s).benches.links = s.benches.links ∧
      (writeTails a0 a1 s).benches.packets = s.benches.packets ∧ (writeTails a0 a1 s).serve = s.serve ∧
      (writeTails a0 a1 s).opr = s.opr ∧ (writeTails a0 a1 s).vid = s.vid ∧ (writeTails a0 a1 s).red = s.red ∧
      (writeTails a0 a1 s).pwr = s.pwr := by
  simp [writeTails]

@[simp] theorem launchNext_parts (a0 : Nat) (s : State) :
    (launchNext a0 s).nv = s.nv ∧ (launchNext a0 s).boot = s.boot ∧ (launchNext a0 s).mem = s.mem ∧ (launchNext a0 s).gau = s.gau ∧
      (launchNext a0 s).benches.links = s.benches.links ∧ (launchNext a0 s).benches.packets = s.benches.packets ∧
      (launchNext a0 s).opr = s.opr ∧ (launchNext a0 s).vid = s.vid ∧ (launchNext a0 s).red = s.red ∧ (launchNext a0 s).pwr = s.pwr := by
  simp only [launchNext]
  (repeat' split) <;> simp

@[simp] theorem prepareStep_parts (a0 : Nat) (a1 : StepKind) (a2 : Nat) (a3 : Nat) (a4 : Nat) (a5 : List (Nat × Nat)) (s : State) :
    (prepareStep a0 a1 a2 a3 a4 a5 s).2.boot = s.boot ∧ (prepareStep a0 a1 a2 a3 a4 a5 s).2.benches.links = s.benches.links ∧
      (prepareStep a0 a1 a2 a3 a4 a5 s).2.benches.packets = s.benches.packets ∧
      (prepareStep a0 a1 a2 a3 a4 a5 s).2.serve = s.serve ∧ (prepareStep a0 a1 a2 a3 a4 a5 s).2.opr = s.opr ∧
      (prepareStep a0 a1 a2 a3 a4 a5 s).2.vid = s.vid ∧ (prepareStep a0 a1 a2 a3 a4 a5 s).2.red = s.red ∧
      (prepareStep a0 a1 a2 a3 a4 a5 s).2.pwr = s.pwr := by
  simp only [prepareStep]
  (repeat' split) <;> simp

@[simp] theorem planStep_decodeStep_parts (a0 : Nat) (a1 : List (Nat × Request)) (s : State) :
    (planStep.decodeStep a0 a1 s).2.boot = s.boot ∧ (planStep.decodeStep a0 a1 s).2.benches.links = s.benches.links ∧
      (planStep.decodeStep a0 a1 s).2.benches.packets = s.benches.packets ∧ (planStep.decodeStep a0 a1 s).2.serve = s.serve ∧
      (planStep.decodeStep a0 a1 s).2.opr = s.opr ∧ (planStep.decodeStep a0 a1 s).2.vid = s.vid ∧
      (planStep.decodeStep a0 a1 s).2.red = s.red ∧ (planStep.decodeStep a0 a1 s).2.pwr = s.pwr := by
  simp only [planStep.decodeStep]
  (repeat' split) <;> simp

@[simp] theorem planStep_parts (a0 : Nat) (s : State) :
    (planStep a0 s).2.boot = s.boot ∧ (planStep a0 s).2.benches.links = s.benches.links ∧
      (planStep a0 s).2.benches.packets = s.benches.packets ∧ (planStep a0 s).2.serve = s.serve ∧
      (planStep a0 s).2.opr = s.opr ∧ (planStep a0 s).2.vid = s.vid ∧ (planStep a0 s).2.red = s.red ∧
      (planStep a0 s).2.pwr = s.pwr := by
  simp only [planStep]
  (repeat' split) <;> simp

@[simp] theorem startPlanned_parts (a0 : Nat) (a1 : Option Step) (s : State) :
    (startPlanned a0 a1 s).nv = s.nv ∧ (startPlanned a0 a1 s).boot = s.boot ∧ (startPlanned a0 a1 s).mem = s.mem ∧
      (startPlanned a0 a1 s).gau = s.gau ∧ (startPlanned a0 a1 s).benches.links = s.benches.links ∧
      (startPlanned a0 a1 s).benches.packets = s.benches.packets ∧ (startPlanned a0 a1 s).opr = s.opr ∧
      (startPlanned a0 a1 s).vid = s.vid ∧ (startPlanned a0 a1 s).red = s.red ∧ (startPlanned a0 a1 s).pwr = s.pwr := by
  simp only [startPlanned]
  (repeat' split) <;> simp

@[simp] theorem chooseStep_parts (a0 : Nat) (s : State) :
    (chooseStep a0 s).boot = s.boot ∧ (chooseStep a0 s).benches.links = s.benches.links ∧
      (chooseStep a0 s).benches.packets = s.benches.packets ∧ (chooseStep a0 s).opr = s.opr ∧ (chooseStep a0 s).vid = s.vid ∧
      (chooseStep a0 s).red = s.red ∧ (chooseStep a0 s).pwr = s.pwr := by
  simp only [chooseStep]
  (repeat' split) <;> simp

@[simp] theorem retryHeld_parts (a0 : Nat) (s : State) :
    (retryHeld a0 s).nv = s.nv ∧ (retryHeld a0 s).boot = s.boot ∧ (retryHeld a0 s).mem = s.mem ∧ (retryHeld a0 s).gau = s.gau ∧
      (retryHeld a0 s).benches = s.benches ∧ (retryHeld a0 s).serve = s.serve ∧ (retryHeld a0 s).opr = s.opr ∧
      (retryHeld a0 s).vid = s.vid ∧ (retryHeld a0 s).red = s.red ∧ (retryHeld a0 s).pwr = s.pwr := by
  simp [retryHeld]

@[simp] theorem boundary_atBoundary_parts (a0 : Nat) (a1 : List (Nat × Nat × Nat × Nat)) (s : State) :
    (boundary.atBoundary a0 a1 s).boot = s.boot ∧ (boundary.atBoundary a0 a1 s).benches.links = s.benches.links ∧
      (boundary.atBoundary a0 a1 s).benches.packets = s.benches.packets ∧ (boundary.atBoundary a0 a1 s).opr = s.opr ∧
      (boundary.atBoundary a0 a1 s).vid = s.vid ∧ (boundary.atBoundary a0 a1 s).pwr = s.pwr := by
  simp [boundary.atBoundary]

@[simp] theorem boundary_parts (a0 : Nat) (a1 : List (Nat × Nat × Nat × Nat)) (s : State) :
    (boundary a0 a1 s).boot = s.boot ∧ (boundary a0 a1 s).benches.links = s.benches.links ∧
      (boundary a0 a1 s).benches.packets = s.benches.packets ∧ (boundary a0 a1 s).opr = s.opr := by
  simp [boundary]

@[simp] theorem tdiError_parts (a0 : Nat) (s : State) :
    (tdiError a0 s).boot = s.boot ∧ (tdiError a0 s).benches.links = s.benches.links ∧
      (tdiError a0 s).benches.packets = s.benches.packets ∧ (tdiError a0 s).opr = s.opr ∧ (tdiError a0 s).vid = s.vid ∧
      (tdiError a0 s).red = s.red ∧ (tdiError a0 s).pwr = s.pwr := by
  simp [tdiError]

@[simp] theorem stageCtx_parts (a0 : Nat) (a1 : Staged) (a2 : Call) (s : State) :
    (stageCtx a0 a1 a2 s).s.boot = s.boot ∧ (stageCtx a0 a1 a2 s).s.benches.links = s.benches.links ∧
      (stageCtx a0 a1 a2 s).s.benches.packets = s.benches.packets ∧ (stageCtx a0 a1 a2 s).s.opr = s.opr ∧
      (stageCtx a0 a1 a2 s).s.vid = s.vid ∧ (stageCtx a0 a1 a2 s).s.red = s.red ∧ (stageCtx a0 a1 a2 s).s.pwr = s.pwr := by
  simp [stageCtx]

@[simp] theorem forwardRun_parts (a0 : AttCtx) (a1 : AttRun) (s : State) :
    (forwardRun a0 a1 s).2.boot = s.boot ∧ (forwardRun a0 a1 s).2.gau = s.gau ∧ (forwardRun a0 a1 s).2.benches = s.benches ∧
      (forwardRun a0 a1 s).2.serve = s.serve ∧ (forwardRun a0 a1 s).2.opr = s.opr ∧ (forwardRun a0 a1 s).2.vid = s.vid ∧
      (forwardRun a0 a1 s).2.red = s.red ∧ (forwardRun a0 a1 s).2.pwr = s.pwr := by
  simp only [forwardRun]
  (repeat' split) <;> simp

@[simp] theorem backwardRun_parts (a0 : AttCtx) (a1 : AttRun) (a2 : AttBack) (a3 : Nat) (s : State) :
    (backwardRun a0 a1 a2 a3 s).boot = s.boot ∧ (backwardRun a0 a1 a2 a3 s).gau = s.gau ∧
      (backwardRun a0 a1 a2 a3 s).benches = s.benches ∧ (backwardRun a0 a1 a2 a3 s).serve = s.serve ∧
      (backwardRun a0 a1 a2 a3 s).opr = s.opr ∧ (backwardRun a0 a1 a2 a3 s).vid = s.vid ∧
      (backwardRun a0 a1 a2 a3 s).red = s.red ∧ (backwardRun a0 a1 a2 a3 s).pwr = s.pwr := by
  simp [backwardRun]

@[simp] theorem attRun_parts (c : Nat) (p : Step) (acc : AttDone) (r : AttRun) :
    (attRun c p acc r).s.boot = acc.s.boot ∧
      (attRun c p acc r).s.benches = acc.s.benches ∧ (attRun c p acc r).s.serve = acc.s.serve ∧
      (attRun c p acc r).s.opr = acc.s.opr ∧ (attRun c p acc r).s.vid = acc.s.vid ∧ (attRun c p acc r).s.red = acc.s.red ∧
      (attRun c p acc r).s.pwr = acc.s.pwr := by
  simp only [attRun]
  (repeat' split) <;> simp

@[simp] theorem attRuns_parts (c : Nat) (p : Step) (l : List AttRun) (s : State) :
    (attRuns c p l s).s.boot = s.boot ∧ (attRuns c p l s).s.benches = s.benches ∧
      (attRuns c p l s).s.serve = s.serve ∧ (attRuns c p l s).s.opr = s.opr ∧ (attRuns c p l s).s.vid = s.vid ∧
      (attRuns c p l s).s.red = s.red ∧ (attRuns c p l s).s.pwr = s.pwr := by
  have h (a : AttDone) :
    (l.foldl (attRun c p) a).s.boot = a.s.boot ∧
      (l.foldl (attRun c p) a).s.benches = a.s.benches ∧ (l.foldl (attRun c p) a).s.serve = a.s.serve ∧
      (l.foldl (attRun c p) a).s.opr = a.s.opr ∧ (l.foldl (attRun c p) a).s.vid = a.s.vid ∧
      (l.foldl (attRun c p) a).s.red = a.s.red ∧ (l.foldl (attRun c p) a).s.pwr = a.s.pwr := by
    induction l generalizing a with
    | nil => simp
    | cons x r ih => simp [ih]
  exact h ⟨0, none, s⟩

@[simp] theorem noteChange_parts (a0 : Nat) (s : State) :
    (noteChange a0 s).nv = s.nv ∧ (noteChange a0 s).boot = s.boot ∧ (noteChange a0 s).mem = s.mem ∧ (noteChange a0 s).gau = s.gau ∧
      (noteChange a0 s).benches = s.benches ∧ (noteChange a0 s).opr = s.opr ∧ (noteChange a0 s).vid = s.vid ∧
      (noteChange a0 s).red = s.red ∧ (noteChange a0 s).pwr = s.pwr := by
  simp [noteChange]

@[simp] theorem execReqRingSet_define_parts (a0 : Nat) (a1 : RingPar) (s : State) :
    (execReqRingSet.define a0 a1 s).s.nv = s.nv ∧ (execReqRingSet.define a0 a1 s).s.boot = s.boot ∧
      (execReqRingSet.define a0 a1 s).s.mem = s.mem ∧ (execReqRingSet.define a0 a1 s).s.gau = s.gau ∧
      (execReqRingSet.define a0 a1 s).s.benches = s.benches ∧ (execReqRingSet.define a0 a1 s).s.opr = s.opr ∧
      (execReqRingSet.define a0 a1 s).s.vid = s.vid ∧ (execReqRingSet.define a0 a1 s).s.red = s.red ∧
      (execReqRingSet.define a0 a1 s).s.pwr = s.pwr := by
  simp [execReqRingSet.define]

@[simp] theorem startVen_parts (a0 : Nat) (a1 : Veneer) (s : State) :
    (startVen a0 a1 s).s.nv = s.nv ∧ (startVen a0 a1 s).s.boot = s.boot ∧ (startVen a0 a1 s).s.mem = s.mem ∧
      (startVen a0 a1 s).s.gau = s.gau ∧ (startVen a0 a1 s).s.benches = s.benches ∧ (startVen a0 a1 s).s.opr = s.opr ∧
      (startVen a0 a1 s).s.vid = s.vid ∧ (startVen a0 a1 s).s.red = s.red ∧ (startVen a0 a1 s).s.pwr = s.pwr := by
  simp [startVen]

@[simp] theorem loadVen_parts (a0 : Nat) (a1 : VenPar) (a2 : Bool) (s : State) :
    (loadVen a0 a1 a2 s).s.boot = s.boot ∧ (loadVen a0 a1 a2 s).s.benches.links = s.benches.links ∧
      (loadVen a0 a1 a2 s).s.benches.packets = s.benches.packets ∧ (loadVen a0 a1 a2 s).s.opr = s.opr ∧
      (loadVen a0 a1 a2 s).s.vid = s.vid ∧ (loadVen a0 a1 a2 s).s.red = s.red ∧ (loadVen a0 a1 a2 s).s.pwr = s.pwr := by
  simp only [loadVen]
  (repeat' split) <;> simp

@[simp] theorem retireOld_parts (a0 : Nat) (a1 : Nat) (a2 : Nat) (s : State) :
    (retireOld a0 a1 a2 s).nv = s.nv ∧ (retireOld a0 a1 a2 s).boot = s.boot ∧ (retireOld a0 a1 a2 s).mem = s.mem ∧
      (retireOld a0 a1 a2 s).gau = s.gau ∧ (retireOld a0 a1 a2 s).benches = s.benches ∧ (retireOld a0 a1 a2 s).opr = s.opr ∧
      (retireOld a0 a1 a2 s).vid = s.vid ∧ (retireOld a0 a1 a2 s).red = s.red ∧ (retireOld a0 a1 a2 s).pwr = s.pwr := by
  simp only [retireOld]
  (repeat' split) <;> simp

@[simp] theorem pickTokens_parts (a0 : SamplerPar) (a1 : List (Nat × Nat)) (a2 : Nat) (a3 : Nat) (a4 : Nat) (a5 : Nat) (a6 : List Nat) (a7 : List Logits) (a8 : List Logits) (s : State) :
    (pickTokens a0 a1 a2 a3 a4 a5 a6 a7 a8 s).2.2.2.nv = s.nv ∧ (pickTokens a0 a1 a2 a3 a4 a5 a6 a7 a8 s).2.2.2.boot = s.boot ∧
      (pickTokens a0 a1 a2 a3 a4 a5 a6 a7 a8 s).2.2.2.mem = s.mem ∧ (pickTokens a0 a1 a2 a3 a4 a5 a6 a7 a8 s).2.2.2.gau = s.gau ∧
      (pickTokens a0 a1 a2 a3 a4 a5 a6 a7 a8 s).2.2.2.benches = s.benches ∧
      (pickTokens a0 a1 a2 a3 a4 a5 a6 a7 a8 s).2.2.2.serve = s.serve ∧ (pickTokens a0 a1 a2 a3 a4 a5 a6 a7 a8 s).2.2.2.opr = s.opr ∧
      (pickTokens a0 a1 a2 a3 a4 a5 a6 a7 a8 s).2.2.2.vid = s.vid ∧ (pickTokens a0 a1 a2 a3 a4 a5 a6 a7 a8 s).2.2.2.red = s.red ∧
      (pickTokens a0 a1 a2 a3 a4 a5 a6 a7 a8 s).2.2.2.pwr = s.pwr := by
  induction a4 generalizing a5 a6 a7 a8 s with
  | zero => simp [pickTokens]
  | succ n ih =>
    cases a7 with
    | nil => simp [pickTokens]
    | cons m ms =>
      simp only [pickTokens]
      (repeat' split) <;> simp [ih]

@[simp] theorem samplerFault_parts (a0 : Nat) (a1 : Nat) (a2 : Nat) (s : State) :
    (samplerFault a0 a1 a2 s).nv = s.nv ∧ (samplerFault a0 a1 a2 s).boot = s.boot ∧ (samplerFault a0 a1 a2 s).mem = s.mem ∧
      (samplerFault a0 a1 a2 s).gau = s.gau ∧ (samplerFault a0 a1 a2 s).benches = s.benches ∧ (samplerFault a0 a1 a2 s).opr = s.opr ∧
      (samplerFault a0 a1 a2 s).vid = s.vid ∧ (samplerFault a0 a1 a2 s).red = s.red ∧ (samplerFault a0 a1 a2 s).pwr = s.pwr := by
  simp [samplerFault]

@[simp] theorem settleDecode_parts (a0 : Nat) (a1 : Nat) (a2 : Nat) (a3 : StepOut) (s : State) :
    (settleDecode a0 a1 a2 a3 s).nv = s.nv ∧ (settleDecode a0 a1 a2 a3 s).boot = s.boot ∧ (settleDecode a0 a1 a2 a3 s).mem = s.mem ∧
      (settleDecode a0 a1 a2 a3 s).gau = s.gau ∧ (settleDecode a0 a1 a2 a3 s).benches = s.benches ∧
      (settleDecode a0 a1 a2 a3 s).opr = s.opr ∧ (settleDecode a0 a1 a2 a3 s).vid = s.vid ∧ (settleDecode a0 a1 a2 a3 s).red = s.red ∧
      (settleDecode a0 a1 a2 a3 s).pwr = s.pwr := by
  simp only [settleDecode]
  (repeat' split) <;> simp

@[simp] theorem settlePrefill_parts (a0 : Nat) (a1 : Nat) (a2 : Nat) (a3 : StepOut) (s : State) :
    (settlePrefill a0 a1 a2 a3 s).nv = s.nv ∧ (settlePrefill a0 a1 a2 a3 s).boot = s.boot ∧ (settlePrefill a0 a1 a2 a3 s).mem = s.mem ∧
      (settlePrefill a0 a1 a2 a3 s).gau = s.gau ∧ (settlePrefill a0 a1 a2 a3 s).benches = s.benches ∧
      (settlePrefill a0 a1 a2 a3 s).opr = s.opr ∧ (settlePrefill a0 a1 a2 a3 s).vid = s.vid ∧
      (settlePrefill a0 a1 a2 a3 s).red = s.red ∧ (settlePrefill a0 a1 a2 a3 s).pwr = s.pwr := by
  simp only [settlePrefill]
  (repeat' split) <;> simp

@[simp] theorem modModel_parts (a0 : Nat) (a1 : Nat) (a2 : Model → Model) (s : State) :
    (modModel a0 a1 a2 s).nv = s.nv ∧ (modModel a0 a1 a2 s).boot = s.boot ∧ (modModel a0 a1 a2 s).mem = s.mem ∧
      (modModel a0 a1 a2 s).gau = s.gau ∧ (modModel a0 a1 a2 s).benches = s.benches ∧ (modModel a0 a1 a2 s).opr = s.opr ∧
      (modModel a0 a1 a2 s).vid = s.vid ∧ (modModel a0 a1 a2 s).red = s.red ∧ (modModel a0 a1 a2 s).pwr = s.pwr := by
  simp [modModel]

@[simp] theorem stepFaults_parts (a0 : Nat) (a1 : Nat) (a2 : Nat) (a3 : Step) (s : State) :
    (stepFaults a0 a1 a2 a3 s).nv = s.nv ∧ (stepFaults a0 a1 a2 a3 s).boot = s.boot ∧ (stepFaults a0 a1 a2 a3 s).mem = s.mem ∧
      (stepFaults a0 a1 a2 a3 s).gau = s.gau ∧ (stepFaults a0 a1 a2 a3 s).benches = s.benches ∧
      (stepFaults a0 a1 a2 a3 s).opr = s.opr ∧ (stepFaults a0 a1 a2 a3 s).vid = s.vid ∧ (stepFaults a0 a1 a2 a3 s).red = s.red ∧
      (stepFaults a0 a1 a2 a3 s).pwr = s.pwr := by
  simp only [stepFaults]
  (repeat' split) <;> simp

@[simp] theorem settleStep_parts (a0 : Nat) (a1 : Step) (a2 : List StepOut) (s : State) :
    (settleStep a0 a1 a2 s).nv = s.nv ∧ (settleStep a0 a1 a2 s).boot = s.boot ∧ (settleStep a0 a1 a2 s).mem = s.mem ∧
      (settleStep a0 a1 a2 s).gau = s.gau ∧ (settleStep a0 a1 a2 s).benches = s.benches ∧ (settleStep a0 a1 a2 s).opr = s.opr ∧
      (settleStep a0 a1 a2 s).vid = s.vid ∧ (settleStep a0 a1 a2 s).red = s.red ∧ (settleStep a0 a1 a2 s).pwr = s.pwr := by
  unfold settleStep
  (try dsimp only)
  refine ⟨?_, ?_, ?_, ?_, ?_, ?_, ?_, ?_, ?_⟩
  · exact foldl_nv (fun s a => by (try dsimp only); (repeat' split) <;> simp) _ _
  · exact foldl_boot (fun s a => by (try dsimp only); (repeat' split) <;> simp) _ _
  · exact foldl_mem (fun s a => by (try dsimp only); (repeat' split) <;> simp) _ _
  · exact foldl_gau (fun s a => by (try dsimp only); (repeat' split) <;> simp) _ _
  · exact foldl_benches (fun s a => by (try dsimp only); (repeat' split) <;> simp) _ _
  · exact foldl_opr (fun s a => by (try dsimp only); (repeat' split) <;> simp) _ _
  · exact foldl_vid (fun s a => by (try dsimp only); (repeat' split) <;> simp) _ _
  · exact foldl_red (fun s a => by (try dsimp only); (repeat' split) <;> simp) _ _
  · exact foldl_pwr (fun s a => by (try dsimp only); (repeat' split) <;> simp) _ _

@[simp] theorem trainSlot_parts (a0 : Nat) (a1 : Option (List Byte × List Byte)) (s : State) :
    (trainSlot a0 a1 s).boot = s.boot ∧ (trainSlot a0 a1 s).benches.links = s.benches.links ∧
      (trainSlot a0 a1 s).benches.packets = s.benches.packets ∧ (trainSlot a0 a1 s).opr = s.opr ∧
      (trainSlot a0 a1 s).vid = s.vid ∧ (trainSlot a0 a1 s).red = s.red ∧ (trainSlot a0 a1 s).pwr = s.pwr := by
  simp only [trainSlot]
  (repeat' split) <;> simp

@[simp] theorem stepPoison_parts (a0 : Nat) (a1 : Step) (a2 : Nat) (s : State) :
    (stepPoison a0 a1 a2 s).nv = s.nv ∧ (stepPoison a0 a1 a2 s).boot = s.boot ∧ (stepPoison a0 a1 a2 s).mem = s.mem ∧
      (stepPoison a0 a1 a2 s).gau = s.gau ∧ (stepPoison a0 a1 a2 s).benches = s.benches ∧
      (stepPoison a0 a1 a2 s).serve = s.serve ∧ (stepPoison a0 a1 a2 s).opr = s.opr ∧ (stepPoison a0 a1 a2 s).vid = s.vid ∧
      (stepPoison a0 a1 a2 s).red = s.red ∧ (stepPoison a0 a1 a2 s).pwr = s.pwr := by
  simp [stepPoison]

@[simp] theorem workDone_parts (a0 : Nat) (a1 : Step) (a2 : List AttRun) (a3 : StepFate) (s : State) :
    (workDone a0 a1 a2 a3 s).2.boot = s.boot ∧ (workDone a0 a1 a2 a3 s).2.benches = s.benches ∧
      (workDone a0 a1 a2 a3 s).2.opr = s.opr ∧ (workDone a0 a1 a2 a3 s).2.vid = s.vid ∧ (workDone a0 a1 a2 a3 s).2.red = s.red ∧
      (workDone a0 a1 a2 a3 s).2.pwr = s.pwr := by
  simp only [workDone, foldN]
  (repeat' split) <;> simp

@[simp] theorem stepOver_parts (a0 : Nat) (a1 : Step) (s : State) :
    (stepOver a0 a1 s).nv = s.nv ∧ (stepOver a0 a1 s).boot = s.boot ∧ (stepOver a0 a1 s).mem = s.mem ∧
      (stepOver a0 a1 s).gau = s.gau ∧ (stepOver a0 a1 s).benches.links = s.benches.links ∧
      (stepOver a0 a1 s).benches.packets = s.benches.packets ∧ (stepOver a0 a1 s).opr = s.opr ∧ (stepOver a0 a1 s).vid = s.vid ∧
      (stepOver a0 a1 s).red = s.red ∧ (stepOver a0 a1 s).pwr = s.pwr := by
  simp [stepOver]

@[simp] theorem stepRunEnded_parts (a0 : Run) (s : State) :
    (stepRunEnded a0 s).nv = s.nv ∧ (stepRunEnded a0 s).boot = s.boot ∧ (stepRunEnded a0 s).mem = s.mem ∧
      (stepRunEnded a0 s).gau = s.gau ∧ (stepRunEnded a0 s).benches.links = s.benches.links ∧
      (stepRunEnded a0 s).benches.packets = s.benches.packets ∧ (stepRunEnded a0 s).opr = s.opr ∧ (stepRunEnded a0 s).vid = s.vid ∧
      (stepRunEnded a0 s).red = s.red ∧ (stepRunEnded a0 s).pwr = s.pwr := by
  simp only [stepRunEnded]
  (repeat' split) <;> simp

@[simp] theorem dropOp_parts (a0 : NetOp) (s : State) :
    (dropOp a0 s).nv = s.nv ∧ (dropOp a0 s).boot = s.boot ∧ (dropOp a0 s).mem = s.mem ∧ (dropOp a0 s).gau = s.gau ∧
      (dropOp a0 s).benches = s.benches ∧ (dropOp a0 s).serve = s.serve ∧ (dropOp a0 s).opr = s.opr ∧ (dropOp a0 s).vid = s.vid ∧
      (dropOp a0 s).red = s.red ∧ (dropOp a0 s).pwr = s.pwr := by
  simp [dropOp]

@[simp] theorem endWith_parts (a0 : Nat) (a1 : Nat) (a2 : Ending) (s : State) :
    (endWith a0 a1 a2 s).nv = s.nv ∧ (endWith a0 a1 a2 s).boot = s.boot ∧ (endWith a0 a1 a2 s).mem = s.mem ∧
      (endWith a0 a1 a2 s).gau = s.gau ∧ (endWith a0 a1 a2 s).benches = s.benches ∧ (endWith a0 a1 a2 s).opr = s.opr ∧
      (endWith a0 a1 a2 s).vid = s.vid ∧ (endWith a0 a1 a2 s).red = s.red ∧ (endWith a0 a1 a2 s).pwr = s.pwr := by
  simp [endWith]

@[simp] theorem failOp_parts (a0 : NetOp) (a1 : Nat) (a2 : Option Nat) (s : State) :
    (failOp a0 a1 a2 s).nv = s.nv ∧ (failOp a0 a1 a2 s).boot = s.boot ∧ (failOp a0 a1 a2 s).mem = s.mem ∧
      (failOp a0 a1 a2 s).gau = s.gau ∧ (failOp a0 a1 a2 s).benches.links = s.benches.links ∧
      (failOp a0 a1 a2 s).benches.packets = s.benches.packets ∧ (failOp a0 a1 a2 s).opr = s.opr ∧ (failOp a0 a1 a2 s).vid = s.vid ∧
      (failOp a0 a1 a2 s).red = s.red ∧ (failOp a0 a1 a2 s).pwr = s.pwr := by
  simp only [failOp]
  (repeat' split) <;> simp

@[simp] theorem completeOpOf_parts (a0 : Nat) (a1 : Sent) (s : State) :
    (completeOpOf a0 a1 s).boot = s.boot ∧ (completeOpOf a0 a1 s).benches.links = s.benches.links ∧
      (completeOpOf a0 a1 s).benches.packets = s.benches.packets ∧ (completeOpOf a0 a1 s).opr = s.opr := by
  simp only [completeOpOf]
  (repeat' split) <;> simp

@[simp] theorem ackLane_parts (a0 : Nat) (a1 : Nat) (a2 : Nat) (a3 : Bool) (s : State) :
    (ackLane a0 a1 a2 a3 s).boot = s.boot ∧ (ackLane a0 a1 a2 a3 s).benches.links = s.benches.links ∧
      (ackLane a0 a1 a2 a3 s).benches.packets = s.benches.packets ∧ (ackLane a0 a1 a2 a3 s).opr = s.opr := by
  simp [ackLane]

@[simp] theorem sendAck_parts (a0 : Nat) (s : State) :
    (sendAck a0 s).nv = s.nv ∧ (sendAck a0 s).boot = s.boot ∧ (sendAck a0 s).mem = s.mem ∧ (sendAck a0 s).gau = s.gau ∧
      (sendAck a0 s).benches = s.benches ∧ (sendAck a0 s).serve = s.serve ∧ (sendAck a0 s).opr = s.opr ∧ (sendAck a0 s).vid = s.vid ∧
      (sendAck a0 s).red = s.red ∧ (sendAck a0 s).pwr = s.pwr := by
  simp [sendAck]

@[simp] theorem resendLane_parts (a0 : Nat) (s : State) :
    (resendLane a0 s).nv = s.nv ∧ (resendLane a0 s).boot = s.boot ∧ (resendLane a0 s).mem = s.mem ∧ (resendLane a0 s).gau = s.gau ∧
      (resendLane a0 s).benches = s.benches ∧ (resendLane a0 s).serve = s.serve ∧ (resendLane a0 s).opr = s.opr ∧
      (resendLane a0 s).vid = s.vid ∧ (resendLane a0 s).red = s.red ∧ (resendLane a0 s).pwr = s.pwr := by
  simp [resendLane]

@[simp] theorem failLaneOps_parts (a0 : Nat) (a1 : Nat) (s : State) :
    (failLaneOps a0 a1 s).nv = s.nv ∧ (failLaneOps a0 a1 s).boot = s.boot ∧ (failLaneOps a0 a1 s).mem = s.mem ∧
      (failLaneOps a0 a1 s).gau = s.gau ∧ (failLaneOps a0 a1 s).benches.links = s.benches.links ∧
      (failLaneOps a0 a1 s).benches.packets = s.benches.packets ∧ (failLaneOps a0 a1 s).opr = s.opr ∧
      (failLaneOps a0 a1 s).vid = s.vid ∧ (failLaneOps a0 a1 s).red = s.red ∧ (failLaneOps a0 a1 s).pwr = s.pwr := by
  simp [failLaneOps]

@[simp] theorem laneDown_parts (a0 : Nat) (s : State) :
    (laneDown a0 s).nv = s.nv ∧ (laneDown a0 s).boot = s.boot ∧ (laneDown a0 s).mem = s.mem ∧ (laneDown a0 s).gau = s.gau ∧
      (laneDown a0 s).benches.links = s.benches.links ∧ (laneDown a0 s).benches.packets = s.benches.packets ∧
      (laneDown a0 s).opr = s.opr ∧ (laneDown a0 s).vid = s.vid ∧ (laneDown a0 s).red = s.red ∧ (laneDown a0 s).pwr = s.pwr := by
  simp [laneDown]

@[simp] theorem closeLane_parts (a0 : Nat) (a1 : Nat) (s : State) :
    (closeLane a0 a1 s).nv = s.nv ∧ (closeLane a0 a1 s).boot = s.boot ∧ (closeLane a0 a1 s).mem = s.mem ∧
      (closeLane a0 a1 s).gau = s.gau ∧ (closeLane a0 a1 s).benches.links = s.benches.links ∧
      (closeLane a0 a1 s).benches.packets = s.benches.packets ∧ (closeLane a0 a1 s).opr = s.opr ∧ (closeLane a0 a1 s).vid = s.vid ∧
      (closeLane a0 a1 s).red = s.red ∧ (closeLane a0 a1 s).pwr = s.pwr := by
  simp [closeLane]

@[simp] theorem reopenLane_parts (a0 : Nat) (s : State) :
    (reopenLane a0 s).nv = s.nv ∧ (reopenLane a0 s).boot = s.boot ∧ (reopenLane a0 s).mem = s.mem ∧ (reopenLane a0 s).gau = s.gau ∧
      (reopenLane a0 s).benches = s.benches ∧ (reopenLane a0 s).serve = s.serve ∧ (reopenLane a0 s).opr = s.opr ∧
      (reopenLane a0 s).vid = s.vid ∧ (reopenLane a0 s).red = s.red ∧ (reopenLane a0 s).pwr = s.pwr := by
  simp [reopenLane]

@[simp] theorem laneUp_parts (a0 : Nat) (a1 : Nat) (a2 : Nat) (s : State) :
    (laneUp a0 a1 a2 s).nv = s.nv ∧ (laneUp a0 a1 a2 s).boot = s.boot ∧ (laneUp a0 a1 a2 s).mem = s.mem ∧
      (laneUp a0 a1 a2 s).gau = s.gau ∧ (laneUp a0 a1 a2 s).benches.links = s.benches.links ∧
      (laneUp a0 a1 a2 s).benches.packets = s.benches.packets ∧ (laneUp a0 a1 a2 s).opr = s.opr ∧ (laneUp a0 a1 a2 s).vid = s.vid ∧
      (laneUp a0 a1 a2 s).red = s.red ∧ (laneUp a0 a1 a2 s).pwr = s.pwr := by
  unfold laneUp
  (try dsimp only)
  refine ⟨?_, ?_, ?_, ?_, ?_, ?_, ?_, ?_, ?_, ?_⟩
  · simp; exact (foldl_nv (fun s a => by (try dsimp only); (repeat' split) <;> simp) _ _).trans (by simp)
  · simp; exact (foldl_boot (fun s a => by (try dsimp only); (repeat' split) <;> simp) _ _).trans (by simp)
  · simp; exact (foldl_mem (fun s a => by (try dsimp only); (repeat' split) <;> simp) _ _).trans (by simp)
  · simp; exact (foldl_gau (fun s a => by (try dsimp only); (repeat' split) <;> simp) _ _).trans (by simp)
  · simp; exact (foldl_benches_links (fun s a => by (try dsimp only); (repeat' split) <;> simp) _ _).trans (by simp)
  · simp; exact (foldl_benches_packets (fun s a => by (try dsimp only); (repeat' split) <;> simp) _ _).trans (by simp)
  · simp; exact (foldl_opr (fun s a => by (try dsimp only); (repeat' split) <;> simp) _ _).trans (by simp)
  · simp; exact (foldl_vid (fun s a => by (try dsimp only); (repeat' split) <;> simp) _ _).trans (by simp)
  · simp; exact (foldl_red (fun s a => by (try dsimp only); (repeat' split) <;> simp) _ _).trans (by simp)
  · simp; exact (foldl_pwr (fun s a => by (try dsimp only); (repeat' split) <;> simp) _ _).trans (by simp)

@[simp] theorem quarantinePeer_parts (a0 : Nat) (s : State) :
    (quarantinePeer a0 s).nv = s.nv ∧ (quarantinePeer a0 s).boot = s.boot ∧ (quarantinePeer a0 s).mem = s.mem ∧
      (quarantinePeer a0 s).gau = s.gau ∧ (quarantinePeer a0 s).benches.links = s.benches.links ∧
      (quarantinePeer a0 s).benches.packets = s.benches.packets ∧ (quarantinePeer a0 s).opr = s.opr ∧
      (quarantinePeer a0 s).vid = s.vid ∧ (quarantinePeer a0 s).red = s.red ∧ (quarantinePeer a0 s).pwr = s.pwr := by
  simp [quarantinePeer]

@[simp] theorem peerViolation_parts (a0 : Nat) (a1 : Nat) (a2 : Nat) (a3 : Bool) (s : State) :
    (peerViolation a0 a1 a2 a3 s).nv = s.nv ∧ (peerViolation a0 a1 a2 a3 s).boot = s.boot ∧ (peerViolation a0 a1 a2 a3 s).mem = s.mem ∧
      (peerViolation a0 a1 a2 a3 s).gau = s.gau ∧ (peerViolation a0 a1 a2 a3 s).benches.links = s.benches.links ∧
      (peerViolation a0 a1 a2 a3 s).benches.packets = s.benches.packets ∧ (peerViolation a0 a1 a2 a3 s).opr = s.opr ∧
      (peerViolation a0 a1 a2 a3 s).vid = s.vid ∧ (peerViolation a0 a1 a2 a3 s).red = s.red ∧
      (peerViolation a0 a1 a2 a3 s).pwr = s.pwr := by
  simp [peerViolation]

@[simp] theorem dropFrame_parts (a0 : Nat) (s : State) :
    (dropFrame a0 s).nv = s.nv ∧ (dropFrame a0 s).boot = s.boot ∧ (dropFrame a0 s).mem = s.mem ∧ (dropFrame a0 s).gau = s.gau ∧
      (dropFrame a0 s).benches = s.benches ∧ (dropFrame a0 s).serve = s.serve ∧ (dropFrame a0 s).opr = s.opr ∧
      (dropFrame a0 s).vid = s.vid ∧ (dropFrame a0 s).red = s.red ∧ (dropFrame a0 s).pwr = s.pwr := by
  simp [dropFrame]

@[simp] theorem dropMalformed_parts (a0 : Nat) (s : State) :
    (dropMalformed a0 s).nv = s.nv ∧ (dropMalformed a0 s).boot = s.boot ∧ (dropMalformed a0 s).mem = s.mem ∧
      (dropMalformed a0 s).gau = s.gau ∧ (dropMalformed a0 s).benches.links = s.benches.links ∧
      (dropMalformed a0 s).benches.packets = s.benches.packets ∧ (dropMalformed a0 s).opr = s.opr ∧ (dropMalformed a0 s).vid = s.vid ∧
      (dropMalformed a0 s).red = s.red ∧ (dropMalformed a0 s).pwr = s.pwr := by
  simp [dropMalformed]

@[simp] theorem unknownPeer_parts (a0 : XMsg) (s : State) :
    (unknownPeer a0 s).nv = s.nv ∧ (unknownPeer a0 s).boot = s.boot ∧ (unknownPeer a0 s).mem = s.mem ∧ (unknownPeer a0 s).gau = s.gau ∧
      (unknownPeer a0 s).benches = s.benches ∧ (unknownPeer a0 s).serve = s.serve ∧ (unknownPeer a0 s).opr = s.opr ∧
      (unknownPeer a0 s).vid = s.vid ∧ (unknownPeer a0 s).red = s.red ∧ (unknownPeer a0 s).pwr = s.pwr := by
  simp [unknownPeer]

@[simp] theorem portTakes_parts (a0 : XMsg) (s : State) :
    (portTakes a0 s).2.nv = s.nv ∧ (portTakes a0 s).2.boot = s.boot ∧ (portTakes a0 s).2.mem = s.mem ∧ (portTakes a0 s).2.gau = s.gau ∧
      (portTakes a0 s).2.benches = s.benches ∧ (portTakes a0 s).2.serve = s.serve ∧ (portTakes a0 s).2.opr = s.opr ∧
      (portTakes a0 s).2.vid = s.vid ∧ (portTakes a0 s).2.red = s.red ∧ (portTakes a0 s).2.pwr = s.pwr := by
  simp only [portTakes]
  (repeat' split) <;> simp

@[simp] theorem acceptMsg_parts (a0 : XMsg) (s : State) :
    (acceptMsg a0 s).2.nv = s.nv ∧ (acceptMsg a0 s).2.boot = s.boot ∧ (acceptMsg a0 s).2.mem = s.mem ∧ (acceptMsg a0 s).2.gau = s.gau ∧
      (acceptMsg a0 s).2.benches.links = s.benches.links ∧ (acceptMsg a0 s).2.benches.packets = s.benches.packets ∧
      (acceptMsg a0 s).2.opr = s.opr ∧ (acceptMsg a0 s).2.vid = s.vid ∧ (acceptMsg a0 s).2.red = s.red ∧
      (acceptMsg a0 s).2.pwr = s.pwr := by
  simp only [acceptMsg]
  (repeat' split) <;> simp

theorem receiveModule_gen {β : Type} (g : State → β) (h1 : ∀ m s, g (portTakes m s).2 = g s) (h2 : ∀ m s, g (acceptMsg m s).2 = g s)
    (h3 : ∀ n a c e s, g (ackLane n a c e s) = g s) (h6 : ∀ i s, g (takeInput i s) = g s) (m : XMsg) (body : State → State) (s : State) (hb : ∀ s, g (body s) = g s) :
    g (receiveModule m body s) = g s := by
  have h4 := h1 m s
  unfold receiveModule
  split
  · next e => rw [e] at h4; exact h4
  · next u e =>
    rw [e] at h4
    have h5 := h2 m u
    split
    · next e => rw [e] at h5; exact h5.trans h4
    · next e =>
      rw [e] at h5
      rw [hb]
      split
      · rw [h3, h6]; exact h5.trans h4
      · rw [h6]; exact h5.trans h4

@[simp] theorem receiveModule_boot {m : XMsg} {body : State → State} {s : State} (hb : ∀ s, (body s).boot = s.boot) : (receiveModule m body s).boot = s.boot :=
  receiveModule_gen (·.boot) (by simp) (by simp) (by simp) (by simp) m body s hb

@[simp] theorem receiveModule_benches_links {m : XMsg} {body : State → State} {s : State} (hb : ∀ s, (body s).benches.links = s.benches.links) : (receiveModule m body s).benches.links = s.benches.links :=
  receiveModule_gen (·.benches.links) (by simp) (by simp) (by simp) (by simp) m body s hb

@[simp] theorem receiveModule_benches_packets {m : XMsg} {body : State → State} {s : State} (hb : ∀ s, (body s).benches.packets = s.benches.packets) : (receiveModule m body s).benches.packets = s.benches.packets :=
  receiveModule_gen (·.benches.packets) (by simp) (by simp) (by simp) (by simp) m body s hb

@[simp] theorem receiveModule_opr {m : XMsg} {body : State → State} {s : State} (hb : ∀ s, (body s).opr = s.opr) : (receiveModule m body s).opr = s.opr :=
  receiveModule_gen (·.opr) (by simp) (by simp) (by simp) (by simp) m body s hb

@[simp] theorem acknowledge_parts (a0 : Nat) (a1 : Bool) (s : State) :
    (acknowledge a0 a1 s).nv = s.nv ∧ (acknowledge a0 a1 s).boot = s.boot ∧ (acknowledge a0 a1 s).mem = s.mem ∧
      (acknowledge a0 a1 s).gau = s.gau ∧ (acknowledge a0 a1 s).benches = s.benches ∧ (acknowledge a0 a1 s).serve = s.serve ∧
      (acknowledge a0 a1 s).opr = s.opr ∧ (acknowledge a0 a1 s).vid = s.vid ∧ (acknowledge a0 a1 s).red = s.red ∧
      (acknowledge a0 a1 s).pwr = s.pwr := by
  simp [acknowledge]

@[simp] theorem refuseSeq_parts (a0 : XMsg) (a1 : SeqCheck) (s : State) :
    (refuseSeq a0 a1 s).nv = s.nv ∧ (refuseSeq a0 a1 s).boot = s.boot ∧ (refuseSeq a0 a1 s).mem = s.mem ∧
      (refuseSeq a0 a1 s).gau = s.gau ∧ (refuseSeq a0 a1 s).benches.links = s.benches.links ∧
      (refuseSeq a0 a1 s).benches.packets = s.benches.packets ∧ (refuseSeq a0 a1 s).opr = s.opr ∧ (refuseSeq a0 a1 s).vid = s.vid ∧
      (refuseSeq a0 a1 s).red = s.red ∧ (refuseSeq a0 a1 s).pwr = s.pwr := by
  simp only [refuseSeq]
  (repeat' split) <;> simp

@[simp] theorem laneDone_parts (m : XMsg) (r : Option Nat × State) :
    (laneDone m r).nv = r.2.nv ∧ (laneDone m r).boot = r.2.boot ∧ (laneDone m r).mem = r.2.mem ∧ (laneDone m r).gau = r.2.gau ∧
      (laneDone m r).benches = r.2.benches ∧ (laneDone m r).serve = r.2.serve ∧ (laneDone m r).opr = r.2.opr ∧
      (laneDone m r).vid = r.2.vid ∧ (laneDone m r).red = r.2.red ∧ (laneDone m r).pwr = r.2.pwr := by
  obtain ⟨_ | _, _⟩ := r <;> simp [laneDone]

@[simp] theorem takeAck_parts (a0 : XMsg) (s : State) :
    (takeAck a0 s).boot = s.boot ∧ (takeAck a0 s).benches.links = s.benches.links ∧
      (takeAck a0 s).benches.packets = s.benches.packets ∧ (takeAck a0 s).opr = s.opr := by
  simp [takeAck]

@[simp] theorem expectNext_parts (a0 : XMsg) (s : State) :
    (expectNext a0 s).nv = s.nv ∧ (expectNext a0 s).boot = s.boot ∧ (expectNext a0 s).mem = s.mem ∧ (expectNext a0 s).gau = s.gau ∧
      (expectNext a0 s).benches = s.benches ∧ (expectNext a0 s).serve = s.serve ∧ (expectNext a0 s).opr = s.opr ∧
      (expectNext a0 s).vid = s.vid ∧ (expectNext a0 s).red = s.red ∧ (expectNext a0 s).pwr = s.pwr := by
  simp [expectNext]

theorem receiveLane_gen {β : Type} (g : State → β) (h1 : ∀ m s, g (portTakes m s).2 = g s) (h2 : ∀ m s, g (acceptMsg m s).2 = g s)
    (h3 : ∀ m s, g (takeAck m s) = g s) (h4 : ∀ m s, g (dropMalformed m s) = g s) (h5 : ∀ m c s, g (refuseSeq m c s) = g s)
    (h6 : ∀ m s, g (expectNext m s) = g s) (h7 : ∀ m r, g (laneDone m r) = g r.2) (m : XMsg) (r : CheckRule) (d : Bool)
    (body : State → Option Nat × State) (s : State) (hb : ∀ s, g (body s).2 = g s) : g (receiveLane m r d body s) = g s := by
  have a1 := h1 m s
  unfold receiveLane
  split
  · next e => rw [e] at a1; exact a1
  · next u e =>
    rw [e] at a1
    split
    · rw [h4]; exact a1
    · have a2 := h2 m u
      split
      · next e => rw [e] at a2; exact a2.trans a1
      · next e =>
        rw [e] at a2
        dsimp only
        split
        · exact a2.trans a1
        · split
          · rw [h7, hb, h6, h3]; exact a2.trans a1
          · rw [h5, h3]; exact a2.trans a1

@[simp] theorem receiveLane_boot {m : XMsg} {r : CheckRule} {d : Bool} {body : State → Option Nat × State} {s : State} (hb : ∀ s, (body s).2.boot = s.boot) : (receiveLane m r d body s).boot = s.boot :=
  receiveLane_gen (·.boot) (by simp) (by simp) (by simp) (by simp) (by simp) (by simp) (by simp) m r d body s hb

@[simp] theorem receiveLane_benches_links {m : XMsg} {r : CheckRule} {d : Bool} {body : State → Option Nat × State} {s : State} (hb : ∀ s, (body s).2.benches.links = s.benches.links) : (receiveLane m r d body s).benches.links = s.benches.links :=
  receiveLane_gen (·.benches.links) (by simp) (by simp) (by simp) (by simp) (by simp) (by simp) (by simp) m r d body s hb

@[simp] theorem receiveLane_benches_packets {m : XMsg} {r : CheckRule} {d : Bool} {body : State → Option Nat × State} {s : State} (hb : ∀ s, (body s).2.benches.packets = s.benches.packets) : (receiveLane m r d body s).benches.packets = s.benches.packets :=
  receiveLane_gen (·.benches.packets) (by simp) (by simp) (by simp) (by simp) (by simp) (by simp) (by simp) m r d body s hb

@[simp] theorem receiveLane_opr {m : XMsg} {r : CheckRule} {d : Bool} {body : State → Option Nat × State} {s : State} (hb : ∀ s, (body s).2.opr = s.opr) : (receiveLane m r d body s).opr = s.opr :=
  receiveLane_gen (·.opr) (by simp) (by simp) (by simp) (by simp) (by simp) (by simp) (by simp) m r d body s hb

@[simp] theorem remoteAllowed_parts (a0 : XMsg) (s : State) :
    (remoteAllowed a0 s).2.nv = s.nv ∧ (remoteAllowed a0 s).2.boot = s.boot ∧ (remoteAllowed a0 s).2.mem = s.mem ∧
      (remoteAllowed a0 s).2.gau = s.gau ∧ (remoteAllowed a0 s).2.benches.links = s.benches.links ∧
      (remoteAllowed a0 s).2.benches.packets = s.benches.packets ∧ (remoteAllowed a0 s).2.opr = s.opr ∧
      (remoteAllowed a0 s).2.vid = s.vid ∧ (remoteAllowed a0 s).2.red = s.red ∧ (remoteAllowed a0 s).2.pwr = s.pwr := by
  simp only [remoteAllowed]
  (repeat' split) <;> simp

@[simp] theorem lotNak_parts (a0 : XMsg) (s : State) :
    (lotNak a0 s).2.nv = s.nv ∧ (lotNak a0 s).2.boot = s.boot ∧ (lotNak a0 s).2.mem = s.mem ∧ (lotNak a0 s).2.gau = s.gau ∧
      (lotNak a0 s).2.benches = s.benches ∧ (lotNak a0 s).2.serve = s.serve ∧ (lotNak a0 s).2.opr = s.opr ∧
      (lotNak a0 s).2.vid = s.vid ∧ (lotNak a0 s).2.red = s.red ∧ (lotNak a0 s).2.pwr = s.pwr := by
  simp [lotNak]

@[simp] theorem effectWrite_parts (a0 : XMsg) (s : State) :
    (effectWrite a0 s).2.boot = s.boot ∧ (effectWrite a0 s).2.benches.links = s.benches.links ∧
      (effectWrite a0 s).2.benches.packets = s.benches.packets ∧ (effectWrite a0 s).2.opr = s.opr ∧ (effectWrite a0 s).2.vid = s.vid ∧
      (effectWrite a0 s).2.red = s.red ∧ (effectWrite a0 s).2.pwr = s.pwr := by
  simp only [effectWrite]
  (repeat' split) <;> grind [writeBytes_parts, touchYard_parts, lotNak_parts, remoteAllowed_parts]

@[simp] theorem respond_parts (a0 : XMsg) (a1 : List Byte) (a2 : List Nat) (s : State) :
    (respond a0 a1 a2 s).nv = s.nv ∧ (respond a0 a1 a2 s).boot = s.boot ∧ (respond a0 a1 a2 s).mem = s.mem ∧
      (respond a0 a1 a2 s).gau = s.gau ∧ (respond a0 a1 a2 s).benches = s.benches ∧ (respond a0 a1 a2 s).serve = s.serve ∧
      (respond a0 a1 a2 s).opr = s.opr ∧ (respond a0 a1 a2 s).vid = s.vid ∧ (respond a0 a1 a2 s).red = s.red ∧
      (respond a0 a1 a2 s).pwr = s.pwr := by
  simp [respond]

@[simp] theorem effectRead_parts (a0 : XMsg) (s : State) :
    (effectRead a0 s).2.boot = s.boot ∧ (effectRead a0 s).2.benches.links = s.benches.links ∧
      (effectRead a0 s).2.benches.packets = s.benches.packets ∧ (effectRead a0 s).2.opr = s.opr ∧
      (effectRead a0 s).2.vid = s.vid ∧ (effectRead a0 s).2.red = s.red ∧ (effectRead a0 s).2.pwr = s.pwr := by
  simp only [effectRead]
  (repeat' split) <;> grind [remoteAllowed_parts, lotNak_parts, touchYard_parts, respond_parts]

@[simp] theorem effectAtomic_parts (a0 : XMsg) (s : State) :
    (effectAtomic a0 s).2.boot = s.boot ∧ (effectAtomic a0 s).2.benches.links = s.benches.links ∧
      (effectAtomic a0 s).2.benches.packets = s.benches.packets ∧ (effectAtomic a0 s).2.opr = s.opr ∧
      (effectAtomic a0 s).2.vid = s.vid ∧ (effectAtomic a0 s).2.red = s.red ∧ (effectAtomic a0 s).2.pwr = s.pwr := by
  unfold effectAtomic
  dsimp only
  (repeat' split) <;> first | (simp; done) | (simp_all; done) | grind [remoteAllowed_parts, lotNak_parts, doAtomic_parts, edgeTag_parts, meshTraffic_parts, respond_parts]

@[simp] theorem effectCollective_parts (a0 : XMsg) (s : State) :
    (effectCollective a0 s).2.boot = s.boot ∧ (effectCollective a0 s).2.benches.links = s.benches.links ∧
      (effectCollective a0 s).2.benches.packets = s.benches.packets ∧ (effectCollective a0 s).2.opr = s.opr ∧
      (effectCollective a0 s).2.vid = s.vid ∧ (effectCollective a0 s).2.red = s.red ∧ (effectCollective a0 s).2.pwr = s.pwr := by
  simp only [effectCollective]
  (repeat' split) <;> grind [remoteAllowed_parts, lotNak_parts, consumeCount_parts, touchYard_parts, writeBytes_parts]

@[simp] theorem returnRead_parts (a0 : Nat) (a1 : Nat) (a2 : Nat) (a3 : Nat) (a4 : XMsg) (s : State) :
    (returnRead a0 a1 a2 a3 a4 s).nv = s.nv ∧ (returnRead a0 a1 a2 a3 a4 s).boot = s.boot ∧
      (returnRead a0 a1 a2 a3 a4 s).mem = s.mem ∧ (returnRead a0 a1 a2 a3 a4 s).gau = s.gau ∧
      (returnRead a0 a1 a2 a3 a4 s).benches.links = s.benches.links ∧
      (returnRead a0 a1 a2 a3 a4 s).benches.packets = s.benches.packets ∧ (returnRead a0 a1 a2 a3 a4 s).serve = s.serve ∧
      (returnRead a0 a1 a2 a3 a4 s).opr = s.opr ∧ (returnRead a0 a1 a2 a3 a4 s).vid = s.vid ∧
      (returnRead a0 a1 a2 a3 a4 s).red = s.red ∧ (returnRead a0 a1 a2 a3 a4 s).pwr = s.pwr := by
  simp only [returnRead]
  (repeat' split) <;> simp

@[simp] theorem effectResp_parts (a0 : XMsg) (s : State) :
    (effectResp a0 s).2.nv = s.nv ∧ (effectResp a0 s).2.boot = s.boot ∧ (effectResp a0 s).2.mem = s.mem ∧
      (effectResp a0 s).2.gau = s.gau ∧ (effectResp a0 s).2.benches.links = s.benches.links ∧
      (effectResp a0 s).2.benches.packets = s.benches.packets ∧ (effectResp a0 s).2.serve = s.serve ∧
      (effectResp a0 s).2.opr = s.opr ∧ (effectResp a0 s).2.vid = s.vid ∧ (effectResp a0 s).2.red = s.red ∧
      (effectResp a0 s).2.pwr = s.pwr := by
  simp only [effectResp]
  (repeat' split) <;> simp

@[simp] theorem loseEntries_parts (a0 : Nat) (a1 : List Byte) (s : State) :
    (loseEntries a0 a1 s).nv = s.nv ∧ (loseEntries a0 a1 s).boot = s.boot ∧ (loseEntries a0 a1 s).mem = s.mem ∧
      (loseEntries a0 a1 s).gau = s.gau ∧ (loseEntries a0 a1 s).benches = s.benches ∧ (loseEntries a0 a1 s).serve = s.serve ∧
      (loseEntries a0 a1 s).opr = s.opr ∧ (loseEntries a0 a1 s).vid = s.vid ∧ (loseEntries a0 a1 s).red = s.red ∧
      (loseEntries a0 a1 s).pwr = s.pwr := by
  simp [loseEntries]

@[simp] theorem effectControl_parts (a0 : XMsg) (s : State) :
    (effectControl a0 s).2.nv = s.nv ∧ (effectControl a0 s).2.boot = s.boot ∧ (effectControl a0 s).2.mem = s.mem ∧
      (effectControl a0 s).2.gau = s.gau ∧ (effectControl a0 s).2.benches.links = s.benches.links ∧
      (effectControl a0 s).2.benches.packets = s.benches.packets ∧ (effectControl a0 s).2.opr = s.opr ∧
      (effectControl a0 s).2.vid = s.vid ∧ (effectControl a0 s).2.red = s.red ∧ (effectControl a0 s).2.pwr = s.pwr := by
  simp only [effectControl]
  (repeat' split) <;> simp

@[simp] theorem overrides_parts (s : State) :
    (overrides s).nv = s.nv ∧ (overrides s).boot = s.boot ∧ (overrides s).mem = s.mem ∧ (overrides s).gau = s.gau ∧
      (overrides s).benches = s.benches ∧ (overrides s).serve = s.serve ∧ (overrides s).opr = s.opr ∧ (overrides s).vid = s.vid ∧
      (overrides s).red = s.red ∧ (overrides s).pwr = s.pwr := by
  simp [overrides]

@[simp] theorem haltFabric_parts (s : State) :
    (haltFabric s).nv = s.nv ∧ (haltFabric s).boot = s.boot ∧ (haltFabric s).mem = s.mem ∧ (haltFabric s).gau = s.gau ∧
      (haltFabric s).benches.links = s.benches.links ∧ (haltFabric s).benches.packets = s.benches.packets ∧
      (haltFabric s).serve = s.serve ∧ (haltFabric s).opr = s.opr ∧ (haltFabric s).red = s.red := by
  simp [haltFabric]

@[simp] theorem coolantStop_parts (s : State) :
    (coolantStop s).nv = s.nv ∧ (coolantStop s).boot = s.boot ∧ (coolantStop s).mem = s.mem ∧ (coolantStop s).gau = s.gau ∧
      (coolantStop s).benches.links = s.benches.links ∧ (coolantStop s).benches.packets = s.benches.packets ∧
      (coolantStop s).opr = s.opr := by
  simp [coolantStop]

end Sys2Proof.Machine
end

