-- ==== Sys2Proof/Laws/PartsD.lean ====
section
/-! SUPPORT. For each shared operation of the machine, the parts of the state it leaves as they were
(`<operation>_parts`; callees stand before their callers). -/
namespace Sys2Proof.Machine

@[simp] theorem supplyHalt_parts (a0 : Nat) (s : State) :
    (supplyHalt a0 s).nv = s.nv ∧ (supplyHalt a0 s).boot = s.boot ∧ (supplyHalt a0 s).mem = s.mem ∧ (supplyHalt a0 s).gau = s.gau ∧
      (supplyHalt a0 s).benches.links = s.benches.links ∧ (supplyHalt a0 s).benches.packets = s.benches.packets ∧
      (supplyHalt a0 s).serve = s.serve ∧ (supplyHalt a0 s).opr = s.opr ∧ (supplyHalt a0 s).red = s.red := by
  simp [supplyHalt]

@[simp] theorem resumeFabric_parts (s : State) :
    (resumeFabric s).nv = s.nv ∧ (resumeFabric s).boot = s.boot ∧ (resumeFabric s).mem = s.mem ∧ (resumeFabric s).gau = s.gau ∧
      (resumeFabric s).benches.links = s.benches.links ∧ (resumeFabric s).benches.packets = s.benches.packets ∧
      (resumeFabric s).serve = s.serve ∧ (resumeFabric s).opr = s.opr ∧ (resumeFabric s).red = s.red ∧ (resumeFabric s).pwr = s.pwr := by
  simp [resumeFabric]

@[simp] theorem thermTrip_parts (s : State) :
    (thermTrip s).nv = s.nv ∧ (thermTrip s).boot = s.boot ∧ (thermTrip s).mem = s.mem ∧ (thermTrip s).gau = s.gau ∧
      (thermTrip s).benches = s.benches ∧ (thermTrip s).serve = s.serve ∧ (thermTrip s).opr = s.opr ∧ (thermTrip s).vid = s.vid ∧
      (thermTrip s).red = s.red ∧ (thermTrip s).pwr = s.pwr := by
  simp [thermTrip]

@[simp] theorem moveTarget_recordSq8202_parts (s : State) :
    (moveTarget.recordSq8202 s).nv = s.nv ∧ (moveTarget.recordSq8202 s).boot = s.boot ∧ (moveTarget.recordSq8202 s).mem = s.mem ∧
      (moveTarget.recordSq8202 s).gau = s.gau ∧ (moveTarget.recordSq8202 s).benches = s.benches ∧
      (moveTarget.recordSq8202 s).serve = s.serve ∧ (moveTarget.recordSq8202 s).opr = s.opr ∧ (moveTarget.recordSq8202 s).vid = s.vid ∧
      (moveTarget.recordSq8202 s).red = s.red ∧ (moveTarget.recordSq8202 s).pwr = s.pwr := by
  simp [moveTarget.recordSq8202]

@[simp] theorem moveTarget_parts (a0 : Nat × Nat) (a1 : Nat) (s : State) :
    (moveTarget a0 a1 s).nv = s.nv ∧ (moveTarget a0 a1 s).boot = s.boot ∧ (moveTarget a0 a1 s).mem = s.mem ∧
      (moveTarget a0 a1 s).gau = s.gau ∧ (moveTarget a0 a1 s).benches = s.benches ∧ (moveTarget a0 a1 s).serve = s.serve ∧
      (moveTarget a0 a1 s).opr = s.opr ∧ (moveTarget a0 a1 s).vid = s.vid ∧ (moveTarget a0 a1 s).red = s.red := by
  simp [moveTarget]

@[simp] theorem droopCheck_parts (s : State) :
    (droopCheck s).nv = s.nv ∧ (droopCheck s).boot = s.boot ∧ (droopCheck s).mem = s.mem ∧ (droopCheck s).gau = s.gau ∧
      (droopCheck s).benches = s.benches ∧ (droopCheck s).serve = s.serve ∧ (droopCheck s).opr = s.opr ∧ (droopCheck s).vid = s.vid ∧
      (droopCheck s).red = s.red := by
  simp [droopCheck]

@[simp] theorem raiseScale_parts (s : State) :
    (raiseScale s).nv = s.nv ∧ (raiseScale s).boot = s.boot ∧ (raiseScale s).mem = s.mem ∧ (raiseScale s).gau = s.gau ∧
      (raiseScale s).benches = s.benches ∧ (raiseScale s).serve = s.serve ∧ (raiseScale s).opr = s.opr ∧ (raiseScale s).vid = s.vid ∧
      (raiseScale s).red = s.red := by
  simp [raiseScale]

@[simp] theorem setUniform_parts (a0 : Bool) (s : State) :
    (setUniform a0 s).nv = s.nv ∧ (setUniform a0 s).boot = s.boot ∧ (setUniform a0 s).mem = s.mem ∧ (setUniform a0 s).gau = s.gau ∧
      (setUniform a0 s).benches.links = s.benches.links ∧ (setUniform a0 s).benches.packets = s.benches.packets ∧
      (setUniform a0 s).serve = s.serve ∧ (setUniform a0 s).opr = s.opr ∧ (setUniform a0 s).vid = s.vid ∧
      (setUniform a0 s).red = s.red := by
  simp [setUniform]

@[simp] theorem liftUniform_parts (s : State) :
    (liftUniform s).nv = s.nv ∧ (liftUniform s).boot = s.boot ∧ (liftUniform s).mem = s.mem ∧ (liftUniform s).gau = s.gau ∧
      (liftUniform s).benches.links = s.benches.links ∧ (liftUniform s).benches.packets = s.benches.packets ∧
      (liftUniform s).serve = s.serve ∧ (liftUniform s).opr = s.opr ∧ (liftUniform s).vid = s.vid ∧ (liftUniform s).red = s.red := by
  simp only [liftUniform]
  (repeat' split) <;> simp

@[simp] theorem loopStart_parts (s : State) :
    (loopStart s).nv = s.nv ∧ (loopStart s).boot = s.boot ∧ (loopStart s).mem = s.mem ∧ (loopStart s).gau = s.gau ∧
      (loopStart s).benches = s.benches ∧ (loopStart s).serve = s.serve ∧ (loopStart s).opr = s.opr ∧
      (loopStart s).vid = s.vid ∧ (loopStart s).red = s.red := by
  simp [loopStart]

@[simp] theorem takeSample_parts (a0 : InputRead) (s : State) :
    (takeSample a0 s).nv = s.nv ∧ (takeSample a0 s).boot = s.boot ∧ (takeSample a0 s).mem = s.mem ∧ (takeSample a0 s).gau = s.gau ∧
      (takeSample a0 s).benches = s.benches ∧ (takeSample a0 s).serve = s.serve ∧ (takeSample a0 s).opr = s.opr ∧
      (takeSample a0 s).vid = s.vid ∧ (takeSample a0 s).red = s.red := by
  simp [takeSample]

@[simp] theorem endLoss_parts (s : State) :
    (endLoss s).nv = s.nv ∧ (endLoss s).boot = s.boot ∧ (endLoss s).mem = s.mem ∧ (endLoss s).gau = s.gau ∧
      (endLoss s).benches = s.benches ∧ (endLoss s).serve = s.serve ∧ (endLoss s).opr = s.opr ∧ (endLoss s).vid = s.vid ∧
      (endLoss s).red = s.red := by
  simp [endLoss]

@[simp] theorem capHeartbeat_parts (a0 : Nat) (s : State) :
    (capHeartbeat a0 s).nv = s.nv ∧ (capHeartbeat a0 s).boot = s.boot ∧ (capHeartbeat a0 s).mem = s.mem ∧
      (capHeartbeat a0 s).gau = s.gau ∧ (capHeartbeat a0 s).benches = s.benches ∧ (capHeartbeat a0 s).serve = s.serve ∧
      (capHeartbeat a0 s).opr = s.opr ∧ (capHeartbeat a0 s).vid = s.vid ∧ (capHeartbeat a0 s).red = s.red := by
  simp [capHeartbeat]

@[simp] theorem notEntitled_parts (a0 : XMsg) (s : State) :
    (notEntitled a0 s).nv = s.nv ∧ (notEntitled a0 s).boot = s.boot ∧ (notEntitled a0 s).mem = s.mem ∧ (notEntitled a0 s).gau = s.gau ∧
      (notEntitled a0 s).benches.links = s.benches.links ∧ (notEntitled a0 s).benches.packets = s.benches.packets ∧
      (notEntitled a0 s).opr = s.opr ∧ (notEntitled a0 s).vid = s.vid ∧ (notEntitled a0 s).red = s.red ∧
      (notEntitled a0 s).pwr = s.pwr := by
  simp [notEntitled]

@[simp] theorem blockModel_parts (s : State) (a1 : HeatRead) :
    (blockModel s a1).2.nv = s.nv ∧ (blockModel s a1).2.boot = s.boot ∧ (blockModel s a1).2.mem = s.mem ∧
      (blockModel s a1).2.gau = s.gau ∧ (blockModel s a1).2.benches = s.benches ∧ (blockModel s a1).2.serve = s.serve ∧
      (blockModel s a1).2.opr = s.opr ∧ (blockModel s a1).2.vid = s.vid ∧ (blockModel s a1).2.red = s.red ∧
      (blockModel s a1).2.pwr = s.pwr := by
  simp only [blockModel]
  (repeat' split) <;> simp

@[simp] theorem heatSample_parts (a0 : HeatRead) (s : State) :
    (heatSample a0 s).nv = s.nv ∧ (heatSample a0 s).boot = s.boot ∧ (heatSample a0 s).mem = s.mem ∧ (heatSample a0 s).gau = s.gau ∧
      (heatSample a0 s).benches.links = s.benches.links ∧ (heatSample a0 s).benches.packets = s.benches.packets ∧
      (heatSample a0 s).opr = s.opr := by
  simp [heatSample]

@[simp] theorem takeFlows_parts (a0 : CoolRead) (s : State) :
    (takeFlows a0 s).nv = s.nv ∧ (takeFlows a0 s).boot = s.boot ∧ (takeFlows a0 s).mem = s.mem ∧ (takeFlows a0 s).gau = s.gau ∧
      (takeFlows a0 s).benches = s.benches ∧ (takeFlows a0 s).serve = s.serve ∧ (takeFlows a0 s).opr = s.opr ∧
      (takeFlows a0 s).vid = s.vid ∧ (takeFlows a0 s).red = s.red := by
  simp [takeFlows]

@[simp] theorem flowRanges_parts (s : State) :
    (flowRanges s).nv = s.nv ∧ (flowRanges s).boot = s.boot ∧ (flowRanges s).mem = s.mem ∧ (flowRanges s).gau = s.gau ∧
      (flowRanges s).benches = s.benches ∧ (flowRanges s).serve = s.serve ∧ (flowRanges s).opr = s.opr ∧ (flowRanges s).vid = s.vid ∧
      (flowRanges s).red = s.red := by
  simp [flowRanges]

@[simp] theorem inletRanges_parts (s : State) :
    (inletRanges s).nv = s.nv ∧ (inletRanges s).boot = s.boot ∧ (inletRanges s).mem = s.mem ∧ (inletRanges s).gau = s.gau ∧
      (inletRanges s).benches = s.benches ∧ (inletRanges s).serve = s.serve ∧ (inletRanges s).opr = s.opr ∧
      (inletRanges s).vid = s.vid ∧ (inletRanges s).red = s.red := by
  simp [inletRanges]

@[simp] theorem sendBeacons_parts (a0 : GroupPace) (s : State) :
    (sendBeacons a0 s).nv = s.nv ∧ (sendBeacons a0 s).boot = s.boot ∧ (sendBeacons a0 s).mem = s.mem ∧ (sendBeacons a0 s).gau = s.gau ∧
      (sendBeacons a0 s).benches = s.benches ∧ (sendBeacons a0 s).serve = s.serve ∧ (sendBeacons a0 s).opr = s.opr ∧
      (sendBeacons a0 s).vid = s.vid ∧ (sendBeacons a0 s).red = s.red ∧ (sendBeacons a0 s).pwr = s.pwr := by
  simp [sendBeacons, foldS]

@[simp] theorem groupCompute_parts (s : State) :
    (groupCompute s).nv = s.nv ∧ (groupCompute s).boot = s.boot ∧ (groupCompute s).mem = s.mem ∧ (groupCompute s).gau = s.gau ∧
      (groupCompute s).benches = s.benches ∧ (groupCompute s).serve = s.serve ∧ (groupCompute s).opr = s.opr ∧
      (groupCompute s).vid = s.vid ∧ (groupCompute s).red = s.red := by
  simp only [groupCompute]
  (repeat' split) <;> simp

@[simp] theorem groupAgree_parts (s : State) :
    (groupAgree s).nv = s.nv ∧ (groupAgree s).boot = s.boot ∧ (groupAgree s).mem = s.mem ∧ (groupAgree s).gau = s.gau ∧
      (groupAgree s).benches = s.benches ∧ (groupAgree s).serve = s.serve ∧ (groupAgree s).opr = s.opr ∧ (groupAgree s).vid = s.vid ∧
      (groupAgree s).red = s.red := by
  simp only [groupAgree]
  (repeat' split) <;> simp

@[simp] theorem digestDiffers_parts (a0 : Nat) (s : State) :
    (digestDiffers a0 s).nv = s.nv ∧ (digestDiffers a0 s).boot = s.boot ∧ (digestDiffers a0 s).mem = s.mem ∧
      (digestDiffers a0 s).gau = s.gau ∧ (digestDiffers a0 s).benches = s.benches ∧ (digestDiffers a0 s).serve = s.serve ∧
      (digestDiffers a0 s).opr = s.opr ∧ (digestDiffers a0 s).vid = s.vid ∧ (digestDiffers a0 s).red = s.red := by
  simp [digestDiffers]

@[simp] theorem endMismatch_parts (s : State) :
    (endMismatch s).nv = s.nv ∧ (endMismatch s).boot = s.boot ∧ (endMismatch s).mem = s.mem ∧ (endMismatch s).gau = s.gau ∧
      (endMismatch s).benches = s.benches ∧ (endMismatch s).serve = s.serve ∧ (endMismatch s).opr = s.opr ∧
      (endMismatch s).vid = s.vid ∧ (endMismatch s).red = s.red := by
  simp [endMismatch]

@[simp] theorem applyRequest_parts (a0 : Nat) (a1 : Nat) (a2 : Request) (s : State) :
    (applyRequest a0 a1 a2 s).nv = s.nv ∧ (applyRequest a0 a1 a2 s).boot = s.boot ∧ (applyRequest a0 a1 a2 s).mem = s.mem ∧
      (applyRequest a0 a1 a2 s).gau = s.gau ∧ (applyRequest a0 a1 a2 s).benches = s.benches ∧ (applyRequest a0 a1 a2 s).opr = s.opr ∧
      (applyRequest a0 a1 a2 s).vid = s.vid ∧ (applyRequest a0 a1 a2 s).red = s.red ∧ (applyRequest a0 a1 a2 s).pwr = s.pwr := by
  simp [applyRequest, foldS]

@[simp] theorem applyDelta_parts (a0 : Nat) (a1 : Delta) (s : State) :
    (applyDelta a0 a1 s).boot = s.boot ∧ (applyDelta a0 a1 s).benches.links = s.benches.links ∧
      (applyDelta a0 a1 s).benches.packets = s.benches.packets ∧ (applyDelta a0 a1 s).opr = s.opr ∧
      (applyDelta a0 a1 s).vid = s.vid ∧ (applyDelta a0 a1 s).pwr = s.pwr := by
  simp [applyDelta]

@[simp] theorem forget_parts (a0 : Nat) (s : State) :
    (forget a0 s).nv = s.nv ∧ (forget a0 s).boot = s.boot ∧ (forget a0 s).mem = s.mem ∧ (forget a0 s).gau = s.gau ∧
      (forget a0 s).benches.links = s.benches.links ∧ (forget a0 s).benches.packets = s.benches.packets ∧ (forget a0 s).opr = s.opr ∧
      (forget a0 s).vid = s.vid ∧ (forget a0 s).pwr = s.pwr := by
  simp [forget]

@[simp] theorem switchRequests_parts (a0 : Nat) (s : State) :
    (switchRequests a0 s).nv = s.nv ∧ (switchRequests a0 s).boot = s.boot ∧ (switchRequests a0 s).mem = s.mem ∧
      (switchRequests a0 s).gau = s.gau ∧ (switchRequests a0 s).benches = s.benches ∧ (switchRequests a0 s).opr = s.opr ∧
      (switchRequests a0 s).vid = s.vid ∧ (switchRequests a0 s).red = s.red ∧ (switchRequests a0 s).pwr = s.pwr := by
  simp [switchRequests]

@[simp] theorem takeDowel_parts (a0 : Nat) (a1 : Nat) (a2 : Bool) (a3 : Nat) (a4 : Nat) (s : State) :
    (takeDowel a0 a1 a2 a3 a4 s).boot = s.boot ∧ (takeDowel a0 a1 a2 a3 a4 s).benches.links = s.benches.links ∧
      (takeDowel a0 a1 a2 a3 a4 s).benches.packets = s.benches.packets ∧ (takeDowel a0 a1 a2 a3 a4 s).opr = s.opr ∧
      (takeDowel a0 a1 a2 a3 a4 s).vid = s.vid ∧ (takeDowel a0 a1 a2 a3 a4 s).pwr = s.pwr := by
  simp [takeDowel]

@[simp] theorem becomeStale_parts (a0 : Nat) (a1 : Nat) (s : State) :
    (becomeStale a0 a1 s).nv = s.nv ∧ (becomeStale a0 a1 s).boot = s.boot ∧ (becomeStale a0 a1 s).mem = s.mem ∧
      (becomeStale a0 a1 s).gau = s.gau ∧ (becomeStale a0 a1 s).benches.links = s.benches.links ∧
      (becomeStale a0 a1 s).benches.packets = s.benches.packets ∧ (becomeStale a0 a1 s).opr = s.opr ∧
      (becomeStale a0 a1 s).vid = s.vid ∧ (becomeStale a0 a1 s).pwr = s.pwr := by
  simp [becomeStale]

@[simp] theorem gaveDowel_parts (a0 : Nat) (a1 : Nat) (s : State) :
    (gaveDowel a0 a1 s).nv = s.nv ∧ (gaveDowel a0 a1 s).boot = s.boot ∧ (gaveDowel a0 a1 s).mem = s.mem ∧
      (gaveDowel a0 a1 s).gau = s.gau ∧ (gaveDowel a0 a1 s).benches.links = s.benches.links ∧
      (gaveDowel a0 a1 s).benches.packets = s.benches.packets ∧ (gaveDowel a0 a1 s).opr = s.opr := by
  simp [gaveDowel]

theorem dowelMsg_gen {β : Type} (g : State → β) (h0 : ∀ x b s, (∀ s, g (b s) = g s) → g (receiveModule x b s) = g s)
    (h1 : ∀ m s, g (dropMalformed m s) = g s) (h2 : ∀ m s, g (notEntitled m s) = g s) (h3 : ∀ c n s, g (becomeStale c n s) = g s)
    (h4 : ∀ s n, g { s with red := { s.red with sisterAt := n } } = g s) (h5 : ∀ c f s, g (modRed c f s) = g s)
    (m : DowelMsg) (b : Bool) (body : Nat → State → State) (s : State) (hb : ∀ c s, g (body c s) = g s) :
    g (dowelMsg m b body s) = g s := by
  unfold dowelMsg
  dsimp only
  apply h0
  intro s
  have key : ∀ s : State, g (if (decide (16 ≤ m.ctx) || !mirrored s m.ctx || decide ((redOf s m.ctx).par.pairId ≠ m.pairId)) = true then s
      else
        if (decide ((redOf s m.ctx).role = RedRole.active) || decide ((redOf s m.ctx).role = RedRole.activeSolo)
            || decide ((redOf s m.ctx).role = RedRole.fenced)) && decide ((redOf s m.ctx).epoch < m.epoch)
            && !(b && (redOf s m.ctx).giving.isSome && decide (m.epoch = (redOf s m.ctx).epoch + 1)) then
          becomeStale m.ctx m.epoch (if s.nv.manager = some m.srcM then modRed m.ctx (fun r => { r with arbiterAt := now s }) s else s)
        else body m.ctx (if s.nv.manager = some m.srcM then modRed m.ctx (fun r => { r with arbiterAt := now s }) s else s)) = g s := by
    intro s
    have k : g (if s.nv.manager = some m.srcM then modRed m.ctx (fun r => { r with arbiterAt := now s }) s else s) = g s := by
      split
      · rw [h5]
      · rfl
    split
    · rfl
    · split
      · rw [h3, k]
      · rw [hb, k]
  split
  · rw [h1]
  · split
    · rw [h2]
    · by_cases h : s.net.sister = some m.srcM
      · simp only [h, if_true]; exact (key _).trans (h4 _ _)
      · simp only [h, if_false]; exact key s

@[simp] theorem dowelMsg_boot {m : DowelMsg} {b : Bool} {body : Nat → State → State} {s : State} (hb : ∀ c s, (body c s).boot = s.boot) : (dowelMsg m b body s).boot = s.boot :=
  dowelMsg_gen (·.boot) (fun x b s h => by simp [h]) (by simp) (by simp) (by simp) (by simp) (by simp) m b body s hb

@[simp] theorem dowelMsg_benches_links {m : DowelMsg} {b : Bool} {body : Nat → State → State} {s : State} (hb : ∀ c s, (body c s).benches.links = s.benches.links) : (dowelMsg m b body s).benches.links = s.benches.links :=
  dowelMsg_gen (·.benches.links) (fun x b s h => by simp [h]) (by simp) (by simp) (by simp) (by simp) (by simp) m b body s hb

@[simp] theorem dowelMsg_benches_packets {m : DowelMsg} {b : Bool} {body : Nat → State → State} {s : State} (hb : ∀ c s, (body c s).benches.packets = s.benches.packets) : (dowelMsg m b body s).benches.packets = s.benches.packets :=
  dowelMsg_gen (·.benches.packets) (fun x b s h => by simp [h]) (by simp) (by simp) (by simp) (by simp) (by simp) m b body s hb

@[simp] theorem dowelMsg_opr {m : DowelMsg} {b : Bool} {body : Nat → State → State} {s : State} (hb : ∀ c s, (body c s).opr = s.opr) : (dowelMsg m b body s).opr = s.opr :=
  dowelMsg_gen (·.opr) (fun x b s h => by simp [h]) (by simp) (by simp) (by simp) (by simp) (by simp) m b body s hb

@[simp] theorem takeOffer_parts (a0 : DowelMsg) (a1 : Nat) (s : State) :
    (takeOffer a0 a1 s).boot = s.boot ∧ (takeOffer a0 a1 s).benches.links = s.benches.links ∧
      (takeOffer a0 a1 s).benches.packets = s.benches.packets ∧ (takeOffer a0 a1 s).opr = s.opr ∧
      (takeOffer a0 a1 s).vid = s.vid ∧ (takeOffer a0 a1 s).pwr = s.pwr := by
  simp [takeOffer]

@[simp] theorem bothLost_parts (a0 : Nat) (s : State) :
    (bothLost a0 s).nv = s.nv ∧ (bothLost a0 s).boot = s.boot ∧ (bothLost a0 s).mem = s.mem ∧ (bothLost a0 s).gau = s.gau ∧
      (bothLost a0 s).benches = s.benches ∧ (bothLost a0 s).serve = s.serve ∧ (bothLost a0 s).opr = s.opr ∧
      (bothLost a0 s).vid = s.vid ∧ (bothLost a0 s).red = s.red ∧ (bothLost a0 s).pwr = s.pwr := by
  simp [bothLost]

@[simp] theorem resendRequest_parts (a0 : Nat) (s : State) :
    (resendRequest a0 s).nv = s.nv ∧ (resendRequest a0 s).boot = s.boot ∧ (resendRequest a0 s).mem = s.mem ∧
      (resendRequest a0 s).gau = s.gau ∧ (resendRequest a0 s).benches = s.benches ∧ (resendRequest a0 s).serve = s.serve ∧
      (resendRequest a0 s).opr = s.opr ∧ (resendRequest a0 s).vid = s.vid ∧ (resendRequest a0 s).pwr = s.pwr := by
  simp [resendRequest]

@[simp] theorem sendWhole_parts (a0 : Nat) (s : State) :
    (sendWhole a0 s).nv = s.nv ∧ (sendWhole a0 s).boot = s.boot ∧ (sendWhole a0 s).mem = s.mem ∧ (sendWhole a0 s).gau = s.gau ∧
      (sendWhole a0 s).benches = s.benches ∧ (sendWhole a0 s).serve = s.serve ∧ (sendWhole a0 s).opr = s.opr ∧
      (sendWhole a0 s).vid = s.vid ∧ (sendWhole a0 s).pwr = s.pwr := by
  simp [sendWhole]

@[simp] theorem planTouch_parts (a0 : Nat) (a1 : Nat) (a2 : OprRec) (a3 : Bool) (s : State) :
    (planTouch a0 a1 a2 a3 s).boot = s.boot ∧ (planTouch a0 a1 a2 a3 s).benches.links = s.benches.links ∧
      (planTouch a0 a1 a2 a3 s).benches.packets = s.benches.packets ∧ (planTouch a0 a1 a2 a3 s).serve = s.serve ∧
      (planTouch a0 a1 a2 a3 s).opr = s.opr ∧ (planTouch a0 a1 a2 a3 s).vid = s.vid ∧ (planTouch a0 a1 a2 a3 s).red = s.red ∧
      (planTouch a0 a1 a2 a3 s).pwr = s.pwr := by
  simp [planTouch]

@[simp] theorem modTrigger_parts (a0 : Nat) (a1 : Trigger → Trigger) (s : State) :
    (modTrigger a0 a1 s).nv = s.nv ∧ (modTrigger a0 a1 s).boot = s.boot ∧ (modTrigger a0 a1 s).mem = s.mem ∧
      (modTrigger a0 a1 s).gau = s.gau ∧ (modTrigger a0 a1 s).benches = s.benches ∧ (modTrigger a0 a1 s).serve = s.serve ∧
      (modTrigger a0 a1 s).vid = s.vid ∧ (modTrigger a0 a1 s).red = s.red ∧ (modTrigger a0 a1 s).pwr = s.pwr := by
  simp [modTrigger]

@[simp] theorem endChain_parts (a0 : Chain) (s : State) :
    (endChain a0 s).boot = s.boot ∧ (endChain a0 s).gau = s.gau ∧ (endChain a0 s).benches = s.benches ∧
      (endChain a0 s).serve = s.serve ∧ (endChain a0 s).vid = s.vid ∧ (endChain a0 s).red = s.red ∧ (endChain a0 s).pwr = s.pwr := by
  simp only [endChain]
  (repeat' split) <;> simp

@[simp] theorem startStage_parts (a0 : Chain) (s : State) :
    (startStage a0 s).boot = s.boot ∧ (startStage a0 s).gau = s.gau ∧ (startStage a0 s).benches.links = s.benches.links ∧
      (startStage a0 s).benches.packets = s.benches.packets ∧ (startStage a0 s).serve = s.serve ∧ (startStage a0 s).vid = s.vid ∧
      (startStage a0 s).red = s.red ∧ (startStage a0 s).pwr = s.pwr := by
  simp only [startStage]
  (repeat' split) <;> simp

@[simp] theorem retireRun_parts (a0 : Nat) (s : State) :
    (retireRun a0 s).nv = s.nv ∧ (retireRun a0 s).boot = s.boot ∧ (retireRun a0 s).mem = s.mem ∧ (retireRun a0 s).gau = s.gau ∧
      (retireRun a0 s).benches.links = s.benches.links ∧ (retireRun a0 s).benches.packets = s.benches.packets ∧
      (retireRun a0 s).serve = s.serve ∧ (retireRun a0 s).opr = s.opr ∧ (retireRun a0 s).vid = s.vid ∧ (retireRun a0 s).red = s.red ∧
      (retireRun a0 s).pwr = s.pwr := by
  simp only [retireRun]
  (repeat' split) <;> simp

@[simp] theorem writeStage_parts (a0 : Plan) (a1 : Nat) (a2 : Option Nat) (s : State) :
    (writeStage a0 a1 a2 s).2.boot = s.boot ∧ (writeStage a0 a1 a2 s).2.benches = s.benches ∧
      (writeStage a0 a1 a2 s).2.serve = s.serve ∧ (writeStage a0 a1 a2 s).2.opr = s.opr ∧
      (writeStage a0 a1 a2 s).2.vid = s.vid ∧ (writeStage a0 a1 a2 s).2.red = s.red ∧ (writeStage a0 a1 a2 s).2.pwr = s.pwr := by
  simp [writeStage]

@[simp] theorem stageFaulted_parts (a0 : Chain) (a1 : Plan) (a2 : Option Nat) (s : State) :
    (stageFaulted a0 a1 a2 s).2.boot = s.boot ∧ (stageFaulted a0 a1 a2 s).2.benches = s.benches ∧
      (stageFaulted a0 a1 a2 s).2.serve = s.serve ∧ (stageFaulted a0 a1 a2 s).2.opr = s.opr ∧
      (stageFaulted a0 a1 a2 s).2.vid = s.vid ∧ (stageFaulted a0 a1 a2 s).2.red = s.red ∧
      (stageFaulted a0 a1 a2 s).2.pwr = s.pwr := by
  unfold stageFaulted
  (repeat' split) <;> simp

@[simp] theorem stageResult_parts (a0 : Chain) (a1 : Plan) (a2 : Option Nat) (a3 : Bool) (s : State) :
    (stageResult a0 a1 a2 a3 s).2.boot = s.boot ∧ (stageResult a0 a1 a2 a3 s).2.benches = s.benches ∧
      (stageResult a0 a1 a2 a3 s).2.serve = s.serve ∧ (stageResult a0 a1 a2 a3 s).2.opr = s.opr ∧
      (stageResult a0 a1 a2 a3 s).2.vid = s.vid ∧ (stageResult a0 a1 a2 a3 s).2.red = s.red ∧
      (stageResult a0 a1 a2 a3 s).2.pwr = s.pwr := by
  unfold stageResult
  (repeat' split) <;> (try dsimp only) <;> (repeat' split) <;> simp

@[simp] theorem stageEnds_parts (a0 : Chain) (a1 : Plan) (a2 : Option Nat) (s : State) :
    (stageEnds a0 a1 a2 s).boot = s.boot ∧ (stageEnds a0 a1 a2 s).benches.links = s.benches.links ∧
      (stageEnds a0 a1 a2 s).benches.packets = s.benches.packets ∧ (stageEnds a0 a1 a2 s).serve = s.serve ∧
      (stageEnds a0 a1 a2 s).vid = s.vid ∧ (stageEnds a0 a1 a2 s).red = s.red ∧ (stageEnds a0 a1 a2 s).pwr = s.pwr := by
  simp only [stageEnds, foldN]
  (repeat' split) <;> simp

@[simp] theorem execOprRun_startNew_parts (s : State) :
    (execOprRun.startNew s).boot = s.boot ∧ (execOprRun.startNew s).gau = s.gau ∧
      (execOprRun.startNew s).benches.links = s.benches.links ∧ (execOprRun.startNew s).benches.packets = s.benches.packets ∧
      (execOprRun.startNew s).serve = s.serve ∧ (execOprRun.startNew s).vid = s.vid ∧ (execOprRun.startNew s).red = s.red ∧
      (execOprRun.startNew s).pwr = s.pwr := by
  simp [execOprRun.startNew]

@[simp] theorem endTrigger_parts (a0 : Nat) (s : State) :
    (endTrigger a0 s).nv = s.nv ∧ (endTrigger a0 s).boot = s.boot ∧ (endTrigger a0 s).mem = s.mem ∧ (endTrigger a0 s).gau = s.gau ∧
      (endTrigger a0 s).benches = s.benches ∧ (endTrigger a0 s).serve = s.serve ∧ (endTrigger a0 s).vid = s.vid ∧
      (endTrigger a0 s).red = s.red ∧ (endTrigger a0 s).pwr = s.pwr := by
  simp [endTrigger]

@[simp] theorem fireTriggers_parts (a0 : Nat) (a1 : Nat) (a2 : Stamp) (s : State) :
    (fireTriggers a0 a1 a2 s).boot = s.boot ∧ (fireTriggers a0 a1 a2 s).gau = s.gau ∧
      (fireTriggers a0 a1 a2 s).benches.links = s.benches.links ∧ (fireTriggers a0 a1 a2 s).benches.packets = s.benches.packets ∧
      (fireTriggers a0 a1 a2 s).serve = s.serve ∧ (fireTriggers a0 a1 a2 s).vid = s.vid ∧ (fireTriggers a0 a1 a2 s).red = s.red ∧
      (fireTriggers a0 a1 a2 s).pwr = s.pwr := by
  simp [fireTriggers]

@[simp] theorem retryLaunches_parts (s : State) :
    (retryLaunches s).boot = s.boot ∧ (retryLaunches s).gau = s.gau ∧ (retryLaunches s).benches.links = s.benches.links ∧
      (retryLaunches s).benches.packets = s.benches.packets ∧ (retryLaunches s).vid = s.vid ∧ (retryLaunches s).red = s.red ∧
      (retryLaunches s).pwr = s.pwr := by
  simp [retryLaunches, foldN]

@[simp] theorem startOperator_parts (a0 : Nat) (s : State) :
    (startOperator a0 s).nv = s.nv ∧ (startOperator a0 s).boot = s.boot ∧ (startOperator a0 s).mem = s.mem ∧
      (startOperator a0 s).gau = s.gau ∧ (startOperator a0 s).benches.links = s.benches.links ∧
      (startOperator a0 s).benches.packets = s.benches.packets ∧ (startOperator a0 s).serve = s.serve ∧
      (startOperator a0 s).vid = s.vid ∧ (startOperator a0 s).red = s.red ∧ (startOperator a0 s).pwr = s.pwr := by
  simp only [startOperator]
  (repeat' split) <;> simp

@[simp] theorem modDec_parts (a0 : Nat) (a1 : DecSession → DecSession) (s : State) :
    (modDec a0 a1 s).nv = s.nv ∧ (modDec a0 a1 s).boot = s.boot ∧ (modDec a0 a1 s).mem = s.mem ∧ (modDec a0 a1 s).gau = s.gau ∧
      (modDec a0 a1 s).benches = s.benches ∧ (modDec a0 a1 s).serve = s.serve ∧ (modDec a0 a1 s).opr = s.opr ∧
      (modDec a0 a1 s).red = s.red ∧ (modDec a0 a1 s).pwr = s.pwr := by
  simp [modDec]

@[simp] theorem modEnc_parts (a0 : Nat) (a1 : EncSession → EncSession) (s : State) :
    (modEnc a0 a1 s).nv = s.nv ∧ (modEnc a0 a1 s).boot = s.boot ∧ (modEnc a0 a1 s).mem = s.mem ∧ (modEnc a0 a1 s).gau = s.gau ∧
      (modEnc a0 a1 s).benches = s.benches ∧ (modEnc a0 a1 s).serve = s.serve ∧ (modEnc a0 a1 s).opr = s.opr ∧
      (modEnc a0 a1 s).red = s.red ∧ (modEnc a0 a1 s).pwr = s.pwr := by
  simp [modEnc]

@[simp] theorem modVid_parts (a0 : Bool) (a1 : Nat) (a2 : VidBase → VidBase) (s : State) :
    (modVid a0 a1 a2 s).nv = s.nv ∧ (modVid a0 a1 a2 s).boot = s.boot ∧ (modVid a0 a1 a2 s).mem = s.mem ∧
      (modVid a0 a1 a2 s).gau = s.gau ∧ (modVid a0 a1 a2 s).benches = s.benches ∧ (modVid a0 a1 a2 s).serve = s.serve ∧
      (modVid a0 a1 a2 s).opr = s.opr ∧ (modVid a0 a1 a2 s).red = s.red ∧ (modVid a0 a1 a2 s).pwr = s.pwr := by
  simp [modVid]

@[simp] theorem ignoreIndex_parts (a0 : Bool) (a1 : Nat) (s : State) :
    (ignoreIndex a0 a1 s).nv = s.nv ∧ (ignoreIndex a0 a1 s).boot = s.boot ∧ (ignoreIndex a0 a1 s).mem = s.mem ∧
      (ignoreIndex a0 a1 s).gau = s.gau ∧ (ignoreIndex a0 a1 s).benches = s.benches ∧ (ignoreIndex a0 a1 s).serve = s.serve ∧
      (ignoreIndex a0 a1 s).opr = s.opr ∧ (ignoreIndex a0 a1 s).red = s.red ∧ (ignoreIndex a0 a1 s).pwr = s.pwr := by
  simp [ignoreIndex]

@[simp] theorem faultVid_parts (a0 : Bool) (a1 : Nat) (a2 : Nat) (a3 : Nat) (s : State) :
    (faultVid a0 a1 a2 a3 s).nv = s.nv ∧ (faultVid a0 a1 a2 a3 s).boot = s.boot ∧ (faultVid a0 a1 a2 a3 s).mem = s.mem ∧
      (faultVid a0 a1 a2 a3 s).gau = s.gau ∧ (faultVid a0 a1 a2 a3 s).benches = s.benches ∧ (faultVid a0 a1 a2 a3 s).serve = s.serve ∧
      (faultVid a0 a1 a2 a3 s).opr = s.opr ∧ (faultVid a0 a1 a2 a3 s).red = s.red ∧ (faultVid a0 a1 a2 a3 s).pwr = s.pwr := by
  simp only [faultVid]
  (repeat' split) <;> simp

@[simp] theorem videoWrite_parts (a0 : Nat) (a1 : List Byte) (s : State) :
    (videoWrite a0 a1 s).boot = s.boot ∧ (videoWrite a0 a1 s).benches.links = s.benches.links ∧
      (videoWrite a0 a1 s).benches.packets = s.benches.packets ∧ (videoWrite a0 a1 s).serve = s.serve ∧
      (videoWrite a0 a1 s).opr = s.opr ∧ (videoWrite a0 a1 s).vid = s.vid ∧ (videoWrite a0 a1 s).red = s.red ∧
      (videoWrite a0 a1 s).pwr = s.pwr := by
  simp [videoWrite]

@[simp] theorem videoRead_parts (a0 : Nat) (a1 : Nat) (s : State) :
    (videoRead a0 a1 s).boot = s.boot ∧ (videoRead a0 a1 s).benches.links = s.benches.links ∧
      (videoRead a0 a1 s).benches.packets = s.benches.packets ∧ (videoRead a0 a1 s).serve = s.serve ∧
      (videoRead a0 a1 s).opr = s.opr ∧ (videoRead a0 a1 s).vid = s.vid ∧ (videoRead a0 a1 s).red = s.red ∧
      (videoRead a0 a1 s).pwr = s.pwr := by
  simp [videoRead]

@[simp] theorem readIndices_parts (a0 : Bool) (a1 : Nat) (s : State) :
    (readIndices a0 a1 s).boot = s.boot ∧ (readIndices a0 a1 s).benches.links = s.benches.links ∧
      (readIndices a0 a1 s).benches.packets = s.benches.packets ∧ (readIndices a0 a1 s).serve = s.serve ∧
      (readIndices a0 a1 s).opr = s.opr ∧ (readIndices a0 a1 s).red = s.red ∧ (readIndices a0 a1 s).pwr = s.pwr := by
  simp only [readIndices]
  (repeat' split) <;> simp

@[simp] theorem putPicRecord_parts (a0 : Bool) (a1 : Nat) (a2 : List Fld) (s : State) :
    (putPicRecord a0 a1 a2 s).boot = s.boot ∧ (putPicRecord a0 a1 a2 s).benches.links = s.benches.links ∧
      (putPicRecord a0 a1 a2 s).benches.packets = s.benches.packets ∧ (putPicRecord a0 a1 a2 s).serve = s.serve ∧
      (putPicRecord a0 a1 a2 s).opr = s.opr ∧ (putPicRecord a0 a1 a2 s).red = s.red ∧ (putPicRecord a0 a1 a2 s).pwr = s.pwr := by
  simp only [putPicRecord]
  (repeat' split) <;> simp

@[simp] theorem consumeEntry_parts (a0 : Bool) (a1 : Nat) (s : State) :
    (consumeEntry a0 a1 s).boot = s.boot ∧ (consumeEntry a0 a1 s).benches.links = s.benches.links ∧
      (consumeEntry a0 a1 s).benches.packets = s.benches.packets ∧ (consumeEntry a0 a1 s).serve = s.serve ∧
      (consumeEntry a0 a1 s).opr = s.opr ∧ (consumeEntry a0 a1 s).red = s.red ∧ (consumeEntry a0 a1 s).pwr = s.pwr := by
  simp only [consumeEntry]
  (repeat' split) <;> simp

@[simp] theorem noteWait_parts (a0 : Bool) (a1 : Nat) (a2 : Nat) (s : State) :
    (noteWait a0 a1 a2 s).nv = s.nv ∧ (noteWait a0 a1 a2 s).boot = s.boot ∧ (noteWait a0 a1 a2 s).mem = s.mem ∧
      (noteWait a0 a1 a2 s).gau = s.gau ∧ (noteWait a0 a1 a2 s).benches = s.benches ∧ (noteWait a0 a1 a2 s).serve = s.serve ∧
      (noteWait a0 a1 a2 s).opr = s.opr ∧ (noteWait a0 a1 a2 s).red = s.red ∧ (noteWait a0 a1 a2 s).pwr = s.pwr := by
  simp only [noteWait]
  (repeat' split) <;> simp

@[simp] theorem tryStart_parts (a0 : Bool) (a1 : Nat) (s : State) :
    (tryStart a0 a1 s).boot = s.boot ∧ (tryStart a0 a1 s).benches.links = s.benches.links ∧
      (tryStart a0 a1 s).benches.packets = s.benches.packets ∧ (tryStart a0 a1 s).serve = s.serve ∧
      (tryStart a0 a1 s).opr = s.opr ∧ (tryStart a0 a1 s).red = s.red ∧ (tryStart a0 a1 s).pwr = s.pwr := by
  simp only [tryStart]
  (repeat' split) <;> simp

@[simp] theorem endSessionTriggers_parts (a0 : Nat) (s : State) :
    (endSessionTriggers a0 s).nv = s.nv ∧ (endSessionTriggers a0 s).boot = s.boot ∧ (endSessionTriggers a0 s).mem = s.mem ∧
      (endSessionTriggers a0 s).gau = s.gau ∧ (endSessionTriggers a0 s).benches = s.benches ∧
      (endSessionTriggers a0 s).serve = s.serve ∧ (endSessionTriggers a0 s).vid = s.vid ∧ (endSessionTriggers a0 s).red = s.red ∧
      (endSessionTriggers a0 s).pwr = s.pwr := by
  simp [endSessionTriggers]

@[simp] theorem putPlain_parts (a0 : Nat) (a1 : Nat) (a2 : Nat) (s : State) :
    (putPlain a0 a1 a2 s).boot = s.boot ∧ (putPlain a0 a1 a2 s).benches.links = s.benches.links ∧
      (putPlain a0 a1 a2 s).benches.packets = s.benches.packets ∧ (putPlain a0 a1 a2 s).serve = s.serve ∧
      (putPlain a0 a1 a2 s).opr = s.opr ∧ (putPlain a0 a1 a2 s).red = s.red ∧ (putPlain a0 a1 a2 s).pwr = s.pwr := by
  simp [putPlain]

@[simp] theorem putPicture_parts (a0 : Nat) (a1 : HeldPic) (a2 : Stamp) (s : State) :
    (putPicture a0 a1 a2 s).boot = s.boot ∧ (putPicture a0 a1 a2 s).benches.links = s.benches.links ∧
      (putPicture a0 a1 a2 s).benches.packets = s.benches.packets ∧ (putPicture a0 a1 a2 s).serve = s.serve ∧
      (putPicture a0 a1 a2 s).red = s.red ∧ (putPicture a0 a1 a2 s).pwr = s.pwr := by
  simp only [putPicture]
  (repeat' split) <;> simp

@[simp] theorem putHeld_parts (a0 : Nat) (s : State) :
    (putHeld a0 s).boot = s.boot ∧ (putHeld a0 s).benches.links = s.benches.links ∧
      (putHeld a0 s).benches.packets = s.benches.packets ∧ (putHeld a0 s).serve = s.serve ∧ (putHeld a0 s).red = s.red ∧
      (putHeld a0 s).pwr = s.pwr := by
  simp only [putHeld]
  (repeat' split) <;> simp

@[simp] theorem finishClosing_parts (a0 : Bool) (a1 : Nat) (s : State) :
    (finishClosing a0 a1 s).boot = s.boot ∧ (finishClosing a0 a1 s).benches.links = s.benches.links ∧
      (finishClosing a0 a1 s).benches.packets = s.benches.packets ∧ (finishClosing a0 a1 s).serve = s.serve ∧
      (finishClosing a0 a1 s).red = s.red ∧ (finishClosing a0 a1 s).pwr = s.pwr := by
  simp only [finishClosing]
  (repeat' split) <;> simp

@[simp] theorem dropSession_parts (a0 : Bool) (a1 : Nat) (s : State) :
    (dropSession a0 a1 s).boot = s.boot ∧ (dropSession a0 a1 s).benches.links = s.benches.links ∧
      (dropSession a0 a1 s).benches.packets = s.benches.packets ∧ (dropSession a0 a1 s).serve = s.serve ∧
      (dropSession a0 a1 s).red = s.red ∧ (dropSession a0 a1 s).pwr = s.pwr := by
  simp [dropSession]

@[simp] theorem writeRows_parts (a0 : Nat) (a1 : List (Nat × List Byte)) (s : State) :
    (writeRows a0 a1 s).2.boot = s.boot ∧ (writeRows a0 a1 s).2.benches.links = s.benches.links ∧
      (writeRows a0 a1 s).2.benches.packets = s.benches.packets ∧ (writeRows a0 a1 s).2.serve = s.serve ∧
      (writeRows a0 a1 s).2.opr = s.opr ∧ (writeRows a0 a1 s).2.vid = s.vid ∧ (writeRows a0 a1 s).2.red = s.red ∧
      (writeRows a0 a1 s).2.pwr = s.pwr := by
  induction a1 generalizing s with
  | nil => simp [writeRows]
  | cons k r ih =>
    simp only [writeRows]
    split <;> simp [ih]

@[simp] theorem endAu_parts (a0 : Nat) (s : State) :
    (endAu a0 s).boot = s.boot ∧ (endAu a0 s).benches.links = s.benches.links ∧ (endAu a0 s).benches.packets = s.benches.packets ∧
      (endAu a0 s).serve = s.serve ∧ (endAu a0 s).red = s.red ∧ (endAu a0 s).pwr = s.pwr := by
  simp only [endAu]
  (repeat' split) <;> simp

@[simp] theorem dropAu_parts (a0 : Nat) (a1 : Nat) (a2 : Nat) (a3 : Nat) (a4 : Nat) (s : State) :
    (dropAu a0 a1 a2 a3 a4 s).boot = s.boot ∧ (dropAu a0 a1 a2 a3 a4 s).benches.links = s.benches.links ∧
      (dropAu a0 a1 a2 a3 a4 s).benches.packets = s.benches.packets ∧ (dropAu a0 a1 a2 a3 a4 s).serve = s.serve ∧
      (dropAu a0 a1 a2 a3 a4 s).red = s.red ∧ (dropAu a0 a1 a2 a3 a4 s).pwr = s.pwr := by
  simp only [dropAu]
  (repeat' split) <;> simp

@[simp] theorem faultDec_parts (a0 : Nat) (a1 : Nat) (a2 : Nat) (s : State) :
    (faultDec a0 a1 a2 s).boot = s.boot ∧ (faultDec a0 a1 a2 s).benches.links = s.benches.links ∧
      (faultDec a0 a1 a2 s).benches.packets = s.benches.packets ∧ (faultDec a0 a1 a2 s).serve = s.serve ∧
      (faultDec a0 a1 a2 s).red = s.red ∧ (faultDec a0 a1 a2 s).pwr = s.pwr := by
  simp [faultDec]

@[simp] theorem storeFrame_parts (a0 : Nat) (a1 : DecSession) (a2 : Decoded) (s : State) :
    (storeFrame a0 a1 a2 s).2.boot = s.boot ∧ (storeFrame a0 a1 a2 s).2.benches.links = s.benches.links ∧
      (storeFrame a0 a1 a2 s).2.benches.packets = s.benches.packets ∧ (storeFrame a0 a1 a2 s).2.serve = s.serve ∧
      (storeFrame a0 a1 a2 s).2.opr = s.opr ∧ (storeFrame a0 a1 a2 s).2.red = s.red ∧ (storeFrame a0 a1 a2 s).2.pwr = s.pwr := by
  simp only [storeFrame]
  (repeat' split) <;> simp

@[simp] theorem outputPicture_parts (a0 : Nat) (a1 : Decoded) (a2 : Picture) (a3 : Nat) (a4 : Nat) (s : State) :
    (outputPicture a0 a1 a2 a3 a4 s).boot = s.boot ∧ (outputPicture a0 a1 a2 a3 a4 s).benches.links = s.benches.links ∧
      (outputPicture a0 a1 a2 a3 a4 s).benches.packets = s.benches.packets ∧ (outputPicture a0 a1 a2 a3 a4 s).serve = s.serve ∧
      (outputPicture a0 a1 a2 a3 a4 s).red = s.red ∧ (outputPicture a0 a1 a2 a3 a4 s).pwr = s.pwr := by
  simp only [outputPicture]
  (repeat' split) <;> simp

@[simp] theorem releaseHeld_parts (a0 : Nat) (a1 : List Nat) (s : State) :
    (releaseHeld a0 a1 s).boot = s.boot ∧ (releaseHeld a0 a1 s).benches.links = s.benches.links ∧
      (releaseHeld a0 a1 s).benches.packets = s.benches.packets ∧ (releaseHeld a0 a1 s).serve = s.serve ∧
      (releaseHeld a0 a1 s).red = s.red ∧ (releaseHeld a0 a1 s).pwr = s.pwr := by
  simp only [releaseHeld]
  (repeat' split) <;> simp

@[simp] theorem videoReads_parts (l : List (Nat × Nat)) (s : State) :
    (videoReads l s).boot = s.boot ∧ (videoReads l s).benches.links = s.benches.links ∧
      (videoReads l s).benches.packets = s.benches.packets ∧ (videoReads l s).serve = s.serve ∧
      (videoReads l s).opr = s.opr ∧ (videoReads l s).vid = s.vid ∧ (videoReads l s).red = s.red ∧
      (videoReads l s).pwr = s.pwr := by
  simp [videoReads]

@[simp] theorem pictureKept_parts (a0 : Nat) (a1 : DecSession) (a2 : Decoded) (a3 : Option Nat) (s : State) :
    (pictureKept a0 a1 a2 a3 s).2.boot = s.boot ∧ (pictureKept a0 a1 a2 a3 s).2.benches.links = s.benches.links ∧
      (pictureKept a0 a1 a2 a3 s).2.benches.packets = s.benches.packets ∧ (pictureKept a0 a1 a2 a3 s).2.serve = s.serve ∧
      (pictureKept a0 a1 a2 a3 s).2.opr = s.opr ∧ (pictureKept a0 a1 a2 a3 s).2.red = s.red ∧
      (pictureKept a0 a1 a2 a3 s).2.pwr = s.pwr := by
  unfold pictureKept
  split <;> simp

@[simp] theorem pictureDone_parts (a0 : Nat) (a1 : DecSession) (a2 : Decoded) (a3 : Bool) (s : State) :
    (pictureDone a0 a1 a2 a3 s).boot = s.boot ∧ (pictureDone a0 a1 a2 a3 s).benches.links = s.benches.links ∧
      (pictureDone a0 a1 a2 a3 s).benches.packets = s.benches.packets ∧ (pictureDone a0 a1 a2 a3 s).serve = s.serve ∧
      (pictureDone a0 a1 a2 a3 s).red = s.red ∧ (pictureDone a0 a1 a2 a3 s).pwr = s.pwr := by
  simp only [pictureDone]
  (repeat' split) <;> simp

@[simp] theorem faultEnc_parts (a0 : Nat) (a1 : Nat) (a2 : Nat) (s : State) :
    (faultEnc a0 a1 a2 s).boot = s.boot ∧ (faultEnc a0 a1 a2 s).benches.links = s.benches.links ∧
      (faultEnc a0 a1 a2 s).benches.packets = s.benches.packets ∧ (faultEnc a0 a1 a2 s).serve = s.serve ∧
      (faultEnc a0 a1 a2 s).red = s.red ∧ (faultEnc a0 a1 a2 s).pwr = s.pwr := by
  simp only [faultEnc]
  (repeat' split) <;> simp

@[simp] theorem encodeDone_parts (a0 : Nat) (a1 : EncSession) (a2 : List Byte) (a3 : List EncRow) (s : State) :
    (encodeDone a0 a1 a2 a3 s).boot = s.boot ∧ (encodeDone a0 a1 a2 a3 s).benches.links = s.benches.links ∧
      (encodeDone a0 a1 a2 a3 s).benches.packets = s.benches.packets ∧ (encodeDone a0 a1 a2 a3 s).serve = s.serve ∧
      (encodeDone a0 a1 a2 a3 s).red = s.red ∧ (encodeDone a0 a1 a2 a3 s).pwr = s.pwr := by
  simp only [encodeDone]
  (repeat' split) <;> simp

@[simp] theorem answerPending_parts (a0 : Nat) (s : State) :
    (answerPending a0 s).nv = s.nv ∧ (answerPending a0 s).boot = s.boot ∧ (answerPending a0 s).mem = s.mem ∧
      (answerPending a0 s).gau = s.gau ∧ (answerPending a0 s).benches = s.benches ∧ (answerPending a0 s).serve = s.serve ∧
      (answerPending a0 s).opr = s.opr ∧ (answerPending a0 s).vid = s.vid ∧ (answerPending a0 s).red = s.red ∧
      (answerPending a0 s).pwr = s.pwr := by
  simp [answerPending]

@[simp] theorem cancelAll_parts (a0 : Nat) (s : State) :
    (cancelAll a0 s).boot = s.boot ∧ (cancelAll a0 s).benches.links = s.benches.links ∧
      (cancelAll a0 s).benches.packets = s.benches.packets ∧ (cancelAll a0 s).opr = s.opr ∧ (cancelAll a0 s).vid = s.vid ∧
      (cancelAll a0 s).red = s.red ∧ (cancelAll a0 s).pwr = s.pwr := by
  simp [cancelAll]

@[simp] theorem dropResources_parts (a0 : Nat) (s : State) :
    (dropResources a0 s).boot = s.boot ∧ (dropResources a0 s).benches.links = s.benches.links ∧
      (dropResources a0 s).benches.packets = s.benches.packets ∧ (dropResources a0 s).red = s.red ∧ (dropResources a0 s).pwr = s.pwr := by
  simp [dropResources]

@[simp] theorem dropWork_parts (a0 : Nat) (s : State) :
    (dropWork a0 s).nv = s.nv ∧ (dropWork a0 s).boot = s.boot ∧ (dropWork a0 s).mem = s.mem ∧
      (dropWork a0 s).benches.links = s.benches.links ∧ (dropWork a0 s).benches.packets = s.benches.packets ∧
      (dropWork a0 s).serve = s.serve ∧ (dropWork a0 s).vid = s.vid ∧ (dropWork a0 s).red = s.red ∧ (dropWork a0 s).pwr = s.pwr := by
  simp [dropWork]

@[simp] theorem releaseGroup_parts (a0 : Nat) (a1 : Nat) (s : State) :
    (releaseGroup a0 a1 s).nv = s.nv ∧ (releaseGroup a0 a1 s).boot = s.boot ∧ (releaseGroup a0 a1 s).mem = s.mem ∧
      (releaseGroup a0 a1 s).gau = s.gau ∧ (releaseGroup a0 a1 s).benches = s.benches ∧ (releaseGroup a0 a1 s).serve = s.serve ∧
      (releaseGroup a0 a1 s).opr = s.opr ∧ (releaseGroup a0 a1 s).vid = s.vid ∧ (releaseGroup a0 a1 s).red = s.red ∧
      (releaseGroup a0 a1 s).pwr = s.pwr := by
  simp [releaseGroup]

@[simp] theorem dropOwnership_parts (a0 : Nat) (s : State) :
    (dropOwnership a0 s).nv = s.nv ∧ (dropOwnership a0 s).boot = s.boot ∧ (dropOwnership a0 s).mem = s.mem ∧
      (dropOwnership a0 s).gau = s.gau ∧ (dropOwnership a0 s).benches.links = s.benches.links ∧
      (dropOwnership a0 s).benches.packets = s.benches.packets ∧ (dropOwnership a0 s).serve = s.serve ∧
      (dropOwnership a0 s).opr = s.opr ∧ (dropOwnership a0 s).vid = s.vid ∧ (dropOwnership a0 s).red = s.red ∧
      (dropOwnership a0 s).pwr = s.pwr := by
  simp [dropOwnership]

@[simp] theorem endSession_parts (a0 : Nat) (s : State) :
    (endSession a0 s).boot = s.boot ∧ (endSession a0 s).benches.links = s.benches.links ∧
      (endSession a0 s).benches.packets = s.benches.packets ∧ (endSession a0 s).opr = s.opr ∧ (endSession a0 s).vid = s.vid ∧
      (endSession a0 s).red = s.red ∧ (endSession a0 s).pwr = s.pwr := by
  simp [endSession, foldN]

@[simp] theorem endBoundSessions_parts (a0 : Nat) (s : State) :
    (endBoundSessions a0 s).boot = s.boot ∧ (endBoundSessions a0 s).benches.links = s.benches.links ∧
      (endBoundSessions a0 s).benches.packets = s.benches.packets ∧ (endBoundSessions a0 s).opr = s.opr ∧
      (endBoundSessions a0 s).vid = s.vid ∧ (endBoundSessions a0 s).red = s.red ∧ (endBoundSessions a0 s).pwr = s.pwr := by
  simp [endBoundSessions]

@[simp] theorem destroyProgress_parts (a0 : Nat) (s : State) :
    (destroyProgress a0 s).boot = s.boot ∧ (destroyProgress a0 s).benches.links = s.benches.links ∧
      (destroyProgress a0 s).benches.packets = s.benches.packets ∧ (destroyProgress a0 s).opr = s.opr ∧
      (destroyProgress a0 s).vid = s.vid ∧ (destroyProgress a0 s).pwr = s.pwr := by
  simp [destroyProgress]

@[simp] theorem destroyCtx_parts (a0 : Nat) (s : State) :
    (destroyCtx a0 s).boot = s.boot ∧ (destroyCtx a0 s).benches.links = s.benches.links ∧
      (destroyCtx a0 s).benches.packets = s.benches.packets ∧ (destroyCtx a0 s).red = s.red ∧ (destroyCtx a0 s).pwr = s.pwr := by
  simp [destroyCtx]

@[simp] theorem cleanGroup_parts (a0 : Nat) (s : State) :
    (cleanGroup a0 s).boot = s.boot ∧ (cleanGroup a0 s).benches = s.benches ∧ (cleanGroup a0 s).serve = s.serve ∧
      (cleanGroup a0 s).opr = s.opr ∧ (cleanGroup a0 s).vid = s.vid ∧ (cleanGroup a0 s).red = s.red ∧
      (cleanGroup a0 s).pwr = s.pwr := by
  simp [cleanGroup]

@[simp] theorem putLot_parts (a0 : Nat) (a1 : Nat) (a2 : Word) (s : State) :
    (putLot a0 a1 a2 s).nv = s.nv ∧ (putLot a0 a1 a2 s).boot = s.boot ∧ (putLot a0 a1 a2 s).mem = s.mem ∧
      (putLot a0 a1 a2 s).gau = s.gau ∧ (putLot a0 a1 a2 s).benches = s.benches ∧ (putLot a0 a1 a2 s).serve = s.serve ∧
      (putLot a0 a1 a2 s).opr = s.opr ∧ (putLot a0 a1 a2 s).vid = s.vid ∧ (putLot a0 a1 a2 s).red = s.red ∧
      (putLot a0 a1 a2 s).pwr = s.pwr := by
  simp [putLot]

@[simp] theorem lotAnswer_parts (a0 : Nat) (a1 : Word) (a2 : Word) (s : State) :
    (lotAnswer a0 a1 a2 s).s.nv = s.nv ∧ (lotAnswer a0 a1 a2 s).s.boot = s.boot ∧ (lotAnswer a0 a1 a2 s).s.mem = s.mem ∧
      (lotAnswer a0 a1 a2 s).s.gau = s.gau ∧ (lotAnswer a0 a1 a2 s).s.benches.links = s.benches.links ∧
      (lotAnswer a0 a1 a2 s).s.benches.packets = s.benches.packets ∧ (lotAnswer a0 a1 a2 s).s.serve = s.serve ∧
      (lotAnswer a0 a1 a2 s).s.opr = s.opr ∧ (lotAnswer a0 a1 a2 s).s.vid = s.vid ∧ (lotAnswer a0 a1 a2 s).s.red = s.red ∧
      (lotAnswer a0 a1 a2 s).s.pwr = s.pwr := by
  simp [lotAnswer]

@[simp] theorem moveStore_parts (a0 : Nat) (a1 : Nat) (a2 : Nat) (a3 : Nat) (a4 : Right) (s : State) :
    (moveStore a0 a1 a2 a3 a4 s).boot = s.boot ∧ (moveStore a0 a1 a2 a3 a4 s).benches.links = s.benches.links ∧
      (moveStore a0 a1 a2 a3 a4 s).benches.packets = s.benches.packets ∧ (moveStore a0 a1 a2 a3 a4 s).serve = s.serve ∧
      (moveStore a0 a1 a2 a3 a4 s).opr = s.opr ∧ (moveStore a0 a1 a2 a3 a4 s).vid = s.vid ∧
      (moveStore a0 a1 a2 a3 a4 s).red = s.red ∧ (moveStore a0 a1 a2 a3 a4 s).pwr = s.pwr := by
  simp [moveStore]

@[simp] theorem keepBench_parts (c b : Nat) (s : State) :
    (keepBench c b s).nv = s.nv ∧ (keepBench c b s).boot = s.boot ∧ (keepBench c b s).mem = s.mem ∧
      (keepBench c b s).gau = s.gau ∧ (keepBench c b s).benches.links = s.benches.links ∧
      (keepBench c b s).benches.packets = s.benches.packets ∧ (keepBench c b s).serve = s.serve ∧
      (keepBench c b s).opr = s.opr ∧ (keepBench c b s).vid = s.vid ∧ (keepBench c b s).red = s.red ∧
      (keepBench c b s).pwr = s.pwr := by
  simp [keepBench]

@[simp] theorem saveBenches_parts (a0 : Nat) (s : State) :
    (saveBenches a0 s).boot = s.boot ∧ (saveBenches a0 s).benches.links = s.benches.links ∧
      (saveBenches a0 s).benches.packets = s.benches.packets ∧ (saveBenches a0 s).serve = s.serve ∧
      (saveBenches a0 s).opr = s.opr ∧ (saveBenches a0 s).vid = s.vid ∧ (saveBenches a0 s).red = s.red ∧
      (saveBenches a0 s).pwr = s.pwr := by
  simp [saveBenches]

@[simp] theorem loadBenches_parts (a0 : Nat) (s : State) :
    (loadBenches a0 s).boot = s.boot ∧ (loadBenches a0 s).benches.links = s.benches.links ∧
      (loadBenches a0 s).benches.packets = s.benches.packets ∧ (loadBenches a0 s).serve = s.serve ∧
      (loadBenches a0 s).opr = s.opr ∧ (loadBenches a0 s).vid = s.vid ∧ (loadBenches a0 s).red = s.red ∧
      (loadBenches a0 s).pwr = s.pwr := by
  simp [loadBenches]

@[simp] theorem takeTurn_parts (a0 : Nat) (s : State) :
    (takeTurn a0 s).nv = s.nv ∧ (takeTurn a0 s).boot = s.boot ∧ (takeTurn a0 s).mem = s.mem ∧ (takeTurn a0 s).gau = s.gau ∧
      (takeTurn a0 s).benches = s.benches ∧ (takeTurn a0 s).serve = s.serve ∧ (takeTurn a0 s).opr = s.opr ∧
      (takeTurn a0 s).vid = s.vid ∧ (takeTurn a0 s).red = s.red ∧ (takeTurn a0 s).pwr = s.pwr := by
  simp [takeTurn]

@[simp] theorem applyOwnership_parts (a0 : Nat) (a1 : List Staged) (a2 : Bool) (s : State) :
    (applyOwnership a0 a1 a2 s).nv = s.nv ∧ (applyOwnership a0 a1 a2 s).boot = s.boot ∧ (applyOwnership a0 a1 a2 s).mem = s.mem ∧
      (applyOwnership a0 a1 a2 s).gau = s.gau ∧ (applyOwnership a0 a1 a2 s).benches.links = s.benches.links ∧
      (applyOwnership a0 a1 a2 s).benches.packets = s.benches.packets ∧ (applyOwnership a0 a1 a2 s).serve = s.serve ∧
      (applyOwnership a0 a1 a2 s).opr = s.opr ∧ (applyOwnership a0 a1 a2 s).vid = s.vid ∧ (applyOwnership a0 a1 a2 s).red = s.red ∧
      (applyOwnership a0 a1 a2 s).pwr = s.pwr := by
  simp [applyOwnership]

@[simp] theorem applyPool_parts (a0 : Nat) (a1 : PoolCfg) (s : State) :
    (applyPool a0 a1 s).nv = s.nv ∧ (applyPool a0 a1 s).boot = s.boot ∧ (applyPool a0 a1 s).mem = s.mem ∧
      (applyPool a0 a1 s).gau = s.gau ∧ (applyPool a0 a1 s).benches = s.benches ∧ (applyPool a0 a1 s).opr = s.opr ∧
      (applyPool a0 a1 s).vid = s.vid ∧ (applyPool a0 a1 s).red = s.red ∧ (applyPool a0 a1 s).pwr = s.pwr := by
  simp [applyPool]

@[simp] theorem applyProtect_parts (a0 : Nat) (a1 : ProtectPar) (s : State) :
    (applyProtect a0 a1 s).nv = s.nv ∧ (applyProtect a0 a1 s).boot = s.boot ∧ (applyProtect a0 a1 s).mem = s.mem ∧
      (applyProtect a0 a1 s).gau = s.gau ∧ (applyProtect a0 a1 s).benches = s.benches ∧ (applyProtect a0 a1 s).serve = s.serve ∧
      (applyProtect a0 a1 s).opr = s.opr ∧ (applyProtect a0 a1 s).vid = s.vid ∧ (applyProtect a0 a1 s).pwr = s.pwr := by
  simp [applyProtect]

@[simp] theorem applyContext_parts (a0 : Nat) (a1 : List Staged) (s : State) :
    (applyContext a0 a1 s).nv = s.nv ∧ (applyContext a0 a1 s).boot = s.boot ∧ (applyContext a0 a1 s).mem = s.mem ∧
      (applyContext a0 a1 s).gau = s.gau ∧ (applyContext a0 a1 s).benches.links = s.benches.links ∧
      (applyContext a0 a1 s).benches.packets = s.benches.packets ∧ (applyContext a0 a1 s).opr = s.opr ∧
      (applyContext a0 a1 s).vid = s.vid ∧ (applyContext a0 a1 s).pwr = s.pwr := by
  simp [applyContext]

@[simp] theorem applyNet_parts (a0 : Staged) (s : State) :
    (applyNet a0 s).nv = s.nv ∧ (applyNet a0 s).boot = s.boot ∧ (applyNet a0 s).mem = s.mem ∧ (applyNet a0 s).gau = s.gau ∧
      (applyNet a0 s).benches = s.benches ∧ (applyNet a0 s).serve = s.serve ∧ (applyNet a0 s).opr = s.opr ∧
      (applyNet a0 s).vid = s.vid ∧ (applyNet a0 s).red = s.red ∧ (applyNet a0 s).pwr = s.pwr := by
  simp only [applyNet]
  (repeat' split) <;> simp

@[simp] theorem applyPace_parts (a0 : PaceCfg) (s : State) :
    (applyPace a0 s).nv = s.nv ∧ (applyPace a0 s).boot = s.boot ∧ (applyPace a0 s).mem = s.mem ∧ (applyPace a0 s).gau = s.gau ∧
      (applyPace a0 s).benches = s.benches ∧ (applyPace a0 s).serve = s.serve ∧ (applyPace a0 s).opr = s.opr ∧
      (applyPace a0 s).vid = s.vid ∧ (applyPace a0 s).red = s.red := by
  simp [applyPace]

@[simp] theorem applyPower_parts (a0 : List Staged) (s : State) :
    (applyPower a0 s).nv = s.nv ∧ (applyPower a0 s).boot = s.boot ∧ (applyPower a0 s).mem = s.mem ∧ (applyPower a0 s).gau = s.gau ∧
      (applyPower a0 s).benches = s.benches ∧ (applyPower a0 s).serve = s.serve ∧ (applyPower a0 s).opr = s.opr ∧
      (applyPower a0 s).vid = s.vid ∧ (applyPower a0 s).red = s.red := by
  simp [applyPower]

@[simp] theorem applyTime_parts (a0 : PtpConfig) (s : State) :
    (applyTime a0 s).nv = s.nv ∧ (applyTime a0 s).boot = s.boot ∧ (applyTime a0 s).mem = s.mem ∧ (applyTime a0 s).gau = s.gau ∧
      (applyTime a0 s).benches = s.benches ∧ (applyTime a0 s).serve = s.serve ∧ (applyTime a0 s).opr = s.opr ∧
      (applyTime a0 s).vid = s.vid ∧ (applyTime a0 s).red = s.red ∧ (applyTime a0 s).pwr = s.pwr := by
  simp [applyTime]

@[simp] theorem applyStart_parts (a0 : Nat) (s : State) :
    (applyStart a0 s).nv = s.nv ∧ (applyStart a0 s).boot = s.boot ∧ (applyStart a0 s).mem = s.mem ∧ (applyStart a0 s).gau = s.gau ∧
      (applyStart a0 s).benches.links = s.benches.links ∧ (applyStart a0 s).benches.packets = s.benches.packets ∧
      (applyStart a0 s).opr = s.opr ∧ (applyStart a0 s).vid = s.vid := by
  simp only [applyStart]
  (repeat' split) <;> simp

@[simp] theorem stageNet_parts (a0 : Nat) (a1 : Hdr) (a2 : Nat) (a3 : Bool) (a4 : Staged) (s : State) :
    (stageNet a0 a1 a2 a3 a4 s).nv = s.nv ∧ (stageNet a0 a1 a2 a3 a4 s).boot = s.boot ∧ (stageNet a0 a1 a2 a3 a4 s).mem = s.mem ∧
      (stageNet a0 a1 a2 a3 a4 s).gau = s.gau ∧ (stageNet a0 a1 a2 a3 a4 s).benches = s.benches ∧
      (stageNet a0 a1 a2 a3 a4 s).serve = s.serve ∧ (stageNet a0 a1 a2 a3 a4 s).opr = s.opr ∧ (stageNet a0 a1 a2 a3 a4 s).vid = s.vid ∧
      (stageNet a0 a1 a2 a3 a4 s).red = s.red ∧ (stageNet a0 a1 a2 a3 a4 s).pwr = s.pwr := by
  simp [stageNet]

@[simp] theorem endPeerQuarantine_parts (a0 : Nat) (s : State) :
    (endPeerQuarantine a0 s).nv = s.nv ∧ (endPeerQuarantine a0 s).boot = s.boot ∧ (endPeerQuarantine a0 s).mem = s.mem ∧
      (endPeerQuarantine a0 s).gau = s.gau ∧ (endPeerQuarantine a0 s).benches = s.benches ∧ (endPeerQuarantine a0 s).serve = s.serve ∧
      (endPeerQuarantine a0 s).opr = s.opr ∧ (endPeerQuarantine a0 s).vid = s.vid ∧ (endPeerQuarantine a0 s).red = s.red ∧
      (endPeerQuarantine a0 s).pwr = s.pwr := by
  simp [endPeerQuarantine]

@[simp] theorem learnPeer_parts (a0 : XMsg) (a1 : HelloPar) (s : State) :
    (learnPeer a0 a1 s).2.nv = s.nv ∧ (learnPeer a0 a1 s).2.boot = s.boot ∧ (learnPeer a0 a1 s).2.mem = s.mem ∧
      (learnPeer a0 a1 s).2.gau = s.gau ∧ (learnPeer a0 a1 s).2.benches.links = s.benches.links ∧
      (learnPeer a0 a1 s).2.benches.packets = s.benches.packets ∧ (learnPeer a0 a1 s).2.opr = s.opr ∧
      (learnPeer a0 a1 s).2.vid = s.vid ∧ (learnPeer a0 a1 s).2.red = s.red ∧ (learnPeer a0 a1 s).2.pwr = s.pwr := by
  simp only [learnPeer]
  (repeat' split) <;> simp

theorem receiveHello_gen {β : Type} (g : State → β) (h1 : ∀ m s, g (portTakes m s).2 = g s) (h2 : ∀ m p s, g (learnPeer m p s).2 = g s)
    (h3 : ∀ m c v q s, g (peerViolation m c v q s) = g s) (h4 : ∀ c v x k q l s, g (record c v x k q l s) = g s)
    (h5 : ∀ s, g (issueStamp s).2 = g s) (h6 : ∀ r s, g (causal r s) = g s)
    (h7 : ∀ s n, g { s with time := { s.time with skewDrops := n } } = g s)
    (m : XMsg) (p : HelloPar) (body : State → State) (s : State) (hb : ∀ s, g (body s) = g s) : g (receiveHello m p body s) = g s := by
  have a1 := h1 m s
  unfold receiveHello
  split
  · next e => rw [e] at a1; exact a1
  · next u e =>
    rw [e] at a1
    split
    · dsimp only
      split
      · rw [h3, h7]; exact a1
      · rw [h4, h7]; exact a1
    · have a2 := h2 m p (issueStamp (causal m.stamp u)).2
      rw [h5, h6] at a2
      dsimp only
      split
      · next e => rw [e] at a2; exact a2.trans a1
      · next e => rw [e] at a2; rw [hb]; exact a2.trans a1

@[simp] theorem receiveHello_nv {m : XMsg} {p : HelloPar} {body : State → State} {s : State} (hb : ∀ s, (body s).nv = s.nv) : (receiveHello m p body s).nv = s.nv :=
  receiveHello_gen (·.nv) (by simp) (by simp) (by simp) (by simp) (by simp) (by simp) (by simp) m p body s hb

@[simp] theorem receiveHello_boot {m : XMsg} {p : HelloPar} {body : State → State} {s : State} (hb : ∀ s, (body s).boot = s.boot) : (receiveHello m p body s).boot = s.boot :=
  receiveHello_gen (·.boot) (by simp) (by simp) (by simp) (by simp) (by simp) (by simp) (by simp) m p body s hb

@[simp] theorem receiveHello_mem {m : XMsg} {p : HelloPar} {body : State → State} {s : State} (hb : ∀ s, (body s).mem = s.mem) : (receiveHello m p body s).mem = s.mem :=
  receiveHello_gen (·.mem) (by simp) (by simp) (by simp) (by simp) (by simp) (by simp) (by simp) m p body s hb

@[simp] theorem receiveHello_gau {m : XMsg} {p : HelloPar} {body : State → State} {s : State} (hb : ∀ s, (body s).gau = s.gau) : (receiveHello m p body s).gau = s.gau :=
  receiveHello_gen (·.gau) (by simp) (by simp) (by simp) (by simp) (by simp) (by simp) (by simp) m p body s hb

@[simp] theorem receiveHello_benches_links {m : XMsg} {p : HelloPar} {body : State → State} {s : State} (hb : ∀ s, (body s).benches.links = s.benches.links) : (receiveHello m p body s).benches.links = s.benches.links :=
  receiveHello_gen (·.benches.links) (by simp) (by simp) (by simp) (by simp) (by simp) (by simp) (by simp) m p body s hb

@[simp] theorem receiveHello_benches_packets {m : XMsg} {p : HelloPar} {body : State → State} {s : State} (hb : ∀ s, (body s).benches.packets = s.benches.packets) : (receiveHello m p body s).benches.packets = s.benches.packets :=
  receiveHello_gen (·.benches.packets) (by simp) (by simp) (by simp) (by simp) (by simp) (by simp) (by simp) m p body s hb

@[simp] theorem receiveHello_opr {m : XMsg} {p : HelloPar} {body : State → State} {s : State} (hb : ∀ s, (body s).opr = s.opr) : (receiveHello m p body s).opr = s.opr :=
  receiveHello_gen (·.opr) (by simp) (by simp) (by simp) (by simp) (by simp) (by simp) (by simp) m p body s hb

@[simp] theorem receiveHello_vid {m : XMsg} {p : HelloPar} {body : State → State} {s : State} (hb : ∀ s, (body s).vid = s.vid) : (receiveHello m p body s).vid = s.vid :=
  receiveHello_gen (·.vid) (by simp) (by simp) (by simp) (by simp) (by simp) (by simp) (by simp) m p body s hb

@[simp] theorem receiveHello_red {m : XMsg} {p : HelloPar} {body : State → State} {s : State} (hb : ∀ s, (body s).red = s.red) : (receiveHello m p body s).red = s.red :=
  receiveHello_gen (·.red) (by simp) (by simp) (by simp) (by simp) (by simp) (by simp) (by simp) m p body s hb

@[simp] theorem receiveHello_pwr {m : XMsg} {p : HelloPar} {body : State → State} {s : State} (hb : ∀ s, (body s).pwr = s.pwr) : (receiveHello m p body s).pwr = s.pwr :=
  receiveHello_gen (·.pwr) (by simp) (by simp) (by simp) (by simp) (by simp) (by simp) (by simp) m p body s hb

@[simp] theorem sendOpenAck_parts (a0 : Nat) (s : State) :
    (sendOpenAck a0 s).nv = s.nv ∧ (sendOpenAck a0 s).boot = s.boot ∧ (sendOpenAck a0 s).mem = s.mem ∧ (sendOpenAck a0 s).gau = s.gau ∧
      (sendOpenAck a0 s).benches = s.benches ∧ (sendOpenAck a0 s).serve = s.serve ∧ (sendOpenAck a0 s).opr = s.opr ∧
      (sendOpenAck a0 s).vid = s.vid ∧ (sendOpenAck a0 s).red = s.red ∧ (sendOpenAck a0 s).pwr = s.pwr := by
  simp [sendOpenAck]

@[simp] theorem holdStopped_parts (a0 : Nat) (a1 : NetOp) (s : State) :
    (holdStopped a0 a1 s).nv = s.nv ∧ (holdStopped a0 a1 s).boot = s.boot ∧ (holdStopped a0 a1 s).mem = s.mem ∧
      (holdStopped a0 a1 s).gau = s.gau ∧ (holdStopped a0 a1 s).benches.links = s.benches.links ∧
      (holdStopped a0 a1 s).benches.packets = s.benches.packets ∧ (holdStopped a0 a1 s).opr = s.opr ∧
      (holdStopped a0 a1 s).vid = s.vid ∧ (holdStopped a0 a1 s).red = s.red ∧ (holdStopped a0 a1 s).pwr = s.pwr := by
  simp only [holdStopped]
  (repeat' split) <;> simp

@[simp] theorem takeNak_parts (a0 : XMsg) (s : State) :
    (takeNak a0 s).boot = s.boot ∧ (takeNak a0 s).benches.links = s.benches.links ∧
      (takeNak a0 s).benches.packets = s.benches.packets ∧ (takeNak a0 s).opr = s.opr := by
  simp only [takeNak]
  (repeat' split) <;> simp

@[simp] theorem refuseShip_parts (a0 : XMsg) (a1 : Option Nat) (s : State) :
    (refuseShip a0 a1 s).nv = s.nv ∧ (refuseShip a0 a1 s).boot = s.boot ∧ (refuseShip a0 a1 s).mem = s.mem ∧
      (refuseShip a0 a1 s).gau = s.gau ∧ (refuseShip a0 a1 s).benches = s.benches ∧ (refuseShip a0 a1 s).opr = s.opr ∧
      (refuseShip a0 a1 s).vid = s.vid ∧ (refuseShip a0 a1 s).red = s.red ∧ (refuseShip a0 a1 s).pwr = s.pwr := by
  simp only [refuseShip]
  (repeat' split) <;> simp

@[simp] theorem sendAccept_parts (a0 : XMsg) (a1 : Nat) (s : State) :
    (sendAccept a0 a1 s).nv = s.nv ∧ (sendAccept a0 a1 s).boot = s.boot ∧ (sendAccept a0 a1 s).mem = s.mem ∧
      (sendAccept a0 a1 s).gau = s.gau ∧ (sendAccept a0 a1 s).benches = s.benches ∧ (sendAccept a0 a1 s).serve = s.serve ∧
      (sendAccept a0 a1 s).opr = s.opr ∧ (sendAccept a0 a1 s).vid = s.vid ∧ (sendAccept a0 a1 s).red = s.red ∧
      (sendAccept a0 a1 s).pwr = s.pwr := by
  simp [sendAccept]

@[simp] theorem shipSend_parts (a0 : Nat) (a1 : Nat) (a2 : Nat) (a3 : Shipment) (a4 : Nat) (a5 : Nat) (a6 : List Byte) (a7 : List Nat) (s : State) :
    (shipSend a0 a1 a2 a3 a4 a5 a6 a7 s).nv = s.nv ∧ (shipSend a0 a1 a2 a3 a4 a5 a6 a7 s).boot = s.boot ∧
      (shipSend a0 a1 a2 a3 a4 a5 a6 a7 s).mem = s.mem ∧ (shipSend a0 a1 a2 a3 a4 a5 a6 a7 s).gau = s.gau ∧
      (shipSend a0 a1 a2 a3 a4 a5 a6 a7 s).benches = s.benches ∧ (shipSend a0 a1 a2 a3 a4 a5 a6 a7 s).serve = s.serve ∧
      (shipSend a0 a1 a2 a3 a4 a5 a6 a7 s).opr = s.opr ∧ (shipSend a0 a1 a2 a3 a4 a5 a6 a7 s).vid = s.vid ∧
      (shipSend a0 a1 a2 a3 a4 a5 a6 a7 s).red = s.red ∧ (shipSend a0 a1 a2 a3 a4 a5 a6 a7 s).pwr = s.pwr := by
  simp only [shipSend]
  (repeat' split) <;> grind [laneFor_parts, sendOp_parts]

@[simp] theorem readScale_parts (a0 : Nat) (a1 : Nat) (s : State) :
    (readScale a0 a1 s).boot = s.boot ∧
      (readScale a0 a1 s).benches.links = s.benches.links ∧
      (readScale a0 a1 s).benches.packets = s.benches.packets ∧
      (readScale a0 a1 s).serve = s.serve ∧
      (readScale a0 a1 s).opr = s.opr ∧
      (readScale a0 a1 s).vid = s.vid ∧
      (readScale a0 a1 s).red = s.red ∧
      (readScale a0 a1 s).pwr = s.pwr := by
  unfold readScale
  split <;> simp

@[simp] theorem shipPages_parts (a0 : Nat) (a1 : Shipment) (s : State) :
    (shipPages a0 a1 s).boot = s.boot ∧ (shipPages a0 a1 s).benches.links = s.benches.links ∧
      (shipPages a0 a1 s).benches.packets = s.benches.packets ∧ (shipPages a0 a1 s).serve = s.serve ∧
      (shipPages a0 a1 s).opr = s.opr ∧ (shipPages a0 a1 s).vid = s.vid ∧ (shipPages a0 a1 s).red = s.red ∧
      (shipPages a0 a1 s).pwr = s.pwr := by
  simp [shipPages, foldN, foldS]

@[simp] theorem acceptShip_parts (a0 : XMsg) (a1 : Shipment) (s : State) :
    (acceptShip a0 a1 s).boot = s.boot ∧ (acceptShip a0 a1 s).benches.links = s.benches.links ∧
      (acceptShip a0 a1 s).benches.packets = s.benches.packets ∧ (acceptShip a0 a1 s).opr = s.opr ∧
      (acceptShip a0 a1 s).vid = s.vid ∧ (acceptShip a0 a1 s).red = s.red ∧ (acceptShip a0 a1 s).pwr = s.pwr := by
  simp [acceptShip]

@[simp] theorem effectPage_parts (a0 : XMsg) (s : State) :
    (effectPage a0 s).2.boot = s.boot ∧ (effectPage a0 s).2.benches.links = s.benches.links ∧
      (effectPage a0 s).2.benches.packets = s.benches.packets ∧ (effectPage a0 s).2.opr = s.opr ∧
      (effectPage a0 s).2.vid = s.vid ∧ (effectPage a0 s).2.red = s.red ∧ (effectPage a0 s).2.pwr = s.pwr := by
  simp only [effectPage]
  (repeat' split) <;> simp

@[simp] theorem effectScales_parts (a0 : XMsg) (s : State) :
    (effectScales a0 s).2.boot = s.boot ∧ (effectScales a0 s).2.benches.links = s.benches.links ∧
      (effectScales a0 s).2.benches.packets = s.benches.packets ∧ (effectScales a0 s).2.serve = s.serve ∧
      (effectScales a0 s).2.opr = s.opr ∧ (effectScales a0 s).2.vid = s.vid ∧ (effectScales a0 s).2.red = s.red ∧
      (effectScales a0 s).2.pwr = s.pwr := by
  unfold effectScales
  split
  · simp
  · dsimp only [foldN]
    split
    · simp
    · refine ⟨?_, ?_, ?_, ?_, ?_, ?_, ?_, ?_⟩
      · exact foldl_part (·.boot) (fun s a => by (try dsimp only); (repeat' split) <;> simp) _ _
      · exact foldl_part (·.benches.links) (fun s a => by (try dsimp only); (repeat' split) <;> simp) _ _
      · exact foldl_part (·.benches.packets) (fun s a => by (try dsimp only); (repeat' split) <;> simp) _ _
      · exact foldl_part (·.serve) (fun s a => by (try dsimp only); (repeat' split) <;> simp) _ _
      · exact foldl_part (·.opr) (fun s a => by (try dsimp only); (repeat' split) <;> simp) _ _
      · exact foldl_part (·.vid) (fun s a => by (try dsimp only); (repeat' split) <;> simp) _ _
      · exact foldl_part (·.red) (fun s a => by (try dsimp only); (repeat' split) <;> simp) _ _
      · exact foldl_part (·.pwr) (fun s a => by (try dsimp only); (repeat' split) <;> simp) _ _

@[simp] theorem effectDoneAck_parts (a0 : XMsg) (s : State) :
    (effectDoneAck a0 s).2.nv = s.nv ∧ (effectDoneAck a0 s).2.boot = s.boot ∧ (effectDoneAck a0 s).2.mem = s.mem ∧
      (effectDoneAck a0 s).2.gau = s.gau ∧ (effectDoneAck a0 s).2.benches = s.benches ∧ (effectDoneAck a0 s).2.opr = s.opr ∧
      (effectDoneAck a0 s).2.vid = s.vid ∧ (effectDoneAck a0 s).2.red = s.red ∧ (effectDoneAck a0 s).2.pwr = s.pwr := by
  simp only [effectDoneAck]
  (repeat' split) <;> simp

@[simp] theorem sendAnnounceTo_parts (a0 : Nat) (a1 : Nat) (s : State) :
    (sendAnnounceTo a0 a1 s).nv = s.nv ∧ (sendAnnounceTo a0 a1 s).boot = s.boot ∧ (sendAnnounceTo a0 a1 s).mem = s.mem ∧
      (sendAnnounceTo a0 a1 s).gau = s.gau ∧ (sendAnnounceTo a0 a1 s).benches = s.benches ∧ (sendAnnounceTo a0 a1 s).serve = s.serve ∧
      (sendAnnounceTo a0 a1 s).opr = s.opr ∧ (sendAnnounceTo a0 a1 s).vid = s.vid ∧ (sendAnnounceTo a0 a1 s).red = s.red ∧
      (sendAnnounceTo a0 a1 s).pwr = s.pwr := by
  simp [sendAnnounceTo]

@[simp] theorem announceUp_parts (a0 : Nat) (s : State) :
    (announceUp a0 s).nv = s.nv ∧ (announceUp a0 s).boot = s.boot ∧ (announceUp a0 s).mem = s.mem ∧ (announceUp a0 s).gau = s.gau ∧
      (announceUp a0 s).benches = s.benches ∧ (announceUp a0 s).serve = s.serve ∧ (announceUp a0 s).opr = s.opr ∧
      (announceUp a0 s).vid = s.vid ∧ (announceUp a0 s).red = s.red ∧ (announceUp a0 s).pwr = s.pwr := by
  simp only [announceUp]
  (repeat' split) <;> simp

@[simp] theorem moveLanes_parts (a0 : Nat) (s : State) :
    (moveLanes a0 s).nv = s.nv ∧ (moveLanes a0 s).boot = s.boot ∧ (moveLanes a0 s).mem = s.mem ∧ (moveLanes a0 s).gau = s.gau ∧
      (moveLanes a0 s).benches = s.benches ∧ (moveLanes a0 s).serve = s.serve ∧ (moveLanes a0 s).opr = s.opr ∧
      (moveLanes a0 s).vid = s.vid ∧ (moveLanes a0 s).red = s.red ∧ (moveLanes a0 s).pwr = s.pwr := by
  unfold moveLanes
  (try dsimp only)
  refine ⟨?_, ?_, ?_, ?_, ?_, ?_, ?_, ?_, ?_, ?_⟩
  · exact foldl_nv (fun s a => by (try dsimp only); (repeat' split) <;> simp) _ _
  · exact foldl_boot (fun s a => by (try dsimp only); (repeat' split) <;> simp) _ _
  · exact foldl_mem (fun s a => by (try dsimp only); (repeat' split) <;> simp) _ _
  · exact foldl_gau (fun s a => by (try dsimp only); (repeat' split) <;> simp) _ _
  · exact foldl_benches (fun s a => by (try dsimp only); (repeat' split) <;> simp) _ _
  · exact foldl_serve (fun s a => by (try dsimp only); (repeat' split) <;> simp) _ _
  · exact foldl_opr (fun s a => by (try dsimp only); (repeat' split) <;> simp) _ _
  · exact foldl_vid (fun s a => by (try dsimp only); (repeat' split) <;> simp) _ _
  · exact foldl_red (fun s a => by (try dsimp only); (repeat' split) <;> simp) _ _
  · exact foldl_pwr (fun s a => by (try dsimp only); (repeat' split) <;> simp) _ _

@[simp] theorem stopPorts_parts (a0 : Nat) (s : State) :
    (stopPorts a0 s).nv = s.nv ∧ (stopPorts a0 s).boot = s.boot ∧ (stopPorts a0 s).mem = s.mem ∧ (stopPorts a0 s).gau = s.gau ∧
      (stopPorts a0 s).benches = s.benches ∧ (stopPorts a0 s).serve = s.serve ∧ (stopPorts a0 s).opr = s.opr ∧
      (stopPorts a0 s).vid = s.vid ∧ (stopPorts a0 s).red = s.red ∧ (stopPorts a0 s).pwr = s.pwr := by
  simp [stopPorts]

@[simp] theorem quiesce_parts (a0 : Nat) (s : State) :
    (quiesce a0 s).nv = s.nv ∧ (quiesce a0 s).boot = s.boot ∧ (quiesce a0 s).mem = s.mem ∧ (quiesce a0 s).gau = s.gau ∧
      (quiesce a0 s).benches = s.benches ∧ (quiesce a0 s).serve = s.serve ∧ (quiesce a0 s).opr = s.opr ∧ (quiesce a0 s).vid = s.vid ∧
      (quiesce a0 s).red = s.red ∧ (quiesce a0 s).pwr = s.pwr := by
  simp only [quiesce]
  (repeat' split) <;> simp

@[simp] theorem ownStop_parts (a0 : Nat) (a1 : Nat) (s : State) :
    (ownStop a0 a1 s).boot = s.boot ∧ (ownStop a0 a1 s).benches.links = s.benches.links ∧
      (ownStop a0 a1 s).benches.packets = s.benches.packets ∧ (ownStop a0 a1 s).opr = s.opr ∧ (ownStop a0 a1 s).vid = s.vid ∧
      (ownStop a0 a1 s).red = s.red ∧ (ownStop a0 a1 s).pwr = s.pwr := by
  simp [ownStop]

@[simp] theorem beginStop_parts (a0 : Nat) (a1 : Nat) (a2 : Nat) (s : State) :
    (beginStop a0 a1 a2 s).nv = s.nv ∧ (beginStop a0 a1 a2 s).boot = s.boot ∧ (beginStop a0 a1 a2 s).mem = s.mem ∧
      (beginStop a0 a1 a2 s).gau = s.gau ∧ (beginStop a0 a1 a2 s).benches = s.benches ∧ (beginStop a0 a1 a2 s).serve = s.serve ∧
      (beginStop a0 a1 a2 s).opr = s.opr ∧ (beginStop a0 a1 a2 s).vid = s.vid ∧ (beginStop a0 a1 a2 s).red = s.red ∧
      (beginStop a0 a1 a2 s).pwr = s.pwr := by
  simp [beginStop]

@[simp] theorem stopAnswer_parts (a0 : Nat) (s : State) :
    (stopAnswer a0 s).s.nv = s.nv ∧ (stopAnswer a0 s).s.boot = s.boot ∧ (stopAnswer a0 s).s.mem = s.mem ∧
      (stopAnswer a0 s).s.gau = s.gau ∧ (stopAnswer a0 s).s.benches = s.benches ∧ (stopAnswer a0 s).s.serve = s.serve ∧
      (stopAnswer a0 s).s.opr = s.opr ∧ (stopAnswer a0 s).s.vid = s.vid ∧ (stopAnswer a0 s).s.red = s.red ∧
      (stopAnswer a0 s).s.pwr = s.pwr := by
  simp [stopAnswer]

@[simp] theorem completeStart_parts (a0 : Nat) (s : State) :
    (completeStart a0 s).nv = s.nv ∧ (completeStart a0 s).boot = s.boot ∧ (completeStart a0 s).mem = s.mem ∧
      (completeStart a0 s).gau = s.gau ∧ (completeStart a0 s).benches.links = s.benches.links ∧
      (completeStart a0 s).benches.packets = s.benches.packets ∧ (completeStart a0 s).opr = s.opr ∧ (completeStart a0 s).vid = s.vid := by
  simp [completeStart]

@[simp] theorem failStart_parts (a0 : Nat) (a1 : StartFail) (s : State) :
    (failStart a0 a1 s).s.nv = s.nv ∧ (failStart a0 a1 s).s.boot = s.boot ∧ (failStart a0 a1 s).s.mem = s.mem ∧
      (failStart a0 a1 s).s.gau = s.gau ∧ (failStart a0 a1 s).s.benches = s.benches ∧ (failStart a0 a1 s).s.serve = s.serve ∧
      (failStart a0 a1 s).s.opr = s.opr ∧ (failStart a0 a1 s).s.vid = s.vid ∧ (failStart a0 a1 s).s.red = s.red ∧
      (failStart a0 a1 s).s.pwr = s.pwr := by
  simp [failStart]

@[simp] theorem startFunc_parts (a0 : Nat) (a1 : PeerSays) (s : State) :
    (startFunc a0 a1 s).s.nv = s.nv ∧ (startFunc a0 a1 s).s.boot = s.boot ∧ (startFunc a0 a1 s).s.mem = s.mem ∧
      (startFunc a0 a1 s).s.gau = s.gau ∧ (startFunc a0 a1 s).s.benches.links = s.benches.links ∧
      (startFunc a0 a1 s).s.benches.packets = s.benches.packets ∧ (startFunc a0 a1 s).s.opr = s.opr ∧
      (startFunc a0 a1 s).s.vid = s.vid := by
  simp only [startFunc]
  (repeat' split) <;> simp

@[simp] theorem settleStart_parts (a0 : Nat) (a1 : PeerSays) (s : State) :
    (settleStart a0 a1 s).nv = s.nv ∧ (settleStart a0 a1 s).boot = s.boot ∧ (settleStart a0 a1 s).mem = s.mem ∧
      (settleStart a0 a1 s).gau = s.gau ∧ (settleStart a0 a1 s).benches = s.benches ∧ (settleStart a0 a1 s).serve = s.serve ∧
      (settleStart a0 a1 s).opr = s.opr ∧ (settleStart a0 a1 s).vid = s.vid ∧ (settleStart a0 a1 s).red = s.red ∧
      (settleStart a0 a1 s).pwr = s.pwr := by
  simp only [settleStart]
  (repeat' split) <;> simp

@[simp] theorem revertAnswer_parts (a0 : Nat) (s : State) :
    (revertAnswer a0 s).s.nv = s.nv ∧ (revertAnswer a0 s).s.boot = s.boot ∧ (revertAnswer a0 s).s.mem = s.mem ∧
      (revertAnswer a0 s).s.gau = s.gau ∧ (revertAnswer a0 s).s.benches = s.benches ∧ (revertAnswer a0 s).s.serve = s.serve ∧
      (revertAnswer a0 s).s.opr = s.opr ∧ (revertAnswer a0 s).s.vid = s.vid ∧ (revertAnswer a0 s).s.red = s.red ∧
      (revertAnswer a0 s).s.pwr = s.pwr := by
  simp [revertAnswer]

@[simp] theorem sendLatch_parts (a0 : List Nat) (s : State) :
    (sendLatch a0 s).nv = s.nv ∧ (sendLatch a0 s).boot = s.boot ∧ (sendLatch a0 s).mem = s.mem ∧ (sendLatch a0 s).gau = s.gau ∧
      (sendLatch a0 s).benches.links = s.benches.links ∧ (sendLatch a0 s).benches.packets = s.benches.packets ∧
      (sendLatch a0 s).serve = s.serve ∧ (sendLatch a0 s).opr = s.opr ∧ (sendLatch a0 s).vid = s.vid ∧
      (sendLatch a0 s).red = s.red ∧ (sendLatch a0 s).pwr = s.pwr := by
  simp [sendLatch]

@[simp] theorem latch_parts (a0 : Nat) (s : State) :
    (latch a0 s).nv = s.nv ∧ (latch a0 s).boot = s.boot ∧ (latch a0 s).mem = s.mem ∧
      (latch a0 s).benches.links = s.benches.links ∧ (latch a0 s).benches.packets = s.benches.packets ∧
      (latch a0 s).serve = s.serve ∧ (latch a0 s).opr = s.opr ∧ (latch a0 s).vid = s.vid ∧ (latch a0 s).red = s.red ∧
      (latch a0 s).pwr = s.pwr := by
  simp only [latch]
  (repeat' split) <;> simp

@[simp] theorem countGauWrite_parts (s : State) :
    (countGauWrite s).nv = s.nv ∧ (countGauWrite s).boot = s.boot ∧ (countGauWrite s).mem = s.mem ∧
      (countGauWrite s).benches = s.benches ∧ (countGauWrite s).serve = s.serve ∧ (countGauWrite s).opr = s.opr ∧
      (countGauWrite s).vid = s.vid ∧ (countGauWrite s).red = s.red ∧ (countGauWrite s).pwr = s.pwr := by
  simp [countGauWrite]

@[simp] theorem countPf0_parts (s : State) :
    (countPf0 s).nv = s.nv ∧ (countPf0 s).boot = s.boot ∧ (countPf0 s).mem = s.mem ∧ (countPf0 s).gau = s.gau ∧ (countPf0
      s).benches = s.benches ∧ (countPf0 s).serve = s.serve ∧ (countPf0 s).opr = s.opr ∧ (countPf0 s).vid = s.vid ∧ (countPf0
      s).red = s.red ∧ (countPf0 s).pwr = s.pwr := by
  simp [countPf0]

@[simp] theorem countRoWrite_parts (a0 : RoBlock) (s : State) :
    (countRoWrite a0 s).nv = s.nv ∧ (countRoWrite a0 s).boot = s.boot ∧ (countRoWrite a0 s).mem.bytes = s.mem.bytes ∧
      (countRoWrite a0 s).mem.chk = s.mem.chk ∧ (countRoWrite a0 s).mem.bkey = s.mem.bkey ∧
      (countRoWrite a0 s).benches.links = s.benches.links ∧ (countRoWrite a0 s).benches.packets = s.benches.packets ∧
      (countRoWrite a0 s).opr = s.opr ∧ (countRoWrite a0 s).red = s.red := by
  simp only [countRoWrite]
  (repeat' split) <;> simp

@[simp] theorem takeFrame__parts (a0 : Nat) (a1 : Nat) (s : State) :
    (takeFrame_ a0 a1 s).nv = s.nv ∧ (takeFrame_ a0 a1 s).boot = s.boot ∧ (takeFrame_ a0 a1 s).mem = s.mem ∧
      (takeFrame_ a0 a1 s).gau = s.gau ∧ (takeFrame_ a0 a1 s).benches = s.benches ∧ (takeFrame_ a0 a1 s).serve = s.serve ∧
      (takeFrame_ a0 a1 s).opr = s.opr ∧ (takeFrame_ a0 a1 s).vid = s.vid ∧ (takeFrame_ a0 a1 s).red = s.red ∧
      (takeFrame_ a0 a1 s).pwr = s.pwr := by
  simp [takeFrame_]

@[simp] theorem answerFrame_parts (a0 : Nat) (a1 : Nat) (a2 : Nat) (a3 : NodeAnswer) (s : State) :
    (answerFrame a0 a1 a2 a3 s).nv = s.nv ∧ (answerFrame a0 a1 a2 a3 s).boot = s.boot ∧ (answerFrame a0 a1 a2 a3 s).mem = s.mem ∧
      (answerFrame a0 a1 a2 a3 s).gau = s.gau ∧ (answerFrame a0 a1 a2 a3 s).benches = s.benches ∧
      (answerFrame a0 a1 a2 a3 s).serve = s.serve ∧ (answerFrame a0 a1 a2 a3 s).opr = s.opr ∧ (answerFrame a0 a1 a2 a3 s).vid = s.vid ∧
      (answerFrame a0 a1 a2 a3 s).red = s.red ∧ (answerFrame a0 a1 a2 a3 s).pwr = s.pwr := by
  simp [answerFrame]

@[simp] theorem unsealDone_parts (a0 : Unseal) (a1 : List Byte) (s : State) :
    (unsealDone a0 a1 s).boot = s.boot ∧ (unsealDone a0 a1 s).gau = s.gau ∧ (unsealDone a0 a1 s).benches = s.benches ∧
      (unsealDone a0 a1 s).serve = s.serve ∧ (unsealDone a0 a1 s).opr = s.opr ∧ (unsealDone a0 a1 s).vid = s.vid ∧
      (unsealDone a0 a1 s).red = s.red ∧ (unsealDone a0 a1 s).pwr = s.pwr := by
  simp only [unsealDone]
  (repeat' split) <;> simp

@[simp] theorem reply_parts (s : State) (a1 : List Fld) :
    (reply s a1).s.nv = s.nv ∧ (reply s a1).s.boot = s.boot ∧ (reply s a1).s.mem = s.mem ∧ (reply s a1).s.gau = s.gau ∧
      (reply s a1).s.benches = s.benches ∧ (reply s a1).s.serve = s.serve ∧ (reply s a1).s.opr = s.opr ∧ (reply s a1).s.vid = s.vid ∧
      (reply s a1).s.red = s.red ∧ (reply s a1).s.pwr = s.pwr := by
  simp [reply]

@[simp] theorem spdmError_parts (s : State) :
    (spdmError s).s.nv = s.nv ∧ (spdmError s).s.boot = s.boot ∧ (spdmError s).s.mem = s.mem ∧ (spdmError s).s.gau = s.gau ∧
      (spdmError s).s.benches = s.benches ∧ (spdmError s).s.serve = s.serve ∧ (spdmError s).s.opr = s.opr ∧
      (spdmError s).s.vid = s.vid ∧ (spdmError s).s.red = s.red ∧ (spdmError s).s.pwr = s.pwr := by
  simp [spdmError]

@[simp] theorem giveReply_parts (p : SpdmPath) (r : Reply) :
    (giveReply p r).nv = r.s.nv ∧ (giveReply p r).boot = r.s.boot ∧ (giveReply p r).mem = r.s.mem ∧ (giveReply p r).gau = r.s.gau ∧
      (giveReply p r).benches = r.s.benches ∧ (giveReply p r).serve = r.s.serve ∧ (giveReply p r).opr = r.s.opr ∧
      (giveReply p r).vid = r.s.vid ∧ (giveReply p r).red = r.s.red ∧ (giveReply p r).pwr = r.s.pwr := by
  cases p <;> simp [giveReply]

@[simp] theorem setStage_parts (a0 : SpdmPath) (a1 : Nat) (s : State) :
    (setStage a0 a1 s).nv = s.nv ∧ (setStage a0 a1 s).boot = s.boot ∧ (setStage a0 a1 s).mem = s.mem ∧ (setStage a0 a1 s).gau = s.gau ∧
      (setStage a0 a1 s).benches = s.benches ∧ (setStage a0 a1 s).serve = s.serve ∧ (setStage a0 a1 s).opr = s.opr ∧
      (setStage a0 a1 s).vid = s.vid ∧ (setStage a0 a1 s).red = s.red ∧ (setStage a0 a1 s).pwr = s.pwr := by
  simp [setStage]

@[simp] theorem signed_parts (a0 : List Fld) (s : State) :
    (signed a0 s).s.nv = s.nv ∧ (signed a0 s).s.boot = s.boot ∧ (signed a0 s).s.mem = s.mem ∧ (signed a0 s).s.gau = s.gau ∧
      (signed a0 s).s.benches = s.benches ∧ (signed a0 s).s.serve = s.serve ∧ (signed a0 s).s.opr = s.opr ∧
      (signed a0 s).s.vid = s.vid ∧ (signed a0 s).s.red = s.red ∧ (signed a0 s).s.pwr = s.pwr := by
  simp [signed]

@[simp] theorem keepAlive_parts (a0 : Nat) (s : State) :
    (keepAlive a0 s).nv = s.nv ∧ (keepAlive a0 s).boot = s.boot ∧ (keepAlive a0 s).mem = s.mem ∧ (keepAlive a0 s).gau = s.gau ∧
      (keepAlive a0 s).benches = s.benches ∧ (keepAlive a0 s).serve = s.serve ∧ (keepAlive a0 s).opr = s.opr ∧
      (keepAlive a0 s).vid = s.vid ∧ (keepAlive a0 s).red = s.red ∧ (keepAlive a0 s).pwr = s.pwr := by
  simp [keepAlive]

@[simp] theorem modSession_parts (a0 : Nat) (a1 : Session → Session) (s : State) :
    (modSession a0 a1 s).nv = s.nv ∧ (modSession a0 a1 s).boot = s.boot ∧ (modSession a0 a1 s).mem = s.mem ∧
      (modSession a0 a1 s).gau = s.gau ∧ (modSession a0 a1 s).benches = s.benches ∧ (modSession a0 a1 s).serve = s.serve ∧
      (modSession a0 a1 s).opr = s.opr ∧ (modSession a0 a1 s).vid = s.vid ∧ (modSession a0 a1 s).red = s.red ∧
      (modSession a0 a1 s).pwr = s.pwr := by
  simp [modSession]

@[simp] theorem timeBreak_parts (s : State) :
    (timeBreak s).nv = s.nv ∧ (timeBreak s).boot = s.boot ∧ (timeBreak s).mem = s.mem ∧ (timeBreak s).gau = s.gau ∧
      (timeBreak s).benches = s.benches ∧ (timeBreak s).serve = s.serve ∧ (timeBreak s).opr = s.opr ∧ (timeBreak s).vid = s.vid ∧
      (timeBreak s).red = s.red ∧ (timeBreak s).pwr = s.pwr := by
  simp [timeBreak]

@[simp] theorem tune_parts (s : State) :
    (tune s).nv = s.nv ∧ (tune s).boot = s.boot ∧ (tune s).mem = s.mem ∧ (tune s).gau = s.gau ∧ (tune s).benches = s.benches ∧
      (tune s).serve = s.serve ∧ (tune s).opr = s.opr ∧ (tune s).vid = s.vid ∧ (tune s).red = s.red ∧ (tune s).pwr = s.pwr := by
  simp [tune]

@[simp] theorem watch_parts (a0 : Bool) (s : State) :
    (watch a0 s).nv = s.nv ∧ (watch a0 s).boot = s.boot ∧ (watch a0 s).mem = s.mem ∧ (watch a0 s).gau = s.gau ∧
      (watch a0 s).benches = s.benches ∧ (watch a0 s).serve = s.serve ∧ (watch a0 s).opr = s.opr ∧ (watch a0 s).vid = s.vid ∧
      (watch a0 s).red = s.red ∧ (watch a0 s).pwr = s.pwr := by
  simp [watch]

@[simp] theorem servo_parts (a0 : Int) (s : State) :
    (servo a0 s).nv = s.nv ∧ (servo a0 s).boot = s.boot ∧ (servo a0 s).mem = s.mem ∧ (servo a0 s).gau = s.gau ∧
      (servo a0 s).benches = s.benches ∧ (servo a0 s).serve = s.serve ∧ (servo a0 s).opr = s.opr ∧ (servo a0 s).vid = s.vid ∧
      (servo a0 s).red = s.red ∧ (servo a0 s).pwr = s.pwr := by
  simp [servo]

end Sys2Proof.Machine
end

