-- ==== Sys2Proof/Laws/Memory.lean ====
section
/-! SUPPORT. The stored bytes: a read after a write, and that every operation on memory keeps the canonical form. -/
namespace Sys2Proof.Machine

/-! ### Cells -/

/-- The laws of a cell write: the byte written reads back, every other byte is as it was. -/
theorem cellRead_cellWrite (m : List Host.Cell) (a b : Nat) (v : Byte) :
    cellRead (cellWrite m a v) b = if a = b then v else cellRead m b := by
  unfold cellRead cellWrite
  split
  · next h => rw [tget_tdel]; simp [h]
  · rw [tget_tset]

/-- The canonical form as one statement about neighbours and one about entries. -/
theorem cellsWf_cons (c : Host.Cell) (r : List Host.Cell) :
    cellsWf (c :: r) = true ↔ (c.2 ≠ emptyByte ∧ (∀ d ∈ r, c.1 < d.1) ∧ cellsWf r = true) := by
  induction r generalizing c with
  | nil => simp [cellsWf]
  | cons d r ih =>
    have hd := ih d
    constructor
    · intro h
      simp only [cellsWf, Bool.and_eq_true, decide_eq_true_eq, ne_eq] at h
      obtain ⟨⟨h1, h2⟩, h3⟩ := h
      refine ⟨h2, fun e he => ?_, h3⟩
      rcases List.mem_cons.1 he with rfl | he
      · exact h1
      · exact Nat.lt_trans h1 ((hd.1 h3).2.1 e he)
    · rintro ⟨h1, h2, h3⟩
      simp only [cellsWf, Bool.and_eq_true, decide_eq_true_eq, ne_eq]
      exact ⟨⟨h2 d List.mem_cons_self, h1⟩, h3⟩

theorem mem_tdel {α : Type} {t : Tab α} {k : Nat} {e : Nat × α} (h : e ∈ tdel t k) : e ∈ t ∧ e.1 ≠ k := by
  induction t with
  | nil => cases h
  | cons x r ih =>
    obtain ⟨a, b⟩ := x
    simp only [tdel] at h
    split at h
    · exact ⟨List.mem_cons_of_mem _ (ih h).1, (ih h).2⟩
    · rcases List.mem_cons.1 h with rfl | h
      · exact ⟨List.mem_cons_self, by assumption⟩
      · exact ⟨List.mem_cons_of_mem _ (ih h).1, (ih h).2⟩

theorem mem_tset {α : Type} {t : Tab α} {k : Nat} {v : α} {e : Nat × α} (h : e ∈ tset t k v) : e = (k, v) ∨ e ∈ t := by
  induction t with
  | nil => simp_all [tset]
  | cons x r ih =>
    obtain ⟨a, b⟩ := x
    simp only [tset] at h
    split at h
    · simpa using h
    · split at h
      · rcases List.mem_cons.1 h with rfl | h
        · exact .inl rfl
        · exact .inr (List.mem_cons_of_mem _ h)
      · rcases List.mem_cons.1 h with rfl | h
        · exact .inr List.mem_cons_self
        · exact (ih h).imp id (List.mem_cons_of_mem _)

theorem cellsWf_tdel {m : List Host.Cell} (a : Nat) (h : cellsWf m = true) : cellsWf (tdel m a) = true := by
  induction m with
  | nil => exact h
  | cons c r ih =>
    obtain ⟨h1, h2, h3⟩ := (cellsWf_cons c r).1 h
    obtain ⟨x, y⟩ := c
    simp only [tdel]
    split
    · exact ih h3
    · exact (cellsWf_cons ..).2 ⟨h1, fun d hd => h2 d (mem_tdel hd).1, ih h3⟩

theorem cellsWf_tset {m : List Host.Cell} (a : Nat) {v : Byte} (hv : v ≠ emptyByte) (h : cellsWf m = true) :
    cellsWf (tset m a v) = true := by
  induction m with
  | nil => simp [tset, cellsWf, hv]
  | cons c r ih =>
    obtain ⟨h1, h2, h3⟩ := (cellsWf_cons c r).1 h
    obtain ⟨x, y⟩ := c
    simp only [tset]
    split
    · next hlt =>
      refine (cellsWf_cons ..).2 ⟨hv, fun d hd => ?_, h⟩
      rcases List.mem_cons.1 hd with rfl | hd
      · exact hlt
      · exact Nat.lt_trans hlt (h2 d hd)
    · split
      · next e => subst e; exact (cellsWf_cons ..).2 ⟨hv, h2, h3⟩
      · next hl hn =>
        refine (cellsWf_cons ..).2 ⟨h1, fun d hd => ?_, ih h3⟩
        rcases mem_tset hd with rfl | hd
        · dsimp only at *; omega
        · exact h2 d hd

/-- A cell write keeps the canonical form. -/
theorem cellsWf_cellWrite {m : List Host.Cell} (a : Nat) (v : Byte) (h : cellsWf m = true) : cellsWf (cellWrite m a v) = true := by
  unfold cellWrite
  split
  · exact cellsWf_tdel a h
  · exact cellsWf_tset a (by assumption) h

theorem cellsWf_filter {m : List Host.Cell} (p : Host.Cell → Bool) (h : cellsWf m = true) : cellsWf (m.filter p) = true := by
  induction m with
  | nil => exact h
  | cons c r ih =>
    obtain ⟨h1, h2, h3⟩ := (cellsWf_cons c r).1 h
    rw [List.filter_cons]
    split
    · exact (cellsWf_cons ..).2 ⟨h1, fun d hd => h2 d (List.mem_filter.1 hd).1, ih h3⟩
    · exact ih h3

/-! ### Every operation keeps the canonical form -/

/-- What does not write a byte keeps the form: the part lemmas give the hypothesis. -/
theorem memoryWf_of_bytes {s t : State} (e : t.mem.bytes = s.mem.bytes) (h : memoryWf s = true) : memoryWf t = true := by
  unfold memoryWf at *
  rw [e]
  exact h

theorem memoryWf_of_mem {s t : State} (e : t.mem = s.mem) (h : memoryWf s = true) : memoryWf t = true :=
  memoryWf_of_bytes (by rw [e]) h

theorem memoryWf_reset : memoryWf State.reset = true := by decide

theorem memoryWf_putByte (a : Nat) (v : Byte) {s : State} (h : memoryWf s = true) : memoryWf (putByte a v s) = true :=
  cellsWf_cellWrite a v h

theorem memoryWf_putBytes (a : Nat) (l : List Byte) {s : State} (h : memoryWf s = true) : memoryWf (putBytes a l s) = true := by
  induction l generalizing a s with
  | nil => exact h
  | cons v r ih => exact ih _ (memoryWf_putByte a v h)

theorem memoryWf_putChk (w x : Nat) {s : State} (h : memoryWf s = true) : memoryWf (putChk w x s) = true := h

theorem memoryWf_clearRange (lo hi : Nat) {s : State} (h : memoryWf s = true) : memoryWf (clearRange lo hi s) = true :=
  cellsWf_filter _ h

theorem memoryWf_tagBurst (b k : Nat) {s : State} (h : memoryWf s = true) : memoryWf (tagBurst b k s) = true := h

theorem memoryWf_foldl {α : Type} {f : State → α → State} (hf : ∀ s a, memoryWf s = true → memoryWf (f s a) = true)
    (l : List α) {s : State} (h : memoryWf s = true) : memoryWf (l.foldl f s) = true := by
  induction l generalizing s with
  | nil => exact h
  | cons a r ih => exact ih (hf _ _ h)

theorem memoryWf_engineWord (w : Nat) {s : State} (h : memoryWf s = true) : memoryWf (engineWord w s) = true := by
  unfold engineWord
  dsimp only
  split
  · exact memoryWf_putChk _ _ (memoryWf_putBytes _ _ (memoryWf_of_bytes (by simp) h))
  · exact memoryWf_putChk _ _ (memoryWf_of_bytes (by simp) h)
  · exact h

theorem memoryWf_passEngine (a : Nat) {s : State} (h : memoryWf s = true) : memoryWf (passEngine a s) = true := by
  unfold passEngine
  split
  · exact h
  · exact memoryWf_foldl (fun _ w ht => memoryWf_engineWord w ht) _ h

theorem memoryWf_rekeyBurst (a : Nat) {s : State} (h : memoryWf s = true) : memoryWf (rekeyBurst a s) = true := by
  unfold rekeyBurst
  split
  · exact memoryWf_tagBurst _ _ (memoryWf_putBytes _ _ (memoryWf_passEngine a h))
  · exact h

theorem memoryWf_writeWord (a : Nat) (l : List Byte) (x : Nat) {s : State} (h : memoryWf s = true) :
    memoryWf (writeWord a l x s) = true := by
  unfold writeWord
  dsimp only
  split
  · exact memoryWf_putBytes _ _ h
  · apply memoryWf_putChk
    apply memoryWf_putBytes
    split
    · exact h
    · exact memoryWf_of_bytes (by simp) h

theorem memoryWf_writeChunks (n a : Nat) (l : List Byte) (xs : List Nat) {s : State} (h : memoryWf s = true) :
    memoryWf (writeChunks n a l xs s) = true := by
  induction n generalizing a l xs s with
  | zero => exact h
  | succ n ih =>
    unfold writeChunks
    split
    · exact h
    · exact ih _ _ _ (memoryWf_writeWord _ _ _ (memoryWf_rekeyBurst _ h))

/-- A write of any bytes keeps the canonical form. -/
theorem memoryWf_writeBytes (a : Nat) (l : List Byte) (xs : List Nat) {s : State} (h : memoryWf s = true) :
    memoryWf (writeBytes a l xs s) = true := memoryWf_writeChunks _ _ _ _ h

theorem memoryWf_foldN {n : Nat} {f : Nat → State → State} (hf : ∀ i s, memoryWf s = true → memoryWf (f i s) = true)
    {s : State} (h : memoryWf s = true) : memoryWf (foldN n f s) = true := memoryWf_foldl (fun s i => hf i s) _ h

/-- An injection beneath a yard's copy that comes to light, and the lines that leave a yard, keep the form. -/
theorem memoryWf_uncover (g : Nat) (l : Line) {s : State} (h : memoryWf s = true) : memoryWf (uncover g l s) = true := by
  unfold uncover
  dsimp only
  split
  · exact h
  · exact memoryWf_foldl (fun t x ht => memoryWf_putChk _ _ (memoryWf_putBytes _ _ ht)) _ h

theorem memoryWf_engineBeneath (w : Nat) {s : State} (h : memoryWf s = true) : memoryWf (engineBeneath w s) = true :=
  memoryWf_of_bytes (by unfold engineBeneath setBeneath; dsimp only; split <;> simp) h

theorem memoryWf_sweepOne (c p : Nat) {s : State} (h : memoryWf s = true) : memoryWf (sweepOne c p s) = true := by
  unfold sweepOne
  dsimp only
  refine memoryWf_of_mem (gauge_parts ..).2.2.1 (memoryWf_of_mem (gauge_parts ..).2.2.1 (memoryWf_foldl (fun t b ht => ?_) _ ?_))
  · exact memoryWf_tagBurst _ _ (memoryWf_putBytes (256 * b.1) b.2 ht)
  · refine memoryWf_of_mem (modCtx_parts ..).2.2.1 (memoryWf_foldl (fun t w ht => ?_) _ h)
    split
    · exact memoryWf_engineBeneath w ht
    · exact memoryWf_engineWord w ht

theorem memoryWf_sweepFirst (a : Nat) {s : State} (h : memoryWf s = true) : memoryWf (sweepFirst a s) = true := by
  unfold sweepFirst
  split
  · next c _ =>
    split
    · exact memoryWf_of_bytes (by simp) (memoryWf_sweepOne c (pageOf a) h)
    · exact h
  · exact h

/-- A line that leaves: its page is swept first, its words go through the engine, then what lay beneath it shows. -/
theorem memoryWf_writeBack (a : Nat) {s : State} (h : memoryWf s = true) : memoryWf (writeBack a s) = true :=
  memoryWf_tagBurst _ _ (memoryWf_passEngine a (memoryWf_sweepFirst a h))

theorem memoryWf_dropLine (g : Nat) (l : Line) {s : State} (h : memoryWf s = true) : memoryWf (dropLine g l s) = true := by
  unfold dropLine
  dsimp only
  have h1 : memoryWf (if l.dirty then writeBack (lineAddr g l) s else s) = true := by
    split
    · exact memoryWf_writeBack _ h
    · exact h
  generalize (if l.dirty then writeBack (lineAddr g l) s else s) = t at h1 ⊢
  have h2 : memoryWf (modYard g (fun y => { y with lines := y.lines.filter (· ≠ l) }) (uncover g l t)) = true := memoryWf_uncover g l h1
  split
  · exact memoryWf_of_bytes (by simp) h2
  · exact h2

theorem memoryWf_flushYard (g : Nat) (p : Line → Bool) {s : State} (h : memoryWf s = true) : memoryWf (flushYard g p s) = true :=
  memoryWf_foldl (fun _ l ht => memoryWf_dropLine g l ht) _ h

end Sys2Proof.Machine
end

