-- ==== Sys2Proof/Laws/State.lean ====
section
/-! SUPPORT. The updates of the state: what each named update leaves as it was, and what a table reads as after one of its
entries is changed. With these no proof unfolds a record update. -/
namespace Sys2Proof.Machine

/-! ### What each update leaves -/

@[simp] theorem modMbx_rest (m : Nat) (f : Mailbox → Mailbox) (s : State) :
    (modMbx m f s).time = s.time ∧ (modMbx m f s).rec_ = s.rec_ ∧ (modMbx m f s).nv = s.nv ∧ (modMbx m f s).boot = s.boot ∧
    (modMbx m f s).tray = s.tray ∧ (modMbx m f s).sec = s.sec ∧ (modMbx m f s).mem = s.mem ∧ (modMbx m f s).gau = s.gau ∧
    (modMbx m f s).benches = s.benches ∧ (modMbx m f s).serve = s.serve ∧ (modMbx m f s).opr = s.opr ∧ (modMbx m f s).net = s.net ∧
    (modMbx m f s).vid = s.vid ∧ (modMbx m f s).red = s.red ∧ (modMbx m f s).pwr = s.pwr ∧ (modMbx m f s).hostWrites = s.hostWrites ∧
    (modMbx m f s).free = s.free ∧ (modMbx m f s).pending = s.pending :=
  ⟨rfl, rfl, rfl, rfl, rfl, rfl, rfl, rfl, rfl, rfl, rfl, rfl, rfl, rfl, rfl, rfl, rfl, rfl⟩

@[simp] theorem modFunc_rest (fid : Nat) (f : Func → Func) (s : State) :
    (modFunc fid f s).time = s.time ∧ (modFunc fid f s).rec_ = s.rec_ ∧ (modFunc fid f s).nv = s.nv ∧ (modFunc fid f s).boot = s.boot ∧
    (modFunc fid f s).tray = s.tray ∧ (modFunc fid f s).sec = s.sec ∧ (modFunc fid f s).mem = s.mem ∧ (modFunc fid f s).gau = s.gau ∧
    (modFunc fid f s).benches = s.benches ∧ (modFunc fid f s).serve = s.serve ∧ (modFunc fid f s).opr = s.opr ∧
    (modFunc fid f s).net = s.net ∧ (modFunc fid f s).vid = s.vid ∧ (modFunc fid f s).red = s.red ∧ (modFunc fid f s).pwr = s.pwr ∧
    (modFunc fid f s).hostWrites = s.hostWrites ∧ (modFunc fid f s).free = s.free ∧ (modFunc fid f s).pending = s.pending :=
  ⟨rfl, rfl, rfl, rfl, rfl, rfl, rfl, rfl, rfl, rfl, rfl, rfl, rfl, rfl, rfl, rfl, rfl, rfl⟩

@[simp] theorem modCtx_rest (c : Nat) (f : CtxSt → CtxSt) (s : State) :
    (modCtx c f s).time = s.time ∧ (modCtx c f s).sq = s.sq ∧ (modCtx c f s).rec_ = s.rec_ ∧ (modCtx c f s).nv = s.nv ∧
    (modCtx c f s).boot = s.boot ∧ (modCtx c f s).tray = s.tray ∧ (modCtx c f s).mem = s.mem ∧ (modCtx c f s).gau = s.gau ∧
    (modCtx c f s).benches = s.benches ∧ (modCtx c f s).serve = s.serve ∧ (modCtx c f s).opr = s.opr ∧ (modCtx c f s).net = s.net ∧
    (modCtx c f s).vid = s.vid ∧ (modCtx c f s).red = s.red ∧ (modCtx c f s).pwr = s.pwr ∧ (modCtx c f s).hostWrites = s.hostWrites ∧
    (modCtx c f s).free = s.free ∧ (modCtx c f s).pending = s.pending :=
  ⟨rfl, rfl, rfl, rfl, rfl, rfl, rfl, rfl, rfl, rfl, rfl, rfl, rfl, rfl, rfl, rfl, rfl, rfl⟩

@[simp] theorem modSession_rest (sid : Nat) (f : Session → Session) (s : State) :
    (modSession sid f s).time = s.time ∧ (modSession sid f s).sq = s.sq ∧ (modSession sid f s).rec_ = s.rec_ ∧
    (modSession sid f s).nv = s.nv ∧ (modSession sid f s).boot = s.boot ∧ (modSession sid f s).tray = s.tray ∧
    (modSession sid f s).mem = s.mem ∧ (modSession sid f s).gau = s.gau ∧ (modSession sid f s).benches = s.benches ∧
    (modSession sid f s).serve = s.serve ∧ (modSession sid f s).opr = s.opr ∧ (modSession sid f s).net = s.net ∧
    (modSession sid f s).vid = s.vid ∧ (modSession sid f s).red = s.red ∧ (modSession sid f s).pwr = s.pwr ∧
    (modSession sid f s).hostWrites = s.hostWrites ∧ (modSession sid f s).free = s.free ∧ (modSession sid f s).pending = s.pending :=
  ⟨rfl, rfl, rfl, rfl, rfl, rfl, rfl, rfl, rfl, rfl, rfl, rfl, rfl, rfl, rfl, rfl, rfl, rfl⟩

@[simp] theorem modBench_rest (b : Nat) (f : BenchSt → BenchSt) (s : State) :
    (modBench b f s).time = s.time ∧ (modBench b f s).sq = s.sq ∧ (modBench b f s).rec_ = s.rec_ ∧ (modBench b f s).nv = s.nv ∧
    (modBench b f s).boot = s.boot ∧ (modBench b f s).tray = s.tray ∧ (modBench b f s).sec = s.sec ∧ (modBench b f s).mem = s.mem ∧
    (modBench b f s).gau = s.gau ∧ (modBench b f s).serve = s.serve ∧ (modBench b f s).opr = s.opr ∧ (modBench b f s).net = s.net ∧
    (modBench b f s).vid = s.vid ∧ (modBench b f s).red = s.red ∧ (modBench b f s).pwr = s.pwr ∧
    (modBench b f s).hostWrites = s.hostWrites ∧ (modBench b f s).free = s.free ∧ (modBench b f s).pending = s.pending :=
  ⟨rfl, rfl, rfl, rfl, rfl, rfl, rfl, rfl, rfl, rfl, rfl, rfl, rfl, rfl, rfl, rfl, rfl, rfl⟩

@[simp] theorem modRun_rest (id : Nat) (f : Run → Run) (s : State) :
    (modRun id f s).time = s.time ∧ (modRun id f s).sq = s.sq ∧ (modRun id f s).rec_ = s.rec_ ∧ (modRun id f s).nv = s.nv ∧
    (modRun id f s).boot = s.boot ∧ (modRun id f s).tray = s.tray ∧ (modRun id f s).sec = s.sec ∧ (modRun id f s).mem = s.mem ∧
    (modRun id f s).gau = s.gau ∧ (modRun id f s).serve = s.serve ∧ (modRun id f s).opr = s.opr ∧ (modRun id f s).net = s.net ∧
    (modRun id f s).vid = s.vid ∧ (modRun id f s).red = s.red ∧ (modRun id f s).pwr = s.pwr ∧ (modRun id f s).hostWrites = s.hostWrites ∧
    (modRun id f s).free = s.free ∧ (modRun id f s).pending = s.pending :=
  ⟨rfl, rfl, rfl, rfl, rfl, rfl, rfl, rfl, rfl, rfl, rfl, rfl, rfl, rfl, rfl, rfl, rfl, rfl⟩

@[simp] theorem modLink_rest (link : Nat) (c : MeshClass) (f : LinkSt → LinkSt) (s : State) :
    (modLink link c f s).time = s.time ∧ (modLink link c f s).sq = s.sq ∧ (modLink link c f s).rec_ = s.rec_ ∧
    (modLink link c f s).nv = s.nv ∧ (modLink link c f s).boot = s.boot ∧ (modLink link c f s).tray = s.tray ∧
    (modLink link c f s).sec = s.sec ∧ (modLink link c f s).mem = s.mem ∧ (modLink link c f s).gau = s.gau ∧
    (modLink link c f s).serve = s.serve ∧ (modLink link c f s).opr = s.opr ∧ (modLink link c f s).net = s.net ∧
    (modLink link c f s).vid = s.vid ∧ (modLink link c f s).red = s.red ∧ (modLink link c f s).pwr = s.pwr ∧
    (modLink link c f s).hostWrites = s.hostWrites ∧ (modLink link c f s).free = s.free ∧ (modLink link c f s).pending = s.pending :=
  ⟨rfl, rfl, rfl, rfl, rfl, rfl, rfl, rfl, rfl, rfl, rfl, rfl, rfl, rfl, rfl, rfl, rfl, rfl⟩

@[simp] theorem modGau_rest (b : Nat) (f : BenchGau → BenchGau) (s : State) :
    (modGau b f s).time = s.time ∧ (modGau b f s).sq = s.sq ∧ (modGau b f s).rec_ = s.rec_ ∧ (modGau b f s).nv = s.nv ∧
    (modGau b f s).boot = s.boot ∧ (modGau b f s).tray = s.tray ∧ (modGau b f s).sec = s.sec ∧ (modGau b f s).mem = s.mem ∧
    (modGau b f s).benches = s.benches ∧ (modGau b f s).serve = s.serve ∧ (modGau b f s).opr = s.opr ∧ (modGau b f s).net = s.net ∧
    (modGau b f s).vid = s.vid ∧ (modGau b f s).red = s.red ∧ (modGau b f s).pwr = s.pwr ∧ (modGau b f s).hostWrites = s.hostWrites ∧
    (modGau b f s).free = s.free ∧ (modGau b f s).pending = s.pending :=
  ⟨rfl, rfl, rfl, rfl, rfl, rfl, rfl, rfl, rfl, rfl, rfl, rfl, rfl, rfl, rfl, rfl, rfl, rfl⟩

@[simp] theorem modSampling_rest (c : Nat) (f : Sampling → Sampling) (s : State) :
    (modSampling c f s).time = s.time ∧ (modSampling c f s).sq = s.sq ∧ (modSampling c f s).rec_ = s.rec_ ∧
    (modSampling c f s).nv = s.nv ∧ (modSampling c f s).boot = s.boot ∧ (modSampling c f s).tray = s.tray ∧
    (modSampling c f s).sec = s.sec ∧ (modSampling c f s).mem = s.mem ∧ (modSampling c f s).benches = s.benches ∧
    (modSampling c f s).serve = s.serve ∧ (modSampling c f s).opr = s.opr ∧ (modSampling c f s).net = s.net ∧
    (modSampling c f s).vid = s.vid ∧ (modSampling c f s).red = s.red ∧ (modSampling c f s).pwr = s.pwr ∧
    (modSampling c f s).hostWrites = s.hostWrites ∧ (modSampling c f s).free = s.free ∧ (modSampling c f s).pending = s.pending :=
  ⟨rfl, rfl, rfl, rfl, rfl, rfl, rfl, rfl, rfl, rfl, rfl, rfl, rfl, rfl, rfl, rfl, rfl, rfl⟩

@[simp] theorem modServe_rest (c : Nat) (f : ServeCtx → ServeCtx) (s : State) :
    (modServe c f s).time = s.time ∧ (modServe c f s).sq = s.sq ∧ (modServe c f s).rec_ = s.rec_ ∧ (modServe c f s).nv = s.nv ∧
    (modServe c f s).boot = s.boot ∧ (modServe c f s).tray = s.tray ∧ (modServe c f s).sec = s.sec ∧ (modServe c f s).mem = s.mem ∧
    (modServe c f s).gau = s.gau ∧ (modServe c f s).benches = s.benches ∧ (modServe c f s).opr = s.opr ∧ (modServe c f s).net = s.net ∧
    (modServe c f s).vid = s.vid ∧ (modServe c f s).red = s.red ∧ (modServe c f s).pwr = s.pwr ∧
    (modServe c f s).hostWrites = s.hostWrites ∧ (modServe c f s).free = s.free ∧ (modServe c f s).pending = s.pending :=
  ⟨rfl, rfl, rfl, rfl, rfl, rfl, rfl, rfl, rfl, rfl, rfl, rfl, rfl, rfl, rfl, rfl, rfl, rfl⟩

@[simp] theorem modReq_rest (x : Nat) (f : Request → Request) (s : State) :
    (modReq x f s).time = s.time ∧ (modReq x f s).sq = s.sq ∧ (modReq x f s).rec_ = s.rec_ ∧ (modReq x f s).nv = s.nv ∧
    (modReq x f s).boot = s.boot ∧ (modReq x f s).tray = s.tray ∧ (modReq x f s).sec = s.sec ∧ (modReq x f s).mem = s.mem ∧
    (modReq x f s).gau = s.gau ∧ (modReq x f s).benches = s.benches ∧ (modReq x f s).opr = s.opr ∧ (modReq x f s).net = s.net ∧
    (modReq x f s).vid = s.vid ∧ (modReq x f s).red = s.red ∧ (modReq x f s).pwr = s.pwr ∧ (modReq x f s).hostWrites = s.hostWrites ∧
    (modReq x f s).free = s.free ∧ (modReq x f s).pending = s.pending :=
  ⟨rfl, rfl, rfl, rfl, rfl, rfl, rfl, rfl, rfl, rfl, rfl, rfl, rfl, rfl, rfl, rfl, rfl, rfl⟩

@[simp] theorem modVen_rest (slot : Nat) (f : Veneer → Veneer) (s : State) :
    (modVen slot f s).time = s.time ∧ (modVen slot f s).sq = s.sq ∧ (modVen slot f s).rec_ = s.rec_ ∧ (modVen slot f s).nv = s.nv ∧
    (modVen slot f s).boot = s.boot ∧ (modVen slot f s).tray = s.tray ∧ (modVen slot f s).sec = s.sec ∧ (modVen slot f s).mem = s.mem ∧
    (modVen slot f s).gau = s.gau ∧ (modVen slot f s).benches = s.benches ∧ (modVen slot f s).opr = s.opr ∧
    (modVen slot f s).net = s.net ∧ (modVen slot f s).vid = s.vid ∧ (modVen slot f s).red = s.red ∧ (modVen slot f s).pwr = s.pwr ∧
    (modVen slot f s).hostWrites = s.hostWrites ∧ (modVen slot f s).free = s.free ∧ (modVen slot f s).pending = s.pending :=
  ⟨rfl, rfl, rfl, rfl, rfl, rfl, rfl, rfl, rfl, rfl, rfl, rfl, rfl, rfl, rfl, rfl, rfl, rfl⟩

@[simp] theorem modShip_rest (x : Nat) (f : Shipment → Shipment) (s : State) :
    (modShip x f s).time = s.time ∧ (modShip x f s).sq = s.sq ∧ (modShip x f s).rec_ = s.rec_ ∧ (modShip x f s).nv = s.nv ∧
    (modShip x f s).boot = s.boot ∧ (modShip x f s).tray = s.tray ∧ (modShip x f s).sec = s.sec ∧ (modShip x f s).mem = s.mem ∧
    (modShip x f s).gau = s.gau ∧ (modShip x f s).benches = s.benches ∧ (modShip x f s).serve = s.serve ∧ (modShip x f s).opr = s.opr ∧
    (modShip x f s).vid = s.vid ∧ (modShip x f s).red = s.red ∧ (modShip x f s).pwr = s.pwr ∧ (modShip x f s).hostWrites = s.hostWrites ∧
    (modShip x f s).free = s.free ∧ (modShip x f s).pending = s.pending :=
  ⟨rfl, rfl, rfl, rfl, rfl, rfl, rfl, rfl, rfl, rfl, rfl, rfl, rfl, rfl, rfl, rfl, rfl, rfl⟩

@[simp] theorem modRed_rest (c : Nat) (f : RedCtx → RedCtx) (s : State) :
    (modRed c f s).time = s.time ∧ (modRed c f s).sq = s.sq ∧ (modRed c f s).rec_ = s.rec_ ∧ (modRed c f s).nv = s.nv ∧
    (modRed c f s).boot = s.boot ∧ (modRed c f s).tray = s.tray ∧ (modRed c f s).sec = s.sec ∧ (modRed c f s).mem = s.mem ∧
    (modRed c f s).gau = s.gau ∧ (modRed c f s).benches = s.benches ∧ (modRed c f s).serve = s.serve ∧ (modRed c f s).opr = s.opr ∧
    (modRed c f s).net = s.net ∧ (modRed c f s).vid = s.vid ∧ (modRed c f s).pwr = s.pwr ∧ (modRed c f s).hostWrites = s.hostWrites ∧
    (modRed c f s).free = s.free ∧ (modRed c f s).pending = s.pending :=
  ⟨rfl, rfl, rfl, rfl, rfl, rfl, rfl, rfl, rfl, rfl, rfl, rfl, rfl, rfl, rfl, rfl, rfl, rfl⟩

@[simp] theorem modPace_rest (f : PaceSt → PaceSt) (s : State) :
    (modPace f s).time = s.time ∧ (modPace f s).sq = s.sq ∧ (modPace f s).rec_ = s.rec_ ∧ (modPace f s).nv = s.nv ∧
    (modPace f s).boot = s.boot ∧ (modPace f s).tray = s.tray ∧ (modPace f s).sec = s.sec ∧ (modPace f s).mem = s.mem ∧
    (modPace f s).gau = s.gau ∧ (modPace f s).benches = s.benches ∧ (modPace f s).serve = s.serve ∧ (modPace f s).opr = s.opr ∧
    (modPace f s).net = s.net ∧ (modPace f s).vid = s.vid ∧ (modPace f s).red = s.red ∧ (modPace f s).hostWrites = s.hostWrites ∧
    (modPace f s).free = s.free ∧ (modPace f s).pending = s.pending :=
  ⟨rfl, rfl, rfl, rfl, rfl, rfl, rfl, rfl, rfl, rfl, rfl, rfl, rfl, rfl, rfl, rfl, rfl, rfl⟩

@[simp] theorem modInput_rest (f : InputSt → InputSt) (s : State) :
    (modInput f s).time = s.time ∧ (modInput f s).sq = s.sq ∧ (modInput f s).rec_ = s.rec_ ∧ (modInput f s).nv = s.nv ∧
    (modInput f s).boot = s.boot ∧ (modInput f s).tray = s.tray ∧ (modInput f s).sec = s.sec ∧ (modInput f s).mem = s.mem ∧
    (modInput f s).gau = s.gau ∧ (modInput f s).benches = s.benches ∧ (modInput f s).serve = s.serve ∧ (modInput f s).opr = s.opr ∧
    (modInput f s).net = s.net ∧ (modInput f s).vid = s.vid ∧ (modInput f s).red = s.red ∧ (modInput f s).hostWrites = s.hostWrites ∧
    (modInput f s).free = s.free ∧ (modInput f s).pending = s.pending :=
  ⟨rfl, rfl, rfl, rfl, rfl, rfl, rfl, rfl, rfl, rfl, rfl, rfl, rfl, rfl, rfl, rfl, rfl, rfl⟩

@[simp] theorem modCool_rest (f : CoolSt → CoolSt) (s : State) :
    (modCool f s).time = s.time ∧ (modCool f s).sq = s.sq ∧ (modCool f s).rec_ = s.rec_ ∧ (modCool f s).nv = s.nv ∧
    (modCool f s).boot = s.boot ∧ (modCool f s).tray = s.tray ∧ (modCool f s).sec = s.sec ∧ (modCool f s).mem = s.mem ∧
    (modCool f s).gau = s.gau ∧ (modCool f s).benches = s.benches ∧ (modCool f s).serve = s.serve ∧ (modCool f s).opr = s.opr ∧
    (modCool f s).net = s.net ∧ (modCool f s).vid = s.vid ∧ (modCool f s).red = s.red ∧ (modCool f s).hostWrites = s.hostWrites ∧
    (modCool f s).free = s.free ∧ (modCool f s).pending = s.pending :=
  ⟨rfl, rfl, rfl, rfl, rfl, rfl, rfl, rfl, rfl, rfl, rfl, rfl, rfl, rfl, rfl, rfl, rfl, rfl⟩

@[simp] theorem modHeat_rest (k : Nat) (f : BlockHeat → BlockHeat) (s : State) :
    (modHeat k f s).time = s.time ∧ (modHeat k f s).sq = s.sq ∧ (modHeat k f s).rec_ = s.rec_ ∧ (modHeat k f s).nv = s.nv ∧
    (modHeat k f s).boot = s.boot ∧ (modHeat k f s).tray = s.tray ∧ (modHeat k f s).sec = s.sec ∧ (modHeat k f s).mem = s.mem ∧
    (modHeat k f s).gau = s.gau ∧ (modHeat k f s).benches = s.benches ∧ (modHeat k f s).serve = s.serve ∧ (modHeat k f s).opr = s.opr ∧
    (modHeat k f s).net = s.net ∧ (modHeat k f s).vid = s.vid ∧ (modHeat k f s).red = s.red ∧ (modHeat k f s).hostWrites = s.hostWrites ∧
    (modHeat k f s).free = s.free ∧ (modHeat k f s).pending = s.pending :=
  ⟨rfl, rfl, rfl, rfl, rfl, rfl, rfl, rfl, rfl, rfl, rfl, rfl, rfl, rfl, rfl, rfl, rfl, rfl⟩

@[simp] theorem modDec_rest (i : Nat) (f : DecSession → DecSession) (s : State) :
    (modDec i f s).time = s.time ∧ (modDec i f s).sq = s.sq ∧ (modDec i f s).rec_ = s.rec_ ∧ (modDec i f s).nv = s.nv ∧
    (modDec i f s).boot = s.boot ∧ (modDec i f s).tray = s.tray ∧ (modDec i f s).sec = s.sec ∧ (modDec i f s).mem = s.mem ∧
    (modDec i f s).gau = s.gau ∧ (modDec i f s).benches = s.benches ∧ (modDec i f s).serve = s.serve ∧ (modDec i f s).opr = s.opr ∧
    (modDec i f s).net = s.net ∧ (modDec i f s).red = s.red ∧ (modDec i f s).pwr = s.pwr ∧ (modDec i f s).hostWrites = s.hostWrites ∧
    (modDec i f s).free = s.free ∧ (modDec i f s).pending = s.pending :=
  ⟨rfl, rfl, rfl, rfl, rfl, rfl, rfl, rfl, rfl, rfl, rfl, rfl, rfl, rfl, rfl, rfl, rfl, rfl⟩

@[simp] theorem modEnc_rest (i : Nat) (f : EncSession → EncSession) (s : State) :
    (modEnc i f s).time = s.time ∧ (modEnc i f s).sq = s.sq ∧ (modEnc i f s).rec_ = s.rec_ ∧ (modEnc i f s).nv = s.nv ∧
    (modEnc i f s).boot = s.boot ∧ (modEnc i f s).tray = s.tray ∧ (modEnc i f s).sec = s.sec ∧ (modEnc i f s).mem = s.mem ∧
    (modEnc i f s).gau = s.gau ∧ (modEnc i f s).benches = s.benches ∧ (modEnc i f s).serve = s.serve ∧ (modEnc i f s).opr = s.opr ∧
    (modEnc i f s).net = s.net ∧ (modEnc i f s).red = s.red ∧ (modEnc i f s).pwr = s.pwr ∧ (modEnc i f s).hostWrites = s.hostWrites ∧
    (modEnc i f s).free = s.free ∧ (modEnc i f s).pending = s.pending :=
  ⟨rfl, rfl, rfl, rfl, rfl, rfl, rfl, rfl, rfl, rfl, rfl, rfl, rfl, rfl, rfl, rfl, rfl, rfl⟩

@[simp] theorem modPort_rest (p : Nat) (f : Port → Port) (s : State) :
    (modPort p f s).time = s.time ∧ (modPort p f s).sq = s.sq ∧ (modPort p f s).rec_ = s.rec_ ∧ (modPort p f s).nv = s.nv ∧
    (modPort p f s).boot = s.boot ∧ (modPort p f s).tray = s.tray ∧ (modPort p f s).sec = s.sec ∧ (modPort p f s).mem = s.mem ∧
    (modPort p f s).gau = s.gau ∧ (modPort p f s).benches = s.benches ∧ (modPort p f s).serve = s.serve ∧ (modPort p f s).opr = s.opr ∧
    (modPort p f s).vid = s.vid ∧ (modPort p f s).red = s.red ∧ (modPort p f s).pwr = s.pwr ∧ (modPort p f s).hostWrites = s.hostWrites ∧
    (modPort p f s).free = s.free ∧ (modPort p f s).pending = s.pending :=
  ⟨rfl, rfl, rfl, rfl, rfl, rfl, rfl, rfl, rfl, rfl, rfl, rfl, rfl, rfl, rfl, rfl, rfl, rfl⟩

@[simp] theorem modPeer_rest (m : Nat) (f : Peer → Peer) (s : State) :
    (modPeer m f s).time = s.time ∧ (modPeer m f s).sq = s.sq ∧ (modPeer m f s).rec_ = s.rec_ ∧ (modPeer m f s).nv = s.nv ∧
    (modPeer m f s).boot = s.boot ∧ (modPeer m f s).tray = s.tray ∧ (modPeer m f s).sec = s.sec ∧ (modPeer m f s).mem = s.mem ∧
    (modPeer m f s).gau = s.gau ∧ (modPeer m f s).benches = s.benches ∧ (modPeer m f s).serve = s.serve ∧ (modPeer m f s).opr = s.opr ∧
    (modPeer m f s).vid = s.vid ∧ (modPeer m f s).red = s.red ∧ (modPeer m f s).pwr = s.pwr ∧ (modPeer m f s).hostWrites = s.hostWrites ∧
    (modPeer m f s).free = s.free ∧ (modPeer m f s).pending = s.pending :=
  ⟨rfl, rfl, rfl, rfl, rfl, rfl, rfl, rfl, rfl, rfl, rfl, rfl, rfl, rfl, rfl, rfl, rfl, rfl⟩

@[simp] theorem modLane_rest (l : Nat) (f : Lane → Lane) (s : State) :
    (modLane l f s).time = s.time ∧ (modLane l f s).sq = s.sq ∧ (modLane l f s).rec_ = s.rec_ ∧ (modLane l f s).nv = s.nv ∧
    (modLane l f s).boot = s.boot ∧ (modLane l f s).tray = s.tray ∧ (modLane l f s).sec = s.sec ∧ (modLane l f s).mem = s.mem ∧
    (modLane l f s).gau = s.gau ∧ (modLane l f s).benches = s.benches ∧ (modLane l f s).serve = s.serve ∧ (modLane l f s).opr = s.opr ∧
    (modLane l f s).vid = s.vid ∧ (modLane l f s).red = s.red ∧ (modLane l f s).pwr = s.pwr ∧ (modLane l f s).hostWrites = s.hostWrites ∧
    (modLane l f s).free = s.free ∧ (modLane l f s).pending = s.pending :=
  ⟨rfl, rfl, rfl, rfl, rfl, rfl, rfl, rfl, rfl, rfl, rfl, rfl, rfl, rfl, rfl, rfl, rfl, rfl⟩

@[simp] theorem modGroup_rest (g : Nat) (f : GroupSt → GroupSt) (s : State) :
    (modGroup g f s).time = s.time ∧ (modGroup g f s).sq = s.sq ∧ (modGroup g f s).rec_ = s.rec_ ∧ (modGroup g f s).nv = s.nv ∧
    (modGroup g f s).boot = s.boot ∧ (modGroup g f s).tray = s.tray ∧ (modGroup g f s).sec = s.sec ∧ (modGroup g f s).gau = s.gau ∧
    (modGroup g f s).benches = s.benches ∧ (modGroup g f s).serve = s.serve ∧ (modGroup g f s).opr = s.opr ∧
    (modGroup g f s).net = s.net ∧ (modGroup g f s).vid = s.vid ∧ (modGroup g f s).red = s.red ∧ (modGroup g f s).pwr = s.pwr ∧
    (modGroup g f s).hostWrites = s.hostWrites ∧ (modGroup g f s).free = s.free ∧ (modGroup g f s).pending = s.pending :=
  ⟨rfl, rfl, rfl, rfl, rfl, rfl, rfl, rfl, rfl, rfl, rfl, rfl, rfl, rfl, rfl, rfl, rfl, rfl⟩

@[simp] theorem modYard_rest (g : Nat) (f : YardSt → YardSt) (s : State) :
    (modYard g f s).time = s.time ∧ (modYard g f s).sq = s.sq ∧ (modYard g f s).rec_ = s.rec_ ∧ (modYard g f s).nv = s.nv ∧
    (modYard g f s).boot = s.boot ∧ (modYard g f s).tray = s.tray ∧ (modYard g f s).sec = s.sec ∧ (modYard g f s).gau = s.gau ∧
    (modYard g f s).benches = s.benches ∧ (modYard g f s).serve = s.serve ∧ (modYard g f s).opr = s.opr ∧ (modYard g f s).net = s.net ∧
    (modYard g f s).vid = s.vid ∧ (modYard g f s).red = s.red ∧ (modYard g f s).pwr = s.pwr ∧ (modYard g f s).hostWrites = s.hostWrites ∧
    (modYard g f s).free = s.free ∧ (modYard g f s).pending = s.pending :=
  ⟨rfl, rfl, rfl, rfl, rfl, rfl, rfl, rfl, rfl, rfl, rfl, rfl, rfl, rfl, rfl, rfl, rfl, rfl⟩

@[simp] theorem modItem_rest (k i : Nat) (f : ItemProgress → ItemProgress) (s : State) :
    (modItem k i f s).time = s.time ∧ (modItem k i f s).sq = s.sq ∧ (modItem k i f s).rec_ = s.rec_ ∧ (modItem k i f s).nv = s.nv ∧
    (modItem k i f s).tray = s.tray ∧ (modItem k i f s).sec = s.sec ∧ (modItem k i f s).mem = s.mem ∧ (modItem k i f s).gau = s.gau ∧
    (modItem k i f s).benches = s.benches ∧ (modItem k i f s).serve = s.serve ∧ (modItem k i f s).opr = s.opr ∧
    (modItem k i f s).net = s.net ∧ (modItem k i f s).vid = s.vid ∧ (modItem k i f s).red = s.red ∧ (modItem k i f s).pwr = s.pwr ∧
    (modItem k i f s).hostWrites = s.hostWrites ∧ (modItem k i f s).free = s.free ∧ (modItem k i f s).pending = s.pending :=
  ⟨rfl, rfl, rfl, rfl, rfl, rfl, rfl, rfl, rfl, rfl, rfl, rfl, rfl, rfl, rfl, rfl, rfl, rfl⟩

@[simp] theorem modSlot_rest (i : Nat) (f : Slot → Slot) (s : State) :
    (modSlot i f s).time = s.time ∧ (modSlot i f s).sq = s.sq ∧ (modSlot i f s).rec_ = s.rec_ ∧ (modSlot i f s).boot = s.boot ∧
    (modSlot i f s).tray = s.tray ∧ (modSlot i f s).sec = s.sec ∧ (modSlot i f s).mem = s.mem ∧ (modSlot i f s).gau = s.gau ∧
    (modSlot i f s).benches = s.benches ∧ (modSlot i f s).serve = s.serve ∧ (modSlot i f s).opr = s.opr ∧ (modSlot i f s).net = s.net ∧
    (modSlot i f s).vid = s.vid ∧ (modSlot i f s).red = s.red ∧ (modSlot i f s).pwr = s.pwr ∧ (modSlot i f s).hostWrites = s.hostWrites ∧
    (modSlot i f s).free = s.free ∧ (modSlot i f s).pending = s.pending :=
  ⟨rfl, rfl, rfl, rfl, rfl, rfl, rfl, rfl, rfl, rfl, rfl, rfl, rfl, rfl, rfl, rfl, rfl, rfl⟩

@[simp] theorem modTrigger_rest (id : Nat) (f : Trigger → Trigger) (s : State) :
    (modTrigger id f s).time = s.time ∧ (modTrigger id f s).sq = s.sq ∧ (modTrigger id f s).rec_ = s.rec_ ∧
    (modTrigger id f s).nv = s.nv ∧ (modTrigger id f s).boot = s.boot ∧ (modTrigger id f s).tray = s.tray ∧
    (modTrigger id f s).sec = s.sec ∧ (modTrigger id f s).mem = s.mem ∧ (modTrigger id f s).gau = s.gau ∧
    (modTrigger id f s).benches = s.benches ∧ (modTrigger id f s).serve = s.serve ∧ (modTrigger id f s).net = s.net ∧
    (modTrigger id f s).vid = s.vid ∧ (modTrigger id f s).red = s.red ∧ (modTrigger id f s).pwr = s.pwr ∧
    (modTrigger id f s).hostWrites = s.hostWrites ∧ (modTrigger id f s).free = s.free ∧ (modTrigger id f s).pending = s.pending :=
  ⟨rfl, rfl, rfl, rfl, rfl, rfl, rfl, rfl, rfl, rfl, rfl, rfl, rfl, rfl, rfl, rfl, rfl, rfl⟩

@[simp] theorem putByte_rest (a : Nat) (v : Byte) (s : State) :
    (putByte a v s).time = s.time ∧ (putByte a v s).sq = s.sq ∧ (putByte a v s).rec_ = s.rec_ ∧ (putByte a v s).nv = s.nv ∧
    (putByte a v s).boot = s.boot ∧ (putByte a v s).tray = s.tray ∧ (putByte a v s).sec = s.sec ∧ (putByte a v s).gau = s.gau ∧
    (putByte a v s).benches = s.benches ∧ (putByte a v s).serve = s.serve ∧ (putByte a v s).opr = s.opr ∧ (putByte a v s).net = s.net ∧
    (putByte a v s).vid = s.vid ∧ (putByte a v s).red = s.red ∧ (putByte a v s).pwr = s.pwr ∧ (putByte a v s).hostWrites = s.hostWrites ∧
    (putByte a v s).free = s.free ∧ (putByte a v s).pending = s.pending :=
  ⟨rfl, rfl, rfl, rfl, rfl, rfl, rfl, rfl, rfl, rfl, rfl, rfl, rfl, rfl, rfl, rfl, rfl, rfl⟩

@[simp] theorem putChk_rest (w x : Nat) (s : State) :
    (putChk w x s).time = s.time ∧ (putChk w x s).sq = s.sq ∧ (putChk w x s).rec_ = s.rec_ ∧ (putChk w x s).nv = s.nv ∧
    (putChk w x s).boot = s.boot ∧ (putChk w x s).tray = s.tray ∧ (putChk w x s).sec = s.sec ∧ (putChk w x s).gau = s.gau ∧
    (putChk w x s).benches = s.benches ∧ (putChk w x s).serve = s.serve ∧ (putChk w x s).opr = s.opr ∧ (putChk w x s).net = s.net ∧
    (putChk w x s).vid = s.vid ∧ (putChk w x s).red = s.red ∧ (putChk w x s).pwr = s.pwr ∧ (putChk w x s).hostWrites = s.hostWrites ∧
    (putChk w x s).free = s.free ∧ (putChk w x s).pending = s.pending :=
  ⟨rfl, rfl, rfl, rfl, rfl, rfl, rfl, rfl, rfl, rfl, rfl, rfl, rfl, rfl, rfl, rfl, rfl, rfl⟩

@[simp] theorem tagBurst_rest (b k : Nat) (s : State) :
    (tagBurst b k s).time = s.time ∧ (tagBurst b k s).sq = s.sq ∧ (tagBurst b k s).rec_ = s.rec_ ∧ (tagBurst b k s).nv = s.nv ∧
    (tagBurst b k s).boot = s.boot ∧ (tagBurst b k s).tray = s.tray ∧ (tagBurst b k s).sec = s.sec ∧ (tagBurst b k s).gau = s.gau ∧
    (tagBurst b k s).benches = s.benches ∧ (tagBurst b k s).serve = s.serve ∧ (tagBurst b k s).opr = s.opr ∧
    (tagBurst b k s).net = s.net ∧ (tagBurst b k s).vid = s.vid ∧ (tagBurst b k s).red = s.red ∧ (tagBurst b k s).pwr = s.pwr ∧
    (tagBurst b k s).hostWrites = s.hostWrites ∧ (tagBurst b k s).free = s.free ∧ (tagBurst b k s).pending = s.pending :=
  ⟨rfl, rfl, rfl, rfl, rfl, rfl, rfl, rfl, rfl, rfl, rfl, rfl, rfl, rfl, rfl, rfl, rfl, rfl⟩

@[simp] theorem hostWrite_rest (addr : Nat) (d : List Fld) (s : State) :
    (hostWrite addr d s).time = s.time ∧ (hostWrite addr d s).sq = s.sq ∧ (hostWrite addr d s).rec_ = s.rec_ ∧
    (hostWrite addr d s).nv = s.nv ∧ (hostWrite addr d s).boot = s.boot ∧ (hostWrite addr d s).tray = s.tray ∧
    (hostWrite addr d s).sec = s.sec ∧ (hostWrite addr d s).mem = s.mem ∧ (hostWrite addr d s).gau = s.gau ∧
    (hostWrite addr d s).benches = s.benches ∧ (hostWrite addr d s).serve = s.serve ∧ (hostWrite addr d s).opr = s.opr ∧
    (hostWrite addr d s).net = s.net ∧ (hostWrite addr d s).vid = s.vid ∧ (hostWrite addr d s).red = s.red ∧
    (hostWrite addr d s).pwr = s.pwr ∧ (hostWrite addr d s).free = s.free ∧ (hostWrite addr d s).pending = s.pending :=
  ⟨rfl, rfl, rfl, rfl, rfl, rfl, rfl, rfl, rfl, rfl, rfl, rfl, rfl, rfl, rfl, rfl, rfl, rfl⟩

/-! ### What a table reads as after an update -/

theorem ctxOf_modCtx (c j : Nat) (f : CtxSt → CtxSt) (s : State) :
    ctxOf (modCtx c f s) j = if c = j then f (ctxOf s c) else ctxOf s j := tget_tmod ..

theorem benchOf_modBench (b j : Nat) (f : BenchSt → BenchSt) (s : State) :
    benchOf (modBench b f s) j = if b = j then f (benchOf s b) else benchOf s j := tget_tmod ..

theorem serveOf_modServe (c j : Nat) (f : ServeCtx → ServeCtx) (s : State) :
    serveOf (modServe c f s) j = if c = j then f (serveOf s c) else serveOf s j := tget_tmod ..

theorem reqOf_modReq (x j : Nat) (f : Request → Request) (s : State) :
    reqOf (modReq x f s) j = if x = j then f (reqOf s x) else reqOf s j := tget_tmod ..

theorem venOf_modVen (x j : Nat) (f : Veneer → Veneer) (s : State) :
    venOf (modVen x f s) j = if x = j then f (venOf s x) else venOf s j := tget_tmod ..

theorem redOf_modRed (c j : Nat) (f : RedCtx → RedCtx) (s : State) :
    redOf (modRed c f s) j = if c = j then f (redOf s c) else redOf s j := tget_tmod ..

theorem heatOf_modHeat (k j : Nat) (f : BlockHeat → BlockHeat) (s : State) :
    heatOf (modHeat k f s) j = if k = j then f (heatOf s k) else heatOf s j := tget_tmod ..

theorem portOf_modPort (p j : Nat) (f : Port → Port) (s : State) :
    portOf (modPort p f s) j = if p = j then f (portOf s p) else portOf s j := tget_tmod ..

theorem laneOf_modLane (l j : Nat) (f : Lane → Lane) (s : State) :
    laneOf (modLane l f s) j = if l = j then f (laneOf s l) else laneOf s j := tget_tmod ..

theorem groupOf_modGroup (g j : Nat) (f : GroupSt → GroupSt) (s : State) :
    groupOf (modGroup g f s) j = if g = j then f (groupOf s g) else groupOf s j := tget_tmod ..

theorem yardOf_modYard (g j : Nat) (f : YardSt → YardSt) (s : State) :
    yardOf (modYard g f s) j = if g = j then f (yardOf s g) else yardOf s j := tget_tmod ..

theorem samplingOf_modSampling (c j : Nat) (f : Sampling → Sampling) (s : State) :
    samplingOf (modSampling c f s) j = if c = j then f (samplingOf s c) else samplingOf s j := tget_tmod ..

/-- R181: a link's slots after they change. -/
theorem linkOf_modLink (l k : Nat) (c d : MeshClass) (f : LinkSt → LinkSt) (s : State) :
    linkOf (modLink l c f s) k d = if l = k ∧ c = d then f (linkOf s l c) else linkOf s k d := by
  have hc : classIdx c < 4 := by cases c <;> decide
  have hd : classIdx d < 4 := by cases d <;> decide
  by_cases h : l = k ∧ c = d
  · obtain ⟨rfl, rfl⟩ := h
    simp [linkOf, modLink]
  · have e : ¬(l * 4 + classIdx c = k * 4 + classIdx d) := by
      intro e
      refine h ⟨by omega, ?_⟩
      have : classIdx c = classIdx d := by omega
      revert this
      cases c <;> cases d <;> decide
    simp [linkOf, modLink, tmod, tget_tset, e, h]

end Sys2Proof.Machine
end

