-- ==== Sys2Proof/Laws/Served.lean ====
section
/-! SUPPORT. What a served command answers, and how the mesh's slots move: the lemmas that statements about a command or a packet cite. -/
namespace Sys2Proof.Machine

/-- A command that is taken answers what its own meaning answers. -/
theorem command_of_taken {h : Hdr} {p : Spec} {body : Call → State → Ans} {s s' : State} {c : Call} (t : Taken h p s c s') :
    command h p body s = answered c (body c s') := by
  obtain ⟨a, b⟩ := t
  simp only [command, a, b]

/-- R181: sending on a link moves one of its slots from its credits to those in flight. -/
theorem takeCredit_sum {l : Nat} {c : MeshClass} {s : State} (h : 0 < (linkOf s l c).credits) (k : Nat) (d : MeshClass) :
    linkSum (linkOf (takeCredit l c s) k d) = linkSum (linkOf s k d) := by
  unfold takeCredit
  rw [linkOf_modLink]
  split
  · next e => obtain ⟨rfl, rfl⟩ := e; simp only [linkSum]; omega
  · rfl

/-- R181: a packet that leaves a link frees the slot that it held. -/
theorem leaveLink_sum {l : Nat} {c : MeshClass} {s : State} (h : 0 < (linkOf s l c).inflight) (k : Nat) (d : MeshClass) :
    linkSum (linkOf (leaveLink l c s) k d) = linkSum (linkOf s k d) := by
  unfold leaveLink
  rw [linkOf_modLink]
  split
  · next e => obtain ⟨rfl, rfl⟩ := e; simp only [linkSum]; omega
  · rfl

@[simp] theorem takeCredit_packets (l : Nat) (c : MeshClass) (s : State) : (takeCredit l c s).benches.packets = s.benches.packets := rfl

@[simp] theorem leaveLink_packets (l : Nat) (c : MeshClass) (s : State) : (leaveLink l c s).benches.packets = s.benches.packets := rfl

/-- What leaves the links and the packets as they were keeps the balance: the part lemmas give the hypotheses. -/
theorem meshBalanced_of_parts {s t : State} (hl : t.benches.links = s.benches.links) (hp : t.benches.packets = s.benches.packets)
    (h : MeshBalanced s) : MeshBalanced t := by
  intro l c
  have := h l c
  simp only [linkOf, onLink, hl, hp] at this ⊢
  exact this

end Sys2Proof.Machine
end

