-- ==== Sys2Proof/WellFormed.lean ====
section
/-! DEFINITION. Which commands are well formed: the header of a mailbox command, an XLT or DOWEL message, and the time since the
previous command fit the widths that the manual gives them (R74, R446, R667). -/
namespace Sys2Proof

/-- The time since the previous command fits the 64 bits of T. -/
def dtOk (dt : Nat) : Bool := dt < 2 ^ 64

/-- R63, R74: the mailbox is one that commands are served at, the tag has 32 bits, and the endpoint is a MCTP endpoint. -/
def hdrOk (h : Hdr) : Bool := dtOk h.dt && h.mb ≤ 28 && h.tag < 2 ^ 32 && h.endpoint < 256

/-- R446: every field of an XLT message fits its place in the header, and the data its length. -/
def msgOk (m : XMsg) : Bool :=
  m.port ≤ 32 && m.srcM < 2 ^ 12 && m.srcC < 16 && m.dstC < 16 && m.lane < 2 ^ 14 && m.seq < 2 ^ 32 && m.ack < 2 ^ 32
    && m.credit < 2 ^ 16 && m.tag < 2 ^ 14 && m.op < 256 && m.length ≤ 4096 && m.data.length ≤ 4096 && m.addr < 2 ^ 44
    && m.operand < 2 ^ 64

/-- R667: every field of a DOWEL message fits its place. -/
def dowelOk (m : DowelMsg) : Bool :=
  m.port ≤ 32 && m.srcM < 2 ^ 12 && m.ctx < 16 && m.pairId < 2 ^ 32 && m.epoch < 2 ^ 32 && m.field < 2 ^ 32

/-- The command is well formed. -/
def wellFormed (i : Instr) : Bool :=
  match i with
  | .nop h => hdrOk h
  | .getInfo h => hdrOk h
  | .getSqStatus h => hdrOk h
  | .mbxGetState h => hdrOk h
  | .mbxNotifyMask h _ => hdrOk h
  | .mbxBind h _ _ => hdrOk h
  | .mbxUnquarantine h _ => hdrOk h
  | .setModuleNumber h _ => hdrOk h
  | .funcStop h _ _ => hdrOk h
  | .funcStart h _ _ _ => hdrOk h
  | .funcRevert h _ _ => hdrOk h
  | .funcStatus h _ => hdrOk h
  | .functionQuiesced dt _ => dtOk dt
  | .functionStartDone dt _ => dtOk dt
  | .holdMsExpiry dt _ => dtOk dt
  | .timGet h => hdrOk h
  | .timSetSkewLimit h _ => hdrOk h
  | .timPtpConfig h _ => hdrOk h
  | .timAcceptGm h => hdrOk h
  | .timStampNsRead dt _ => dtOk dt
  | .bootGetState h => hdrOk h
  | .bootGetCapacity h => hdrOk h
  | .bootReadJournal h _ _ _ => hdrOk h
  | .bootClearHistory h _ => hdrOk h
  | .bootRestart h => hdrOk h
  | .fwGetSlots h => hdrOk h
  | .fwWriteBegin h _ => hdrOk h
  | .fwWrite h _ _ _ _ => hdrOk h
  | .fwVerifySlot h _ => hdrOk h
  | .fwActivate h => hdrOk h
  | .componentActivated dt _ => dtOk dt
  | .fwConfirm h => hdrOk h
  | .fwSelectBoot h _ => hdrOk h
  | .trialExpiry dt => dtOk dt
  | .squareWatchdog dt => dtOk dt
  | .ctxCreate h _ _ => hdrOk h
  | .ctxDestroy h _ => hdrOk h
  | .ctxSetBlocks h _ _ _ => hdrOk h
  | .ctxSetGroups h _ _ => hdrOk h
  | .ctxSetSlice h _ _ _ _ => hdrOk h
  | .ctxSetQuantum h _ _ => hdrOk h
  | .ctxGet h _ => hdrOk h
  | .lotSet h _ _ _ => hdrOk h
  | .lotGet h _ _ _ => hdrOk h
  | .memGetState h _ => hdrOk h
  | .ydSetPartition h _ _ => hdrOk h
  | .memSetScrub h _ _ => hdrOk h
  | .memGetErrors h _ => hdrOk h
  | .memInject h _ _ _ => hdrOk h
  | .blkGetMap h => hdrOk h
  | .jigKeyAdd h _ _ => hdrOk h
  | .jigKeyRemove h _ _ => hdrOk h
  | .jigLoad h _ _ _ _ _ _ => hdrOk h
  | .jigLoadLib h _ _ _ _ => hdrOk h
  | .jigUnload h _ _ _ => hdrOk h
  | .jigRun h _ _ _ _ => hdrOk h
  | .jigAbort h _ _ => hdrOk h
  | .jigStatus h _ _ => hdrOk h
  | .oprPlan h _ _ _ _ _ _ => hdrOk h
  | .oprRun h _ _ _ => hdrOk h
  | .oprUntrigger h _ _ => hdrOk h
  | .oprStatus h _ => hdrOk h
  | .chainStageEnd dt _ _ => dtOk dt
  | .reqAdmit h _ _ => hdrOk h
  | .reqCancel h _ _ => hdrOk h
  | .reqUpdate h _ _ _ _ => hdrOk h
  | .reqGet h _ _ => hdrOk h
  | .reqModelSet h _ _ => hdrOk h
  | .reqSetPolicy h _ _ _ _ => hdrOk h
  | .reqStopSet h _ _ _ _ => hdrOk h
  | .reqRingSet h _ _ => hdrOk h
  | .reqGetStats h _ => hdrOk h
  | .smpSet h _ _ _ => hdrOk h
  | .smpGet h _ _ => hdrOk h
  | .kvPoolSet h _ _ => hdrOk h
  | .kvPoolGet h _ => hdrOk h
  | .kvSetPolicy h _ _ => hdrOk h
  | .attSetBuckets h _ _ => hdrOk h
  | .kvReadList h _ _ _ => hdrOk h
  | .venLoad h _ _ => hdrOk h
  | .venReplace h _ _ => hdrOk h
  | .venUnload h _ _ => hdrOk h
  | .venGet h _ => hdrOk h
  | .venTrainBegin h _ _ _ _ _ _ => hdrOk h
  | .venTrainStep h _ _ _ => hdrOk h
  | .venPublish h _ _ _ _ => hdrOk h
  | .wgtUnseal h _ _ _ _ _ => hdrOk h
  | .netGetState h => hdrOk h
  | .netSetMode h _ _ => hdrOk h
  | .netSetPort h _ _ _ => hdrOk h
  | .netSetPlan h _ _ _ => hdrOk h
  | .netSetUdpPort h _ _ => hdrOk h
  | .netAssign h _ _ _ _ => hdrOk h
  | .netSetManager h _ => hdrOk h
  | .netSetSister h _ => hdrOk h
  | .netPeerPin h _ _ _ => hdrOk h
  | .netPeerGet h _ => hdrOk h
  | .netLaneGet h _ _ => hdrOk h
  | .xltGrantSet h _ _ => hdrOk h
  | .xltSetLaneDepth h _ _ => hdrOk h
  | .xltCollSet h _ _ _ => hdrOk h
  | .netUnquarantine h _ => hdrOk h
  | .vidDecOpen h _ => hdrOk h
  | .vidEncOpen h _ => hdrOk h
  | .vidClose h _ _ _ => hdrOk h
  | .vidEncSetRc h _ _ => hdrOk h
  | .vidEncForceKey h _ => hdrOk h
  | .vidGet h _ _ => hdrOk h
  | .pwrGetState h => hdrOk h
  | .pwrSetLocalCap h _ => hdrOk h
  | .pwrSetLoneCap h _ => hdrOk h
  | .pwrCabCap h _ => hdrOk h
  | .pwrSetCeiling h _ => hdrOk h
  | .pwrSetDroop h _ => hdrOk h
  | .pwrSetConfLevels h _ => hdrOk h
  | .pwrResume h => hdrOk h
  | .pwrClearLeak h => hdrOk h
  | .paceGroupSet h _ => hdrOk h
  | .paceGroupGet h => hdrOk h
  | .pwrGetEnergy h => hdrOk h
  | .secSpdm h _ => hdrOk h
  | .secRotateKey h _ _ => hdrOk h
  | .secPkgKeyAdd h _ _ => hdrOk h
  | .secPkgKeyRemove h _ _ => hdrOk h
  | .redGet h _ => hdrOk h
  | .redSetProtect h _ _ => hdrOk h
  | .redSwap h _ => hdrOk h
  | .redRelease h _ => hdrOk h
  | .redRingAdopt h _ _ _ => hdrOk h
  | .trayDrain h => hdrOk h
  | .trayGet h => hdrOk h
  | .gauSelect h _ _ => hdrOk h
  | .gauSnapshot h _ _ _ => hdrOk h
  | .gauRead h _ _ _ => hdrOk h
  | .gauSampleSet h _ _ _ _ _ _ _ => hdrOk h
  | .gauSampleStop h _ => hdrOk h
  | .recRead h _ _ _ _ _ => hdrOk h
  | .recFreeze h _ => hdrOk h
  | .recThaw h => hdrOk h
  | .recClear h => hdrOk h
  | .recFlush h => hdrOk h
  | .recGetState h => hdrOk h
  | .mbxCmdTailWrite dt _ _ _ _ => dtOk dt
  | .mbxRspHeadWrite dt _ _ _ => dtOk dt
  | .mbxCtrlReset dt _ _ _ => dtOk dt
  | .mbxCtrlIrq dt _ _ _ _ => dtOk dt
  | .mbxQuarantineExpiry dt _ => dtOk dt
  | .readOnlyWrite dt _ _ _ => dtOk dt
  | .reqRingConsWrite dt _ _ _ _ => dtOk dt
  | .gauSampleConsWrite dt _ _ _ _ => dtOk dt
  | .recCursorWrite dt _ _ _ => dtOk dt
  | .recWindowAutoRead dt => dtOk dt
  | .ydHighWaterRead dt _ _ => dtOk dt
  | .checkpoint dt _ => dtOk dt
  | .coreDisagreement dt _ => dtOk dt
  | .pairDisagreement dt _ => dtOk dt
  | .sidebandExtraEndpoint dt _ => dtOk dt
  | .setEndpointId dt _ => dtOk dt
  | .entdaa dt _ => dtOk dt
  | .setnewda dt _ => dtOk dt
  | .rstdaa dt => dtOk dt
  | .enec dt => dtOk dt
  | .disec dt => dtOk dt
  | .getpid dt => dtOk dt
  | .getbcr dt => dtOk dt
  | .getdcr dt => dtOk dt
  | .getstatus dt => dtOk dt
  | .getmxds dt => dtOk dt
  | .rstact dt _ => dtOk dt
  | .pldmMonitoring dt _ => dtOk dt
  | .mctpControl dt _ => dtOk dt
  | .getVersion dt _ => dtOk dt
  | .getCapabilities dt _ => dtOk dt
  | .negotiateAlgorithms dt _ _ => dtOk dt
  | .getDigests dt _ => dtOk dt
  | .getCertificate dt _ _ _ _ => dtOk dt
  | .challenge dt _ _ => dtOk dt
  | .getMeasurements dt _ _ _ => dtOk dt
  | .keyExchange dt _ _ => dtOk dt
  | .finish dt _ _ => dtOk dt
  | .heartbeat dt _ => dtOk dt
  | .keyUpdate dt _ => dtOk dt
  | .endSession dt _ => dtOk dt
  | .keyDeliver dt _ _ => dtOk dt
  | .keyErase dt _ _ => dtOk dt
  | .spdmSessionTimeout dt _ => dtOk dt
  | .lockInterface dt _ _ _ => dtOk dt
  | .stopInterface dt _ => dtOk dt
  | .ideIntegrityFailure dt _ => dtOk dt
  | .functionLevelReset dt _ _ => dtOk dt
  | .perstAssert dt => dtOk dt
  | .perstDeassert dt => dtOk dt
  | .configRequest dt _ _ => dtOk dt
  | .bar4Read dt _ _ _ _ => dtOk dt
  | .bar4Write dt _ _ _ _ => dtOk dt
  | .ptmExchange dt _ => dtOk dt
  | .ppsInEdge dt _ => dtOk dt
  | .ppsOutSecond dt => dtOk dt
  | .ptpSync dt _ => dtOk dt
  | .ptpFollowUp dt _ _ _ => dtOk dt
  | .ptpAnnounce dt _ _ _ => dtOk dt
  | .ptpDelayResp dt _ _ _ => dtOk dt
  | .ptpDelayReq dt => dtOk dt
  | .ptpMasterSyncTimer dt => dtOk dt
  | .syncLoss dt => dtOk dt
  | .arpRequest dt _ _ _ _ => dtOk dt
  | .neighborSolicitation dt _ _ _ _ _ => dtOk dt
  | .echoRequest dt _ _ _ _ _ _ => dtOk dt
  | .frameDrop dt _ _ => dtOk dt
  | .xltMalformed dt _ _ => dtOk dt
  | .helloAnnounce dt m _ => dtOk dt && msgOk m
  | .helloOpen dt m _ => dtOk dt && msgOk m
  | .helloOpenAck dt m => dtOk dt && msgOk m
  | .helloClose dt m => dtOk dt && msgOk m
  | .probeAck dt m => dtOk dt && msgOk m
  | .probeEchoReq dt m => dtOk dt && msgOk m
  | .probeEchoResp dt m => dtOk dt && msgOk m
  | .nak dt m => dtOk dt && msgOk m
  | .dataWrite dt m => dtOk dt && msgOk m
  | .dataRead dt m => dtOk dt && msgOk m
  | .readResp dt m => dtOk dt && msgOk m
  | .atomic dt m => dtOk dt && msgOk m
  | .collective dt m => dtOk dt && msgOk m
  | .pageShipAnnounce dt m _ => dtOk dt && msgOk m
  | .pageShipAccept dt m => dtOk dt && msgOk m
  | .pageShipPage dt m => dtOk dt && msgOk m
  | .pageShipScales dt m => dtOk dt && msgOk m
  | .pageShipDoneAck dt m => dtOk dt && msgOk m
  | .control dt m => dtOk dt && msgOk m
  | .paceBeacon dt m => dtOk dt && msgOk m
  | .lagNotice dt m => dtOk dt && msgOk m
  | .capSet dt m => dtOk dt && msgOk m
  | .dowelHold dt m => dtOk dt && dowelOk m
  | .dowelRenew dt m => dtOk dt && dowelOk m
  | .dowelGrant dt m => dtOk dt && dowelOk m
  | .dowelRefuse dt m => dtOk dt && dowelOk m
  | .dowelRelease dt m => dtOk dt && dowelOk m
  | .dowelSwap dt m => dtOk dt && dowelOk m
  | .dowelTaken dt m => dtOk dt && dowelOk m
  | .dowelCommit dt m _ => dtOk dt && dowelOk m
  | .dowelCommitAck dt m => dtOk dt && dowelOk m
  | .dowelSoloGrant dt m => dtOk dt && dowelOk m
  | .portUp dt _ => dtOk dt
  | .portDown dt _ => dtOk dt
  | .announceTimer dt => dtOk dt
  | .ackDelayTimer dt _ => dtOk dt
  | .retransmitTimeout dt _ => dtOk dt
  | .laneProbeTimer dt _ => dtOk dt
  | .peerQuarantineExpiry dt _ => dtOk dt
  | .shipAnnounceResend dt _ => dtOk dt
  | .shipPageTimeout dt _ => dtOk dt
  | .shipAckTimeout dt _ => dtOk dt
  | .pwrEnAssert dt _ => dtOk dt
  | .pwrEnDeassert dt => dtOk dt
  | .trayLatchAssert dt _ => dtOk dt
  | .trayLatchDeassert dt => dtOk dt
  | .keepAliveStart dt _ _ => dtOk dt
  | .bootStepEnd dt _ => dtOk dt
  | .inputSample dt _ => dtOk dt
  | .supplyRecovered dt => dtOk dt
  | .supplyHalt100ms dt => dtOk dt
  | .measurementLoss dt => dtOk dt
  | .estimatorTick dt _ => dtOk dt
  | .powerLoopTick dt => dtOk dt
  | .paceTick dt => dtOk dt
  | .railLevelStep dt => dtOk dt
  | .paceMeterInterval dt _ => dtOk dt
  | .deferredPaceIncrease dt => dtOk dt
  | .droopCeilingExpiry dt => dtOk dt
  | .calibrationFit dt => dtOk dt
  | .attributionPeriod dt _ _ => dtOk dt
  | .confEpoch dt => dtOk dt
  | .capHeartbeatTimeout dt => dtOk dt
  | .loneCapTimeout dt => dtOk dt
  | .reportTimer dt => dtOk dt
  | .beaconTimer dt => dtOk dt
  | .memberStale dt _ => dtOk dt
  | .droopDetect dt _ _ => dtOk dt
  | .droopGateRelease dt _ => dtOk dt
  | .thermalSample dt _ => dtOk dt
  | .blockHalt1s dt _ => dtOk dt
  | .suspectClear dt _ _ => dtOk dt
  | .inletSettled dt => dtOk dt
  | .thermTrip dt _ => dtOk dt
  | .flowTick dt _ => dtOk dt
  | .flowsDisagree dt => dtOk dt
  | .flowRangeRecovered dt => dtOk dt
  | .leakDetected dt => dtOk dt
  | .mr4Report dt _ _ => dtOk dt
  | .scrubBurst dt _ => dtOk dt
  | .sramScrub dt _ => dtOk dt
  | .prefetchFillStart dt _ => dtOk dt
  | .prefetchPinExpiry dt _ => dtOk dt
  | .keySweepPage dt _ => dtOk dt
  | .groupReleaseDone dt _ => dtOk dt
  | .blockScrubDone dt _ => dtOk dt
  | .runStart dt _ => dtOk dt
  | .opIssue dt _ _ _ _ _ => dtOk dt
  | .opComplete dt _ _ _ => dtOk dt
  | .eventBoundExceeded dt _ _ => dtOk dt
  | .meshPacketArrival dt _ _ => dtOk dt
  | .creditReturn dt _ _ => dtOk dt
  | .inboundWrite dt _ => dtOk dt
  | .runEnd dt _ => dtOk dt
  | .stepEnd dt _ _ _ _ => dtOk dt
  | .stepBoundary dt _ _ => dtOk dt
  | .idleBoundaryTimer dt _ _ => dtOk dt
  | .tableChangeBoundary dt _ _ => dtOk dt
  | .quantumExpiry dt _ => dtOk dt
  | .contextSwitch dt _ _ => dtOk dt
  | .inputPoll dt _ _ => dtOk dt
  | .pictureComplete dt _ _ => dtOk dt
  | .workBoundReached dt _ => dtOk dt
  | .encodePictureDone dt _ _ _ _ => dtOk dt
  | .parseWatchdog dt _ => dtOk dt
  | .videoCoreUnresponsive dt _ _ => dtOk dt
  | .videoCoreRestartDone dt _ => dtOk dt
  | .holdTimer dt _ => dtOk dt
  | .leaseExpiry dt _ => dtOk dt
  | .holdSilence dt _ => dtOk dt
  | .dowelRequestResend dt _ => dtOk dt
  | .commitResend dt _ => dtOk dt
  | .releaseResend dt _ => dtOk dt
  | .releaseTimeout dt _ => dtOk dt
  | .swapDue dt _ => dtOk dt
  | .sisterLinkLost dt => dtOk dt
  | .sisterLinkReturn dt _ => dtOk dt
  | .resyncCopyDone dt _ _ _ _ => dtOk dt
  | .snapshotLatch dt _ => dtOk dt
  | .snapshotWriteDone dt _ => dtOk dt
  | .recorderFlushTimer dt => dtOk dt
  | .recorderFlushDone dt => dtOk dt
  | .freezeExpiry dt => dtOk dt
  | .flashProgramFail dt _ => dtOk dt
  | .startInterface dt _ => dtOk dt
  | .ideKm dt _ _ _ => dtOk dt
  | .jigLoadDone dt _ => dtOk dt
  | .oprPlanDone dt _ => dtOk dt
  | .veneerLoadDone dt _ => dtOk dt
  | .wgtUnsealDone dt _ _ => dtOk dt
  | .slotEraseDone dt _ => dtOk dt
  | .slotVerifyDone dt _ _ _ => dtOk dt
  | .recorderEraseDone dt => dtOk dt

end Sys2Proof
end

