-- ==== Sys2Proof/Tests/Slice0.lean ====
section
/-! SUPPORT. Tests: the hypotheses of every statement are met by some state and operands, and small checks of the model against the manual. -/
namespace Sys2Proof.Tests
open Sys2Proof Sys2Proof.Machine

/-! ### Witnesses -/

/-- The command `i` is taken in the state `s`, and `pre` holds. -/
def Met (_ : Instr) (h : Hdr) (p : Spec) (pre : Call → State → Bool) (s : State) : Prop :=
  ∃ c s', Taken h p s c s' ∧ pre c s' = true

/-- The event `i` comes when `pre` holds. -/
abbrev Held (_ : Instr) (dt : Nat) (pre : State → Bool) (s : State) : Prop := pre (advance dt s) = true

/-- The call that a header becomes, and the state it is then answered in. -/
def callAt (h : Hdr) (p : Spec) (s : State) : Call := (enter h p.op (advance h.dt s)).2.getD default
def stateAt (h : Hdr) (p : Spec) (s : State) : State := (enter h p.op (advance h.dt s)).1

theorem taken {h : Hdr} {p : Spec} {s : State}
    (w : ((enter h p.op (advance h.dt s)).2.isSome && (precheck h p (callAt h p s) (stateAt h p s)).isNone) = true) :
    Taken h p s (callAt h p s) (stateAt h p s) := by
  simp only [Bool.and_eq_true, Option.isNone_iff_eq_none] at w
  obtain ⟨w1, w2⟩ := w
  refine ⟨?_, w2⟩
  unfold callAt stateAt
  obtain ⟨c, e⟩ := Option.isSome_iff_exists.1 w1
  rw [e]
  exact Prod.ext rfl e

theorem met {i : Instr} {h : Hdr} {p : Spec} {pre : Call → State → Bool} {s : State}
    (w : ((enter h p.op (advance h.dt s)).2.isSome && (precheck h p (callAt h p s) (stateAt h p s)).isNone
      && pre (callAt h p s) (stateAt h p s)) = true) : Met i h p pre s := by
  rw [Bool.and_eq_true] at w
  exact ⟨_, _, taken w.1, w.2⟩

/-- A header at a mailbox. -/
def hd (m : Nat) : Hdr := ⟨0, m, 0, false, true, true, 0, false, []⟩

/-- The module after a start-up in which everything passed, with its PCIe link up. -/
def up : State := { State.reset with
  boot := { phase := .ready, running := true, started := List.range 21, ended := List.range 21
            capBlocks := 2 ^ 63 - 1, capGroups := 0xFFFF, yards := 0xFFFF, laneGroups := 31, decPipes := 15, encPipes := 3 }
  tray := { pwrEn := true, latch := true, inputGood := true, pwrGood := true, perst := false, linkUp := true, sriov := true } }

/-- A function stopped by a mailbox. -/
def hold (fid m : Nat) (s : State) : State := modFunc fid (fun f => { f with state := .stopped, holder := some m }) s

/-- Another phase of start-up. -/
def inBoot (f : BootSt → BootSt) (s : State) : State := { s with boot := f s.boot }
def inTray (f : TraySt → TraySt) (s : State) : State := { s with tray := f s.tray }
def inTime (f : TimeSt → TimeSt) (s : State) : State := { s with time := f s.time }
def inSq (f : SquareSt → SquareSt) (s : State) : State := { s with sq := f s.sq }
def inNv (f : NvSt → NvSt) (s : State) : State := { s with nv := f s.nv }

/-- Accepted work. -/
def doing (k : WorkKind) (id : Nat) (s : State) : State :=
  inSq (fun q => { q with work := [⟨0, 0, 0, ⟨0, 0⟩, k, id, false, false, false⟩] }) s

def inBn (f : BenchesSt → BenchesSt) (s : State) : State := { s with benches := f s.benches }
def inMem (f : MemSt → MemSt) (s : State) : State := { s with mem := f s.mem }
def inSec (f : SecSt → SecSt) (s : State) : State := { s with sec := f s.sec }
def inServe (f : ServeSt → ServeSt) (s : State) : State := { s with serve := f s.serve }
def inNet (f : NetSt → NetSt) (s : State) : State := { s with net := f s.net }
def inVid (f : VidSt → VidSt) (s : State) : State := { s with vid := f s.vid }
def inRed (f : RedSt → RedSt) (s : State) : State := { s with red := f s.red }
def inOpr (f : OprSt → OprSt) (s : State) : State := { s with opr := f s.opr }
def inRec (f : RecSt → RecSt) (s : State) : State := { s with rec_ := f s.rec_ }
def inGau (f : GauSt → GauSt) (s : State) : State := { s with gau := f s.gau }

/-- A valid plain lot with every right over 2 MiB units `lo` to `hi`. -/
def lotWord (lo hi : Nat) : Word := BitVec.ofNat 64 (0xBE * 2 ^ 48 + hi * 2 ^ 23 + lo)

/-- A resident context 0 that owns every block and group, with one lot. -/
def ctx0 : CtxSt :=
  { state := .resident, blocks := 2 ^ 63 - 1, groups := 0xFFFF, sliceCount := 64, quota := 1024, lots := [(0, lotWord 0 8)] }
def inCtx (f : CtxSt → CtxSt) (s : State) : State := inSec (fun x => { x with ctxs := [(0, f ctx0)] }) s

/-- The module with that context. -/
def upCtx : State := inCtx id up

/-- A jig that holds nothing but an op of matrix unit 0, and a run of it on bench 0. -/
def op0 : Op := ⟨0x0A, 0, 0, 0, 0, 0, 0, 1, 0, 0⟩
def jig0 : Jig := ⟨0, 0, 0, 1, 1, 1, 0, 0, 4, 4, 0, 0, 0, 0, 0, true, [⟨0, 0, [], 0, true⟩], [], [op0]⟩
/-- A jig that takes more than half of a jig store. -/
def bigJig : Jig := { jig0 with opCount := 4096 }
def run0 : Run := { id := 9, ctx := 0, slot := 0, blocks := [0], params := [], waiting := [], live := [0] }
def benchRun0 : BenchRun := { run := 9, slot := 0, jig := jig0, units := [{}, {}, {}, {}], chans := [], params := [], offsets := [], inflight := [] }

/-- Units that have no op left. -/
def idleUnits : List UnitSt := List.replicate 4 { ended := true }

/-- A bench 0 like that. -/
def bench0 (f : BenchSt → BenchSt) (s : State) : State :=
  inBn (fun b => { b with benches := [(0, f { slots := [some jig0, none, none, none], cur := some benchRun0 })], runs := [run0] }) s

/-- Every bench of block 0 alike. -/
def benchAll (x : BenchSt) (s : State) : State := inBn (fun b => { b with benches := (List.range 4).map fun i => (i, x) }) s
def inFlight0 : InFlight := { unit := 0, idx := 0, op := op0, d := default, a := default, b := default, c := default }

/-- A packet for the local port of crossing 16. -/
def packet0 : Packet := ⟨0, 135, .bulk, 16, 7, {}⟩

/-- The module with a port up. -/
def portUp (p : Nat) (s : State) : State := inNet (fun n => { n with ports := [(p, { up := true })] }) s

def cell (a b : Nat) : Host.Cell := ⟨a, BitVec.ofNat 8 b⟩

/-- A plan for block 0 at address 0, and a chain of it. -/
def plan0 : Plan := ⟨0, default, [0], 0, 1, [], [], [], [], 0, false, [1]⟩
def chain0 : Chain := ⟨3, 0, [plan0], [], 9, none, 0, 0, ⟨0, 0⟩, 0⟩

/-- A serving context 0: a model, a sampler set, a stop set and a host ring. -/
def modelRec0 : ModelRec := ⟨1, 1, 0, 1, 100, 1000, 0, 0, 0, 0, true⟩
def model0 : Model := ⟨modelRec0, { d := 64, hq := 1, hkv := 1, layers := 1 }, {}, false, 0⟩
def samplerPar0 : SamplerPar := ⟨0, 0, 0, 0, 0, 0x3F800000, 0, 0, 0⟩
def ringPar0 : RingPar := ⟨0, 1, 1, 0xFFFF, 4096, 8, 0⟩
def serve0 : ServeCtx :=
  { models := [(1, some model0)], samplers := [(0, some ⟨samplerPar0, []⟩)], stops := [(0, some ⟨[], []⟩)]
    rings := [(0, some { par := ringPar0 })] }
def admit0 : AdmitPar :=
  { model := 1, priority := 0, noRecompute := false, shipOut := false, waitKv := false, resume := false, kInit := 0, sampler := 0
    stopSet := 0, ring := 0, veneer := 0, deadline := ⟨0, 0⟩, seed := 0, tag := 0, promptLen := 4, maxNew := 4, histAddr := 0
    shipModule := 0xFFFF, shipId := 0, resumed := 0 }
def serving (f : ServeCtx → ServeCtx) (s : State) : State := inServe (fun x => { x with ctxs := [(0, f serve0)] }) s
def upServe : State := serving id upCtx

/-- A request of it in the entry 0. -/
def req0 : Request := { state := .decode, model := 1, promptLen := 4, maxNew := 4, ring := some 0 }
def asking (f : Request → Request) (s : State) : State := inServe (fun x => { x with reqs := [(0, f req0)] }) s

/-- A veneer in the slot 7. -/
def veneer (v : Veneer) (s : State) : State := inServe (fun x => { x with veneers := [(7, v)] }) s

/-- A veneer package's header at the address 0: kind 1, version 2, name 5, rank 1. -/
def withPackage (s : State) : State := inMem (fun m => { m with bytes := [cell 6 1, cell 24 2, cell 56 5, cell 64 1] }) s

/-- A peer 7 on port 0, and a lane to its context 0. -/
def port0 : Port := { up := true, contexts := 1 }
def lane0 : Lane := { state := .up, peer := 7, announced := 8 }
def net0 : NetSt := { ports := [(0, port0)], peers := [{ module := 7 }], lanes := [(0, lane0)], grants := [(0, [(7, 0)])] }
def wired (f : NetSt → NetSt) (s : State) : State := inNet (fun _ => f net0) s
def upNet : State := wired id upServe
def from7 : XMsg := { blankMsg with srcM := 7 }
def hello7 : HelloPar := ⟨1, 1, 4096, [9], 9⟩

/-- 16 bytes of data with check bits. -/
def data16 : XMsg := { from7 with check := true, length := 16, data := List.replicate 16 1, chks := [0] }

/-- A shipment of the request in the entry 0. -/
def ship0 (sender accepted : Bool) : Shipment := { req := 0, sender := sender, peer := 7, peerCtx := 0, shipId := 3, pages := 2, accepted := accepted }
def awaiting (f : NetSt → NetSt) : State :=
  wired f (asking (fun r => { r with state := .waitKv, shipModule := 7, shipId := 3, list := [3] }) upServe)
def announce0 : ShipPar := ⟨2, 4, 64, 1, 0, 1, 0, 0, ⟨0, 0⟩⟩

/-- Video sessions of context 0, whose lot holds 1 GiB. -/
def upVid : State := inCtx (fun c => { c with lots := [(0, lotWord 0 512)] }) up
def decPar0 : DecPar := ⟨0, 0, 0xFF, 1, 16, 16, 8, true, false, false, true, 30, 4, 2, 4, 0xFFFF, 0, 0, 0, 0, 0, 0⟩
def encPar0 : EncPar := ⟨0, 0, 4, 1, 8, 0, 0, 0, 64, 64, 64, 64, ⟨30, 30, 51, 1, 1000⟩, 0, 60, 30, 1, 4, 1, 0, 0, 0, 0, 1000, 0, 0, 0xFFFF⟩
def base0 (busy : Bool) : VidBase := { ctx := 0, pipe := 0, busy := busy, prod := 1 }
def dec0 (busy : Bool) : DecSession := { base := base0 busy, par := decPar0 }
def enc0 (busy : Bool) : EncSession := { base := base0 busy, par := encPar0 }
def videoing (busy : Bool) : State :=
  inMem (fun m => { m with bytes := [cell 8 16] }) (inVid (fun v => { v with dec := [(0, some (dec0 busy))], enc := [(0, some (enc0 busy))] }) upVid)
def decoded0 : Decoded :=
  { pic := ⟨16, 16, 8, [], [], []⟩, grained := none, shown := true, order := 0, key := true, reference := true, matrix := none
    fullRange := false, damaged := [], sliceError := false, work := 1, refs := [], frame := [], marks := [], mark := 0, release := [] }

def inPace (f : PaceSt → PaceSt) (s : State) : State := modPace f s

/-- A pace group of this module and module 7. -/
def paceCfg0 : PaceCfg := ⟨5, false, 10, [0, 7]⟩
def grouped (f : GroupPace → GroupPace) (s : State) : State :=
  modPace (fun p => { p with group := some (f { cfg := paceCfg0 }), target := 9 }) s

/-- A run of the context `c` on block 0. -/
def runBy (c : Nat) : Run := { run0 with ctx := c, waiting := [0], live := [] }

/-- Contexts 0 and 1 that share block 0 in time; the context 1 has work. -/
def sharing (resident : Bool) : State :=
  inBn (fun b => { b with runs := [runBy 1] }) (inSec (fun x => { x with ctxs :=
    [(0, { ctx0 with state := if resident then .resident else .defined, timeShare := true, blocks := 1, quantumDue := true }),
     (1, { state := .defined, timeShare := true, blocks := 1 })] }) up)

/-- A confidential context 0 in TDISP RUN. -/
def secret (t : Tdi) : State := inCtx (fun c => { c with confidential := true, tdi := t }) up

/-- A finished session 1 of a path, and a path's negotiation. -/
def session0 (p : SpdmPath) : Session := ⟨p, true, 0, 0⟩
def inSess (p : SpdmPath) (s : State) : State := doing .spdm 0 (inSec (fun x => { x with sessions := [(1, some (session0 p))] }) s)
def negotiated (p : SpdmPath) (n : Nat) (s : State) : State := inSec (fun x => { x with connection := [(p, n)] }) s

/-- A mirrored context 0 whose sister and arbiter is module 7, on the sister port too. -/
def redCtx0 : RedCtx := { par := { mode := 1, pairId := 2, mirrorLot := 0 } }
def mirroring (f : RedCtx → RedCtx) : State :=
  inRed (fun r => { r with ctxs := [(0, f redCtx0)] }) (inNv (fun n => { n with manager := some 7 })
    (wired (fun n => { n with sister := some 7, ports := [(0, port0), (32, port0)] }) upServe))
def dowel7 (epoch field : Nat) : DowelMsg := ⟨0, 7, 0, ⟨0, 0⟩, 2, epoch, field, false⟩
def delta0 : Delta := ⟨[], [], [], [], [], []⟩
set_option maxRecDepth 8000 in
theorem test_time_commands_complete_0 : ∃ h s, Met (.timGet h) h { op := 0x0D00, who := whoAll, reads := true } anyCall s :=
  ⟨hd 0, up, met (by decide)⟩

set_option maxRecDepth 8000 in
theorem test_time_commands_complete_1 : ∃ h n s, Met (.timSetSkewLimit h n) h { op := 0x0D01, who := who0Side } (fun _ _ => 10000 ≤ n && n ≤ 1000000000) s :=
  ⟨hd 0, 1000000000, up, met (by decide)⟩

set_option maxRecDepth 8000 in
theorem test_time_commands_complete_2 : ∃ h cfg s, Met (.timPtpConfig h cfg) h { op := 0x0D02, who := who0Side } (fun c s => cfg.port ≤ 32 && cfg.domain ≤ 127 && quiesced s fidTime && (funcOf s fidTime).holder = some c.mb) s :=
  ⟨hd 0, ⟨32, .boundary, 127, .ethernet, false⟩, hold fidTime 0 up, met (by decide)⟩

set_option maxRecDepth 8000 in
theorem test_time_commands_complete_3 : ∃ h s, Met (.timAcceptGm h) h { op := 0x0D03, who := who0 } (fun _ s => s.time.gmBehind && syncFresh s) s :=
  ⟨hd 0, inTime (fun t => { t with gmBehind := true, lastSync := some 0 }) up, met (by decide)⟩

set_option maxRecDepth 8000 in
theorem test_time_events_occur_1 : ∃ dt m s, Held (.ptpSync dt m) dt (fun s => onPtpPort s m.port m.domain && 62500000 ≤ m.interval && m.interval ≤ 2000000000 && !m.twoStep
      && 0 ≤ m.offset && !s.time.gmBehind && !s.time.firstLock && (funcOf s fidTime).state = .running) s :=
  ⟨0, ⟨0, 0, false, 2000000000, 7⟩, portUp 0 up, by decide⟩

set_option maxRecDepth 8000 in
theorem test_time_events_occur_2 : ∃ dt port domain offset s, Held (.ptpFollowUp dt port domain offset) dt (fun s => onPtpPort s port domain && s.time.awaitFollowUp && (funcOf s fidTime).state = .running
      && !s.time.gmBehind && s.time.firstLock && !s.time.slewing && -500 ≤ offset && offset ≤ 500) s :=
  ⟨0, 0, 0, 500, inTime (fun t => { t with firstLock := true, awaitFollowUp := true }) (portUp 0 up), by decide⟩

set_option maxRecDepth 8000 in
theorem test_time_events_occur_3 : ∃ dt port domain gm s, Held (.ptpAnnounce dt port domain gm) dt (fun s => onPtpPort s port domain) s :=
  ⟨0, 0, 0, 5, portUp 0 up, by decide⟩

set_option maxRecDepth 8000 in
theorem test_time_events_occur_4 : ∃ dt port domain delay s, Held (.ptpDelayResp dt port domain delay) dt (fun s => onPtpPort s port domain) s :=
  ⟨0, 0, 0, -3, portUp 0 up, by decide⟩

set_option maxRecDepth 8000 in
theorem test_time_events_occur_5 : ∃ dt s, Held (.syncLoss dt) dt (fun s => (s.time.sync = .locking || s.time.sync = .locked) && syncMissing s) s :=
  ⟨400000000, inTime (fun t => { t with sync := .locked, lastSync := some 0 }) up, by decide⟩

set_option maxRecDepth 8000 in
theorem test_time_events_occur_6 : ∃ dt master s, Held (.ptmExchange dt master) dt (fun s => s.tray.linkUp) s :=
  ⟨0, 9, up, by decide⟩

set_option maxRecDepth 8000 in
theorem test_time_events_occur_7 : ∃ dt phase s, Held (.ppsInEdge dt phase) dt (fun s => s.time.ptp.pps && (funcOf s fidTime).state = .running) s :=
  ⟨0, 3, inTime (fun t => { t with ptp := { t.ptp with pps := true } }) up, by decide⟩

set_option maxRecDepth 8000 in
theorem test_time_events_occur_9 : ∃ dt s, s.time.t / 1000000000 < (advance dt s).time.t / 1000000000 :=
  ⟨1, inTime (fun t => { t with t := 999999999 }) up, by decide⟩

set_option maxRecDepth 8000 in
theorem test_time_events_occur_8 : ∃ (dt : Nat) (s : State), s.time.frac < 1000000000 ∧ s.time.t + 2 * dt + 1 < 2 ^ 64 :=
  ⟨5, up, by decide, by decide⟩

set_option maxRecDepth 8000 in
theorem test_general_commands_complete_0 : ∃ h s, Met (.nop h) h { op := 0x0000, who := whoAll, reads := true } anyCall s :=
  ⟨hd 0, up, met (by decide)⟩

set_option maxRecDepth 8000 in
theorem test_general_commands_complete_1 : ∃ h s, Met (.getInfo h) h { op := 0x0001, who := whoAll, reads := true } anyCall s :=
  ⟨hd 16, up, met (by decide)⟩

set_option maxRecDepth 8000 in
theorem test_general_commands_complete_2 : ∃ h s, Met (.getSqStatus h) h { op := 0x0002, who := whoAll, reads := true } anyCall s :=
  ⟨hd 25, up, met (by decide)⟩

set_option maxRecDepth 8000 in
theorem test_general_commands_complete_3 : ∃ h s, Met (.mbxGetState h) h { op := 0x0003, who := whoAll, reads := true } anyCall s :=
  ⟨hd 1, up, met (by decide)⟩

set_option maxRecDepth 8000 in
theorem test_general_commands_complete_4 : ∃ h mask s, Met (.mbxNotifyMask h mask) h { op := 0x0004, who := whoAll } (fun _ _ => mask < 64) s :=
  ⟨hd 0, 63, up, met (by decide)⟩

set_option maxRecDepth 8000 in
theorem test_general_commands_complete_5 : ∃ h m b s, Met (.mbxBind h m b) h { op := 0x0005, who := who0 } (fun _ s => 17 ≤ m && m ≤ 24 && b.elim true fun x => x.peer ≤ 4094 && x.peer ≠ moduleNo s && (match x.role with
      | .admin => true
      | .context c => c < 16)) s :=
  ⟨hd 0, 24, some ⟨4094, .context 15⟩, up, met (by decide)⟩

set_option maxRecDepth 8000 in
theorem test_general_commands_complete_6 : ∃ h m s, Met (.mbxUnquarantine h m) h { op := 0x0006, who := who0 } (fun _ _ => m ≤ 31) s :=
  ⟨hd 0, 31, up, met (by decide)⟩

set_option maxRecDepth 8000 in
theorem test_general_commands_complete_7 : ∃ h n s, Met (.setModuleNumber h n) h { op := 0x0007, who := who0 } (fun _ s => n ≤ 4094 && (List.range 5).all fun g => quiesced s (fidPort g)) s :=
  ⟨hd 0, 4094, (List.range 5).foldl (fun s g => hold (fidPort g) 0 s) up, met (by decide)⟩

set_option maxRecDepth 8000 in
theorem test_mailbox_pages_act_0 : ∃ dt m tail w t s, Held (.mbxCmdTailWrite dt m tail w t) dt (fun s => m ≤ 16 && reachable s m && !resetting s m && !ideRefused s m t && !quarantined s m && !tailBad (mbxOf s m) tail) s :=
  ⟨0, 16, 256, [], false, up, by decide⟩

set_option maxRecDepth 8000 in
theorem test_mailbox_pages_act_1 : ∃ dt m head t s, Held (.mbxRspHeadWrite dt m head t) dt (fun s => m ≤ 16 && reachable s m && !resetting s m && !ideRefused s m t
      && (head + 2 ^ 32 - (mbxOf s m).rspHead) % 2 ^ 32 ≤ rspUsed (mbxOf s m)) s :=
  ⟨0, 0, 0, false, up, by decide⟩

set_option maxRecDepth 8000 in
theorem test_mailbox_pages_act_2 : ∃ dt m dur t s, Held (.mbxCtrlReset dt m dur t) dt (fun s => m ≤ 16 && reachable s m && !ideRefused s m t) s :=
  ⟨0, 16, 100000, false, up, by decide⟩

set_option maxRecDepth 8000 in
theorem test_mailbox_pages_act_3 : ∃ dt m en v t s, Held (.mbxCtrlIrq dt m en v t) dt (fun s => m ≤ 16 && reachable s m && !ideRefused s m t && v < (if m = 0 then 128 else 120)) s :=
  ⟨0, 0, true, 127, false, up, by decide⟩

set_option maxRecDepth 8000 in
theorem test_mailbox_pages_act_4 : ∃ dt m s, Held (.mbxQuarantineExpiry dt m) dt (fun s => !quarantined s m) s :=
  ⟨30000000000, 1, modMbx 1 (fun b => { b with quarantineEnd := some 30000000000 }) up, by decide⟩

set_option maxRecDepth 8000 in
theorem test_voting_cores_act_0 : ∃ dt s, Held (.checkpoint dt []) dt checkpointDue s :=
  ⟨1000000, inSq (fun q => { q with checkpoints := 1 }) up, by decide⟩

set_option maxRecDepth 8000 in
theorem test_voting_cores_act_2 : ∃ dt i s, i < 3 ∧ Held (.checkpoint dt [(i, true)]) dt (fun s => checkpointDue s && tget (skipAll s).sq.cores i .voting = .resync) s :=
  ⟨0, 2, inSq (fun q => { q with cores := tset q.cores 2 .resync, mode := .pair }) up, by decide, by decide⟩

set_option maxRecDepth 8000 in
theorem test_voting_cores_act_3 : ∃ dt core s, core < 3 ∧ Held (.coreDisagreement dt core) dt (fun s => !boardAlone s && s.sq.mode = .triple) s :=
  ⟨0, 2, up, by decide, by decide⟩

set_option maxRecDepth 8000 in
theorem test_voting_cores_act_4 : ∃ dt s, Held (.pairDisagreement dt false) dt (fun s => !boardAlone s && s.sq.mode = .pair && s.sq.restartTimes.length < 8) s :=
  ⟨0, inSq (fun q => { q with mode := .pair, restartTimes := List.replicate 7 0 }) up, by decide⟩

set_option maxRecDepth 8000 in
theorem test_voting_cores_act_5 : ∃ dt s, Held (.pairDisagreement dt true) dt (fun s => !boardAlone s && s.sq.mode = .pair && !inTrial s) s :=
  ⟨0, inSq (fun q => { q with mode := .pair }) up, by decide⟩

set_option maxRecDepth 8000 in
theorem test_voting_cores_act_1 : ∃ dt s, Held (.checkpoint dt []) dt checkpointDue s :=
  ⟨0, up, by decide⟩

set_option maxRecDepth 8000 in
theorem test_sideband_answers_0 : ∃ dt e m s, Held (.sidebandExtraEndpoint dt e) dt (fun s => sideOn s && sideFor s e = some m) s :=
  ⟨0, 8, 25, up, by decide⟩

set_option maxRecDepth 8000 in
theorem test_sideband_answers_1 : ∃ dt e s, Held (.sidebandExtraEndpoint dt e) dt (fun s => sideOn s && sideFor s e = none && now s < (mbxOf s (idlest s)).lastMsg + 60000000000) s :=
  ⟨59999999999, 8, [25, 26, 27, 28].foldl (fun s m => modMbx m (fun b => { b with endpoint := some m }) s) up, by decide⟩

set_option maxRecDepth 8000 in
theorem test_sideband_answers_2 : ∃ dt e s, Held (.setEndpointId dt e) dt (fun s => sideOn s && s.tray.eid.isNone) s :=
  ⟨0, 8, up, by decide⟩

set_option maxRecDepth 8000 in
theorem test_sideband_answers_3 : ∃ dt e s, Held (.setEndpointId dt e) dt (fun s => sideOn s && s.tray.eid.isSome) s :=
  ⟨0, 9, inTray (fun t => { t with eid := some 8 }) up, by decide⟩

set_option maxRecDepth 8000 in
theorem test_sideband_answers_4 : ∃ dt a s, Held (.entdaa dt a) dt sideOn s :=
  ⟨0, 8, up, by decide⟩

set_option maxRecDepth 8000 in
theorem test_sideband_answers_5 : ∃ dt a s, Held (.setnewda dt a) dt (fun s => sideOn s && s.tray.i3cAddr.isSome) s :=
  ⟨0, 9, inTray (fun t => { t with i3cAddr := some 8 }) up, by decide⟩

set_option maxRecDepth 8000 in
theorem test_sideband_answers_6 : ∃ dt s, Held (.rstdaa dt) dt sideOn s :=
  ⟨0, up, by decide⟩

set_option maxRecDepth 8000 in
theorem test_sideband_answers_7 : ∃ dt s, Held (.enec dt) dt sideOn s :=
  ⟨0, up, by decide⟩

set_option maxRecDepth 8000 in
theorem test_sideband_answers_8 : ∃ dt s, Held (.disec dt) dt sideOn s :=
  ⟨0, up, by decide⟩

set_option maxRecDepth 8000 in
theorem test_sideband_answers_9 : ∃ dt s, Held (.getpid dt) dt sideOn s :=
  ⟨0, up, by decide⟩

set_option maxRecDepth 8000 in
theorem test_sideband_answers_10 : ∃ dt s, Held (.getbcr dt) dt sideOn s :=
  ⟨0, up, by decide⟩

set_option maxRecDepth 8000 in
theorem test_sideband_answers_11 : ∃ dt s, Held (.getdcr dt) dt sideOn s :=
  ⟨0, up, by decide⟩

set_option maxRecDepth 8000 in
theorem test_sideband_answers_12 : ∃ dt s, Held (.getstatus dt) dt sideOn s :=
  ⟨0, up, by decide⟩

set_option maxRecDepth 8000 in
theorem test_sideband_answers_13 : ∃ dt s, Held (.getmxds dt) dt sideOn s :=
  ⟨0, up, by decide⟩

set_option maxRecDepth 8000 in
theorem test_sideband_answers_14 : ∃ dt a s, Held (.rstact dt a) dt sideOn s :=
  ⟨0, 1, up, by decide⟩

set_option maxRecDepth 8000 in
theorem test_sideband_answers_15 : ∃ dt q s, Held (.pldmMonitoring dt q) dt sideOn s :=
  ⟨0, 1, up, by decide⟩

set_option maxRecDepth 8000 in
theorem test_sideband_answers_16 : ∃ dt q s, Held (.mctpControl dt q) dt sideOn s :=
  ⟨0, 1, up, by decide⟩

set_option maxRecDepth 8000 in
theorem test_function_commands_complete_0 : ∃ h fid hold s, Met (.funcStop h fid hold) h (funcSpec 0x0100 fid true) (fun c s => hold ≤ 3600000 && !(fidClass fid = 1 && tdiLocked s (fidNo fid) && speaksFor s c.mb (fidNo fid)) && fnFree s fid && stopsNow s fid) s :=
  ⟨hd 0, fidTime, 3600000, up, met (by decide)⟩

set_option maxRecDepth 8000 in
theorem test_function_commands_complete_1 : ∃ h fid hold s, Met (.funcStop h fid hold) h (funcSpec 0x0100 fid true) (fun c s => hold ≤ 3600000 && !(fidClass fid = 1 && tdiLocked s (fidNo fid) && speaksFor s c.mb (fidNo fid)) && fnFree s fid && !stopsNow s fid
      && (fidClass fid ≠ 1 || ctxRuns (beginStop fid hold c.mb s) (fidNo fid))) s :=
  ⟨hd 0, fidPort 4, 1, up, met (by decide)⟩

set_option maxRecDepth 8000 in
theorem test_function_commands_complete_short : ∃ h k hold s, Met (.funcStop h (fidContext k) hold) h (funcSpec 0x0100 (fidContext k) true)
    (fun c s => k < 16 && hold ≤ 3600000 && !(tdiLocked s k && speaksFor s c.mb k) && fnFree s (fidContext k) && !stopsNow s (fidContext k)
      && !ctxRuns (beginStop (fidContext k) hold c.mb s) k && (serveOf (beginStop (fidContext k) hold c.mb s) k).step.isNone) s :=
  ⟨hd 0, 0, 0, inNet (fun n => { n with ops := [⟨0, 0, .ring 0 0⟩] }) upCtx, met (by decide)⟩

set_option maxRecDepth 8000 in
theorem test_function_commands_complete_3 : ∃ h fid d a s c s', Taken h (funcSpec 0x0101 fid true) s c s' ∧ fnHeld c s' fid = true ∧ checkStart s' fid (some ⟨d, a⟩) = none ∧ slowStart fid = false :=
  ⟨(hd 0), (fidTime), (0), (false), (hold fidTime 0 up), (callAt (hd 0) (funcSpec 0x0101 (fidTime) true) (hold fidTime 0 up)), (stateAt (hd 0) (funcSpec 0x0101 (fidTime) true) (hold fidTime 0 up)), taken (by decide), by decide, by decide, by decide⟩

set_option maxRecDepth 8000 in
theorem test_function_commands_complete_4 : ∃ h fid s, Met (.funcRevert h fid false) h (funcSpec 0x0102 fid true) (fun c s => fnHeld c s fid && !slowStart fid) s :=
  ⟨hd 0, fidPower, hold fidPower 0 up, met (by decide)⟩

set_option maxRecDepth 8000 in
theorem test_function_commands_complete_5 : ∃ h fid s, Met (.funcStatus h fid) h (funcSpec 0x0103 fid false) (fun _ s => fidExists fid && !noFunc s fid) s :=
  ⟨hd 0, fidPort 4, up, met (by decide)⟩

set_option maxRecDepth 8000 in
theorem test_function_commands_complete_6 : ∃ dt fid s, Held (.functionQuiesced dt fid) dt (fun s => (funcOf s fid).state = .stopping && mayQuiesce s fid && (funcOf (finish .funcStop fid .ok [] (quiesce fid s)) fid).revert.isNone) s :=
  ⟨0, fidPort 4, modFunc (fidPort 4) (fun f => { f with state := .stopping }) up, by decide⟩

set_option maxRecDepth 8000 in
theorem test_function_commands_complete_7 : ∃ dt fid s, Held (.functionStartDone dt fid) dt (fun s => (funcOf s fid).state = .starting && !(funcOf s fid).reverting && !(fidClass fid = 1 && startWaits s (fidNo fid))
      && checkStart s fid none = none) s :=
  ⟨0, fidPort 4, modFunc (fidPort 4) (fun f => { f with state := .starting }) up, by decide⟩

set_option maxRecDepth 8000 in
theorem test_function_commands_complete_8 : ∃ dt fid e s, Held (.holdMsExpiry dt fid) dt (fun s => (funcOf s fid).deadline = some e && e ≤ now s) s :=
  ⟨1, fidTime, 1, modFunc fidTime (fun f => { f with deadline := some 1 }) up, by decide⟩

set_option maxRecDepth 8000 in
theorem test_function_commands_complete_2 : ∃ h k hold s, Met (.funcStop h (fidContext k) hold) h (funcSpec 0x0100 (fidContext k) true) (fun c s => k < 16 && hold ≤ 3600000 && !(tdiLocked s k && speaksFor s c.mb k) && fnFree s (fidContext k) && !stopsNow s (fidContext k)
      && !ctxRuns (beginStop (fidContext k) hold c.mb s) k && (serveOf (beginStop (fidContext k) hold c.mb s) k).step.isNone) s :=
  ⟨hd 0, 0, 5, inNet (fun n => { n with ops := [⟨0, 0, .control⟩] }) upCtx, met (by decide)⟩

set_option maxRecDepth 8000 in
theorem test_boot_events_act_0 : ∃ dt e s, Held (.bootStepEnd dt e) dt (fun s => attemptOpen e s && e.step = 20) s :=
  ⟨0, { step := 20, item := 0, ok := true }, inBoot (fun b => { b with phase := .booting, started := [20], ended := [] }) up, by decide⟩

set_option maxRecDepth 8000 in
theorem test_boot_events_act_1 : ∃ dt e s, Held (.bootStepEnd dt e) dt (fun s => attemptOpen e s && mandatory e.step && !(e.step = 2 && popCount e.cores 3 < 2) && (e.step ≠ 3 || identityChecks s) && e.ok
      && s.boot.phase = .booting) s :=
  ⟨0, { step := 1, item := 0, ok := true }, inBoot (fun b => { b with phase := .booting, started := [1], ended := [] }) up, by decide⟩

set_option maxRecDepth 8000 in
theorem test_boot_events_act_3 : ∃ dt slot cab s, Held (.keepAliveStart dt slot cab) dt (fun s => s.nv.lastRails.isNone) s :=
  ⟨0, 1, 2, State.reset, by decide⟩

set_option maxRecDepth 8000 in
theorem test_boot_events_act_4 : ∃ dt slot cab v s, v ≠ 64 * (cab % 16) + slot % 64 ∧ Held (.keepAliveStart dt slot cab) dt (fun s => s.nv.lastRails = some v) s :=
  ⟨0, 1, 2, 0, inNv (fun n => { n with lastRails := some 0 }) State.reset, by decide, by decide⟩

set_option maxRecDepth 8000 in
theorem test_boot_events_act_5 : ∃ dt s, Held (.pwrEnAssert dt true) dt (fun s => s.tray.latch && !s.boot.running && s.boot.phase = .booting && s.boot.started.isEmpty) s :=
  ⟨0, inTray (fun t => { t with latch := true }) State.reset, by decide⟩

set_option maxRecDepth 8000 in
theorem test_boot_events_act_7 : ∃ dt s, Held (.trayLatchAssert dt true) dt (fun s => s.tray.pwrEn && !s.boot.running && s.boot.phase = .booting && s.boot.started.isEmpty) s :=
  ⟨0, inTray (fun t => { t with pwrEn := true }) State.reset, by decide⟩

set_option maxRecDepth 8000 in
theorem test_boot_events_act_8 : ∃ dt s, Held (.pwrEnDeassert dt) dt (fun s => s.boot.running) s :=
  ⟨0, up, by decide⟩

set_option maxRecDepth 8000 in
theorem test_boot_events_act_9 : ∃ dt b s, Held (.configRequest dt 0 (some b)) dt (fun s => s.boot.ended.contains 7 && s.tray.linkUp) s :=
  ⟨0, true, up, by decide⟩

set_option maxRecDepth 8000 in
theorem test_boot_events_act_10 : ∃ dt fn b s, fn ≠ 0 ∧ Held (.configRequest dt fn b) dt (fun s => s.boot.ended.contains 7 && s.boot.phase = .booting) s :=
  ⟨0, 1, none, inBoot (fun b => { b with phase := .booting }) up, by decide, by decide⟩

set_option maxRecDepth 8000 in
theorem test_boot_events_act_2 : ∃ dt e s, Held (.bootStepEnd dt e) dt (fun s => attemptOpen e s && !mandatory e.step && e.step < 19 && !(e.step = 14 && s.tray.perst) && attemptOk e s && s.boot.phase = .booting) s :=
  ⟨0, { step := 10, item := 0, ok := true }, inBoot (fun b => { b with phase := .booting, started := [10], ended := [] }) up, by decide⟩

set_option maxRecDepth 8000 in
theorem test_boot_commands_complete_0 : ∃ h s, Met (.bootGetState h) h { op := 0x0200, who := who0Side, reads := true } anyCall s :=
  ⟨hd 25, up, met (by decide)⟩

set_option maxRecDepth 8000 in
theorem test_boot_commands_complete_1 : ∃ h s, Met (.bootGetCapacity h) h { op := 0x0201, who := who0Side, reads := true } anyCall s :=
  ⟨hd 0, up, met (by decide)⟩

set_option maxRecDepth 8000 in
theorem test_boot_commands_complete_2 : ∃ h seq n a s, Met (.bootReadJournal h seq n (.host a)) h { op := 0x0202, who := who0Side, reads := true } (fun c s => flashUsable s && c.mb ≤ 16 && n ≤ 4096) s :=
  ⟨hd 0, 0, 4096, 64, up, met (by decide)⟩

set_option maxRecDepth 8000 in
theorem test_boot_commands_complete_3 : ∃ h seq n s, Met (.bootReadJournal h seq n .inline) h { op := 0x0202, who := who0Side, reads := true } (fun c s => flashUsable s && 17 ≤ c.mb && n ≤ 3) s :=
  ⟨hd 28, 0, 3, up, met (by decide)⟩

set_option maxRecDepth 8000 in
theorem test_boot_commands_complete_4 : ∃ h s, Met (.bootClearHistory h .all) h { op := 0x0203, who := who0Side } (fun _ s => flashUsable s) s :=
  ⟨hd 0, up, met (by decide)⟩

set_option maxRecDepth 8000 in
theorem test_boot_commands_complete_5 : ∃ h k i s, Met (.bootClearHistory h (.items [(k, i)])) h { op := 0x0203, who := who0Side } (fun _ s => flashUsable s && !mandatory k && 1 ≤ k && k ≤ 18 && i < stepItems k) s :=
  ⟨hd 0, 9, 0, up, met (by decide)⟩

set_option maxRecDepth 8000 in
theorem test_boot_commands_complete_8 : ∃ h s c s', Taken h { op := 0x0204, who := who0Side } s c s' :=
  ⟨(hd 0), (up), (callAt (hd 0) { op := 0x0204, who := who0Side } (up)), (stateAt (hd 0) { op := 0x0204, who := who0Side } (up)), taken (by decide)⟩

set_option maxRecDepth 8000 in
theorem test_boot_commands_complete_6 : ∃ (k i : Nat), i < 1024 :=
  ⟨9, 1023, by decide⟩

set_option maxRecDepth 8000 in
theorem test_firmware_commands_complete_0 : ∃ h s, Met (.fwGetSlots h) h { op := 0x0210, who := who0Side, reads := true } (fun _ s => fwUsable s) s :=
  ⟨hd 0, up, met (by decide)⟩

set_option maxRecDepth 8000 in
theorem test_firmware_commands_complete_1 : ∃ h slot s, Met (.fwWriteBegin h slot) h { op := 0x0211, who := who0Side } (fun _ s => fwUsable s && slot ≤ 1 && slot ≠ s.boot.runSlot && !inTrial s && !working .slotErase slot s && !working .slotVerify slot s) s :=
  ⟨hd 25, 1, up, met (by decide)⟩

set_option maxRecDepth 8000 in
theorem test_firmware_commands_complete_2 : ∃ h slot offset data s, Met (.fwWrite h slot offset false data) h { op := 0x0212, who := who0Side } (fun _ s => fwUsable s && slot ≤ 1 && data.length ≤ 224 && slot ≠ s.boot.runSlot && !inTrial s && (slotOf s slot).state = .writing
      && !working .slotErase slot s) s :=
  ⟨hd 0, 1, 0, List.replicate 224 1, modSlot 1 (fun x => { x with state := .writing }) up, met (by decide)⟩

set_option maxRecDepth 8000 in
theorem test_firmware_commands_complete_3 : ∃ h slot s, Met (.fwVerifySlot h slot) h { op := 0x0213, who := who0Side } (fun _ s => fwUsable s && slot ≤ 1 && (slotOf s slot).state ≠ .empty && !working .slotErase slot s && !working .slotVerify slot s) s :=
  ⟨hd 0, 1, up, met (by decide)⟩

set_option maxRecDepth 8000 in
theorem test_firmware_commands_complete_4 : ∃ h s, Met (.fwActivate h) h { op := 0x0214, who := who0Side } (fun _ s =>
      let x := slotOf s (otherSlot s.boot.runSlot)
      let todo := walkComps s x.manifest
      fwUsable s && (x.state = .valid || x.state = .confirmed) && !(mirroredActive s && todo.contains 5) && !todo.isEmpty
      && walkChecks s.boot.running_ x.manifest.comps x.manifest.pairs todo) s :=
  ⟨hd 0, modSlot 1 (fun x => { x with manifest := { comps := { version := 1, epoch := 0, hash := 0 } :: List.replicate 5 { version := 0, epoch := 0, hash := 0 } } }) up, met (by decide)⟩

set_option maxRecDepth 8000 in
theorem test_firmware_commands_complete_5 : ∃ h s, Met (.fwConfirm h) h { op := 0x0215, who := who0Side } (fun _ s => fwUsable s && inTrial s) s :=
  ⟨hd 0, inBoot (fun b => { b with trialEnd := some 1 }) up, met (by decide)⟩

set_option maxRecDepth 8000 in
theorem test_firmware_commands_complete_6 : ∃ h slot s, Met (.fwSelectBoot h slot) h { op := 0x0216, who := who0Side } (fun _ s => fwUsable s && slot ≤ 1 && ((slotOf s slot).state = .valid || (slotOf s slot).state = .confirmed)) s :=
  ⟨hd 0, 1, up, met (by decide)⟩

set_option maxRecDepth 8000 in
theorem test_firmware_events_act_1 : ∃ dt slot m s, Held (.slotVerifyDone dt slot true m) dt (fun s => working .slotVerify slot s && s.nv.secFloor ≤ m.secVersion) s :=
  ⟨0, 1, { secVersion := 1 }, doing .slotVerify 1 (inNv (fun n => { n with secFloor := 1 }) up), by decide⟩

set_option maxRecDepth 8000 in
theorem test_firmware_events_act_2 : ∃ dt slot m s, Held (.slotVerifyDone dt slot true m) dt (fun s => working .slotVerify slot s && m.secVersion < s.nv.secFloor) s :=
  ⟨0, 1, { secVersion := 0 }, doing .slotVerify 1 (inNv (fun n => { n with secFloor := 1 }) up), by decide⟩

set_option maxRecDepth 8000 in
theorem test_firmware_events_act_3 : ∃ dt x rest slot done u v us s, Held (.componentActivated dt true) dt (fun s => s.boot.walk = some ⟨x :: rest, done, slot, u :: v :: us⟩ && unitReady x (u :: v :: us) s) s :=
  ⟨0, 0, [5], 1, [], 0, 1, [2], inBoot (fun b => { b with walk := some ⟨[0, 5], [], 1, [0, 1, 2]⟩ }) up, by decide⟩

set_option maxRecDepth 8000 in
theorem test_firmware_events_act_4 : ∃ dt x y rest slot done us s, us.length ≤ 1 ∧ Held (.componentActivated dt true) dt (fun s => s.boot.walk = some ⟨x :: y :: rest, done, slot, us⟩ && unitReady x us s) s :=
  ⟨0, 0, 5, [], 1, [], [2], inBoot (fun b => { b with walk := some ⟨[0, 5], [], 1, [2]⟩ }) up, by decide, by decide⟩

set_option maxRecDepth 8000 in
theorem test_firmware_events_act_7 : ∃ dt e s, Held (.trialExpiry dt) dt (fun s => s.boot.trialEnd = some e && e ≤ now s) s :=
  ⟨1, 1, inBoot (fun b => { b with trialEnd := some 1 }) up, by decide⟩

set_option maxRecDepth 8000 in
theorem test_firmware_events_act_8 : ∃ dt s, Held (.squareWatchdog dt) dt (fun s => !boardAlone s && inTrial s) s :=
  ⟨0, inBoot (fun b => { b with trialEnd := some 1 }) up, by decide⟩

set_option maxRecDepth 8000 in
theorem test_firmware_events_act_9 : ∃ dt s, Held (.squareWatchdog dt) dt (fun s => !boardAlone s && !inTrial s) s :=
  ⟨0, up, by decide⟩

set_option maxRecDepth 8000 in
theorem test_firmware_events_act_5 : ∃ dt x slot done us s, us.length ≤ 1 ∧ Held (.componentActivated dt true) dt (fun s => s.boot.walk = some ⟨[x], done, slot, us⟩ && unitReady x us s) s :=
  ⟨0, 5, 1, [0], [], inBoot (fun b => { b with walk := some ⟨[5], [0], 1, []⟩ }) up, by decide, by decide⟩

set_option maxRecDepth 8000 in
theorem test_firmware_events_act_6 : ∃ dt x rest slot us s, Held (.componentActivated dt false) dt (fun s => s.boot.walk = some ⟨x :: rest, [], slot, us⟩ && unitReady x us s) s :=
  ⟨0, 0, [5], 1, [0], inBoot (fun b => { b with walk := some ⟨[0, 5], [], 1, [0]⟩ }) up, by decide⟩

set_option maxRecDepth 8000 in
theorem test_jig_commands_complete_0 : ∃ h s, Met (.blkGetMap h) h { op := 0x0400, who := whoCtx, reads := true } anyCall s :=
  ⟨hd 0, up, met (by decide)⟩

set_option maxRecDepth 8000 in
theorem test_jig_commands_complete_1 : ∃ h c key s, Met (.jigKeyAdd h c key) h { op := 0x0401, who := who0Own, ctx := some c, conf := true } (fun _ s => c < 16 && key < 2 ^ 512 && ctxDefined s c && !(ctxOf s c).jigKeys.contains key && !tdiLocked s c
      && (ctxOf s c).jigKeys.length < 8) s :=
  ⟨hd 0, 0, 7, upCtx, met (by decide)⟩

set_option maxRecDepth 8000 in
theorem test_jig_commands_complete_2 : ∃ h c key s, Met (.jigKeyRemove h c key) h { op := 0x0402, who := who0Own, ctx := some c, conf := true } (fun _ s => c < 16 && key < 2 ^ 512 && ctxDefined s c && (ctxOf s c).jigKeys.contains key && !tdiLocked s c) s :=
  ⟨hd 0, 0, 7, inCtx (fun c => { c with jigKeys := [7] }) up, met (by decide)⟩

set_option maxRecDepth 8000 in
theorem test_jig_commands_complete_3 : ∃ h c slot mask addr len s, Met (.jigLoad h c slot mask addr len true) h { op := 0x0403, who := whoCtx, ctx := some c, conf := true } (fun k s => !confMask s k.mb mask && (blocksRefused s c slot mask).isNone && !ctxStopped s c && !slotBusy s c (blocksOf mask) slot
      && ((ctxOf s c).lots.any fun e => lotCovers e.2 addr len && lotRead e.2 && lotExec e.2)) s :=
  ⟨hd 0, 0, 0, 1, 0, 256, upCtx, met (by decide)⟩

set_option maxRecDepth 8000 in
theorem test_jig_commands_complete_4 : ∃ h c slot mask id s, Met (.jigLoadLib h c slot mask id) h { op := 0x0404, who := whoCtx, ctx := some c, conf := true } (fun k s => !confMask s k.mb mask && (blocksRefused s c slot mask).isNone && !ctxStopped s c && !jiglibActivating s c
      && !slotBusy s c (blocksOf mask) slot) s :=
  ⟨hd 0, 0, 0, 1, 3, upCtx, met (by decide)⟩

set_option maxRecDepth 8000 in
theorem test_jig_commands_complete_5 : ∃ h c slot mask s, Met (.jigUnload h c slot mask) h { op := 0x0405, who := whoCtx, ctx := some c, conf := true } (fun k s => !confMask s k.mb mask && (blocksRefused s c slot mask).isNone && !slotBusy s c (blocksOf mask) slot) s :=
  ⟨hd 0, 0, 0, 1, upCtx, met (by decide)⟩

set_option maxRecDepth 8000 in
theorem test_jig_commands_complete_6 : ∃ h c slot mask params s, Met (.jigRun h c slot mask params) h { op := 0x0406, who := whoCtx, ctx := some c, conf := true } (fun k s => !confMask s k.mb mask && (runBlocksRefused s c slot mask).isNone && params.length ≤ 30
      && !ctxStopped s c
      && !(blocksOf mask).any (servedBlock s c) && !queueFull s c (blocksOf mask) && slotValid s c (blocksOf mask) slot) s :=
  ⟨hd 0, 0, 0, 1, [5], benchAll { slots := [some jig0, none, none, none] } upCtx, met (by decide)⟩

set_option maxRecDepth 8000 in
theorem test_jig_commands_complete_7 : ∃ h c run r s, Met (.jigAbort h c run) h { op := 0x0407, who := whoCtx, ctx := some c, conf := true } (fun _ s => (s.benches.runs.find? fun r => r.id = run && r.ctx = c) = some r) s :=
  ⟨hd 0, 0, 9, run0, inBn (fun b => { b with runs := [run0] }) upCtx, met (by decide)⟩

set_option maxRecDepth 8000 in
theorem test_jig_commands_complete_8 : ∃ h c mask s, Met (.jigStatus h c mask) h { op := 0x0408, who := whoCtx, ctx := some c, conf := true, reads := true } (fun k s => !confMask s k.mb mask && (blocksRefused s c 0 mask).isNone) s :=
  ⟨hd 0, 0, 1, upCtx, met (by decide)⟩

set_option maxRecDepth 8000 in
theorem test_bench_events_act_0 : ∃ dt id l rest s, l.refusal = none ∧ Held (.jigLoadDone dt id) dt (fun s => takeFirst (fun l => l.id = id) s.benches.loads = some (l, rest) && !loadUnderWay s id && rspRoom s .jigLoad id
      && ctxDefined s l.ctx && (ctxOf s l.ctx).state ≠ .destroying
      && jigFits { s with benches := { s.benches with loads := rest } } l.ctx l.blocks l.slot l.jig) s :=
  ⟨0, 4, ⟨4, 0, 0, [0], jig0, none⟩, [], inBn (fun b => { b with loads := [⟨4, 0, 0, [0], jig0, none⟩] }) upCtx, by decide, by decide⟩

set_option maxRecDepth 8000 in
theorem test_bench_events_act_3 : ∃ dt b u ev bank withheld r i o s, b < 252 ∧ u < 4 ∧ Held (.opIssue dt b u ev bank withheld) dt (fun s =>
      let s := streamOn b (benchEvents b (some u) (bankUser u :: bank) ev s)
      (benchOf s b).cur = some r && !r.stopping && unitNext r.jig u (r.units.getD u {}) = some (i, o)
      && (issueBlocked s b u r.jig r o bank withheld).isNone) s :=
  ⟨0, 0, 0, 0, [], false, benchRun0, 0, op0, bench0 id upCtx, by decide, by decide, by decide⟩

set_option maxRecDepth 8000 in
theorem test_bench_events_act_4 : ∃ dt b u ev bank withheld r i o cause s, b < 252 ∧ u < 4 ∧ Held (.opIssue dt b u ev bank withheld) dt (fun s =>
      let s := streamOn b (benchEvents b (some u) (bankUser u :: bank) ev s)
      (benchOf s b).cur = some r && !r.stopping && unitNext r.jig u (r.units.getD u {}) = some (i, o)
      && issueBlocked s b u r.jig r o bank withheld = some cause) s :=
  ⟨0, 0, 0, 0, [], false, benchRun0, 0, op0, some .gate, bench0 id up, by decide, by decide, by decide⟩

set_option maxRecDepth 8000 in
theorem test_bench_events_act_5 : ∃ dt b u ev r f rest s, b < 252 ∧ u < 4 ∧ Held (.opComplete dt b u ev) dt (fun s =>
      let s := streamOn b (benchEvents b none [] ev s)
      (benchOf s b).cur = some r
      && takeFirst (fun f : InFlight => f.unit = u && answeredAll f) r.inflight = some (f, rest)) s :=
  ⟨0, 0, 0, 0, { benchRun0 with units := idleUnits, inflight := [inFlight0] }, inFlight0, [], bench0 (fun x => { x with cur := some { benchRun0 with units := idleUnits, inflight := [inFlight0] } }) up, by decide, by decide, by decide⟩

set_option maxRecDepth 8000 in
theorem test_bench_events_act_6 : ∃ dt b ev r s, Held (.eventBoundExceeded dt b ev) dt (fun s => (benchOf (benchEvents b none [] ev s) b).cur = some r && r.jig.bound ≠ 0 && r.jig.bound * 1024 < r.events) s :=
  ⟨0, 0, 1025, { benchRun0 with units := idleUnits, jig := { jig0 with bound := 1 }, events := 1025 }, bench0 (fun x => { x with cur := some { benchRun0 with units := idleUnits, jig := { jig0 with bound := 1 } } }) up, by decide⟩

set_option maxRecDepth 8000 in
theorem test_bench_events_act_7 : ∃ dt b slot found s, b < 252 ∧ slot < 4 ∧ (found = .detected ∨ found = .poison) ∧ Held (.sramScrub dt (.jig b slot found)) dt (fun s => (benchOf (countJigLine b found s) b).cur.elim false fun r => r.slot = slot) s :=
  ⟨0, 0, 0, .detected, bench0 id up, by decide, by decide, by decide, by decide⟩

set_option maxRecDepth 8000 in
theorem test_bench_events_act_8 : ∃ dt a b s, windowOf a = .bench b ∧ benchHole a = false ∧ Held (.sramScrub dt (.bench a)) dt (fun s => scrubMay s b ((a - benchBase b) / 0x8000)) s :=
  ⟨0, 0x90000000000, 0, up, by decide, by decide, by decide⟩

set_option maxRecDepth 8000 in
theorem test_bench_events_act_1 : ∃ dt id l rest s, l.refusal = none ∧ Held (.jigLoadDone dt id) dt (fun s => takeFirst (fun l => l.id = id) s.benches.loads = some (l, rest) && !loadUnderWay s id && rspRoom s .jigLoad id
      && ctxDefined s l.ctx && (ctxOf s l.ctx).state ≠ .destroying
      && !jigFits { s with benches := { s.benches with loads := rest } } l.ctx l.blocks l.slot l.jig) s :=
  ⟨0, 4, ⟨4, 0, 1, [0], bigJig, none⟩, [], bench0 (fun x => { x with slots := [some bigJig, none, none, none] }) (inBn (fun b => { b with loads := [⟨4, 0, 1, [0], bigJig, none⟩] }) upCtx), by decide, by decide⟩

set_option maxRecDepth 8000 in
theorem test_bench_events_act_2 : ∃ dt b s, Held (.runStart dt b) dt (fun s => (benchOf s b).cur.isNone) s :=
  ⟨0, 0, up, by decide⟩

set_option maxRecDepth 8000 in
theorem test_mesh_events_act_0 : ∃ dt link k p rest s, (link % 16 < 4 ∨ 6 < link % 16) ∧ Held (.meshPacketArrival dt link k) dt (fun s => headPacket s link (execMeshPacketArrival.meshClass k) = some (p, rest)
      && servedClass s (nextLink p) = some (execMeshPacketArrival.meshClass k)) s :=
  ⟨0, 2048, .bulk, { packet0 with link := 2048, dest := 131 }, [], inBn (fun b => { b with packets := [{ packet0 with link := 2048, dest := 131 }] }) up, by decide, by decide⟩

set_option maxRecDepth 8000 in
theorem test_mesh_events_act_1 : ∃ dt link k p rest s, (link % 16 < 4 ∨ 6 < link % 16) ∧ Held (.meshPacketArrival dt link k) dt (fun s => headPacket s link (execMeshPacketArrival.meshClass k) = some (p, rest)
      && servedClass s (nextLink p) ≠ some (execMeshPacketArrival.meshClass k)) s :=
  ⟨0, 2048, .bulk, { packet0 with link := 2048, dest := 131 }, [], modLink 1793 .bulk (fun l => { l with credits := 0 }) (inBn (fun b => { b with packets := [{ packet0 with link := 2048, dest := 131 }] }) up), by decide, by decide⟩

set_option maxRecDepth 8000 in
theorem test_mesh_events_act_6 : ∃ dt link k s, Held (.creditReturn dt link k) dt (fun s => 0 < (linkOf s link (execMeshPacketArrival.meshClass k)).freed
      && !withholdsCredit s link (execMeshPacketArrival.meshClass k)) s :=
  ⟨0, 3, .bulk, modLink 3 .bulk (fun l => { l with freed := 1 }) up, by decide⟩

set_option maxRecDepth 8000 in
theorem test_mesh_events_act_8 : ∃ dt b p rest s, Held (.inboundWrite dt b) dt (fun s => inboundHead s b = some (p, rest) && !(landingBanks p.payload).any (inboundBarred (benchOf s b))) s :=
  ⟨0, 0, { packet0 with link := 4, payload := { addr := 0x90000000000 } }, [], inBn (fun b => { b with packets := [{ packet0 with link := 4, payload := { addr := 0x90000000000 } }] }) up, by decide⟩

set_option maxRecDepth 8000 in
theorem test_mesh_events_act_2 : ∃ dt link k p rest b s, link % 16 = 4 ∧ siteBench (link / 16) = some b ∧ Held (.meshPacketArrival dt link k) dt (fun s => headPacket s link (execMeshPacketArrival.meshClass k) = some (p, rest)) s :=
  ⟨0, 4, .bulk, { packet0 with link := 4, dest := 0 }, [], 0, inBn (fun b => { b with packets := [{ packet0 with link := 4, dest := 0 }] }) up, by decide, by decide, by decide⟩

set_option maxRecDepth 8000 in
theorem test_mesh_events_act_3 : ∃ dt link k p rest s, (link % 16 = 5 ∨ link % 16 = 6) ∧ p.payload.op = .carry none ∧ Held (.meshPacketArrival dt link k) dt (fun s => headPacket s link (execMeshPacketArrival.meshClass k) = some (p, rest)) s :=
  ⟨0, 5, .bulk, { packet0 with link := 5, dest := 0, payload := { op := .carry none } }, [], inBn (fun b => { b with packets := [{ packet0 with link := 5, dest := 0, payload := { op := .carry none } }] }) up, by decide, by decide, by decide⟩

set_option maxRecDepth 8000 in
theorem test_mesh_events_act_4 : ∃ dt link k p rest s, (link % 16 = 5 ∨ link % 16 = 6) ∧ p.payload.op ≠ .carry none ∧ p.payload.module = none ∧ Held (.meshPacketArrival dt link k) dt (fun s => headPacket s link (execMeshPacketArrival.meshClass k) = some (p, rest)) s :=
  ⟨0, 6, .bulk, { packet0 with link := 6 }, [], inBn (fun b => { b with packets := [{ packet0 with link := 6 }] }) up, by decide, by decide, by decide, by decide⟩

set_option maxRecDepth 8000 in
theorem test_mesh_events_act_7 : ∃ dt link k s, (link % 16 = 5 ∨ link % 16 = 6) ∧ Held (.creditReturn dt link k) dt (fun s => (execMeshPacketArrival.meshClass k = .request || execMeshPacketArrival.meshClass k = .bulk)
      && !portTagFree (yardOf s (linkYard link)) (linkPort link)) s :=
  ⟨0, 5, .bulk, inMem (fun m => { m with yards := [(0, { ports := [512, 0, 0, 0, 0] })] }) up, by decide, by decide⟩

set_option maxRecDepth 8000 in
theorem test_mesh_events_act_9 : ∃ dt b p rest s, Held (.inboundWrite dt b) dt (fun s => inboundHead s b = some (p, rest) && (landingBanks p.payload).any (inboundBarred (benchOf s b))) s :=
  ⟨0, 0, { packet0 with link := 4, payload := { addr := 0x90000000000, data := [1] } }, [], bench0 (fun x => { x with bankWait := [0], bankIn := [(0, 0)] }) (inBn (fun b => { b with packets := [{ packet0 with link := 4, payload := { addr := 0x90000000000, data := [1] } }] }) up), by decide⟩

set_option maxRecDepth 8000 in
theorem test_mesh_events_act_5 : ∃ dt link k p rest m s, (link % 16 = 5 ∨ link % 16 = 6) ∧ p.payload.op ≠ .carry none ∧ p.payload.module = some m ∧ Held (.meshPacketArrival dt link k) dt (fun s => headPacket s link (execMeshPacketArrival.meshClass k) = some (p, rest)) s :=
  ⟨0, 6, .bulk, { packet0 with link := 6, payload := { module := some 7 } }, [], 7, inBn (fun b => { b with packets := [{ packet0 with link := 6, payload := { module := some 7 } }] }) up, by decide, by decide, by decide, by decide⟩

set_option maxRecDepth 8000 in
theorem test_mesh_events_act_10 : ∃ b y s k, k ∈ landingBanks y ∧ (benchOf s b).bankWait.contains k = true :=
  ⟨0, { addr := 0x90000000000, data := [1] }, bench0 (fun x => { x with bankWait := [0] }) up, 0, by decide, by decide⟩

set_option maxRecDepth 8000 in
theorem test_memory_commands_complete_0 : ∃ h g s, Met (.memGetState h g) h { op := 0x0360, who := who0Own, reads := true } (fun _ _ => g < 16) s :=
  ⟨hd 0, 3, up, met (by decide)⟩

set_option maxRecDepth 8000 in
theorem test_memory_commands_complete_1 : ∃ h g mask s c s', Taken h { op := 0x0361, who := who0Own, ctx := groupCtx s g, conf := true } s c s' ∧ g < 16 ∧ mask < 16 ∧ yardState s' g = 1 ∧ ((List.range 4).all fun q => !bitOf (yardOf s' g).slab q || bitOf mask q || !quarterInUse s' g q) = true :=
  ⟨(hd 0), (3), (5), (up), (callAt (hd 0) { op := 0x0361, who := who0Own, ctx := groupCtx (up) (3), conf := true } (up)), (stateAt (hd 0) { op := 0x0361, who := who0Own, ctx := groupCtx (up) (3), conf := true } (up)), taken (by decide), by decide, by decide, by decide, by decide⟩

set_option maxRecDepth 8000 in
theorem test_memory_commands_complete_2 : ∃ h g n s, Met (.memSetScrub h (some g) n) h { op := 0x0362, who := who0Admin } (fun _ _ => 1 ≤ n && n ≤ 168 && g < 16) s :=
  ⟨hd 0, 3, 168, up, met (by decide)⟩

set_option maxRecDepth 8000 in
theorem test_memory_commands_complete_3 : ∃ h n s, Met (.memSetScrub h none n) h { op := 0x0362, who := who0Admin } (fun _ _ => 1 ≤ n && n ≤ 168) s :=
  ⟨hd 0, 1, up, met (by decide)⟩

set_option maxRecDepth 8000 in
theorem test_memory_commands_complete_4 : ∃ h g s c s', Taken h { op := 0x0363, who := who0Own, ctx := groupCtx s g, conf := true, reads := true } s c s' ∧ g < 16 :=
  ⟨(hd 0), (3), (up), (callAt (hd 0) { op := 0x0363, who := who0Own, ctx := groupCtx (up) (3), conf := true, reads := true } (up)), (stateAt (hd 0) { op := 0x0363, who := who0Own, ctx := groupCtx (up) (3), conf := true, reads := true } (up)), taken (by decide), by decide⟩

set_option maxRecDepth 8000 in
theorem test_memory_commands_complete_5 : ∃ h a d x g s, windowOf a = .lpddr g ∧ a % 16 = 0 ∧ d < 2 ^ 128 ∧ x < 65536 ∧ Met (.memInject h a d x) h { op := 0x0364, who := who0 } (fun _ s => (addrOwner s a).elim true (fun c => !isConf s c) && !groupExcluded s g) s :=
  ⟨hd 0, 32, 1, 65535, 0, up, by decide, by decide, by decide, by decide, met (by decide)⟩

set_option maxRecDepth 8000 in
theorem test_bar4_accesses_0 : ∃ dt vf off len t s, Held (.bar4Read dt vf off len t) dt (fun s => bar4Open s vf && !ideRefused s vf t && off + len ≤ 0x10000000000 && lotPasses s (vf - 1) off len .r true) s :=
  ⟨0, 1, 16, 4, true, upCtx, by decide⟩

set_option maxRecDepth 8000 in
theorem test_bar4_accesses_1 : ∃ dt vf off len t s, Held (.bar4Read dt vf off len t) dt (fun s => bar4Open s vf && !ideRefused s vf t && !lotPasses s (vf - 1) off len .r true) s :=
  ⟨0, 1, 0x8000000000, 4, true, upCtx, by decide⟩

set_option maxRecDepth 8000 in
theorem test_bar4_accesses_2 : ∃ dt vf off data t s, Held (.bar4Write dt vf off data t) dt (fun s => bar4Open s vf && !ideRefused s vf t && off + data.length ≤ 0x10000000000
      && lotPasses s (vf - 1) off data.length .w true) s :=
  ⟨0, 1, 16, [1, 2], true, upCtx, by decide⟩

set_option maxRecDepth 8000 in
theorem test_bar4_accesses_3 : ∃ dt vf off data t s, Held (.bar4Write dt vf off data t) dt (fun s => bar4Open s vf && !ideRefused s vf t && !lotPasses s (vf - 1) off data.length .w true) s :=
  ⟨0, 1, 0x1000000, [1], true, upCtx, by decide⟩

set_option maxRecDepth 8000 in
theorem test_memory_events_act_0 : ∃ dt p s, p < 36 ∧ Held (.mr4Report dt p 3) dt (fun s => tget s.mem.mr4 p 0 ≠ 3) s :=
  ⟨0, 35, up, by decide, by decide⟩

set_option maxRecDepth 8000 in
theorem test_memory_events_act_1 : ∃ dt p r s, p < 36 ∧ r < 3 ∧ Held (.mr4Report dt p r) dt (fun s => r ≤ tget s.mem.mr4 p 0) s :=
  ⟨0, 35, 2, inMem (fun m => { m with mr4 := [(35, 3)] }) up, by decide, by decide, by decide⟩

set_option maxRecDepth 8000 in
theorem test_memory_events_act_2 : ∃ dt g s, Held (.scrubBurst dt g) dt (fun s => g < 16 && groupState s g = 3) s :=
  ⟨0, 15, up, by decide⟩

set_option maxRecDepth 8000 in
theorem test_memory_events_act_3 : ∃ dt g p s, Held (.prefetchFillStart dt g) dt (fun s => firstDue (yardOf s g).prefetches = some p && !fillDue s g p.due) s :=
  ⟨0, 3, ⟨0, Config.fillLatency 3 0 + 1⟩, inMem (fun m => { m with yards := [(3, { prefetches := [⟨0, Config.fillLatency 3 0 + 1⟩], tags := 1 })] }) up, by
    have h : (advance 0 (inMem (fun m => { m with yards := [(3, { prefetches := [⟨0, Config.fillLatency 3 0 + 1⟩], tags := 1 })] }) up)).time.t = 0 := rfl
    have e : (yardOf (advance 0 (inMem (fun m => { m with yards := [(3, { prefetches := [⟨0, Config.fillLatency 3 0 + 1⟩], tags := 1 })] }) up)) 3).prefetches
      = [⟨0, Config.fillLatency 3 0 + 1⟩] := rfl
    simp [Held, e, h, firstDue, fillDue]⟩

set_option maxRecDepth 8000 in
theorem test_memory_events_act_5 : ∃ dt g l d s, Held (.prefetchPinExpiry dt g) dt (fun s => decide (l ∈ (yardOf s g).lines) && l.due = some d && d + 20000 ≤ s.time.t) s :=
  ⟨5, 3, ⟨0, 0, 0, false, some 0⟩, 0, inMem (fun m => { m with yards := [(3, { lines := [⟨0, 0, 0, false, some 0⟩] })] }) (inTime (fun t => { t with t := 20000 }) up), by decide⟩

set_option maxRecDepth 8000 in
theorem test_memory_events_act_4 : ∃ dt g p s, Held (.prefetchFillStart dt g) dt (fun s => firstDue (yardOf s g).prefetches = some p && fillDue s g p.due) s :=
  ⟨0, 3, ⟨0, 0⟩, inMem (fun m => { m with yards := [(3, { prefetches := [⟨0, 0⟩], tags := 1 })] }) up, by decide⟩

set_option maxRecDepth 8000 in
theorem test_operators_complete_0 : ∃ h c slot mask ra pa x s, Met (.oprPlan h c slot mask ra pa x) h { op := 0x0410, who := whoCtx, ctx := some c, conf := true } (fun k s => c < 16 && slot < 4 && mask ≠ 0 && mask < 2 ^ 63 && !confMask s k.mb mask && ctxDefined s c) s :=
  ⟨hd 0, 0, 0, 1, 0, 0, ⟨[], [], [], 0⟩, upCtx, met (by decide)⟩

set_option maxRecDepth 8000 in
theorem test_operators_complete_1 : ∃ h c plans s c' s', Taken h { op := 0x0411, who := whoCtx, ctx := some c, conf := true } s c' s' ∧ c < 16 ∧ plans ≠ [] ∧ plans.length ≤ 64 ∧ ctxDefined s' c = true ∧ (plans.filterMap (planAt s' c)).length = plans.length ∧ runRefused s' c (plans.filterMap (planAt s' c)) = none :=
  ⟨(hd 0), (0), ([0]), (inMem (fun m => { m with bytes := [cell 0 1] }) (inOpr (fun o => { o with plans := [(0, some plan0)] }) upCtx)), (callAt (hd 0) { op := 0x0411, who := whoCtx, ctx := some (0), conf := true } (inMem (fun m => { m with bytes := [cell 0 1] }) (inOpr (fun o => { o with plans := [(0, some plan0)] }) upCtx))), (stateAt (hd 0) { op := 0x0411, who := whoCtx, ctx := some (0), conf := true } (inMem (fun m => { m with bytes := [cell 0 1] }) (inOpr (fun o => { o with plans := [(0, some plan0)] }) upCtx))), taken (by decide), by decide, by decide, by decide, by decide, by decide, by decide⟩

set_option maxRecDepth 8000 in
theorem test_operators_complete_2 : ∃ h c id s, Met (.oprUntrigger h c id) h { op := 0x0412, who := whoCtx, ctx := some c, conf := true } (fun _ s => c < 16 && ctxDefined s c && s.opr.triggers.any fun t => t.id = id && t.ctx = c && !t.ending) s :=
  ⟨hd 0, 0, 6, inOpr (fun o => { o with triggers := [⟨6, 0, 0, [], 0, 16, none, 0, 0, 0, 0, false⟩] }) upCtx, met (by decide)⟩

set_option maxRecDepth 8000 in
theorem test_operators_complete_3 : ∃ h c s, Met (.oprStatus h c) h { op := 0x0413, who := whoCtx, ctx := some c, conf := true, reads := true } (fun _ s => c < 16 && ctxDefined s c) s :=
  ⟨hd 0, 0, upCtx, met (by decide)⟩

set_option maxRecDepth 8000 in
theorem test_operators_complete_4 : ∃ dt id y rest st reason s, y.refusal = some (st, reason) ∧ Held (.oprPlanDone dt id) dt (fun s => takeFirst (fun y => y.id = id) s.opr.planning = some (y, rest)) s :=
  ⟨0, 5, ⟨5, 0, 0, none, some (.denied, 0x22), [], false⟩, [], .denied, 0x22, inOpr (fun o => { o with planning := [⟨5, 0, 0, none, some (.denied, 0x22), [], false⟩] }) upCtx, by decide, by decide⟩

set_option maxRecDepth 8000 in
theorem test_operators_complete_5 : ∃ dt id y rest p s, y.plan = some p ∧ y.refusal = none ∧ Held (.oprPlanDone dt id) dt (fun s => takeFirst (fun y => y.id = id) s.opr.planning = some (y, rest) && ctxDefined s y.ctx && (ctxOf s y.ctx).state ≠ .destroying) s :=
  ⟨0, 5, ⟨5, 0, 0, some plan0, none, [], false⟩, [], plan0, inOpr (fun o => { o with planning := [⟨5, 0, 0, some plan0, none, [], false⟩] }) upCtx, by decide, by decide, by decide⟩

set_option maxRecDepth 8000 in
theorem test_operators_complete_6 : ∃ dt id x p s, Held (.chainStageEnd dt id none) dt (fun s => (s.opr.chains.find? fun x => x.id = id) = some x && x.plans[x.ends.length]? = some p && !nonResident s x.ctx && x.run ≠ 0
      && !runPending s x.run) s :=
  ⟨0, 3, chain0, plan0, inOpr (fun o => { o with chains := [chain0] }) upCtx, by decide⟩

set_option maxRecDepth 8000 in
theorem test_request_commands_complete_0 : ∃ h c p m s, Met (.reqAdmit h c p) h (serveSpec 0x0500 c false false) (fun call s => s.red.drain = .none && servesNow s c && !restartable s c && (funcOf s (fidContext c)).state = .running
      && p.priority < 8 && modelOf s c p.model = some m && m.rec_.role = 1 && !(freeEntries s c).isEmpty
      && (freeEntries s c).all fun x => (admitRefused s c x p call.stamp m).isNone
      && !(m.att.mask = 3 && (serveOf s c).pool.maskLot ≠ 0 && rangeBad s ((serveOf s c).pool.maskLot + 64 * x) 4)) s :=
  ⟨hd 0, 0, admit0, model0, upServe, met (by decide)⟩

set_option maxRecDepth 8000 in
theorem test_request_commands_complete_1 : ∃ h c x s, Met (.reqCancel h c x) h (serveSpec 0x0501 c false false) (fun _ s => servesNow s c && inSlice s c x && (reqOf s x).state ≠ .free && (reqOf s x).state ≠ .done && (reqOf s x).state ≠ .cancelled) s :=
  ⟨hd 0, 0, 0, asking id upServe, met (by decide)⟩

set_option maxRecDepth 8000 in
theorem test_request_commands_complete_2 : ∃ h c x n s, Met (.reqUpdate h c x (some n) none) h (serveSpec 0x0502 c false false) (fun _ s => servesNow s c && inSlice s c x && (reqOf s x).state ≠ .free && n < 8) s :=
  ⟨hd 0, 0, 0, 7, asking id upServe, met (by decide)⟩

set_option maxRecDepth 8000 in
theorem test_request_commands_complete_3 : ∃ h c x s, Met (.reqGet h c x) h (serveSpec 0x0503 c false true) (fun _ s => ctxDefined s c && inSlice s c x) s :=
  ⟨hd 0, 0, 63, upServe, met (by decide)⟩

set_option maxRecDepth 8000 in
theorem test_request_commands_complete_4 : ∃ h c s, Met (.reqGetStats h c) h (serveSpec 0x0514 c false true) (fun _ s => ctxDefined s c) s :=
  ⟨hd 0, 0, upServe, met (by decide)⟩

set_option maxRecDepth 8000 in
theorem test_serving_settings_complete_0 : ∃ h c r s, Met (.reqModelSet h c r) h (serveSpec 0x0510 c true false) (fun call s => (!isConf s c || r.role = 0 || (ctxOf s c).unsealed.contains r.weights) && ctxStageable c call s) s :=
  ⟨hd 0, 0, modelRec0, hold (fidContext 0) 0 upCtx, met (by decide)⟩

set_option maxRecDepth 8000 in
theorem test_serving_settings_complete_1 : ∃ h c d k g s, Met (.reqSetPolicy h c d k g) h (serveSpec 0x0511 c false false) (fun _ s => ctxDefined s c && d < 256 && k ≤ 8 && 1 ≤ g && g ≤ 8) s :=
  ⟨hd 0, 0, 255, 8, 8, upCtx, met (by decide)⟩

set_option maxRecDepth 8000 in
theorem test_serving_settings_complete_2 : ∃ h c n tokens seqs s, Met (.reqStopSet h c n tokens seqs) h (serveSpec 0x0512 c false false) (fun _ s => servesNow s c && n < 256 && tokens.length ≤ 32 && seqs.length ≤ 4 && seqs.all (fun q => 2 ≤ q.length && q.length ≤ 8)
      && !(liveReqs s c).any fun q => q.2.stopSet = n) s :=
  ⟨hd 0, 0, 255, [1], [[1, 2]], upCtx, met (by decide)⟩

set_option maxRecDepth 8000 in
theorem test_serving_settings_complete_3 : ∃ h c p s, p.kind ≠ 0 ∧ Met (.reqRingSet h c p) h (serveSpec 0x0513 c false false) (fun _ s => servesNow s c && ringParOk s c p && (ringBound s c p.ring).isNone) s :=
  ⟨hd 0, 0, ringPar0, upCtx, by decide, met (by decide)⟩

set_option maxRecDepth 8000 in
theorem test_serving_settings_complete_5 : ∃ h c n p s, Met (.smpSet h c n p) h (serveSpec 0x0520 c false false) (fun _ s => servesNow s c && n < 4096 && samplerOk p && !hasLive s c
      && (p.biasCount = 0 || (lotHas s c p.biasAddr (8 * p.biasCount) lotRead && !rangeBad s p.biasAddr (8 * p.biasCount)))) s :=
  ⟨hd 0, 0, 4095, samplerPar0, upServe, met (by decide)⟩

set_option maxRecDepth 8000 in
theorem test_serving_settings_complete_6 : ∃ h c n p s, Met (.smpSet h c n p) h (serveSpec 0x0520 c false false) (fun _ s => servesNow s c && n < 4096 && samplerOk p && hasLive s c
      && (p.biasCount = 0 || (lotHas s c p.biasAddr (8 * p.biasCount) lotRead && !rangeBad s p.biasAddr (8 * p.biasCount)))) s :=
  ⟨hd 0, 0, 4095, samplerPar0, asking id upServe, met (by decide)⟩

set_option maxRecDepth 8000 in
theorem test_serving_settings_complete_7 : ∃ h c n v s, Met (.smpGet h c n) h (serveSpec 0x0521 c false true) (fun _ s => ctxDefined s c && tget (serveOf s c).samplers n none = some v) s :=
  ⟨hd 0, 0, 0, ⟨samplerPar0, []⟩, upServe, met (by decide)⟩

set_option maxRecDepth 8000 in
theorem test_serving_settings_complete_8 : ∃ h c p s, Met (.kvPoolSet h c p) h (serveSpec 0x0580 c true false) (fun call s => !p.lots.isEmpty && p.lots.length ≤ 16 && 8192 ≤ p.split && p.split ≤ 1048576 && ctxStageable c call s) s :=
  ⟨hd 0, 0, ⟨[0], false, 8192, 0, 0, 0, 0⟩, hold (fidContext 0) 0 upCtx, met (by decide)⟩

set_option maxRecDepth 8000 in
theorem test_serving_settings_complete_9 : ∃ h c s, Met (.kvPoolGet h c) h (serveSpec 0x0581 c false true) (fun _ s => ctxDefined s c) s :=
  ⟨hd 0, 0, upServe, met (by decide)⟩

set_option maxRecDepth 8000 in
theorem test_serving_settings_complete_10 : ∃ h c b s, Met (.kvSetPolicy h c b) h { serveSpec 0x0582 c false false with conf := false } (fun k s => ctxDefined s c && !(tdiLocked s c && !speaksFor s k.mb c)) s :=
  ⟨hd 0, 0, true, upCtx, met (by decide)⟩

set_option maxRecDepth 8000 in
theorem test_serving_settings_complete_11 : ∃ h c cuts s, Met (.attSetBuckets h c cuts) h (serveSpec 0x0583 c true false) (fun call s => cuts.length = 7 && ctxStageable c call s) s :=
  ⟨hd 0, 0, [1, 2, 3, 4, 5, 6, 7], hold (fidContext 0) 0 upCtx, met (by decide)⟩

set_option maxRecDepth 8000 in
theorem test_serving_settings_complete_12 : ∃ h c x dest s, Met (.kvReadList h c x dest) h (serveSpec 0x0584 c false false) (fun _ s => ctxDefined s c && inSlice s c x && (reqOf s x).state ≠ .free
      && lotHas s c dest (listImage s c (reqOf s x) dest).1.length lotWrite
      && !(listScales s c (reqOf s x)).any fun a => rangeBad s a.1 a.2) s :=
  ⟨hd 0, 0, 0, 64, asking (fun r => { r with list := [3] }) upServe, met (by decide)⟩

set_option maxRecDepth 8000 in
theorem test_serving_settings_complete_4 : ∃ h c p x r q g s, Met (.reqRingSet h c p) h (serveSpec 0x0513 c false false) (fun _ s => servesNow s c && ringParOk s c p && ringBound s c p.ring = some (x, r) && (r.state = .done || r.state = .cancelled)
      && ((serveOf s c).pend.find? fun q => q.ring = p.ring && q.final) = some q && ringOf s c p.ring = some g && ringDead s c p.ring g) s :=
  ⟨hd 0, 0, ringPar0, 0, { req0 with state := .done }, ⟨0, 0, 0, default, true, .open_⟩, { par := { ringPar0 with kind := 2, addr := 7 * 2 ^ 44 } }, inNet (fun n => { n with peers := [{ module := 7, quarantineEnd := some 5 }] }) (asking (fun r => { r with state := .done }) (serving (fun y => { y with pend := [⟨0, 0, 0, default, true, .open_⟩], rings := [(0, some { par := { ringPar0 with kind := 2, addr := 7 * 2 ^ 44 } })] }) upCtx)), met (by decide)⟩

set_option maxRecDepth 8000 in
theorem test_veneers_complete_0 : ∃ h c p s, Met (.venLoad h c p) h (serveSpec 0x0600 c false false) (fun _ s => servesNow s c && packageOk s c p && (modelOf s c p.model).isSome && !rangeBad s p.addr 128 && (packHeader s p.addr).1 = 1
      && (packHeader s p.addr).2.1 ≠ 0 && 1 ≤ (packHeader s p.addr).2.2.2 && (packHeader s p.addr).2.2.2 ≤ 256
      && (liveSlot s c (packHeader s p.addr).2.1).isNone && !(freeSlots s).isEmpty && slotsHeld s c < (ctxOf s c).quota) s :=
  ⟨hd 0, 0, ⟨1, 0, 128⟩, withPackage upServe, met (by decide)⟩

set_option maxRecDepth 8000 in
theorem test_veneers_complete_1 : ∃ h c p o s, Met (.venReplace h c p) h (serveSpec 0x0601 c false false) (fun _ s => servesNow s c && packageOk s c p && (modelOf s c p.model).isSome && !rangeBad s p.addr 128 && (packHeader s p.addr).1 = 1
      && (packHeader s p.addr).2.1 ≠ 0 && 1 ≤ (packHeader s p.addr).2.2.2 && (packHeader s p.addr).2.2.2 ≤ 256
      && liveSlot s c (packHeader s p.addr).2.1 = some o && o.2.version < (packHeader s p.addr).2.2.1
      && !(freeSlots s).isEmpty && slotsHeld s c < (ctxOf s c).quota) s :=
  ⟨hd 0, 0, ⟨1, 0, 128⟩, (7, { state := .live, name := 5, version := 1 }), veneer { state := .live, name := 5, version := 1 } (withPackage upServe), met (by decide)⟩

set_option maxRecDepth 8000 in
theorem test_veneers_complete_2 : ∃ h c slot s, Met (.venUnload h c slot) h (serveSpec 0x0602 c false false) (fun _ s => servesNow s c && slot < 1024 && (venOf s slot).owner = c && (venOf s slot).state = .live
      && veneerRefs s slot (venOf s slot).version = 0) s :=
  ⟨hd 0, 0, 7, veneer { state := .live, name := 5, version := 1 } upServe, met (by decide)⟩

set_option maxRecDepth 8000 in
theorem test_veneers_complete_3 : ∃ h c s, Met (.venGet h c) h (serveSpec 0x0603 c false true) (fun _ s => servesNow s c) s :=
  ⟨hd 0, 0, upServe, met (by decide)⟩

set_option maxRecDepth 8000 in
theorem test_veneers_complete_4 : ∃ h c model rank desc lot s, Met (.venTrainBegin h c none model rank desc lot) h (serveSpec 0x0610 c false false) (fun _ s => servesNow s c && ((ctxOf s c).lots.any fun e => lotValid e.2 && lotBase e.2 = lot && lotRead e.2 && lotWrite e.2)
      && lotHas s c desc 1 lotRead && (modelOf s c model).isSome && 1 ≤ rank && rank ≤ 256 && !(freeSlots s).isEmpty
      && slotsHeld s c < (ctxOf s c).quota) s :=
  ⟨hd 0, 0, 1, 256, 0, 0, upServe, met (by decide)⟩

set_option maxRecDepth 8000 in
theorem test_veneers_complete_5 : ∃ h c slot batch s, Met (.venTrainStep h c slot batch) h (serveSpec 0x0611 c false false) (fun _ s => servesNow s c && slot < 1024 && (venOf s slot).owner = c && (venOf s slot).state = .training && !(venOf s slot).trains
      && lotHas s c batch 1 lotRead) s :=
  ⟨hd 0, 0, 7, 0, veneer { state := .training } upServe, met (by decide)⟩

set_option maxRecDepth 8000 in
theorem test_veneers_complete_6 : ∃ h c slot name version s, Met (.venPublish h c slot name version) h (serveSpec 0x0612 c false false) (fun _ s => servesNow s c && slot < 1024 && (venOf s slot).owner = c && name ≠ 0 && (venOf s slot).state = .training
      && !(venOf s slot).trains && !((serveOf s c).training.any fun t => t.2 = slot) && ((liveSlot s c name).elim true fun o => o.2.version < version)) s :=
  ⟨hd 0, 0, 7, 5, 1, veneer { state := .training } upServe, met (by decide)⟩

set_option maxRecDepth 8000 in
theorem test_veneers_complete_7 : ∃ dt slot s, Held (.veneerLoadDone dt slot) dt (fun s => (venOf s slot).trains && rspRoom s .venLoad slot
      && ((venOf s slot).len = 0 || !rangeBad s (venOf s slot).addr (venOf s slot).len)) s :=
  ⟨0, 7, veneer { state := .loading, trains := true } up, by decide⟩

set_option maxRecDepth 8000 in
theorem test_veneers_complete_8 : ∃ dt slot s, Held (.veneerLoadDone dt slot) dt (fun s => (venOf s slot).state = .loading && !(venOf s slot).trains && rspRoom s .venLoad slot && (venOf s slot).len ≠ 0
      && !rangeBad s (venOf s slot).addr (venOf s slot).len) s :=
  ⟨0, 7, veneer { state := .loading, len := 16 } up, by decide⟩

set_option maxRecDepth 8000 in
theorem test_veneers_complete_9 : ∃ dt slot s, Held (.veneerLoadDone dt slot) dt (fun s => !rspRoom s .venLoad slot) s :=
  ⟨0, 7, modMbx 0 (fun b => { b with waiting := [default] }) (doing .venLoad 7 up), by decide⟩

set_option maxRecDepth 8000 in
theorem test_veneers_complete_10 : ∃ dt slot s, Held (.veneerLoadDone dt slot) dt (fun s => ((venOf s slot).state = .loading || (venOf s slot).trains) && rspRoom s .venLoad slot && (venOf s slot).len ≠ 0 && rangeBad s (venOf s slot).addr (venOf s slot).len) s :=
  ⟨0, 7, veneer { state := .loading, len := 16 } (inject 0 (1 + 2 ^ 40) 0 up), by decide⟩

set_option maxRecDepth 8000 in
theorem test_serving_events_act_0 : ∃ dt n v c r s, r.par.kind = 1 ∧ Held (.reqRingConsWrite dt 0 n v false) dt (fun s => s.tray.linkUp && ringCtx s n = some c && !isConf s c && ringOf s c n = some r) s :=
  ⟨0, 0, 1, 0, { par := ringPar0, prod := 2 }, serving (fun y => { y with rings := [(0, some { par := ringPar0, prod := 2 })] }) upCtx, by decide, by decide⟩

set_option maxRecDepth 8000 in
theorem test_serving_events_act_1 : ∃ dt c outs work p s, p.kind ≠ .training ∧ Held (.stepEnd dt c outs .ok work) dt (fun s =>
      let w := workDone c p work.att .ok (stepOver c p s)
      (serveOf s c).step = some p && p.fault.isNone && w.1 = .ok && !(stepHist p w.2).any fun a => rangeBad w.2 a.1 a.2) s :=
  ⟨0, 0, [], {}, { kind := .decode, model := 1, items := [], startNs := 0 }, serving (fun y => { y with step := some { kind := .decode, model := 1, items := [], startNs := 0 } }) upCtx, by decide, by decide⟩

set_option maxRecDepth 8000 in
theorem test_serving_events_act_6 : ∃ dt c tails s, Held (.stepBoundary dt c tails) dt (fun s => (serveOf s c).boundaryDue && boundaryFirst s c) s :=
  ⟨0, 0, [], serving (fun y => { y with boundaryDue := true }) upCtx, by decide⟩

set_option maxRecDepth 8000 in
theorem test_serving_events_act_8 : ∃ dt c tails s, Held (.idleBoundaryTimer dt c tails) dt (fun s => hasLive s c && (serveOf s c).step.isNone && inTurn s c && (serveOf s c).boundaryNs + 1000000 ≤ now s) s :=
  ⟨1000000, 0, [], asking id upServe, by decide⟩

set_option maxRecDepth 8000 in
theorem test_serving_events_act_9 : ∃ dt c tails s, Held (.tableChangeBoundary dt c tails) dt (fun s => (serveOf s c).changed && (serveOf s c).step.isNone && inTurn s c) s :=
  ⟨0, 0, [], serving (fun y => { y with changed := true }) upCtx, by decide⟩

set_option maxRecDepth 8000 in
theorem test_serving_events_act_10 : ∃ dt id r s, Held (.runEnd dt id) dt (fun s => runOf s id = some r && (runOf (endRun id s) id).isNone) s :=
  ⟨0, 9, { run0 with live := [] }, inBn (fun b => { b with runs := [{ run0 with live := [] }] }) upCtx, by decide⟩

set_option maxRecDepth 8000 in
theorem test_serving_events_act_2 : ∃ dt c outs work p id slot rest s, p.kind = .training ∧ p.items = (id, slot) :: rest ∧ Held (.stepEnd dt c outs .ok work) dt (fun s => (serveOf s c).step = some p && p.fault.isNone && (workDone c p work.att .ok (stepOver c p s)).1 = .ok) s :=
  ⟨0, 0, [], {}, { kind := .training, model := 1, items := [(4, 7)], startNs := 0 }, 4, 7, [], serving (fun y => { y with step := some { kind := .training, model := 1, items := [(4, 7)], startNs := 0 } }) upCtx, rfl, rfl, by decide⟩

set_option maxRecDepth 8000 in
theorem test_serving_events_act_3 : ∃ dt c outs fate work p code addr s, p.kind ≠ .training ∧ Held (.stepEnd dt c outs fate work) dt (fun s => (serveOf s c).step = some p && (workDone c p work.att fate (stepOver c p s)).1 = .faulted code addr) s :=
  ⟨0, 0, [], .faulted 0x9101 5, {}, { kind := .decode, model := 1, items := [], startNs := 0 }, 0x9101, 5, serving (fun y => { y with step := some { kind := .decode, model := 1, items := [], startNs := 0 } }) upCtx, by decide, by decide⟩

set_option maxRecDepth 8000 in
theorem test_serving_events_act_7 : ∃ dt c tails s, Held (.stepBoundary dt c tails) dt (fun s => !(boundaryFirst s c)) s :=
  ⟨0, 1, [], inServe (fun x => { x with ctxs := [(0, { boundaryDue := true }), (1, { boundaryDue := true })] }) upCtx, by decide⟩

set_option maxRecDepth 8000 in
theorem test_serving_events_act_4 : ∃ dt c outs work p code s, p.kind ≠ .training ∧ p.fault = some code ∧ Held (.stepEnd dt c outs .ok work) dt (fun s => (serveOf s c).step = some p && (workDone c p work.att .ok (stepOver c p s)).1 = .ok) s :=
  ⟨0, 0, [], {}, { kind := .decode, model := 1, items := [], startNs := 0, fault := some 0x4104 }, 0x4104, serving (fun y => { y with step := some { kind := .decode, model := 1, items := [], startNs := 0, fault := some 0x4104 } }) upCtx, by decide, rfl, by decide⟩

set_option maxRecDepth 8000 in
theorem test_serving_events_act_5 : ∃ dt c outs work p a s, p.kind ≠ .training ∧ p.fault = none ∧ Held (.stepEnd dt c outs .ok work) dt (fun s =>
      let w := workDone c p work.att .ok (stepOver c p s)
      (serveOf s c).step = some p && w.1 = .ok && (stepHist p w.2).find? (fun a => rangeBad w.2 a.1 a.2) = some a) s :=
  ⟨0, 0, [], {}, { kind := .decode, model := 1, items := [(0, 0)], startNs := 0 }, (0, 16), serving (fun y => { y with step := some { kind := .decode, model := 1, items := [(0, 0)], startNs := 0 } }) (asking id (inject 0 (1 + 2 ^ 40) 0 upCtx)), by decide, rfl, by decide⟩

set_option maxRecDepth 8000 in
theorem test_network_commands_complete_0 : ∃ h s, Met (.netGetState h) h { op := 0x0700, who := whoAll, reads := true } anyCall s :=
  ⟨hd 0, upNet, met (by decide)⟩

set_option maxRecDepth 8000 in
theorem test_network_commands_complete_1 : ∃ h g mode s, Met (.netSetMode h g mode) h { op := 0x0701, who := who0Admin } (fun c s => g < 4 && mode < 4 && stageable (fidPort g) c s) s :=
  ⟨hd 0, 3, 3, hold (fidPort 3) 0 up, met (by decide)⟩

set_option maxRecDepth 8000 in
theorem test_network_commands_complete_2 : ∃ h g port p s, Met (.netSetPort h g port p) h { op := 0x0702, who := who0Admin } (fun c s => g ≤ 4 && port ≤ 32 && (p.maxData = 256 || p.maxData = 1024 || p.maxData = 4096) && p.len4 ≤ 32 && p.len6 ≤ 128
      && p.dscpCtl < 64 && p.dscpData < 64 && p.vlan.elim true (· < 4096) && stageable (fidPort g) c s) s :=
  ⟨hd 0, 4, 32, ⟨1, 32, 0, 0, 128, 0, some 4095, 9000, 1024, 63, 63⟩, hold (fidPort 4) 0 up, met (by decide)⟩

set_option maxRecDepth 8000 in
theorem test_network_commands_complete_3 : ∃ h g a b s, Met (.netSetPlan h g a b) h { op := 0x0703, who := who0Admin } (fun c s => g < 4 && stageable (fidPort g) c s) s :=
  ⟨hd 0, 0, 1, 2, hold (fidPort 0) 0 up, met (by decide)⟩

set_option maxRecDepth 8000 in
theorem test_network_commands_complete_4 : ∃ h g port s, Met (.netSetUdpPort h g port) h { op := 0x0704, who := who0Admin } (fun c s => g < 4 && 1024 ≤ port && port < 49152 && stageable (fidPort g) c s) s :=
  ⟨hd 0, 0, 49151, hold (fidPort 0) 0 up, met (by decide)⟩

set_option maxRecDepth 8000 in
theorem test_network_commands_complete_5 : ∃ h g port x k s, Met (.netAssign h g port x k) h { op := 0x0705, who := who0Admin } (fun c s => g < 4 && k < 65536 && stageable (fidPort g) c s) s :=
  ⟨hd 0, 0, 1, true, 65535, hold (fidPort 0) 0 up, met (by decide)⟩

set_option maxRecDepth 8000 in
theorem test_network_commands_complete_6 : ∃ h m s, Met (.netSetManager h m) h { op := 0x0706, who := who0Side } (fun _ s => flashUsable s && m ≤ 4094) s :=
  ⟨hd 0, 4094, up, met (by decide)⟩

set_option maxRecDepth 8000 in
theorem test_network_commands_complete_7 : ∃ h m s, Met (.netSetSister h m) h { op := 0x0707, who := who0Admin } (fun c s => stageable (fidPort 4) c s) s :=
  ⟨hd 0, 4, hold (fidPort 4) 0 up, met (by decide)⟩

set_option maxRecDepth 8000 in
theorem test_network_commands_complete_8 : ∃ h m addrs s, Met (.netPeerPin h m true addrs) h { op := 0x0708, who := who0Admin } (fun _ s => m ≤ 4094 && m ≠ moduleNo s && (peerOf s m).isNone && s.net.peers.length < 8192) s :=
  ⟨hd 0, 4094, [], up, met (by decide)⟩

set_option maxRecDepth 8000 in
theorem test_network_commands_complete_9 : ∃ h i s, Met (.netPeerGet h i) h { op := 0x0709, who := who0Side, reads := true } (fun _ _ => i < 8192) s :=
  ⟨hd 0, 8191, upNet, met (by decide)⟩

set_option maxRecDepth 8000 in
theorem test_network_commands_complete_10 : ∃ h c i s, Met (.netLaneGet h c i) h { op := 0x070A, who := who0Own, ctx := some c, conf := true, reads := true } (fun _ s => ctxDefined s c && i < 16384) s :=
  ⟨hd 0, 0, 16383, upNet, met (by decide)⟩

set_option maxRecDepth 8000 in
theorem test_network_commands_complete_11 : ∃ h c l s, Met (.xltGrantSet h c l) h { op := 0x070B, who := who0Own, ctx := some c, conf := true } (fun _ s => ctxDefined s c && l.length ≤ 64 && l.all (fun p => p.1 ≤ 4094 && p.2 ≤ 15) && (!isConf s c || (ctxOf s c).plainNet)) s :=
  ⟨hd 0, 0, [(4094, 15)], upNet, met (by decide)⟩

set_option maxRecDepth 8000 in
theorem test_network_commands_complete_12 : ∃ h c n s, Met (.xltSetLaneDepth h c n) h { op := 0x070C, who := who0Own, ctx := some c, conf := true } (fun _ s => ctxDefined s c && 16 ≤ n && n ≤ 512) s :=
  ⟨hd 0, 0, 512, upNet, met (by decide)⟩

set_option maxRecDepth 8000 in
theorem test_network_commands_complete_13 : ∃ h c g a s, Met (.xltCollSet h c g a) h { op := 0x070D, who := who0Own, ctx := some c, conf := true } (fun _ s => ctxDefined s c && g ≤ 31 && a % 8 = 0 && lotHas s c a 8 (fun e => lotWrite e && lotAtomic e && lotExport e)) s :=
  ⟨hd 0, 0, 31, 8, upNet, met (by decide)⟩

set_option maxRecDepth 8000 in
theorem test_network_commands_complete_14 : ∃ h m s, Met (.netUnquarantine h m) h { op := 0x070E, who := who0 } (fun _ s => (peerOf s m).isSome && peerQuarantined s m) s :=
  ⟨hd 0, 7, wired (fun n => { n with peers := [{ module := 7, quarantineEnd := some 9 }] }) up, met (by decide)⟩

set_option maxRecDepth 8000 in
theorem test_network_events_act_0 : ∃ dt port k s, Held (.frameDrop dt port k) dt (fun s => portState s port = .up) s :=
  ⟨0, 0, .badFcs, upNet, by decide⟩

set_option maxRecDepth 8000 in
theorem test_network_events_act_1 : ∃ dt port src s, Held (.xltMalformed dt port src) dt (fun s => (portTakes { blankMsg with port := port, srcM := src } s).1) s :=
  ⟨0, 0, 7, upNet, by decide⟩

set_option maxRecDepth 8000 in
theorem test_network_events_act_2 : ∃ dt s, Held (.ptpDelayReq dt) dt (fun s => portState s 32 = .up && s.time.ptp.mode = .boundary && s.time.ptp.port ≠ 32) s :=
  ⟨0, inTime (fun t => { t with ptp := { t.ptp with mode := .boundary } }) (wired (fun n => { n with ports := [(32, port0)] }) up), by decide⟩

set_option maxRecDepth 8000 in
theorem test_network_events_act_3 : ∃ dt s, Held (.ptpMasterSyncTimer dt) dt (fun s => s.time.ptp.mode = .boundary && s.time.ptp.port ≠ 32 && portState s 32 = .up && s.net.sisterSync + 125000000 ≤ now s) s :=
  ⟨125000000, inTime (fun t => { t with ptp := { t.ptp with mode := .boundary } }) (wired (fun n => { n with ports := [(32, port0)] }) up), by decide⟩

set_option maxRecDepth 8000 in
theorem test_network_events_act_4 : ∃ dt port s, Held (.portUp dt port) dt (fun s => portState s port = .down) s :=
  ⟨0, 0, wired (fun n => { n with ports := [] }) up, by decide⟩

set_option maxRecDepth 8000 in
theorem test_network_events_act_5 : ∃ dt port s, Held (.portDown dt port) dt (fun s => portState s port = .up) s :=
  ⟨0, 0, upNet, by decide⟩

set_option maxRecDepth 8000 in
theorem test_network_events_act_6 : ∃ dt s, Held (.announceTimer dt) dt (fun s => s.net.lastAnnounce + 10000000000 ≤ now s) s :=
  ⟨10000000000, upNet, by decide⟩

set_option maxRecDepth 8000 in
theorem test_network_events_act_7 : ∃ dt n e s, Held (.ackDelayTimer dt n) dt (fun s => (laneOf s n).ackDue = some e && e ≤ now s && (laneOf s n).state = .up) s :=
  ⟨5, 0, 5, wired (fun n => { n with lanes := [(0, { lane0 with ackDue := some 5 })] }) up, by decide⟩

set_option maxRecDepth 8000 in
theorem test_network_events_act_8 : ∃ dt n e s, Held (.retransmitTimeout dt n) dt (fun s => (laneOf s n).deadline = some e && e ≤ now s && (laneOf s n).state = .up && (laneOf s n).retries < 7) s :=
  ⟨5, 0, 5, wired (fun n => { n with lanes := [(0, { lane0 with deadline := some 5 })] }) up, by decide⟩

set_option maxRecDepth 8000 in
theorem test_network_events_act_9 : ∃ dt n s, Held (.laneProbeTimer dt n) dt (fun s => (laneOf s n).state = .down && (laneOf s n).probeAt ≤ now s) s :=
  ⟨0, 0, wired (fun n => { n with lanes := [(0, { lane0 with state := .down })] }) up, by decide⟩

set_option maxRecDepth 8000 in
theorem test_network_events_act_10 : ∃ dt m p e s, Held (.peerQuarantineExpiry dt m) dt (fun s => peerOf s m = some p && p.quarantineEnd = some e && e ≤ now s) s :=
  ⟨9, 7, { module := 7, quarantineEnd := some 9 }, 9, wired (fun n => { n with peers := [{ module := 7, quarantineEnd := some 9 }] }) up, by decide⟩

set_option maxRecDepth 8000 in
theorem test_network_events_act_11 : ∃ dt port len target sender s, Held (.arpRequest dt port len target sender) dt (fun s => portState s port = .up && (portOf s port).cfg.ip4 ≠ 0 && (portOf s port).cfg.ip4 = target) s :=
  ⟨0, 0, 60, 5, 6, wired (fun n => { n with ports := [(0, { port0 with cfg := { port0.cfg with ip4 := 5 } })] }) up, by decide⟩

set_option maxRecDepth 8000 in
theorem test_network_events_act_12 : ∃ dt port len target sender s, Held (.neighborSolicitation dt port len target sender true) dt (fun s => portState s port = .up && (portOf s port).cfg.ip6 ≠ 0 && (portOf s port).cfg.ip6 = target) s :=
  ⟨0, 0, 60, 5, 6, wired (fun n => { n with ports := [(0, { port0 with cfg := { port0.cfg with ip6 := 5 } })] }) up, by decide⟩

set_option maxRecDepth 8000 in
theorem test_network_events_act_13 : ∃ dt port len target sender data s, Held (.echoRequest dt port len false target sender data) dt (fun s => portState s port = .up && (portOf s port).cfg.ip4 ≠ 0 && (portOf s port).cfg.ip4 = target
      && ((portOf s port).echoTimes.filter fun t => now s < t + 1000000000).length < 100) s :=
  ⟨0, 0, 60, 5, 6, [], wired (fun n => { n with ports := [(0, { port0 with cfg := { port0.cfg with ip4 := 5 } })] }) up, by decide⟩

set_option maxRecDepth 8000 in
theorem test_module_messages_act_0 : ∃ dt m p s, Held (.helloAnnounce dt m p) dt (helloTaken m p) s :=
  ⟨0, from7, hello7, upNet, by decide⟩

set_option maxRecDepth 8000 in
theorem test_module_messages_act_1 : ∃ dt m p n s, Held (.helloOpen dt m p) dt (fun s => helloTaken m p s && findLane (helloState m p s) (if m.modlane then 0 else m.dstC) m.srcM (if m.modlane then 0 else m.srcC)
      m.port m.modlane = some n) s :=
  ⟨0, from7, hello7, 0, upNet, by decide⟩

set_option maxRecDepth 8000 in
theorem test_module_messages_act_2 : ∃ dt m s, Held (.helloOpenAck dt m) dt (fun s => msgTaken (noAck m) s && (laneOf (moduleState (noAck m) s) m.lane).peer = m.srcM && (laneOf (moduleState (noAck m) s) m.lane).state = .opening) s :=
  ⟨0, from7, wired (fun n => { n with lanes := [(0, { lane0 with state := .opening })] }) up, by decide⟩

set_option maxRecDepth 8000 in
theorem test_module_messages_act_3 : ∃ dt m s, Held (.helloClose dt m) dt (fun s => msgTaken (noAck m) s && (laneOf (moduleState (noAck m) s) m.lane).peer = m.srcM && (laneOf (moduleState (noAck m) s) m.lane).state ≠ .closed) s :=
  ⟨0, from7, upNet, by decide⟩

set_option maxRecDepth 8000 in
theorem test_module_messages_act_4 : ∃ dt m s, Held (.probeAck dt m) dt (msgTaken m) s :=
  ⟨0, from7, upNet, by decide⟩

set_option maxRecDepth 8000 in
theorem test_module_messages_act_5 : ∃ dt m s, Held (.probeEchoReq dt m) dt (msgTaken m) s :=
  ⟨0, from7, upNet, by decide⟩

set_option maxRecDepth 8000 in
theorem test_module_messages_act_6 : ∃ dt m s, Held (.probeEchoResp dt m) dt (msgTaken m) s :=
  ⟨0, from7, upNet, by decide⟩

set_option maxRecDepth 8000 in
theorem test_module_messages_act_7 : ∃ dt m s, Held (.nak dt m) dt (msgTaken (noAck m)) s :=
  ⟨0, from7, upNet, by decide⟩

set_option maxRecDepth 8000 in
theorem test_lane_messages_act_0 : ∃ dt m s, m.modlane = false ∧ Held (.dataWrite dt m) dt (fun s => laneTaken m .aligned true s && (remoteAllowed m (laneNext m s)).1.isNone
      && lotPasses (laneNext m s) m.dstC m.addr m.length .w true) s :=
  ⟨0, data16, upNet, by decide, by decide⟩

set_option maxRecDepth 8000 in
theorem test_lane_messages_act_1 : ∃ dt m s, Held (.dataRead dt m) dt (fun s => laneTaken m .none false s && (remoteAllowed m (laneNext m s)).1.isNone
      && lotPasses (laneNext m s) m.dstC m.addr m.length .r true) s :=
  ⟨0, { from7 with length := 16 }, upNet, by decide⟩

set_option maxRecDepth 8000 in
theorem test_lane_messages_act_2 : ∃ dt m s, Held (.readResp dt m) dt (laneTaken m .none true) s :=
  ⟨0, from7, upNet, by decide⟩

set_option maxRecDepth 8000 in
theorem test_lane_messages_act_3 : ∃ dt m s, m.op ≤ 6 ∧ (if m.op = 2 then m.length = 8 else m.length = 0) ∧ Held (.atomic dt m) dt (laneTaken m .none true) s :=
  ⟨0, { from7 with op := 2, length := 8, data := List.replicate 8 1 }, upNet, by decide, by decide, by decide⟩

set_option maxRecDepth 8000 in
theorem test_lane_messages_act_4 : ∃ dt m s, m.op % 8 ≤ 4 ∧ Held (.collective dt m) dt (laneTaken m .aligned true) s :=
  ⟨0, { data16 with op := 4 }, upNet, by decide, by decide⟩

set_option maxRecDepth 8000 in
theorem test_lane_messages_act_5 : ∃ dt m s, m.modlane = true ∧ m.length % 64 = 0 ∧ 1 ≤ m.length / 64 ∧ m.length / 64 ≤ 4 ∧ 17 ≤ m.addr % 256 ∧ m.addr % 256 ≤ 24 ∧ Held (.control dt m) dt (fun s => laneTaken m .none true s && ((mbxOf (laneNext m s) (m.addr % 256)).binding.elim false fun b => b.peer = m.srcM)
      && !quarantined (laneNext m s) (m.addr % 256) && !resetting (laneNext m s) (m.addr % 256)) s :=
  ⟨0, { from7 with modlane := true, length := 64, data := List.replicate 64 0, addr := 24 }, inSq (fun q => { q with mbx := [(24, { binding := some ⟨7, .admin⟩ })] }) (wired (fun n => { n with lanes := [(0, { lane0 with modlane := true })] }) up), by decide, by decide, by decide, by decide, by decide, by decide, by decide⟩

set_option maxRecDepth 8000 in
theorem test_shipments_act_0 : ∃ dt m p x h s, Held (.pageShipAnnounce dt m p) dt (fun s => msgTaken (noAck m) s && waitingFor (moduleState (noAck m) s) m = some x && shipOf (moduleState (noAck m) s) x = some h && h.accepted) s :=
  ⟨0, { from7 with operand := 3 }, announce0, 0, ship0 false true, awaiting (fun n => { n with ships := [ship0 false true] }), by decide⟩

set_option maxRecDepth 8000 in
theorem test_shipments_act_1 : ∃ dt m p x q u s, Held (.pageShipAnnounce dt m p) dt (fun s =>
      let v := moduleState (noAck m) s
      let r := reqOf v x
      msgTaken (noAck m) s && waitingFor v m = some x && (shipOf v x).isNone && modelOf v r.ctx r.model = some q
      && p.d = q.att.d && p.hb = q.att.hb && p.fmt = q.att.fmt && p.layers = q.att.layers
      && securePages r.ctx x (r.promptLen + 1) .inTransit 2048 v = some u) s := by
  refine ⟨0, { from7 with operand := 3 }, announce0, 0, model0, moduleState (noAck { from7 with operand := 3 }) (advance 0 (awaiting id)),
    awaiting id, ?_⟩
  show (_ && _) = true
  rw [Bool.and_eq_true]
  exact ⟨by decide, decide_eq_true rfl⟩

set_option maxRecDepth 8000 in
theorem test_shipments_act_2 : ∃ dt m h s, Held (.pageShipAccept dt m) dt (fun s => msgTaken (noAck m) s
      && ((moduleState (noAck m) s).net.ships.find? fun h => h.sender && h.peer = m.srcM && h.shipId = m.operand && !h.accepted) = some h) s :=
  ⟨0, { from7 with operand := 3 }, ship0 true false, awaiting (fun n => { n with ships := [ship0 true false] }), by decide⟩

set_option maxRecDepth 8000 in
theorem test_shipments_act_3 : ∃ dt m s, Held (.pageShipPage dt m) dt (laneTaken m .words true) s :=
  ⟨0, data16, upNet, by decide⟩

set_option maxRecDepth 8000 in
theorem test_shipments_act_4 : ∃ dt m s, Held (.pageShipScales dt m) dt (laneTaken m .words true) s :=
  ⟨0, data16, upNet, by decide⟩

set_option maxRecDepth 8000 in
theorem test_shipments_act_5 : ∃ dt m s, Held (.pageShipDoneAck dt m) dt (laneTaken m .none false) s :=
  ⟨0, from7, upNet, by decide⟩

set_option maxRecDepth 8000 in
theorem test_shipments_act_6 : ∃ dt x h s, Held (.shipAnnounceResend dt x) dt (fun s => shipOf s x = some h && h.sender && !h.accepted && h.lastResend + 1000000 ≤ now s && now s < h.announcedAt + 100000000) s :=
  ⟨1000000, 0, ship0 true false, awaiting (fun n => { n with ships := [ship0 true false] }), by decide⟩

set_option maxRecDepth 8000 in
theorem test_shipments_act_7 : ∃ dt x h s, Held (.shipPageTimeout dt x) dt (fun s => shipOf s x = some h && !h.sender && h.total < h.pages && h.lastPage + 100000000 ≤ now s) s :=
  ⟨100000000, 0, ship0 false true, awaiting (fun n => { n with ships := [ship0 false true] }), by decide⟩

set_option maxRecDepth 8000 in
theorem test_shipments_act_8 : ∃ dt x h e s, Held (.shipAckTimeout dt x) dt (fun s => shipOf s x = some h && h.sender && !pagesWait s h && h.sentAll = some e && e + 250000000 ≤ now s) s :=
  ⟨250000000, 0, { ship0 true true with sentAll := some 0 }, 0, awaiting (fun n => { n with ships := [{ ship0 true true with sentAll := some 0 }] }), by decide⟩

set_option maxRecDepth 8000 in
theorem test_video_commands_complete_0 : ∃ h p q s, Met (.vidDecOpen h p) h { op := 0x0800, who := who0Own } (fun c s => mayActFor s c.mb p.ctx && (!isConf s p.ctx || speaksFor s c.mb p.ctx) && (decOf s p.session).isNone && decFieldsOk p
      && decLotsOk s p && pickPipe s p.pipe 0 4 = some q && pipeTakes s q (p.maxW * p.maxH * p.rate)) s :=
  ⟨hd 0, decPar0, 0, upVid, met (by decide)⟩

set_option maxRecDepth 8000 in
theorem test_video_commands_complete_1 : ∃ h p q s, Met (.vidEncOpen h p) h { op := 0x0801, who := who0Own } (fun c s => mayActFor s c.mb p.ctx && (!isConf s p.ctx || speaksFor s c.mb p.ctx) && (encOf s p.session).isNone && encFieldsOk p
      && encLotsOk s p && pickPipe s p.pipe 4 2 = some q && pipeTakes s q (p.width * p.height * p.rate)) s :=
  ⟨hd 0, encPar0, 4, upVid, met (by decide)⟩

set_option maxRecDepth 8000 in
theorem test_video_commands_complete_2 : ∃ h enc i, ∃ drain : Bool, ∃ b s c s', Taken h { op := 0x0802, who := who0Own, ctx := vidCtx s enc i, conf := true } s c s' ∧ i < (if enc then 32 else 128) ∧ vidBase s' enc i = some b ∧ b.closing = false :=
  ⟨(hd 0), (false), (0), (true), (base0 false), (videoing false), (callAt (hd 0) { op := 0x0802, who := who0Own, ctx := vidCtx (videoing false) (false) (0), conf := true } (videoing false)), (stateAt (hd 0) { op := 0x0802, who := who0Own, ctx := vidCtx (videoing false) (false) (0), conf := true } (videoing false)), taken (by decide), by decide, by decide, by decide⟩

set_option maxRecDepth 8000 in
theorem test_video_commands_complete_3 : ∃ h i rc x s c s', Taken h { op := 0x0803, who := who0Own, ctx := vidCtx s true i, conf := true } s c s' ∧ i < 32 ∧ encOf s' i = some x ∧ quantOk x.par.codec x.par.depth rc = true :=
  ⟨(hd 0), (0), (⟨30, 30, 51, 600, 268435456⟩), (enc0 false), (videoing false), (callAt (hd 0) { op := 0x0803, who := who0Own, ctx := vidCtx (videoing false) true (0), conf := true } (videoing false)), (stateAt (hd 0) { op := 0x0803, who := who0Own, ctx := vidCtx (videoing false) true (0), conf := true } (videoing false)), taken (by decide), by decide, by decide, by decide⟩

set_option maxRecDepth 8000 in
theorem test_video_commands_complete_4 : ∃ h i x s c s', Taken h { op := 0x0804, who := who0Own, ctx := vidCtx s true i, conf := true } s c s' ∧ i < 32 ∧ encOf s' i = some x :=
  ⟨(hd 0), (0), (enc0 false), (videoing false), (callAt (hd 0) { op := 0x0804, who := who0Own, ctx := vidCtx (videoing false) true (0), conf := true } (videoing false)), (stateAt (hd 0) { op := 0x0804, who := who0Own, ctx := vidCtx (videoing false) true (0), conf := true } (videoing false)), taken (by decide), by decide, by decide⟩

set_option maxRecDepth 8000 in
theorem test_video_commands_complete_5 : ∃ h enc i s c s', Taken h { op := 0x0805, who := who0Own, ctx := vidCtx s enc i, conf := true, reads := true } s c s' ∧ i < (if enc then 32 else 128) :=
  ⟨(hd 0), (true), (31), (upVid), (callAt (hd 0) { op := 0x0805, who := who0Own, ctx := vidCtx (upVid) (true) (31), conf := true, reads := true } (upVid)), (stateAt (hd 0) { op := 0x0805, who := who0Own, ctx := vidCtx (upVid) (true) (31), conf := true, reads := true } (upVid)), taken (by decide), by decide⟩

set_option maxRecDepth 8000 in
theorem test_video_events_act_0 : ∃ dt enc i b s, Held (.inputPoll dt enc i) dt (fun s => vidBase s enc i = some b && !b.faulted && !b.closing && !b.busy) s :=
  ⟨0, true, 0, base0 false, videoing false, by decide⟩

set_option maxRecDepth 8000 in
theorem test_video_events_act_1 : ∃ dt i d last x s, Held (.pictureComplete dt i (.picture d last)) dt (fun s => decOf s i = some x && x.base.busy && !x.base.faulted
      && lotPasses s x.base.ctx (fieldAt (entryOf s false i) 0 8) (fieldAt (entryOf s false i) 8 4) .r false
      && pictureFits x.par d.pic.w d.pic.h d.pic.depth && (!d.shown || !x.par.wait || bufferFree s i x)) s :=
  ⟨0, 0, decoded0, true, dec0 true, videoing true, by decide⟩

set_option maxRecDepth 8000 in
theorem test_video_events_act_2 : ∃ dt i x s, Held (.pictureComplete dt i .syntaxError) dt (fun s => decOf s i = some x && x.base.busy && !x.base.faulted
      && lotPasses s x.base.ctx (fieldAt (entryOf s false i) 0 8) (fieldAt (entryOf s false i) 8 4) .r false) s :=
  ⟨0, 0, dec0 true, videoing true, by decide⟩

set_option maxRecDepth 8000 in
theorem test_video_events_act_3 : ∃ dt i x s, Held (.workBoundReached dt i) dt (fun s => decOf s i = some x && x.base.busy && !x.bound) s :=
  ⟨0, 0, dec0 true, videoing true, by decide⟩

set_option maxRecDepth 8000 in
theorem test_video_events_act_4 : ∃ dt i header rows bad x s, Held (.encodePictureDone dt i header rows bad) dt (fun s => encOf s i = some x && x.base.busy && !x.base.faulted
      && lotPasses s x.base.ctx (fieldAt (entryOf s true i) 0 8) (encInput x.par) .r false
      && !rangeBad s (fieldAt (entryOf s true i) 0 8) (encInput x.par) && !bad) s :=
  ⟨0, 0, [], [], false, enc0 true, videoing true, by decide⟩

set_option maxRecDepth 8000 in
theorem test_video_events_act_5 : ∃ dt i x s, Held (.parseWatchdog dt i) dt (fun s => decOf s i = some x && x.base.busy) s :=
  ⟨0, 0, dec0 true, videoing true, by decide⟩

set_option maxRecDepth 8000 in
theorem test_video_events_act_6 : ∃ dt core s, Held (.videoCoreUnresponsive dt core none) dt (fun s => s.vid.coreUp.getD core false) s :=
  ⟨0, 1, up, by decide⟩

set_option maxRecDepth 8000 in
theorem test_video_events_act_7 : ∃ dt core s, core < 2 ∧ Held (.videoCoreRestartDone dt core) dt always s :=
  ⟨0, 1, up, by decide, by decide⟩

set_option maxRecDepth 8000 in
theorem test_power_commands_complete_0 : ∃ h s, Met (.pwrGetState h) h { op := 0x0900, who := whoAll, reads := true } anyCall s :=
  ⟨hd 0, up, met (by decide)⟩

set_option maxRecDepth 8000 in
theorem test_power_commands_complete_1 : ∃ h w s, Met (.pwrSetLocalCap h w) h { op := 0x0901, who := who0Side } (fun _ s => flashUsable s && 200 ≤ w && w ≤ 750) s :=
  ⟨hd 0, 750, up, met (by decide)⟩

set_option maxRecDepth 8000 in
theorem test_power_commands_complete_2 : ∃ h w s, Met (.pwrSetLoneCap h w) h { op := 0x0902, who := who0Side } (fun _ s => flashUsable s && 200 ≤ w && w ≤ 750) s :=
  ⟨hd 0, 200, up, met (by decide)⟩

set_option maxRecDepth 8000 in
theorem test_power_commands_complete_3 : ∃ h w s, Met (.pwrCabCap h w) h { op := 0x0903, who := who0Side } anyCall s :=
  ⟨hd 0, 65535, up, met (by decide)⟩

set_option maxRecDepth 8000 in
theorem test_power_commands_complete_4 : ∃ h l s, Met (.pwrSetCeiling h l) h { op := 0x0904, who := who0Side } (fun _ s => flashUsable s && l ≤ 31) s :=
  ⟨hd 0, 31, up, met (by decide)⟩

set_option maxRecDepth 8000 in
theorem test_power_commands_complete_5 : ∃ h m s, Met (.pwrSetDroop h m) h { op := 0x0905, who := who0Side } (stageable fidPower) s :=
  ⟨hd 0, 15, hold fidPower 0 up, met (by decide)⟩

set_option maxRecDepth 8000 in
theorem test_power_commands_complete_6 : ∃ h l s, Met (.pwrSetConfLevels h l) h { op := 0x0906, who := who0Side } (stageable fidPower) s :=
  ⟨hd 0, [1, 2, 3, 4], hold fidPower 0 up, met (by decide)⟩

set_option maxRecDepth 8000 in
theorem test_power_commands_complete_7 : ∃ h s, Met (.pwrResume h) h { op := 0x0907, who := who0Side } (fun _ s => 5 ≤ aboveSeconds s && s.pwr.cool.stop) s :=
  ⟨{ hd 0 with dt := 5000000000 }, modCool (fun c => { c with above := some 0, stop := true }) up, met (by decide)⟩

set_option maxRecDepth 8000 in
theorem test_power_commands_complete_8 : ∃ h s, Met (.pwrClearLeak h) h { op := 0x0908, who := who0Side } (fun _ s => !s.pwr.cool.moist) s :=
  ⟨hd 0, up, met (by decide)⟩

set_option maxRecDepth 8000 in
theorem test_power_commands_complete_9 : ∃ h cfg s, Met (.paceGroupSet h cfg) h { op := 0x0910, who := who0Side } (stageable fidPace) s :=
  ⟨hd 0, paceCfg0, hold fidPace 0 up, met (by decide)⟩

set_option maxRecDepth 8000 in
theorem test_power_commands_complete_10 : ∃ h s, Met (.paceGroupGet h) h { op := 0x0911, who := whoAll, reads := true } anyCall s :=
  ⟨hd 0, up, met (by decide)⟩

set_option maxRecDepth 8000 in
theorem test_power_commands_complete_11 : ∃ h s, Met (.pwrGetEnergy h) h { op := 0x0912, who := whoAll, reads := true } anyCall s :=
  ⟨hd 0, up, met (by decide)⟩

set_option maxRecDepth 8000 in
theorem test_power_loops_act_0 : ∃ dt x s, Held (.inputSample dt x) dt (fun _ => x.reaches && 44000 ≤ x.mv && x.mv ≤ 60000 && x.bank < x.mv + 2000) s :=
  ⟨0, { mv := 60000, ma := 1, bank := 61999 }, up, by decide⟩

set_option maxRecDepth 8000 in
theorem test_power_loops_act_2 : ∃ dt t e s, Held (.supplyRecovered dt) dt (fun s => s.pwr.input.halt = some t && s.pwr.input.goodSince = some e && e + 1000000000 ≤ now s) s :=
  ⟨1000000000, 0, 0, modInput (fun i => { i with halt := some 0, goodSince := some 0 }) up, by decide⟩

set_option maxRecDepth 8000 in
theorem test_power_loops_act_3 : ∃ dt t s, Held (.supplyHalt100ms dt) dt (fun s => s.pwr.input.halt = some t && !s.pwr.input.released && t + 100000000 ≤ now s) s :=
  ⟨100000000, 0, modInput (fun i => { i with halt := some 0 }) up, by decide⟩

set_option maxRecDepth 8000 in
theorem test_power_loops_act_4 : ∃ dt s, Held (.measurementLoss dt) dt (fun s => !s.pwr.input.lost && s.pwr.input.sampleAt + 10000000 ≤ now s) s :=
  ⟨10000000, up, by decide⟩

set_option maxRecDepth 8000 in
theorem test_power_loops_act_5 : ∃ dt d s, Held (.estimatorTick dt d) dt fabricOn s :=
  ⟨0, 5, up, by decide⟩

set_option maxRecDepth 8000 in
theorem test_power_loops_act_6 : ∃ dt s, Held (.powerLoopTick dt) dt (fun s => fabricOn s && (loopStart s).pwr.pace.fell) s :=
  ⟨0, modPace (fun p => { p with ps := 750, sFit := some 100, kFit := some 1 }) up, by decide +kernel⟩

set_option maxRecDepth 8000 in
theorem test_power_loops_act_9 : ∃ dt s, Held (.paceTick dt) dt (fun s => fabricOn s && !(droopCheck (renewLimit s)).pwr.cool.stop && !supplyHalted (droopCheck (renewLimit s))
      && !paceHeld (droopCheck (renewLimit s)) && !confMode (droopCheck (renewLimit s))) s :=
  ⟨0, up, by decide +kernel⟩

set_option maxRecDepth 8000 in
theorem test_power_loops_act_10 : ∃ dt s, Held (.railLevelStep dt) dt (fun s => fabricOn s && s.pwr.pace.level ≠ s.pwr.pace.target && s.pwr.pace.stepAt + 1000 ≤ now s) s :=
  ⟨1000, modPace (fun p => { p with target := 3 }) up, by decide⟩

set_option maxRecDepth 8000 in
theorem test_power_loops_act_12 : ∃ dt s, Held (.deferredPaceIncrease dt) dt (fun s => s.pwr.pace.deferred && !droopRecent s && !paceHeld s && !confMode s && s.pwr.pace.target < (wantedLevel s).1) s :=
  ⟨0, modPace (fun p => { p with deferred := true, sFit := some 100, kFit := some 1 }) up, by decide +kernel⟩

set_option maxRecDepth 8000 in
theorem test_power_loops_act_13 : ∃ dt l t s, Held (.droopCeilingExpiry dt) dt (fun s => s.pwr.pace.droopCeil = some (l, t) && t ≤ now s) s :=
  ⟨5, 3, 5, modPace (fun p => { p with droopCeil := some (3, 5) }) up, by decide⟩

set_option maxRecDepth 8000 in
theorem test_power_loops_act_14 : ∃ dt s, Held (.calibrationFit dt) dt (fun s => fabricOn s && (powerHeld s || s.pwr.pace.periods.length < 199)) s :=
  ⟨0, up, by decide⟩

set_option maxRecDepth 8000 in
theorem test_power_loops_act_16 : ∃ dt s, s.time.t / 100000000 < (advance dt s).time.t / 100000000 ∧ confMode (advance dt s) = false :=
  ⟨100000000, up, by decide, by decide⟩

set_option maxRecDepth 8000 in
theorem test_power_loops_act_17 : ∃ dt s, Held (.capHeartbeatTimeout dt) dt (fun s => !s.pwr.pace.lone && !s.pwr.pace.hbHold && s.pwr.pace.hbAt + 500000000 ≤ now s) s :=
  ⟨500000000, modPace (fun p => { p with lone := false }) up, by decide⟩

set_option maxRecDepth 8000 in
theorem test_power_loops_act_18 : ∃ dt s, Held (.loneCapTimeout dt) dt (fun s => !s.pwr.pace.lone && s.pwr.pace.hbHold && s.pwr.pace.hbAt + 60500000000 ≤ now s) s :=
  ⟨60500000000, modPace (fun p => { p with lone := false, hbHold := true }) up, by decide⟩

set_option maxRecDepth 8000 in
theorem test_power_loops_act_20 : ∃ dt b v s, Held (.droopDetect dt b v) dt (fun s => fabricOn s && b < 252 && droopFires s v) s :=
  ⟨0, 251, 0, up, by decide⟩

set_option maxRecDepth 8000 in
theorem test_power_loops_act_21 : ∃ dt k t f s, Held (.droopGateRelease dt k) dt (fun s => (heatOf s k).shut = some t && (heatOf s k).fired = some f && f + 50 ≤ now s) s :=
  ⟨60, 3, 10, 10, modHeat 3 (fun h => { h with shut := some 10, fired := some 10 }) up, by decide⟩

set_option maxRecDepth 8000 in
theorem test_power_loops_act_1 : ∃ dt x s, Held (.inputSample dt x) dt (fun _ => !x.reaches && 44000 ≤ x.mv && x.mv ≤ 60000 && x.bank < x.mv + 2000) s :=
  ⟨0, { mv := 60000, ma := 1, bank := 61999, reaches := false }, up, by decide⟩

set_option maxRecDepth 8000 in
theorem test_power_loops_act_7 : ∃ dt s, Held (.powerLoopTick dt) dt (fun s =>
      let t := loopStart s
      fabricOn s && !t.pwr.pace.fell && !powerHeld t && !confMode t && peakOf t < pEstAvg t && t.pwr.pace.uniform.isNone) s :=
  ⟨0, modPace (fun p => { p with dyn := [10 ^ 9], sFit := some 100, kFit := some 1 }) up, by decide +kernel⟩

set_option maxRecDepth 8000 in
theorem test_power_loops_act_8 : ∃ dt s, Held (.powerLoopTick dt) dt (fun s =>
      let t := loopStart s
      fabricOn s && !t.pwr.pace.fell && !powerHeld t && (confMode t || pEstAvg t ≤ peakOf t || t.pwr.pace.uniform.isSome)) s :=
  ⟨0, modPace (fun p => { p with sFit := some 100, kFit := some 1 }) up, by decide +kernel⟩

set_option maxRecDepth 8000 in
theorem test_cooling_events_act_0 : ∃ dt x s, Held (.thermalSample dt x) dt (fun s => fabricOn s && x.block < 63 && x.a < 500 && x.b < 500) s :=
  ⟨0, ⟨62, 499, 0, 0⟩, up, by decide⟩

set_option maxRecDepth 8000 in
theorem test_cooling_events_act_2 : ∃ dt k t s, Held (.blockHalt1s dt k) dt (fun s => (heatOf s k).halted = some t && !(heatOf s k).told && t + 1000000000 ≤ now s) s :=
  ⟨1000000000, 62, 0, modHeat 62 (fun h => { h with halted := some 0 }) up, by decide⟩

set_option maxRecDepth 8000 in
theorem test_cooling_events_act_3 : ∃ dt k t s, Held (.suspectClear dt k false) dt (fun s => (heatOf s k).okA = some t && t + 1000000000 ≤ now s) s :=
  ⟨1000000000, 62, 0, modHeat 62 (fun h => { h with okA := some 0 }) up, by decide⟩

set_option maxRecDepth 8000 in
theorem test_cooling_events_act_4 : ∃ dt k t s, Held (.suspectClear dt k true) dt (fun s => (heatOf s k).okB = some t && t + 1000000000 ≤ now s) s :=
  ⟨1000000000, 62, 0, modHeat 62 (fun h => { h with okB := some 0 }) up, by decide⟩

set_option maxRecDepth 8000 in
theorem test_cooling_events_act_5 : ∃ dt r t s, Held (.inletSettled dt) dt (fun s => s.pwr.cool.inletAt = some (r, t) && t + 1000000000 ≤ now s) s :=
  ⟨1000000000, 450, 0, modCool (fun c => { c with inletAt := some (450, 0) }) up, by decide⟩

set_option maxRecDepth 8000 in
theorem test_cooling_events_act_6 : ∃ dt r s, Held (.thermTrip dt r) dt (fun s => fabricOn s && 500 ≤ r && !s.tray.thermTrip) s :=
  ⟨0, 500, up, by decide⟩

set_option maxRecDepth 8000 in
theorem test_cooling_events_act_7 : ∃ dt x s, Held (.flowTick dt x) dt fabricOn s :=
  ⟨0, ⟨200, 200, 200, 250, 300, false⟩, up, by decide⟩

set_option maxRecDepth 8000 in
theorem test_cooling_events_act_8 : ∃ dt t s, Held (.flowsDisagree dt) dt (fun s => s.pwr.cool.apart = some t && !s.pwr.cool.disagree && t + 1000000000 ≤ now s) s :=
  ⟨1000000000, 0, modCool (fun c => { c with apart := some 0 }) up, by decide⟩

set_option maxRecDepth 8000 in
theorem test_cooling_events_act_9 : ∃ dt t s, Held (.flowRangeRecovered dt) dt (fun s => !s.pwr.cool.flowCritical && s.pwr.cool.flowLow && s.pwr.cool.lowOver = some t && t + 1000000000 ≤ now s) s :=
  ⟨1000000000, 0, modCool (fun c => { c with flowLow := true, lowOver := some 0 }) up, by decide⟩

set_option maxRecDepth 8000 in
theorem test_cooling_events_act_10 : ∃ dt s, Held (.leakDetected dt) dt (fun s => !s.pwr.cool.leak) s :=
  ⟨0, up, by decide⟩

set_option maxRecDepth 8000 in
theorem test_cooling_events_act_1 : ∃ dt x s, Held (.thermalSample dt x) dt (fun s => fabricOn s && x.block < 63 && (500 ≤ x.a || 500 ≤ x.b)) s :=
  ⟨0, ⟨0, 500, 0, 0⟩, up, by decide⟩

set_option maxRecDepth 8000 in
theorem test_pace_group_acts_0 : ∃ dt m s, m.op = 0 ∧ m.operand < 2 ^ 48 ∧ Held (.capSet dt m) dt (fun s => msgTaken m s && (msgAcked m s).nv.manager = some m.srcM) s :=
  ⟨0, { from7 with operand := 2 ^ 48 - 1 }, inNv (fun n => { n with manager := some 7 }) upNet, by decide, by decide, by decide⟩

set_option maxRecDepth 8000 in
theorem test_pace_group_acts_3 : ∃ dt g s, Held (.beaconTimer dt) dt (fun s => s.pwr.pace.group = some g && !g.giveBack && g.beaconAt + g.cfg.interval * 1000000 ≤ now s) s :=
  ⟨10000000, { cfg := paceCfg0 }, grouped id upNet, by decide⟩

set_option maxRecDepth 8000 in
theorem test_pace_group_acts_4 : ∃ dt x g s, Held (.memberStale dt x) dt (fun s => s.pwr.pace.group = some g && (others s g).contains x && !(memberOf g x).out
      && (memberOf g x).at_ + 10 * g.cfg.interval * 1000000 ≤ now s) s :=
  ⟨100000000, 7, { cfg := paceCfg0 }, grouped id upNet, by decide⟩

set_option maxRecDepth 8000 in
theorem test_context_commands_complete_0 : ∃ h c flags s, c < 16 ∧ flags < 16 ∧ Met (.ctxCreate h c flags) h { op := 0x0300, who := who0Admin, ctx := some c } (fun _ s => s.boot.phase ≠ .booting && !ctxDefined s c) s :=
  ⟨hd 0, 15, 15, up, by decide, by decide, met (by decide)⟩

set_option maxRecDepth 8000 in
theorem test_context_commands_complete_1 : ∃ h c s k s', Taken h { op := 0x0301, who := who0Admin, ctx := some c } s k s' ∧ ctxDefined s' c = true ∧ (ctxOf s' c).state ≠ .destroying :=
  ⟨(hd 0), (0), (upCtx), (callAt (hd 0) { op := 0x0301, who := who0Admin, ctx := some (0) } (upCtx)), (stateAt (hd 0) { op := 0x0301, who := who0Admin, ctx := some (0) } (upCtx)), taken (by decide), by decide, by decide⟩

set_option maxRecDepth 8000 in
theorem test_context_commands_complete_2 : ∃ h c mask lot s, mask < 2 ^ 63 ∧ Met (.ctxSetBlocks h c mask lot) h { op := 0x0302, who := who0Admin, ctx := some c, conf := true, staging := true } (ctxStageable c) s :=
  ⟨hd 0, 0, 2 ^ 63 - 1, 0, hold (fidContext 0) 0 upCtx, by decide, met (by decide)⟩

set_option maxRecDepth 8000 in
theorem test_context_commands_complete_3 : ∃ h c mask s, mask < 2 ^ 16 ∧ Met (.ctxSetGroups h c mask) h { op := 0x0303, who := who0Admin, ctx := some c, conf := true, staging := true } (ctxStageable c) s :=
  ⟨hd 0, 0, 65535, hold (fidContext 0) 0 upCtx, by decide, met (by decide)⟩

set_option maxRecDepth 8000 in
theorem test_context_commands_complete_4 : ∃ h c base n quota s, base % 64 = 0 ∧ n % 64 = 0 ∧ quota ≤ 1024 ∧ Met (.ctxSetSlice h c base n quota) h { op := 0x0304, who := who0Admin, ctx := some c, conf := true, staging := true } (ctxStageable c) s :=
  ⟨hd 0, 0, 64, 128, 1024, hold (fidContext 0) 0 upCtx, by decide, by decide, by decide, met (by decide)⟩

set_option maxRecDepth 8000 in
theorem test_context_commands_complete_5 : ∃ h c ms s, 10 ≤ ms ∧ ms ≤ 1000 ∧ Met (.ctxSetQuantum h c ms) h { op := 0x0305, who := who0Admin, ctx := some c } (fun _ s => ctxDefined s c && !tdiLocked s c) s :=
  ⟨hd 0, 0, 1000, upCtx, by decide, by decide, met (by decide)⟩

set_option maxRecDepth 8000 in
theorem test_context_commands_complete_6 : ∃ h c s, c < 16 ∧ Met (.ctxGet h c) h { op := 0x0306, who := whoCtx, ctx := some c, reads := true } anyCall s :=
  ⟨hd 0, 15, up, by decide, met (by decide)⟩

set_option maxRecDepth 8000 in
theorem test_context_commands_complete_7 : ∃ h c i e s, i < 256 ∧ e.extractLsb' 56 8 = 0 ∧ e.extractLsb' 46 3 = 0 ∧ Met (.lotSet h c i e) h { op := 0x0310, who := who0Own, ctx := some c, conf := true } (fun _ s => ctxDefined s c && (ctxOf s c).state ≠ .destroying && (!lotValid e || (lotRefused s c i e).isNone)) s :=
  ⟨hd 0, 0, 255, lotWord 8 9, upCtx, by decide, by decide, by decide, met (by decide)⟩

set_option maxRecDepth 8000 in
theorem test_context_commands_complete_9 : ∃ h c i n s, 1 ≤ n ∧ n ≤ 16 ∧ i < 256 ∧ Met (.lotGet h c i n) h { op := 0x0311, who := who0Own, ctx := some c, conf := true, reads := true } (fun _ s => ctxDefined s c) s :=
  ⟨hd 0, 0, 255, 16, upCtx, by decide, by decide, by decide, met (by decide)⟩

set_option maxRecDepth 8000 in
theorem test_context_commands_complete_10 : ∃ h c rate s, 64 ≤ rate ∧ rate ≤ 8192 ∧ Met (.secRotateKey h c rate) h { op := 0x0A01, who := who0Own, ctx := some c, conf := true } (fun _ s => ctxDefined s c && (ctxOf s c).state ≠ .destroying && (ctxOf s c).oldPages.isEmpty) s :=
  ⟨hd 0, 0, 8192, upCtx, by decide, by decide, met (by decide)⟩

set_option maxRecDepth 8000 in
theorem test_context_commands_complete_11 : ∃ h c key s, key < 2 ^ 512 ∧ Met (.secPkgKeyAdd h c key) h { op := 0x0A02, who := who0Own, ctx := some c, conf := true } (fun _ s => ctxDefined s c && !(ctxOf s c).pkgKeys.contains key && !tdiLocked s c && (ctxOf s c).pkgKeys.length < 8) s :=
  ⟨hd 0, 0, 7, upCtx, by decide, met (by decide)⟩

set_option maxRecDepth 8000 in
theorem test_context_commands_complete_12 : ∃ h c key s, key < 2 ^ 512 ∧ Met (.secPkgKeyRemove h c key) h { op := 0x0A03, who := who0Own, ctx := some c, conf := true } (fun _ s => ctxDefined s c && (ctxOf s c).pkgKeys.contains key && !tdiLocked s c) s :=
  ⟨hd 0, 0, 7, inCtx (fun c => { c with pkgKeys := [7] }) up, by decide, met (by decide)⟩

set_option maxRecDepth 8000 in
theorem test_context_commands_complete_13 : ∃ h c src len dst good s, Met (.wgtUnseal h c src len dst good) h { op := 0x0620, who := who0Own, ctx := some c, conf := true } (fun _ s => ctxDefined s c && (ctxOf s c).state ≠ .destroying) s :=
  ⟨hd 0, 0, 0, 4096, 8192, true, upCtx, met (by decide)⟩

set_option maxRecDepth 8000 in
theorem test_context_commands_complete_14 : ∃ h c s, Met (.secSpdm h c) h { op := 0x0A00, who := whoOwn, ctx := some c } (fun _ s => ctxDefined s c && (ctxOf s c).state ≠ .destroying) s :=
  ⟨hd 1, 0, upCtx, met (by decide)⟩

set_option maxRecDepth 8000 in
theorem test_context_commands_complete_8 : ∃ old e, narrows old e = false :=
  ⟨lotWord 0 8, lotWord 0 9, by decide⟩

set_option maxRecDepth 8000 in
theorem test_context_events_act_0 : ∃ dt k s, Held (.blockScrubDone dt k) dt (fun s => s.benches.scrubbing.contains k && (blockBenches k).all fun b => (benchOf s b).cur.isNone) s :=
  ⟨0, 62, inBn (fun b => { b with scrubbing := [62] }) up, by decide⟩

set_option maxRecDepth 8000 in
theorem test_context_events_act_1 : ∃ dt g p s, Held (.groupReleaseDone dt g) dt (fun s => (s.sec.releasing.find? fun p => p.1 = g) = some p) s :=
  ⟨0, 3, (3, 0), inSec (fun x => { x with releasing := [(3, 0)] }) up, by decide⟩

set_option maxRecDepth 8000 in
theorem test_context_events_act_2 : ∃ dt c s, Held (.quantumExpiry dt c) dt (fun s => (ctxOf s c).state = .resident && (ctxOf s c).timeShare && (ctxOf s c).turnEnd ≤ now s) s :=
  ⟨0, 0, sharing true, by decide⟩

set_option maxRecDepth 8000 in
theorem test_context_events_act_3 : ∃ dt c past s, Held (.contextSwitch dt c past) dt (fun s => freeTurn s c) s :=
  ⟨0, 1, false, sharing false, by decide⟩

set_option maxRecDepth 8000 in
theorem test_context_events_act_4 : ∃ dt c d past s, Held (.contextSwitch dt c past) dt (fun s => !freeTurn s c && nextTurn s c = some d && (ctxOf s c).state = .resident && (ctxOf s c).quantumDue && mayLeave s c && c ≠ d) s :=
  ⟨0, 0, 1, false, sharing true, by decide⟩

set_option maxRecDepth 8000 in
theorem test_context_events_act_5 : ∃ dt c p s, Held (.keySweepPage dt c) dt (fun s => sweepPage (ctxOf s c) = some p) s :=
  ⟨0, 0, 5, inCtx (fun c => { c with oldPages := [(5, 9)] }) up, by decide⟩

set_option maxRecDepth 8000 in
theorem test_context_events_act_6 : ∃ dt id bad u rest s, Held (.wgtUnsealDone dt id bad) dt (fun s => takeFirst (fun u => u.id = id) s.sec.unseals = some (u, rest)) s :=
  ⟨0, 4, none, ⟨4, 0, 0, 0, 0, true⟩, [], inSec (fun x => { x with unseals := [⟨4, 0, 0, 0, 0, true⟩] }) upCtx, by decide⟩

set_option maxRecDepth 8000 in
theorem test_context_events_act_7 : ∃ dt sid x s, Held (.spdmSessionTimeout dt sid) dt (fun s => sessionOf s sid = some x && x.lastTraffic + 30000000000 ≤ now s) s :=
  ⟨30000000000, 1, session0 .doe, inSess .doe up, by decide⟩

set_option maxRecDepth 8000 in
theorem test_context_events_act_9 : ∃ dt dur s, Held (.functionLevelReset dt 0 dur) dt (fun s => reachable s 0) s :=
  ⟨0, 7, up, by decide⟩

set_option maxRecDepth 8000 in
theorem test_context_events_act_10 : ∃ dt f dur s, 1 ≤ f ∧ f ≤ 16 ∧ Held (.functionLevelReset dt f dur) dt (fun s => reachable s f) s :=
  ⟨0, 16, 7, up, by decide, by decide, by decide⟩

set_option maxRecDepth 8000 in
theorem test_context_events_act_11 : ∃ dt s, Held (.perstAssert dt) dt (fun s => !s.tray.perst && linkTrained s) s :=
  ⟨0, inBoot (fun b => { b with items := [(itemKey 14 0, { settled := true, passed := true })] }) up, by decide⟩

set_option maxRecDepth 8000 in
theorem test_responder_answers_0 : ∃ dt p s, Held (.getVersion dt p) dt (fun s => pathOpen s p) s :=
  ⟨0, .sideband, inTray (fun t => { t with keepAlive := true }) up, by decide⟩

set_option maxRecDepth 8000 in
theorem test_responder_answers_1 : ∃ dt p s, Held (.getCapabilities dt p) dt (fun s => pathOpen s p && 1 ≤ connStage s p) s :=
  ⟨0, .doe, negotiated .doe 1 up, by decide⟩

set_option maxRecDepth 8000 in
theorem test_responder_answers_2 : ∃ dt p s, Held (.negotiateAlgorithms dt p true) dt (fun s => pathOpen s p && 2 ≤ connStage s p) s :=
  ⟨0, .doe, negotiated .doe 2 up, by decide⟩

set_option maxRecDepth 8000 in
theorem test_responder_answers_3 : ∃ dt p s, Held (.getDigests dt p) dt (fun s => pathOpen s p && 3 ≤ connStage s p) s :=
  ⟨0, .doe, negotiated .doe 3 up, by decide⟩

set_option maxRecDepth 8000 in
theorem test_responder_answers_4 : ∃ dt p off len s, Held (.getCertificate dt p 0 off len) dt (fun s => pathOpen s p && 3 ≤ connStage s p) s :=
  ⟨0, .doe, 0, 16, negotiated .doe 3 up, by decide⟩

set_option maxRecDepth 8000 in
theorem test_responder_answers_5 : ∃ dt p s, Held (.challenge dt p 0) dt (fun s => pathOpen s p && 3 ≤ connStage s p) s :=
  ⟨0, .context 0, negotiated (.context 0) 3 (doing .spdm 0 up), by decide⟩

set_option maxRecDepth 8000 in
theorem test_responder_answers_6 : ∃ dt p i m s, Held (.getMeasurements dt p none i) dt (fun s => pathOpen s p && 3 ≤ connStage s p && i ≠ 255 && measurement s none i = some m) s :=
  ⟨0, .doe, 2, 0, negotiated .doe 3 up, by decide⟩

set_option maxRecDepth 8000 in
theorem test_responder_answers_7 : ∃ dt p s, Held (.keyExchange dt p 0) dt (fun s => pathOpen s p && 3 ≤ connStage s p && spdmSessionsOn s p < sessionLimit p) s :=
  ⟨0, .doe, negotiated .doe 3 up, by decide⟩

set_option maxRecDepth 8000 in
theorem test_responder_answers_8 : ∃ dt sid x s, Held (.finish dt sid true) dt (fun s => sessionOf s sid = some x && pathOpen s x.path) s :=
  ⟨0, 1, session0 .doe, inSess .doe up, by decide⟩

set_option maxRecDepth 8000 in
theorem test_responder_answers_9 : ∃ dt sid x s, Held (.heartbeat dt sid) dt (sessionOpen sid x) s :=
  ⟨0, 1, session0 .doe, inSess .doe up, by decide⟩

set_option maxRecDepth 8000 in
theorem test_responder_answers_10 : ∃ dt sid x s, Held (.keyUpdate dt sid) dt (sessionOpen sid x) s :=
  ⟨0, 1, session0 .doe, inSess .doe up, by decide⟩

set_option maxRecDepth 8000 in
theorem test_responder_answers_11 : ∃ dt sid x s, Held (.endSession dt sid) dt (sessionOpen sid x) s :=
  ⟨0, 1, session0 (.context 0), inSess (.context 0) upCtx, by decide⟩

set_option maxRecDepth 8000 in
theorem test_responder_answers_12 : ∃ dt sid k x c i s, x.path = .context c ∧ Held (.keyDeliver dt sid k) dt (fun s =>
      let y := ctxOf (keepAlive sid s) c
      sessionOpen sid x s && isConf (keepAlive sid s) c && y.tdi = .run && ((heldKeys y).all fun e => e.2.packageId ≠ k.packageId)
      && freeKeyEntry y = some i) s :=
  ⟨0, 1, ⟨5, 1, 6, true⟩, session0 (.context 0), 0, 0, inSess (.context 0) (secret .run), by decide, by decide⟩

set_option maxRecDepth 8000 in
theorem test_responder_answers_13 : ∃ dt sid e x c s, x.path = .context c ∧ e < 16 ∧ Held (.keyErase dt sid e) dt (sessionOpen sid x) s :=
  ⟨0, 1, 15, session0 (.context 0), 0, inSess (.context 0) (secret .run), by decide, by decide, by decide⟩

set_option maxRecDepth 8000 in
theorem test_responder_answers_14 : ∃ dt sid c n x s, x.path = .doe ∧ Held (.lockInterface dt sid c n) dt (fun s =>
      let u := keepAlive sid s
      sessionOpen sid x s && isConf u c && (ctxOf u c).tdi = .unlocked && (funcOf u (fidContext c)).state = .running) s :=
  ⟨0, 1, 0, 3, session0 .doe, inSess .doe (secret .unlocked), by decide, by decide⟩

set_option maxRecDepth 8000 in
theorem test_responder_answers_15 : ∃ dt c s, Held (.startInterface dt c) dt (fun s => pathOpen s .doe && isConf s c && (ctxOf s c).tdi = .locked) s :=
  ⟨0, 0, secret .locked, by decide⟩

set_option maxRecDepth 8000 in
theorem test_responder_answers_16 : ∃ dt c s, Held (.stopInterface dt c) dt (fun s => pathOpen s .doe && isConf s c) s :=
  ⟨0, 0, secret .run, by decide⟩

set_option maxRecDepth 8000 in
theorem test_responder_answers_17 : ∃ dt sid on x s, x.path = .doe ∧ Held (.ideKm dt sid none on) dt (sessionOpen sid x) s :=
  ⟨0, 1, true, session0 .doe, inSess .doe up, by decide, by decide⟩

set_option maxRecDepth 8000 in
theorem test_responder_answers_18 : ∃ dt sid n x s, x.path = .doe ∧ n < 16 ∧ Held (.ideKm dt sid (some n) true) dt (sessionOpen sid x) s :=
  ⟨0, 1, 15, session0 .doe, inSess .doe up, by decide, by decide, by decide⟩

set_option maxRecDepth 8000 in
theorem test_redundancy_commands_complete_0 : ∃ h c s, Met (.redGet h c) h { op := 0x0B00, who := whoAll, ctx := some c, reads := true } (fun _ s => ctxDefined s c) s :=
  ⟨hd 0, 0, upCtx, met (by decide)⟩

set_option maxRecDepth 8000 in
theorem test_redundancy_commands_complete_1 : ∃ h c p s, c < 16 ∧ Met (.redSetProtect h c p) h { op := 0x0B01, who := who0Side, ctx := some c, staging := true } (fun k s => ctxStageable c k s && protectOk s c p) s :=
  ⟨hd 0, 0, { mode := 1, role := 1, swapH := 168, pairId := 2 ^ 32 - 1, mirrorLot := 0 }, inCtx (fun c => { c with lots := [(0, lotWord 0 32)] }) (hold (fidContext 0) 0 up), by decide, met (by decide)⟩

set_option maxRecDepth 8000 in
theorem test_redundancy_commands_complete_2 : ∃ h c s, Met (.redSwap h c) h { op := 0x0B02, who := who0Side, ctx := some c } (fun _ s => ctxDefined s c && !tdiLocked s c && acting s c && !swapDeferred s c && (redOf s c).giving.isNone) s :=
  ⟨hd 0, 0, mirroring id, met (by decide)⟩

set_option maxRecDepth 8000 in
theorem test_redundancy_commands_complete_3 : ∃ h c s, Met (.redRelease h c) h { op := 0x0B03, who := who0Side, ctx := some c } (fun _ s => ctxDefined s c && !tdiLocked s c && acting s c && (redOf s c).giving ≠ some .release) s :=
  ⟨hd 0, 0, mirroring id, met (by decide)⟩

set_option maxRecDepth 8000 in
theorem test_redundancy_commands_complete_4 : ∃ h c i prod r s, Met (.redRingAdopt h c i prod) h { op := 0x0B04, who := who0Admin, ctx := some c } (fun _ s => ringOf s c i = some r && ctxDefined s c && r.par.kind ≠ 1 && (liveReqs s c).all fun q => q.2.ring ≠ some i) s :=
  ⟨hd 0, 0, 0, 5, { par := { ringPar0 with kind := 2 } }, serving (fun y => { y with rings := [(0, some { par := { ringPar0 with kind := 2 } })] }) upCtx, met (by decide)⟩

set_option maxRecDepth 8000 in
theorem test_redundancy_commands_complete_5 : ∃ h s, Met (.trayDrain h) h { op := 0x0B10, who := who0Side } anyCall s :=
  ⟨hd 0, up, met (by decide)⟩

set_option maxRecDepth 8000 in
theorem test_redundancy_commands_complete_6 : ∃ h s, Met (.trayGet h) h { op := 0x0B11, who := whoAll, reads := true } anyCall s :=
  ⟨hd 0, up, met (by decide)⟩

set_option maxRecDepth 8000 in
theorem test_redundancy_commands_complete_7 : ∃ dt s, Held (.trayLatchDeassert dt) dt (fun s => s.boot.running && s.boot.phase = .booting) s :=
  ⟨0, inBoot (fun b => { b with phase := .booting }) up, by decide⟩

set_option maxRecDepth 8000 in
theorem test_redundancy_commands_complete_8 : ∃ dt s, Held (.trayLatchDeassert dt) dt (fun s => !(s.boot.running && s.boot.phase = .booting) && s.red.drain ≠ .drained && s.tray.pwrGood) s :=
  ⟨0, up, by decide⟩

set_option maxRecDepth 8000 in
theorem test_dowel_messages_act_0 : ∃ dt m s, Held (.dowelHold dt m) dt (fun s =>
      let u := dowelState m s
      let r := redOf u m.ctx
      dowelTaken m (keepsEpoch m) s && fromSister u m && (r.role = .standby || r.role = .resync) && r.epoch ≤ m.epoch && r.requestAt.isNone) s :=
  ⟨0, dowel7 3 1, mirroring fun r => { r with role := .standby, epoch := 3 }, by decide⟩

set_option maxRecDepth 8000 in
theorem test_dowel_messages_act_1 : ∃ dt m n t s, Held (.dowelRenew dt m) dt (fun s =>
      let r := redOf (dowelState m s) m.ctx
      dowelTaken m (keepsEpoch m) s && m.epoch = r.epoch && r.role ≠ .fenced && (r.sent.find? fun p => p.1 = m.field) = some (n, t)) s :=
  ⟨0, dowel7 3 1, 1, 0, mirroring fun r => { r with epoch := 3, sent := [(1, 0)] }, by decide⟩

set_option maxRecDepth 8000 in
theorem test_dowel_messages_act_2 : ∃ dt m s, Held (.dowelGrant dt m) dt (fun s =>
      let u := dowelState m s
      let r := redOf u m.ctx
      dowelTaken m (keepsEpoch m) s && fromArbiter u m && r.role = .standby && r.requestAt.isSome && r.epoch < m.epoch) s :=
  ⟨0, dowel7 4 1, mirroring fun r => { r with role := .standby, epoch := 3, requestAt := some 0 }, by decide⟩

set_option maxRecDepth 8000 in
theorem test_dowel_messages_act_3 : ∃ dt m s, Held (.dowelRefuse dt m) dt (fun s => dowelTaken m (keepsEpoch m) s && fromArbiter (dowelState m s) m) s :=
  ⟨0, dowel7 3 1, mirroring fun r => { r with role := .standby, epoch := 3, requestAt := some 0 }, by decide⟩

set_option maxRecDepth 8000 in
theorem test_dowel_messages_act_4 : ∃ dt m s, Held (.dowelRelease dt m) dt (fun s =>
      let u := dowelState m s
      dowelTaken m (keepsEpoch m) s && fromSister u m && (redOf u m.ctx).role = .standby && m.epoch = (redOf u m.ctx).epoch) s :=
  ⟨0, dowel7 3 1, mirroring fun r => { r with role := .standby, epoch := 3 }, by decide⟩

set_option maxRecDepth 8000 in
theorem test_dowel_messages_act_5 : ∃ dt m s, Held (.dowelSwap dt m) dt (fun s =>
      let u := dowelState m s
      dowelTaken m (keepsEpoch m) s && fromSister u m && (redOf u m.ctx).role = .standby && m.epoch = (redOf u m.ctx).epoch) s :=
  ⟨0, dowel7 3 1, mirroring fun r => { r with role := .standby, epoch := 3 }, by decide⟩

set_option maxRecDepth 8000 in
theorem test_dowel_messages_act_6 : ∃ dt m s, Held (.dowelTaken dt m) dt (fun s => dowelTaken m (fun r => r.giving.isSome && m.epoch = r.epoch + 1) s
      && (redOf (dowelState m s) m.ctx).giving.isSome && m.epoch = (redOf (dowelState m s) m.ctx).epoch + 1) s :=
  ⟨0, dowel7 4 1, mirroring fun r => { r with epoch := 3, giving := some .swap }, by decide⟩

set_option maxRecDepth 8000 in
theorem test_dowel_messages_act_7 : ∃ dt m d s, Held (.dowelCommit dt m d) dt (fun s =>
      let u := dowelState m s
      let r := redOf u m.ctx
      dowelTaken m (keepsEpoch m) s && fromSister u m && (r.role = .standby || r.role = .resync) && m.epoch = r.epoch
      && m.field ≠ r.boundary && !(serveOf (modRed m.ctx (fun r => { r with boundary := m.field }) (applyDelta m.ctx d u)) m.ctx).halted) s :=
  ⟨0, dowel7 3 5, delta0, mirroring fun r => { r with role := .standby, epoch := 3 }, by decide⟩

set_option maxRecDepth 8000 in
theorem test_dowel_messages_act_8 : ∃ dt m s, Held (.dowelCommitAck dt m) dt (fun s =>
      let u := dowelState m s
      let r := redOf u m.ctx
      dowelTaken m (keepsEpoch m) s && fromSister u m && r.role = .active && m.epoch = r.epoch && r.acked < m.field && m.field ≤ r.boundary
      && !(redOf (flushPend m.ctx (modRed m.ctx (fun r => { r with acked := m.field, ackedCopy := r.sentCopy }) u)) m.ctx).unsent) s :=
  ⟨0, dowel7 3 5, mirroring fun r => { r with epoch := 3, boundary := 5 }, by decide⟩

set_option maxRecDepth 8000 in
theorem test_dowel_messages_act_9 : ∃ dt m s, Held (.dowelSoloGrant dt m) dt (fun s =>
      let u := dowelState m s
      let r := redOf u m.ctx
      dowelTaken m (keepsEpoch m) s && fromArbiter u m && r.role = .active && m.epoch = r.epoch && r.soloAt.isSome) s :=
  ⟨0, dowel7 3 5, mirroring fun r => { r with epoch := 3, soloAt := some 0 }, by decide⟩

set_option maxRecDepth 8000 in
theorem test_dowel_timers_act_2 : ∃ dt c s, Held (.holdTimer dt c) dt (fun s => holdsDowel s c && (redOf s c).heldAt + 50000000 ≤ now s) s :=
  ⟨50000000, 0, mirroring id, by decide⟩

set_option maxRecDepth 8000 in
theorem test_dowel_timers_act_3 : ∃ dt c s, Held (.leaseExpiry dt c) dt (fun s => acting s c && (redOf s c).renewed + 200000000 ≤ now s) s :=
  ⟨200000000, 0, mirroring id, by decide⟩

set_option maxRecDepth 8000 in
theorem test_dowel_timers_act_4 : ∃ dt c s, Held (.holdSilence dt c) dt (fun s => mirrored s c && (redOf s c).role = .standby && (redOf s c).requestAt.isNone && (redOf s c).heldAt + 200000000 ≤ now s
      && !arbiterLost (toArbiter c 2 0 (modRed c (fun r => { r with requestAt := some (now s), askedAt := now s }) s)) c) s :=
  ⟨200000000, 0, mirroring fun r => { r with role := .standby, arbiterAt := 200000000 }, by decide⟩

set_option maxRecDepth 8000 in
theorem test_dowel_timers_act_5 : ∃ dt c t s, Held (.dowelRequestResend dt c) dt (fun s => (redOf s c).requestAt = none && (redOf s c).soloAt = some t && t + 5000000 ≤ now s) s :=
  ⟨5000000, 0, 0, mirroring fun r => { r with soloAt := some 0 }, by decide⟩

set_option maxRecDepth 8000 in
theorem test_dowel_timers_act_6 : ∃ dt c p s, Held (.commitResend dt c) dt (fun s =>
      let r := redOf s c
      mirrored s c && r.role = .active && !r.unsent && r.acked < r.boundary && r.commitAt + 1000000 ≤ now s && s.net.sister = some p) s :=
  ⟨1000000, 0, 7, mirroring fun r => { r with boundary := 1 }, by decide⟩

set_option maxRecDepth 8000 in
theorem test_dowel_timers_act_7 : ∃ dt c t s, Held (.releaseResend dt c) dt (fun s => (redOf s c).giving = some .swap && (redOf s c).givingSent = some t && t + 1000000 ≤ now s) s :=
  ⟨1000000, 0, 0, mirroring fun r => { r with giving := some .swap, givingSent := some 0 }, by decide⟩

set_option maxRecDepth 8000 in
theorem test_dowel_timers_act_8 : ∃ dt c s, Held (.releaseTimeout dt c) dt (fun s => (redOf s c).giving = some .release && !(redOf s c).drainRelease && (redOf s c).givingAt + 100000000 ≤ now s) s :=
  ⟨100000000, 0, mirroring fun r => { r with giving := some .release }, by decide⟩

set_option maxRecDepth 8000 in
theorem test_dowel_timers_act_9 : ∃ dt c s, Held (.swapDue dt c) dt (fun s => acting s c && (redOf s c).par.swapH ≠ 0 && (redOf s c).lastChange + (redOf s c).par.swapH * 3600000000000 ≤ now s) s :=
  ⟨3600000000000, 0, mirroring fun r => { r with par := { r.par with swapH := 1 } }, by decide⟩

set_option maxRecDepth 8000 in
theorem test_dowel_timers_act_10 : ∃ dt s, Held (.sisterLinkLost dt) dt (fun s => !s.red.linkLost && sisterLost s && s.net.sister.isSome) s :=
  ⟨100000000, mirroring id, by decide⟩

set_option maxRecDepth 8000 in
theorem test_dowel_timers_act_0 : ∃ dt solo s, Held (.sisterLinkReturn dt solo) dt (fun s => portState s 32 = .up && (List.range 16).all fun c => !mirrored s c) s :=
  ⟨0, [], wired (fun n => { n with ports := [(32, port0)] }) up, by decide⟩

set_option maxRecDepth 8000 in
theorem test_dowel_timers_act_11 : ∃ dt c boundary epoch d s, Held (.resyncCopyDone dt c boundary epoch d) dt (fun s => mirrored s c && (redOf s c).role = .resync) s :=
  ⟨0, 0, 4, 3, delta0, mirroring fun r => { r with role := .resync }, by decide⟩

set_option maxRecDepth 8000 in
theorem test_dowel_timers_act_1 : ∃ dt solo s, Held (.sisterLinkReturn dt solo) dt (fun s => portState s 32 = .up) s :=
  ⟨0, [], portUp 32 up, by decide⟩

set_option maxRecDepth 8000 in
theorem test_recorder_commands_complete_0 : ∃ h s, Met (.recGetState h) h { op := 0x0C15, who := whoAll, reads := true } anyCall s :=
  ⟨hd 0, up, met (by decide)⟩

set_option maxRecDepth 8000 in
theorem test_recorder_commands_complete_1 : ∃ h sev pc seq n a s, Met (.recRead h sev pc seq n (.host a)) h { op := 0x0C10, who := whoAll, reads := true } (fun c s => flashUsable s && c.mb ≤ 16 && n ≤ 4096 && sev ≤ 3) s :=
  ⟨hd 0, 3, 0, 0, 4096, 64, up, met (by decide)⟩

set_option maxRecDepth 8000 in
theorem test_recorder_commands_complete_2 : ∃ h sev pc seq n s, Met (.recRead h sev pc seq n .inline) h { op := 0x0C10, who := whoAll, reads := true } (fun c s => flashUsable s && 17 ≤ c.mb && n ≤ 3 && sev ≤ 3) s :=
  ⟨hd 25, 3, 0, 0, 3, inTray (fun t => { t with keepAlive := true }) up, met (by decide)⟩

set_option maxRecDepth 8000 in
theorem test_recorder_commands_complete_3 : ∃ h n s, Met (.recFreeze h n) h { op := 0x0C11, who := who0Side, reads := true } (fun _ s => flashUsable s && 1 ≤ n && n ≤ 600 && s.rec_.freeze.isNone) s :=
  ⟨hd 0, 600, up, met (by decide)⟩

set_option maxRecDepth 8000 in
theorem test_recorder_commands_complete_4 : ∃ h n f s, Met (.recFreeze h n) h { op := 0x0C11, who := who0Side, reads := true } (fun c s => flashUsable s && 1 ≤ n && n ≤ 600 && s.rec_.freeze = some f && f.holder = c.mb) s :=
  ⟨hd 0, 1, ⟨0, 5, 5, true⟩, inRec (fun r => { r with freeze := some ⟨0, 5, 5, true⟩ }) up, met (by decide)⟩

set_option maxRecDepth 8000 in
theorem test_recorder_commands_complete_5 : ∃ h f s, Met (.recThaw h) h { op := 0x0C12, who := who0Side, reads := true } (fun c s => s.rec_.freeze = some f && f.holder = c.mb) s :=
  ⟨hd 0, ⟨0, 5, 5, true⟩, inRec (fun r => { r with freeze := some ⟨0, 5, 5, true⟩ }) up, met (by decide)⟩

set_option maxRecDepth 8000 in
theorem test_recorder_commands_complete_6 : ∃ h s, Met (.recClear h) h { op := 0x0C13, who := who0 } (fun c s => s.rec_.freeze.elim true fun f => f.holder = c.mb) s :=
  ⟨hd 0, up, met (by decide)⟩

set_option maxRecDepth 8000 in
theorem test_recorder_commands_complete_7 : ∃ h s, Met (.recFlush h) h { op := 0x0C14, who := who0Side } (fun _ s => !frozen s) s :=
  ⟨hd 0, up, met (by decide)⟩

set_option maxRecDepth 8000 in
theorem test_recorder_commands_complete_8 : ∃ h s, Met (.recFlush h) h { op := 0x0C14, who := who0Side } (fun _ s => frozen s) s :=
  ⟨hd 0, inRec (fun r => { r with freeze := some ⟨0, 5, 5, true⟩ }) up, met (by decide)⟩

set_option maxRecDepth 8000 in
theorem test_recorder_commands_complete_9 : ∃ dt s, Held (.recorderFlushTimer dt) dt (fun s => !frozen s && !boardAlone s && s.rec_.flushing.isNone) s :=
  ⟨0, up, by decide⟩

set_option maxRecDepth 8000 in
theorem test_recorder_commands_complete_10 : ∃ dt s, Held (.recorderFlushDone dt) dt (fun s => s.rec_.flushing.isSome) s :=
  ⟨0, inRec (fun r => { r with flushing := some 0 }) up, by decide⟩

set_option maxRecDepth 8000 in
theorem test_recorder_commands_complete_11 : ∃ dt n held s, Held (.recorderEraseDone dt) dt (fun s => s.rec_.clearing = some (n, held)) s :=
  ⟨0, 4, true, inRec (fun r => { r with clearing := some (4, true) }) up, by decide⟩

set_option maxRecDepth 8000 in
theorem test_recorder_commands_complete_12 : ∃ dt f s, Held (.freezeExpiry dt) dt (fun s => s.rec_.freeze = some f && f.started && f.until_ ≤ now s) s :=
  ⟨5, ⟨0, 5, 5, true⟩, inRec (fun r => { r with freeze := some ⟨0, 5, 5, true⟩ }) up, by decide⟩

set_option maxRecDepth 8000 in
theorem test_recorder_commands_complete_14 : ∃ dt slot ram auto s, Held (.recCursorWrite dt slot ram auto) dt (fun s => s.tray.linkUp) s :=
  ⟨0, 9, true, true, up, by decide⟩

set_option maxRecDepth 8000 in
theorem test_recorder_commands_complete_15 : ∃ dt s, Held (.recWindowAutoRead dt) dt (fun s => s.tray.linkUp && s.rec_.cursor.auto) s :=
  ⟨0, inRec (fun r => { r with cursor := ⟨0, false, true⟩ }) up, by decide⟩

set_option maxRecDepth 8000 in
theorem test_recorder_events_act_3 : ∃ dt n s, Held (.recorderEraseDone dt) dt (fun s => s.rec_.clearing = some (n, false)) s :=
  ⟨0, 4, inRec (fun r => { r with clearing := some (4, false) }) up, by decide⟩

set_option maxRecDepth 8000 in
theorem test_recorder_events_act_5 : ∃ dt s, Held (.recorderFlushDone dt) dt (fun s => s.rec_.flushing.isSome) s :=
  ⟨0, inRec (fun r => { r with flushing := some 0 }) up, by decide⟩

set_option maxRecDepth 8000 in
theorem test_recorder_events_act_0 : ∃ dt s, Held (.recorderFlushTimer dt) dt (fun s => !frozen s && !boardAlone s && s.rec_.flushing.isNone) s :=
  ⟨0, up, by decide⟩

set_option maxRecDepth 8000 in
theorem test_recorder_events_act_6 : ∃ dt f s, Held (.freezeExpiry dt) dt (fun s => s.rec_.freeze = some f && f.started && f.until_ ≤ now s) s :=
  ⟨5, ⟨0, 5, 5, true⟩, inRec (fun r => { r with freeze := some ⟨0, 5, 5, true⟩ }) up, by decide⟩

set_option maxRecDepth 8000 in
theorem test_recorder_events_act_1 : ∃ dt slot ram auto s, Held (.recCursorWrite dt slot ram auto) dt (fun s => s.tray.linkUp) s :=
  ⟨0, 9, true, true, up, by decide⟩

set_option maxRecDepth 8000 in
theorem test_recorder_events_act_2 : ∃ dt s, Held (.recWindowAutoRead dt) dt (fun s => s.tray.linkUp && s.rec_.cursor.auto) s :=
  ⟨0, inRec (fun r => { r with cursor := ⟨0, false, true⟩ }) up, by decide⟩

set_option maxRecDepth 8000 in
theorem test_recorder_events_act_4 : ∃ dt n s, Held (.recorderEraseDone dt) dt (fun s => s.rec_.clearing = some (n, true)) s :=
  ⟨0, 4, inRec (fun r => { r with clearing := some (4, true) }) up, by decide⟩

set_option maxRecDepth 8000 in
theorem test_recorder_events_act_9 : ∃ cap r l l', l.length ≤ cap ∧ placeRec cap r l = some l' :=
  ⟨1, { (default : EvRec) with sev := 2 }, [default], [{ (default : EvRec) with sev := 2 }], by decide, by decide⟩

set_option maxRecDepth 8000 in
theorem test_recorder_events_act_10 : ∃ s : State, s.nv.flash.length ≤ 4128768 :=
  ⟨State.reset, by decide⟩

set_option maxRecDepth 8000 in
theorem test_recorder_events_act_11 : ∃ s : State, s.rec_.ram.length ≤ 16384 :=
  ⟨State.reset, by decide⟩

set_option maxRecDepth 8000 in
theorem test_gauge_commands_complete_0 : ∃ h benches codes s, Met (.gauSelect h benches codes) h { op := 0x0C00, who := who0Own } (fun c s => !benches.isEmpty && benches.all (· < 252) && codes.length = 8 && codes.all (· ≤ 0x14)
      && benches.all (fun b => !unitWithheld s none (0x1000 + b)) && (viewerOf s c.mb).isNone) s :=
  ⟨hd 0, [0, 251], [0, 1, 2, 3, 4, 5, 6, 0x14], up, met (by decide)⟩

set_option maxRecDepth 8000 in
theorem test_gauge_commands_complete_1 : ∃ h a mask d s, Met (.gauSnapshot h a mask d) h { op := 0x0C01, who := who0Own } (fun c s => mask % 2 = 0 && mask < 64 && a.ns ≤ c.stamp.ns + 60000000000 && snapDest s c.mb d && s.gau.snaps.length < 4
      && s.time.t < a.ns) s :=
  ⟨hd 0, ⟨5, 0⟩, 62, .host 64, up, met (by decide)⟩

set_option maxRecDepth 8000 in
theorem test_gauge_commands_complete_2 : ∃ h u first n s, Met (.gauRead h u first n) h { op := 0x0C02, who := whoAll, reads := true } (fun c s => unitExists u && 1 ≤ n && n ≤ 27 && first + n ≤ 32 && (viewerOf s c.mb).isNone && !unitWithheld s none u) s :=
  ⟨hd 0, 0x1000, 5, 27, up, met (by decide)⟩

set_option maxRecDepth 8000 in
theorem test_gauge_commands_complete_3 : ∃ h c n addr k w v p s, Met (.gauSampleSet h c n addr k w v p) h { op := 0x0C03, who := who0Own, ctx := some c } (fun _ s => !isConf s c && ctxDefined s c && 8 ≤ n && n ≤ 20 && 10 ≤ k && k ≤ 18 && 1 ≤ w && w ≤ 2 ^ k && v < 120
      && !(samplingOf s c).enabled) s :=
  ⟨hd 0, 0, 20, 0, 18, 2 ^ 18, 119, 0, upCtx, met (by decide)⟩

set_option maxRecDepth 8000 in
theorem test_gauge_commands_complete_4 : ∃ h c s, Met (.gauSampleStop h c) h { op := 0x0C04, who := who0Own, ctx := some c } (fun _ s => !isConf s c && ctxDefined s c) s :=
  ⟨hd 0, 0, upCtx, met (by decide)⟩

set_option maxRecDepth 8000 in
theorem test_gauge_events_act_0 : ∃ dt id q s, Held (.snapshotLatch dt id) dt (fun s => (s.gau.snaps.find? fun x => x.id = id) = some q && q.at_.ns ≤ s.time.t) s :=
  ⟨0, 3, ⟨3, ⟨0, 0⟩, 62, .host 64, 0, none, false, none⟩, inGau (fun g => { g with snaps := [⟨3, ⟨0, 0⟩, 62, .host 64, 0, none, false, none⟩] }) up, by decide⟩

set_option maxRecDepth 8000 in
theorem test_gauge_events_act_1 : ∃ dt id q rest a s, q.dest = .host a ∧ Held (.snapshotWriteDone dt id) dt (fun s => takeFirst (fun q : Snapshot => q.id = id && q.image.isSome) s.gau.snaps = some (q, rest)) s :=
  ⟨0, 3, ⟨3, ⟨0, 0⟩, 62, .host 64, 0, none, false, some []⟩, [], 64, inGau (fun g => { g with snaps := [⟨3, ⟨0, 0⟩, 62, .host 64, 0, none, false, some []⟩] }) up, by decide, by decide⟩

set_option maxRecDepth 8000 in
theorem test_gauge_events_act_2 : ∃ dt c v s, c < 16 ∧ Held (.gauSampleConsWrite dt 0 c v false) dt (fun s => s.tray.linkUp && (v % 2 ^ 32 + 2 ^ 32 - (samplingOf s c).cons) % 2 ^ 32
      ≤ ((samplingOf s c).prod + 2 ^ 32 - (samplingOf s c).cons) % 2 ^ 32) s :=
  ⟨0, 15, 1, inGau (fun g => { g with sampling := [(15, { prod := 1 })] }) up, by decide, by decide⟩

set_option maxRecDepth 8000 in
theorem test_gauge_events_act_6 : ∃ dt m t s, m ≤ 16 ∧ Held (.readOnlyWrite dt m (.mailbox m) t) dt (fun s => reachable s m && !ideRefused s m t) s :=
  ⟨0, 16, false, inTray (fun t => { t with sriov := true }) up, by decide, by decide⟩

/-- A message of the pace group's settings from module 7. -/
def pace7 (operand : Nat) : XMsg := { from7 with addr := 2 ^ 32 * groupDigest paceCfg0 + 5, operand := operand }

theorem addr_of_group (d : Nat) : decide ((2 ^ 32 * d + 5) % 2 ^ 32 = 5) = true ∧ decide ((2 ^ 32 * d + 5) / 2 ^ 32 = d) = true := by
  constructor <;> simp <;> omega

theorem test_pace_group_acts_1 : ∃ dt m g s, m.op = 0 ∧ bitsOf m.operand 15 12 = 0 ∧ Held (.paceBeacon dt m) dt (fun s =>
      let u := msgAcked m s
      msgTaken m s && u.pwr.pace.group = some g && (others u g).contains m.srcM && m.addr % 2 ^ 32 = g.cfg.id
      && m.addr / 2 ^ 32 = groupDigest g.cfg) s := by
  refine ⟨0, pace7 0, { cfg := paceCfg0 }, grouped id upNet, rfl, rfl, ?_⟩
  show (_ && _) = true
  rw [Bool.and_eq_true, Bool.and_eq_true]
  exact ⟨⟨rfl, (addr_of_group _).1⟩, (addr_of_group _).2⟩

theorem test_pace_group_acts_2 : ∃ dt m g s, m.op = 0 ∧ m.operand < 2 ^ 8 ∧ bitsOf m.operand 7 5 ≤ 4 ∧ Held (.lagNotice dt m) dt (fun s =>
      let u := msgAcked m s
      msgTaken m s && u.pwr.pace.group = some g && (others u g).contains m.srcM && m.addr % 2 ^ 32 = g.cfg.id
      && m.addr / 2 ^ 32 = groupDigest g.cfg && !confMode u && !paceHeld u && !groupAlone u g
      && bitsOf m.operand 4 0 < u.pwr.pace.target) s := by
  refine ⟨0, pace7 (4 * 32 + 8), { cfg := paceCfg0 }, grouped id upNet, rfl, by decide, by decide, ?_⟩
  show (_ && _) = true
  simp only [Bool.and_eq_true]
  exact ⟨⟨⟨⟨⟨⟨⟨⟨rfl, rfl⟩, rfl⟩, (addr_of_group _).1⟩, (addr_of_group _).2⟩, rfl⟩, rfl⟩, rfl⟩, rfl⟩

theorem test_gauge_events_act_3 : ∃ dt b t s, (∀ m, b ≠ .mailbox m) ∧ b ≠ .pf0 ∧ Held (.readOnlyWrite dt 0 b t) dt (fun s => reachable s 0) s :=
  ⟨0, .power, false, up, nofun, nofun, by decide⟩

theorem test_gauge_events_act_4 : ∃ dt t s, Held (.readOnlyWrite dt 0 .pf0 t) dt (fun s => reachable s 0) s := ⟨0, false, up, by decide⟩

theorem test_gauge_events_act_5 : ∃ dt fn b t s, 1 ≤ fn ∧ fn ≤ 16 ∧ (∀ m, b ≠ .mailbox m) ∧ b ≠ .pf0 ∧ b ≠ .recorder ∧ Held (.readOnlyWrite dt fn b t) dt (fun s => reachable s fn && !ideRefused s fn t) s :=
  ⟨0, 16, .bench 251, false, up, by decide, by decide, nofun, nofun, by decide⟩

set_option maxRecDepth 8000 in
theorem test_gauge_events_act_7 : ∃ (s : State) (c b off : Nat), b < 252 ∧ off < 0x10000 ∧ blockOwner s (blockOf b) ≠ some c :=
  ⟨upCtx, 1, 251, 0xFF80, by decide, by decide, by decide⟩

set_option maxRecDepth 8000 in
theorem test_gauge_events_act_8 : ∃ a : Nat, (a < 0x100000 ∨ 0x180000 ≤ a ∧ a < 0x190000) :=
  ⟨0x180040, by decide⟩

/-! The hypotheses of the statements about the machine as a whole. -/

theorem meshBalanced_up : MeshBalanced up := fun _ c => ⟨by cases c <;> rfl, rfl⟩

/-- The module with an event and a command waiting. -/
def queued : State := { up with pending := [.ppsInEdge 0 3, .timGet (hd 0)] }

theorem meshBalanced_queued : MeshBalanced queued := meshBalanced_up

theorem test_step_runs_front : ∃ s : State, s.pending = [] := ⟨up, rfl⟩
theorem test_memory_stays_canonical : ∃ s t, MemoryCanonical s ∧ step s = .next t := ⟨queued, _, rfl, rfl⟩
theorem test_mesh_stays_balanced : ∃ s t, MeshBalanced s ∧ step s = .next t := ⟨queued, _, meshBalanced_queued, rfl⟩
theorem test_every_row_frame : ∃ i s t p, exec i s = .next t ∧ ¬ p ∈ mayChange i := ⟨.ppsInEdge 0 3, up, _, .mem, rfl, by decide⟩
theorem test_memory_frame : ∃ i s t, mayStore i = false ∧ exec i s = .next t := ⟨.ppsInEdge 0 3, up, _, rfl, rfl⟩
theorem test_stamps_only_rise_2 : ∃ (s : State) (l : Stamp), s.time.last = some l := ⟨inTime (fun t => { t with last := some ⟨9, 0xFFFF⟩ }) up, ⟨9, 0xFFFF⟩, rfl⟩
theorem test_stamps_only_rise_3 : ∃ m s, msgTaken m s = true := ⟨from7, upNet, by decide⟩
theorem test_rebuilt_stamp_is_unique : ∃ r low, 2 ^ 31 ≤ r ∧ low < 2 ^ 48 := ⟨2 ^ 31, 2 ^ 48 - 1, by decide, by decide⟩
theorem test_event_order_is_total_2 : ∃ a b c, eventLt a b = true ∧ eventLt b c = true :=
  ⟨(⟨1, 0⟩, 0, 0), (⟨1, 0⟩, 0, 1), (⟨1, 0⟩, 1, 0), by decide, by decide⟩
theorem test_event_order_is_total_3 : ∃ a b : Stamp × Nat × Nat, a ≠ b := ⟨(⟨1, 0⟩, 0, 0), (⟨1, 0⟩, 0, 1), by decide⟩
theorem test_doorbell_tail_0 : ∃ dt m tail counts ide s, m ≤ 16 ∧ Held (.mbxCmdTailWrite dt m tail counts ide) dt (fun s =>
      reachable s m && !resetting s m && !ideRefused s m ide && !quarantined s m
      && (2 ^ 31 ≤ (tail + 2 ^ 32 - (mbxOf s m).cmdTail) % 2 ^ 32 || 256 < (tail + 2 ^ 32 - (mbxOf s m).cmdHead) % 2 ^ 32)) s :=
  ⟨0, 0, 257, [], false, up, by decide, by decide⟩
theorem test_doorbell_tail_1 : ∃ dt m tail counts ide s, m ≤ 16 ∧ Held (.mbxCmdTailWrite dt m tail counts ide) dt (fun s =>
      reachable s m && !resetting s m && !ideRefused s m ide && !quarantined s m
      && (tail + 2 ^ 32 - (mbxOf s m).cmdTail) % 2 ^ 32 < 2 ^ 31 && (tail + 2 ^ 32 - (mbxOf s m).cmdHead) % 2 ^ 32 ≤ 256) s :=
  ⟨0, 16, 256, [2], false, inTray (fun t => { t with sriov := true }) up, by decide, by decide⟩
theorem test_doorbell_tail_2 : ∃ m s e r, (mbxOf s m).exposed = e :: r ∧ opKnown e.head.opcode = false ∧ reachable s m = true
      ∧ quarantined s m = false ∧ resetting s m = false ∧ mustWait s m e.head.fence = false ∧ boardAlone s = false ∧ inService s = false :=
  ⟨0, modMbx 0 (fun b => { b with exposed := [⟨⟨0, 0⟩, 1, ⟨0x0009, 1, false, 0, 0, true⟩, false⟩] }) up, _, _, rfl, by decide, by decide,
    by decide, by decide, by decide, by decide, by decide⟩

set_option maxRecDepth 20000 in
/-- R65, R72, R74, R80: a doorbell exposes two NOPs and a command with opcode 0x00FF between them: two are stamped and wait, since the first
stands before the unknown one. -/
theorem test_doorbell_exposes :
    let e (op tag : Nat) : List Byte := leBytes 2 op ++ leBytes 6 1 ++ leBytes 4 tag ++ leBytes 52 0
    let s := ring 0 3 (putEntries 0 (e 0 7 ++ e 0xFF 8 ++ e 0 9) up)
    (mbxOf s 0).exposed.map (fun x => (x.head.opcode, x.head.tag, x.head.lenOk, x.stamp.lc)) =
      [(0, 7, true, 0), (0xFF, 8, true, 1), (0, 9, true, 2)] := by decide

set_option maxRecDepth 20000 in
/-- R80: with the unknown command in front it is answered at once, and the next one stands in front. -/
theorem test_unknown_opcode :
    let e (op tag : Nat) : List Byte := leBytes 2 op ++ leBytes 6 1 ++ leBytes 4 tag ++ leBytes 52 0
    let s := ring 0 2 (putEntries 0 (e 0xFF 8 ++ e 0 9) up)
    (mbxOf s 0).exposed.map (·.head.tag) = [9] ∧ (mbxOf s 0).rsps.map (fun r => (r.status, r.tag)) = [(.badOpcode, 8)]
      ∧ (mbxOf s 0).violations = 1 := by decide

theorem test_staging_is_refused_0 : ∃ fid s, (funcOf s fid).state = .running ∨ (funcOf s fid).state = .stopping
      ∨ (funcOf s fid).state = .starting := ⟨fidPower, up, by decide⟩
theorem test_staging_is_refused_1 : ∃ (fid : Nat) (c : Call) (s : State), quiesced s fid = true ∧ (funcOf s fid).holder ≠ some c.mb :=
  ⟨fidPower, { (default : Call) with mb := 25 }, hold fidPower 0 up, by decide, by decide⟩
theorem test_staging_is_refused_2 : ∃ h m s, Met (.pwrSetDroop h m) h { op := 0x0905, who := who0Side } (fun _ s => !quiesced s fidPower) s :=
  ⟨hd 0, 4, up, met (by decide)⟩
theorem test_staging_is_refused_3 : ∃ h cfg s, Met (.paceGroupSet h cfg) h { op := 0x0910, who := who0Side }
      (fun c s => quiesced s fidPace && (funcOf s fidPace).holder ≠ some c.mb) s :=
  ⟨hd 0, paceCfg0, hold fidPace 25 up, met (by decide)⟩
theorem test_lots_stay_apart_0 : ∃ h c i e s, i < 256 ∧ e.extractLsb' 56 8 = 0 ∧ e.extractLsb' 46 3 = 0 ∧ lotValid e = true ∧
    Met (.lotSet h c i e) h { op := 0x0310, who := who0Own, ctx := some c, conf := true } (fun _ s =>
      ctxDefined s c && (ctxOf s c).state ≠ .destroying
      && (lotLimit e ≤ lotBase e || !lotReachable (lotBase e) (lotLimit e) || lotOverlaps s c i (lotBase e) (lotLimit e))) s :=
  ⟨hd 0, 0, 255, lotWord 7 9, upCtx, by decide, by decide, by decide, by decide, met (by decide)⟩
theorem test_lots_stay_apart_1 : ∃ h c i e s t, LotsApart s c ∧ c < 16 ∧ exec (.lotSet h c i e) s = .next t := by
  refine ⟨hd 0, 0, 1, lotWord 8 9, upCtx, _, ?_, by decide, rfl⟩
  intro i j hij hi hj
  have only : ∀ k, lotValid (tget (ctxOf upCtx 0).lots k 0) = true → k = 0 := by
    intro k hk
    cases k with
    | zero => rfl
    | succ n => exact absurd hk (by show ¬ lotValid 0 = true; decide)
  exact absurd ((only i hi).trans (only j hj).symm) hij
theorem test_limit_is_least_term : ∃ s, powerHeld s = false := ⟨up, by decide⟩
theorem test_energy_is_accounted : ∃ dt shares rest s t, (∀ x, x ∈ shares → x.ctx < 16) ∧
    contextEnergy s + s.pwr.input.unattributed = s.pwr.input.energy ∧ exec (.attributionPeriod dt shares rest) s = .next t :=
  ⟨0, [⟨15, [1, 2, 3, 4, 5]⟩], 6, modInput (fun i => { i with fine := 300000 }) up, _, by decide, by decide, rfl⟩
theorem test_elements_survive_encoding : ∃ code f b, floatFmt code = some f ∧ b < 2 ^ (1 + f.ebits + f.mbits) ∧ decodeElem code b ≠ .nan :=
  ⟨1, (floatFmt 1).getD default, 1, by decide, by decide, by decide⟩
theorem test_stored_bytes_are_read_0 : ∃ (l : List Byte) (s : State) (i : Nat), MemoryCanonical s ∧ i < l.length :=
  ⟨[1], up, 0, rfl, by decide⟩
theorem test_stored_bytes_are_read_1 : ∃ (a : Nat) (l : List Byte) (s : State) (b : Nat), MemoryCanonical s ∧ (b < a ∨ a + l.length ≤ b) :=
  ⟨0, [1], up, 1, rfl, by decide⟩
theorem test_stored_bytes_are_read_3 : ∃ dt vf off data t s b, Held (.bar4Write dt vf off data t) dt (fun s =>
      bar4Open s vf && !ideRefused s vf t && off + data.length ≤ 0x10000000000
      && lotPasses s (vf - 1) off data.length .w true && memoryWf s && s.mem.hidden.isEmpty && s.mem.chk.isEmpty
      && (List.range 16).all fun c => (ctxOf s c).oldPages.isEmpty) s
      ∧ (b < off / 16 * 16 ∨ (off + data.length + 15) / 16 * 16 ≤ b) ∧ tget s.mem.bkey (b / 256) 0 = keyFor s b :=
  ⟨0, 1, 16, [1, 2], true, upCtx, 32, by decide, by decide, by decide⟩

/-- An encode session's settings with a cap of exactly one picture without headers. -/
def tightPar (n : Nat) : EncPar := { encPar0 with rc := ⟨30, 30, 51, 1, n⟩ }
theorem test_picture_stays_in_budget_0 : ∃ (p : EncPar) (sizes : List Nat) (header : List Byte),
    (header.take (headerMax p)).length + skipSize p * ctbRows p ≤ pictureBudget p sizes := by
  refine ⟨tightPar (skipSize encPar0), [], [], ?_⟩
  rw [List.take_nil]
  show 0 + skipSize encPar0 * 1 ≤ skipSize encPar0 - 0 - minPicture encPar0 * 0
  omega
theorem test_picture_stays_in_budget_1 : ∃ (p : EncPar) (sizes : List Nat) (header : List Byte) (rows : List EncRow), rows.length = ctbRows p ∧ header.length ≤ headerMax p ∧
    header.length + sumOf (fun r => r.normal.length) rows + skipSize p * ctbRows p ≤ pictureBudget p sizes := by
  refine ⟨tightPar (2 + skipSize encPar0), [], [], [{ normal := [1, 2], atMax := [], skip := [] }], rfl, Nat.zero_le _, ?_⟩
  show 0 + 2 + skipSize encPar0 * 1 ≤ 2 + skipSize encPar0 - 0 - minPicture encPar0 * 0
  omega

/-! ### What is not well formed (R74, R446, R667) -/

/-- An XLT message and a DOWEL message that no longer fit with one field changed. -/
def msgBad (f : XMsg → XMsg) : Bool := msgOk blankMsg && !msgOk (f blankMsg) && !wellFormed (.helloClose 0 (f blankMsg))
def dowelBad (f : DowelMsg → DowelMsg) : Bool :=
  wellFormed (.dowelHold 0 (dowel7 0 0)) && !wellFormed (.dowelHold 0 (f (dowel7 0 0)))

theorem test_wf_ok : (wellFormed (.nop (hd 28)) && wellFormed (.helloClose 0 blankMsg) && wellFormed (.dowelHold 0 (dowel7 0 0))) = true := by decide
theorem test_wf_dt : (wellFormed (.bootRestart { hd 0 with dt := 2 ^ 64 }) || wellFormed (.trialExpiry (2 ^ 64))) = false := by decide
theorem test_wf_mailbox : (wellFormed (.nop (hd 29))) = false := by decide
theorem test_wf_tag : (wellFormed (.nop { hd 0 with tag := 2 ^ 32 })) = false := by decide
theorem test_wf_endpoint : (wellFormed (.nop { hd 0 with endpoint := 256 })) = false := by decide
theorem test_wf_msg_port : (msgBad (fun m => { m with port := 33 })) = true := by decide
theorem test_wf_msg_source : (msgBad (fun m => { m with srcM := 2 ^ 12 }) && msgBad (fun m => { m with srcC := 16 })) = true := by decide
theorem test_wf_msg_context : (msgBad (fun m => { m with dstC := 16 }) && msgBad (fun m => { m with lane := 2 ^ 14 })) = true := by decide
theorem test_wf_msg_seq : (msgBad (fun m => { m with seq := 2 ^ 32 }) && msgBad (fun m => { m with ack := 2 ^ 32 })) = true := by decide
theorem test_wf_msg_credit : (msgBad (fun m => { m with credit := 2 ^ 16 }) && msgBad (fun m => { m with tag := 2 ^ 14 })) = true := by decide
theorem test_wf_msg_op : (msgBad (fun m => { m with op := 256 }) && msgBad (fun m => { m with length := 4097 })) = true := by decide
theorem test_wf_msg_data : (msgBad (fun m => { m with data := List.replicate 4097 0 })) = true := by decide +kernel
theorem test_wf_msg_address : (msgBad (fun m => { m with addr := 2 ^ 44 }) && msgBad (fun m => { m with operand := 2 ^ 64 })) = true := by decide
theorem test_wf_dowel_port : (dowelBad (fun m => { m with port := 33 }) && dowelBad (fun m => { m with srcM := 2 ^ 12 })) = true := by decide
theorem test_wf_dowel_pair : (dowelBad (fun m => { m with ctx := 16 }) && dowelBad (fun m => { m with pairId := 2 ^ 32 })) = true := by decide
theorem test_wf_dowel_epoch : (dowelBad (fun m => { m with epoch := 2 ^ 32 }) && dowelBad (fun m => { m with field := 2 ^ 32 })) = true := by decide

/-! ### The manual's worked examples -/

/-- Chapter 01: bench 251's store. -/
theorem test_bench_base : benchBase 251 = 0x9001F600000 := by decide

/-- Chapter 02, under R26: T = 960, L = 955:0 and a message of stamp 1,000:0; then a doorbell at 985 and a token at 1,003. -/
def late : State := inTime (fun t => { t with t := 960, last := some ⟨955, 0⟩ }) up
def received : Stamp × State := issueStamp (causal ⟨1000, 0⟩ late)
def doorbell : Stamp × State := issueStamp (inTime (fun t => { t with t := 985 }) received.2)
theorem test_receive_stamp : received.1 = ⟨1000, 1⟩ := by decide
theorem test_doorbell_stamp : doorbell.1 = ⟨1000, 2⟩ ∧ (issueStamp (inTime (fun t => { t with t := 1003 }) doorbell.2)).1 = ⟨1003, 0⟩ := by
  decide

/-- Chapter 02: the read-only weight lot [0x040_0000_0000, 0x041_4AE0_0000). -/
def weightLot : Word := BitVec.ofNat 64 (2 ^ 49 + 0x20A57 * 2 ^ 23 + 0x20000) ||| (lotWord 0 0 &&& BitVec.ofNat 64 (0x81 * 2 ^ 48))
theorem test_lot_last_read : lotCovers weightLot 0x0414ADFFF00 256 = true ∧ lotCovers weightLot 0x0414AE00000 256 = false := by decide
theorem test_lot_rights : lotGrants weightLot .r = true ∧ lotGrants weightLot .w = false := by decide

/-- Chapter 03, changing the PTP port: port 9 does not exist among eight ports, so the start fails with BAD_ARG and 0x0D02. -/
def ptpPort (n : Nat) : State :=
  inNet (fun x => { x with modes := [(0, 1)] }) (modFunc fidTime (fun f => { f with staged := [.timPtp ⟨n, .boundary, 0, .ethernet, false⟩] }) up)
theorem test_ptp_port_9 : (checkStart (ptpPort 9) fidTime none).map (fun f => (f.status, f.op)) = some (.badArg, 0x0D02) := by decide
theorem test_ptp_port_5 : checkStart (ptpPort 5) fidTime none = none := by decide

/-- Chapter 04, under R127: the pairs that the walk needs, and what it lacks without the last. -/
def comps (epochs : List Nat) : List Component := epochs.map fun e => { version := e, epoch := e, hash := 0 }
def oldSet : List Component := comps [3, 2, 5, 4, 7, 7]
def newSet : List Component := comps [3, 3, 5, 4, 8, 8]
theorem test_walk_pairs : walkChecks oldSet newSet [⟨1, 3, 4, 7⟩, ⟨1, 3, 5, 7⟩, ⟨4, 8, 5, 7⟩] [1, 4, 5] = true := by decide
theorem test_walk_lacks_a_pair : walkChecks oldSet newSet [⟨1, 3, 4, 7⟩, ⟨1, 3, 5, 7⟩] [1, 4, 5] = false := by decide

/-- Chapter 05: a write of bench 251 at (15, 15) to yard 0 goes to crossing (0, 2), first west, then north, then by the yard link. -/
theorem test_mesh_destination : writeDest 0x00000123A00 = some (2, 5) ∧ benchSite 251 = 255 := by decide
theorem test_mesh_route : routeOut 255 2 5 = 3 ∧ routeOut (15 * 16 + 2) 2 5 = 0 ∧ routeOut 2 2 5 = 5 := by decide

/-- Chapter 06: 5.3, −0.7 and 2.5 in MXFP4 (given in FP32), and a block whose largest magnitude is 0.09. -/
def mx4 (l : List Nat) : Nat × List Nat := let r := mxQuantise 0x0E (fun _ => .nearest) (l.map ofF32); (r.1, r.2.map (·.bits))
theorem test_mxfp4_block : mx4 [0x40A9999A, 0xBF333333, 0x40200000] = (0x7F, [0x7, 0x9, 0x4]) := by decide +kernel
theorem test_mxfp4_small : mx4 [0x3DB851EC] = (0x79, [0x7]) := by decide +kernel
/-- R199: the largest FP8_E4M3 value is 448. -/
theorem test_e4m3_largest : numEq (decodeElem 0x02 0x7E) (.fin false 448 0) = true := by decide

/-- Chapter 07: data symbol 20 holding 5 has the check bits 0xF73D, and an error of 5 in it is found. -/
theorem test_check_bits : encodeCheck (5 * 16 ^ 20) = 0xF73D := by decide +kernel
theorem test_error_found : outcomeOf 0xF73D = .corrected 20 5 := by decide +kernel

/-- Chapter 10, under R410: a draft that never agrees from k = 4. -/
def never : Nat → State → State
  | 0, s => s
  | n + 1, s => never n (adaptDraft 0 0 (modReq 0 (fun r => { r with verified := some (r.k, 0) }) s))
def drafting : State := asking (fun r => { r with k := 4 }) upServe
theorem test_draft_halves : (reqOf (never 3 drafting) 0).k = 4 ∧ (reqOf (never 4 drafting) 0).k = 2 ∧ (reqOf (never 8 drafting) 0).k = 1 := by
  decide +kernel
theorem test_draft_probe : (reqOf (never 12 drafting) 0).k = 0 ∧ (reqOf (never 42 drafting) 0).probeIn = 1
    ∧ (reqOf (never 43 drafting) 0).probeIn = 0 := by decide +kernel

/-- Chapter 13: a cap cut from 750 W to 450 W at level 24, S = 180 W and 540 W dynamic; the fitted level and the issue-rate limit. -/
def cut : State := inPace (fun p => { p with ps := 450, sFit := some 180, uniform := some ⟨47, 540, 24, false⟩, level := 24, target := 24 }) up
theorem test_cap_cut_level : powerLevel cut = 13 := by decide +kernel
theorem test_cap_cut_percent : percentFor 180 540 (450 * 97 / 100) = 47 := by decide +kernel
/-- Chapter 13: the thermal limit at 108.5 °C (in steps of 0.25 °C), and the flow limit at 0.9 L/min. -/
theorem test_thermal_limit : thermalLimit 434 = 75 := by decide
theorem test_flow_limit : flowLimit (modCool (fun c => { c with flowLow := true, flows := [900] }) up) = 613 := by decide +kernel
/-- R531: level 24 is 0.800 V, level 13 is 0.6625 V. -/
theorem test_setpoints : setpoint 24 = 8000 ∧ setpoint 13 = 6625 := by decide
/-- Chapter 12: a scene change under a budget of 90,000 bytes: rows of 6,000 bytes, or 2,100 at the largest quantiser. -/
theorem test_picture_under_the_cap (n m h : List Byte) (hn : n.length = 6000) (hm : m.length = 2100) (hh : h.length = 96) :
    let scene := codeRows 90000 8 (fun _ => { normal := n, atMax := m, skip := [] }) 17 0 { bytes := h }
    scene.bytes.length = 88304 ∧ scene.maxRows = 2 ∧ scene.skipRows = 1 := by
  simp [codeRows, codeRow, skipRow, hn, hm, hh]

/-- Chapter 07: local address 0x052_3456_78A0 by R247, and data symbol 20 of its codeword by R248. -/
theorem test_dram_address : dramOf 0x052345678A0 =
    { group := 5, rank := 1, bankGroup := 0, bank := 2, row := 18058, column := 30, codeword := 10, byte_ := 0xA0 } := by decide
theorem test_symbol_lane : symbolLane 20 10 0 = (5, 8, 8) ∧ symbolLane 20 10 3 = (5, 8, 11) := by decide

/-- Chapter 08, under R306: of the six-column tiles of a 30-column map (d = 18, zero padding 18) columns 12 to 17 alone are centre-only. -/
theorem test_centre_only : ([0, 6, 12, 18, 24].map fun o => onlyCentre 30 18 3 18 1 (o, o + 6)) = [false, false, true, false, false] := by decide
/-- Chapter 08, R308, R309: rows 4 to 7 of a 3 × 3 convolution with stride 2 and one row of padding own input rows 7 to 14 and need row 15. -/
theorem test_tile_rows : cutOf 544 272 1 2 3 (4, 8) = { out := (4, 8), own := (7, 15), halo := (15, 16) } := by decide

/-- R357, R358: a row with one visible key gives that key's V row exactly; a row that sees no key is flagged, with m = −∞ and l = +0. -/
theorem test_single_key : (attRow 2 1 0 1 1 0 [(0, 1)] (fun _ => true) (fun _ => .fin false 5 0)
    fun _ => ⟨[.fin false 3 0, .fin true 1 0], 128⟩).out.map toF32 = [0x40C00000, 0xC0000000] := by decide
theorem test_empty_row : statsRecord (emptyRow 2 false 1) =
    [0, 0, 0x80, 0xFF, 0, 0, 0, 0, 0, 0, 0, 0, 9, 0, 0, 0] := by decide

/-- Chapter 16, under R710: the image for mailbox 0 holds 323 records. -/
theorem test_image_records : (snapUnits up ⟨0, ⟨0, 0⟩, 62, .host 0, 0, none, false, none⟩).length = 323 := by decide +kernel

/-- The example vectors of the standards that R270 names: FIPS 197 for AES-256 and GB/T 32907 for SM4, as strings of bytes. -/
def asString (n k : Nat) : Nat := leNat (leBytes k n).reverse
theorem test_aes_vector : aesEncrypt (asString 0x000102030405060708090a0b0c0d0e0f101112131415161718191a1b1c1d1e1f 32)
    (asString 0x00112233445566778899aabbccddeeff 16) = asString 0x8ea2b7ca516745bfeafc49904b496089 16 := by decide +kernel
theorem test_sm4_vector : sm4Encrypt (asString 0x0123456789abcdeffedcba9876543210 16) (asString 0x0123456789abcdeffedcba9876543210 16)
    = asString 0x681edf34d206965e86b3e94f536e4246 16 := by decide +kernel

/-- Chapter 17: a loop that delivers 1.0 L/min passes 40 kPa and holds the module at 681 W. -/
theorem test_loop_at_1_l : coolantPressure 1000 = 400 ∧ flowLimit (modCool (fun c => { c with flowLow := true, flows := [1000] }) up) = 681 := by
  decide +kernel

end Sys2Proof.Tests
end

section
/-! SUPPORT. The order of recorded events (R37) as the field-by-field order of its key's four numbers. -/
namespace Sys2Proof.Machine

/-- R5: stamps compare by nanoseconds, then by logical count. -/
theorem stampLt_iff (a b : Stamp) : stampLt a b = true ↔ a.ns < b.ns ∨ a.ns = b.ns ∧ a.lc < b.lc := by
  simp only [stampLt, Bool.or_eq_true, Bool.and_eq_true, decide_eq_true_eq]

theorem stamp_eq_iff (a b : Stamp) : a = b ↔ a.ns = b.ns ∧ a.lc = b.lc := by
  obtain ⟨ns, lc⟩ := a
  obtain ⟨ns', lc'⟩ := b
  exact Iff.of_eq (Stamp.mk.injEq ns lc ns' lc')

/-- R37: keys compare by stamp, then module number, then source sequence. -/
theorem eventLt_iff_stamp (a b : Stamp × Nat × Nat) : eventLt a b = true ↔
    stampLt a.1 b.1 = true ∨ a.1 = b.1 ∧ (a.2.1 < b.2.1 ∨ a.2.1 = b.2.1 ∧ a.2.2 < b.2.2) := by
  simp only [eventLt, Bool.or_eq_true, Bool.and_eq_true, decide_eq_true_eq]

/-- R5, R37: with the stamp taken apart, the key's four numbers compare field by field. -/
theorem eventLt_iff (a b : Stamp × Nat × Nat) : eventLt a b = true ↔
    a.1.ns < b.1.ns ∨ a.1.ns = b.1.ns ∧ (a.1.lc < b.1.lc ∨ a.1.lc = b.1.lc ∧
      (a.2.1 < b.2.1 ∨ a.2.1 = b.2.1 ∧ a.2.2 < b.2.2)) := by
  rw [eventLt_iff_stamp, stampLt_iff, stamp_eq_iff]
  omega

theorem eventLt_irrefl (a : Stamp × Nat × Nat) : eventLt a a = false := by
  rw [Bool.eq_false_iff, Ne, eventLt_iff]
  omega

/-- The first field in which either step differs decides the comparison of the outer keys. -/
theorem eventLt_trans {a b c : Stamp × Nat × Nat} (hab : eventLt a b = true) (hbc : eventLt b c = true) :
    eventLt a c = true := by
  rw [eventLt_iff] at hab hbc ⊢
  omega

/-- Keys of which neither comes before the other agree in every field. -/
theorem eq_of_not_eventLt {a b : Stamp × Nat × Nat} (hab : ¬ eventLt a b = true) (hba : ¬ eventLt b a = true) : a = b := by
  rw [eventLt_iff] at hab hba
  have hstamp : a.1 = b.1 := (stamp_eq_iff a.1 b.1).2 (by omega)
  have hmodule : a.2.1 = b.2.1 := by omega
  have hsequence : a.2.2 = b.2.2 := by omega
  exact Prod.ext hstamp (Prod.ext hmodule hsequence)

theorem eventLt_or_eventLt_of_ne {a b : Stamp × Nat × Nat} (h : a ≠ b) : eventLt a b = true ∨ eventLt b a = true :=
  Decidable.by_contra fun hn => h (eq_of_not_eventLt (fun hab => hn (.inl hab)) fun hba => hn (.inr hba))

/-- Settles O53: the order is that of the key's four numbers, each of which is linearly ordered. -/
theorem eventOrderIsTotal : Obligations.EventOrderIsTotal :=
  ⟨eventLt_iff, eventLt_irrefl, fun _ _ _ => eventLt_trans, fun _ _ => eventLt_or_eventLt_of_ne⟩

end Sys2Proof.Machine
end

section
/-! SUPPORT. The serving events (chapters 05, 08 and 10): a returned ring index, the end of a step by the outcome of its work, the
occasions of a boundary, and the end of a run. -/
namespace Sys2Proof.Machine

/-! ### Returned ring indices -/

/-- R405: PF0, which no IDE rule of R623 refuses, returns an index of a HOST ring of a context that is not confidential. -/
theorem exec_reqRingConsWrite_pf0 {dt n v c : Nat} {ideT : Bool} {r : Ring} {s : State} (hkind : r.par.kind = 1)
    (hlink : (advance dt s).tray.linkUp = true) (hctx : ringCtx (advance dt s) n = some c) (hconf : isConf (advance dt s) c = false)
    (hring : ringOf (advance dt s) c n = some r) :
    exec (.reqRingConsWrite dt 0 n v ideT) s = .next (returnIndex c n (v % 2 ^ 32) (advance dt s)) := by
  have hexec : exec (.reqRingConsWrite dt 0 n v ideT) s = execReqRingConsWrite dt 0 n v ideT s := rfl
  have hide : ideRefused (advance dt s) 0 ideT = false := rfl
  simp [hexec, execReqRingConsWrite, event, hlink, hide, hctx, hconf, hring, hkind]

/-! ### The end of a step -/

/-- R416: the answer of a training step's VEN_TRAIN, which is the first of the step's items; the other kinds of step answer no command. -/
def trainAnswer (c : Nat) (p : Step) (code : Nat) (st : Status) (s : State) : State :=
  match p.kind, p.items with
  | .training, (id, _) :: _ =>
    finish .venTrain id st (if code = 0 then [] else [⟨2, code⟩])
      (modServe c (fun y => { y with training := y.training.filter fun t => t.1 ≠ id }) s)
  | _, _ => s

theorem trainAnswer_of_ne_training {p : Step} (hkind : p.kind ≠ .training) (c code : Nat) (st : Status) (s : State) :
    trainAnswer c p code st s = s := by
  unfold trainAnswer
  split
  · exact absurd ‹p.kind = .training› hkind
  · rfl

theorem trainAnswer_training {p : Step} {id slot : Nat} {rest : List (Nat × Nat)} (hkind : p.kind = .training)
    (hitems : p.items = (id, slot) :: rest) (c : Nat) (st : Status) (s : State) :
    trainAnswer c p 0 st s =
      finish .venTrain id st [] (modServe c (fun y => { y with training := y.training.filter fun t => t.1 ≠ id }) s) := by
  simp [trainAnswer, hkind, hitems]

theorem stepHist_training {p : Step} (hkind : p.kind = .training) (s : State) : stepHist p s = [] :=
  if_pos hkind

section
variable {dt c : Nat} {outs : List StepOut} {fate : StepFate} {work : StepWork} {p : Step} {s t : State}

theorem exec_stepEnd : exec (.stepEnd dt c outs fate work) s = execStepEnd dt c outs fate work s := rfl

/-- R391: the step's work ended FAULTED, so the step does, with the code of the run that faulted first. -/
theorem exec_stepEnd_faulted {code addr : Nat} (hstep : (serveOf (advance dt s) c).step = some p)
    (hwork : workDone c p work.att fate (stepOver c p (advance dt s)) = (.faulted code addr, t)) :
    exec (.stepEnd dt c outs fate work) s = .next (trainAnswer c p (p.fault.getD code) .faulted
      (stepFaults c (p.fault.getD code) addr p
        (if code = 0x4104 && p.fault.isNone && work.att.isEmpty then stepPoison c p addr t else t))) := by
  simp only [exec_stepEnd, execStepEnd, event, hstep, hwork]
  rfl

/-- R391: the step's work ended well, but one of its runs had ended FAULTED. -/
theorem exec_stepEnd_runFault {code : Nat} (hstep : (serveOf (advance dt s) c).step = some p)
    (hwork : workDone c p work.att fate (stepOver c p (advance dt s)) = (.ok, t)) (hrun : p.fault = some code) :
    exec (.stepEnd dt c outs fate work) s = .next (trainAnswer c p code .faulted (stepFaults c code p.faultAddr p t)) := by
  simp only [exec_stepEnd, execStepEnd, event, hstep, hwork, hrun]
  rfl

/-- R391, R392: the work and the runs ended well, but the settlement meets a bad word in the history `a`. -/
theorem exec_stepEnd_badHistory {a : Nat × Nat} (hstep : (serveOf (advance dt s) c).step = some p)
    (hwork : workDone c p work.att fate (stepOver c p (advance dt s)) = (.ok, t)) (hrun : p.fault = none)
    (hhist : (stepHist p t).find? (fun a => rangeBad t a.1 a.2) = some a) :
    exec (.stepEnd dt c outs fate work) s =
      .next (trainAnswer c p 0x4104 .faulted (stepFaults c 0x4104 a.1 p (squareReads (stepHist p t) t))) := by
  simp only [exec_stepEnd, execStepEnd, event, hstep, hwork, hrun, hhist]
  rfl

/-- R397, R409, R699: a decode or prefill step that meets no fault settles its requests; a decode step notes the slots it wasted. -/
theorem exec_stepEnd_served (hkind : p.kind ≠ .training) (hstep : (serveOf (advance dt s) c).step = some p)
    (hwork : workDone c p work.att fate (stepOver c p (advance dt s)) = (.ok, t)) (hrun : p.fault = none)
    (hhist : (stepHist p t).find? (fun a => rangeBad t a.1 a.2) = none) :
    exec (.stepEnd dt c outs fate work) s = .next (
      let done := settleStep c p outs (modModel c p.model (fun m => { m with faultRun := 0 }) (squareReads (stepHist p t) t))
      let most := p.items.foldl (fun a i => max a ((reqOf done i.1).out.filter fun t => bitOf t.flags 4).length) 0
      if p.kind = .decode then
        modServe c (fun y => { y with waste := wastedSlots (p.items.foldl (fun a i => max a i.2) 0) most p.done }) done
      else done) := by
  simp only [exec_stepEnd, execStepEnd, event, hstep, hwork, hrun, hhist, if_neg hkind]

/-- R416: a training step, which reads no history, updates the slot of its item and answers. -/
theorem exec_stepEnd_trained {id slot : Nat} {rest : List (Nat × Nat)} (hkind : p.kind = .training)
    (hitems : p.items = (id, slot) :: rest) (hstep : (serveOf (advance dt s) c).step = some p)
    (hwork : workDone c p work.att fate (stepOver c p (advance dt s)) = (.ok, t)) (hrun : p.fault = none) :
    exec (.stepEnd dt c outs fate work) s = .next (trainAnswer c p 0 .ok
      (trainSlot slot work.update (modModel c p.model (fun m => { m with faultRun := 0 }) t))) := by
  have hhist : stepHist p t = [] := stepHist_training hkind t
  rw [trainAnswer_training hkind hitems]
  simp only [exec_stepEnd, execStepEnd, event, hstep, hwork, hrun, hhist, List.find?_nil, squareReads, List.foldl_nil, hkind, hitems,
    List.head?_cons, Option.elim_some, if_true]

end

/-! ### The occasions of a boundary -/

theorem exec_stepBoundary (dt c : Nat) (tails : List (Nat × Nat × Nat × Nat)) (s : State) :
    exec (.stepBoundary dt c tails) s = .next (
      if (serveOf (advance dt s) c).boundaryDue && boundaryFirst (advance dt s) c then boundary c tails (advance dt s)
      else advance dt s) := rfl

theorem exec_idleBoundaryTimer (dt c : Nat) (tails : List (Nat × Nat × Nat × Nat)) (s : State) :
    exec (.idleBoundaryTimer dt c tails) s = .next (
      if hasLive (advance dt s) c && (serveOf (advance dt s) c).step.isNone && inTurn (advance dt s) c
        && (serveOf (advance dt s) c).boundaryNs + 1000000 ≤ now (advance dt s) then boundary c tails (advance dt s)
      else advance dt s) := rfl

theorem exec_tableChangeBoundary (dt c : Nat) (tails : List (Nat × Nat × Nat × Nat)) (s : State) :
    exec (.tableChangeBoundary dt c tails) s = .next (
      if (serveOf (advance dt s) c).changed && (serveOf (advance dt s) c).step.isNone && inTurn (advance dt s) c then
        boundary c tails (advance dt s)
      else advance dt s) := rfl

/-! ### The end of a run -/

/-- R174, R373: a run that has ended continues the step that it belongs to. -/
theorem exec_runEnd_ended {dt id : Nat} {r : Run} {s : State} (hrun : runOf (advance dt s) id = some r)
    (hended : (runOf (endRun id (advance dt s)) id).isNone = true) :
    exec (.runEnd dt id) s = .next (stepRunEnded r (endRun id (advance dt s))) := by
  have hexec : exec (.runEnd dt id) s = execRunEnd dt id s := rfl
  simp only [hexec, execRunEnd, event, hrun, if_pos hended]

/-- Settles O22: each row by its own equation; of a step's end, the outcome of its work, the fault of its runs and the bad word of a
history are looked at in this order, and a step that is not a training step answers no command. -/
theorem servingEventsAct : Obligations.ServingEventsAct := by
  unfold Obligations.ServingEventsAct
  refine ⟨?ring, ?served, ?trained, ?faulted, ?runFault, ?badHistory, ?boundaryInTurn, ?boundaryNotFirst, ?idle, ?changed, ?run⟩
  case ring =>
    intro dt n v c r hkind s h
    simp only [Bool.and_eq_true, decide_eq_true_eq, Bool.not_eq_true'] at h
    obtain ⟨⟨⟨hlink, hctx⟩, hconf⟩, hring⟩ := h
    exact exec_reqRingConsWrite_pf0 hkind hlink hctx hconf hring
  case served =>
    intro dt c outs work p hkind s h
    simp only [Bool.and_eq_true, decide_eq_true_eq, Bool.not_eq_true', Option.isNone_iff_eq_none] at h
    obtain ⟨⟨⟨hstep, hrun⟩, hok⟩, hclean⟩ := h
    exact exec_stepEnd_served hkind hstep (Prod.ext hok rfl) hrun
      (List.find?_eq_none.2 (List.any_eq_false.1 hclean))
  case trained =>
    intro dt c outs work p id slot rest hkind hitems s h
    simp only [Bool.and_eq_true, decide_eq_true_eq, Option.isNone_iff_eq_none] at h
    obtain ⟨⟨hstep, hrun⟩, hok⟩ := h
    rw [exec_stepEnd_trained hkind hitems hstep (Prod.ext hok rfl) hrun, trainAnswer_training hkind hitems]
  case faulted =>
    intro dt c outs fate work p code addr hkind s h
    simp only [Bool.and_eq_true, decide_eq_true_eq] at h
    obtain ⟨hstep, hfaulted⟩ := h
    rw [exec_stepEnd_faulted hstep (Prod.ext hfaulted rfl), trainAnswer_of_ne_training hkind]
  case runFault =>
    intro dt c outs work p code hkind hrun s h
    simp only [Bool.and_eq_true, decide_eq_true_eq] at h
    obtain ⟨hstep, hok⟩ := h
    rw [exec_stepEnd_runFault hstep (Prod.ext hok rfl) hrun, trainAnswer_of_ne_training hkind]
  case badHistory =>
    intro dt c outs work p a hkind hrun s h
    simp only [Bool.and_eq_true, decide_eq_true_eq] at h
    obtain ⟨⟨hstep, hok⟩, hbad⟩ := h
    rw [exec_stepEnd_badHistory hstep (Prod.ext hok rfl) hrun hbad, trainAnswer_of_ne_training hkind]
  case boundaryInTurn =>
    intro dt c tails s h
    rw [exec_stepBoundary, if_pos h]
  case boundaryNotFirst =>
    intro dt c tails s h
    have hnot : boundaryFirst (advance dt s) c = false := by simpa using h
    simp only [exec_stepBoundary, hnot, Bool.and_false, Bool.false_eq_true, if_false]
  case idle =>
    intro dt c tails s h
    rw [exec_idleBoundaryTimer, if_pos h]
  case changed =>
    intro dt c tails s h
    rw [exec_tableChangeBoundary, if_pos h]
  case run =>
    intro dt id r s h
    simp only [Bool.and_eq_true, decide_eq_true_eq] at h
    obtain ⟨hrun, hended⟩ := h
    exact exec_runEnd_ended hrun hended

end Sys2Proof.Machine
end

section
/-! SUPPORT. Statements about commands and events from an equation of their rows: a command that is taken is what its own meaning
answers, and an event is what it does once its time has passed. -/
namespace Sys2Proof.Machine

theorem serves_of_command {i : Instr} {h : Hdr} {p : Spec} {body f : Call → State → Ans} {pre : Call → State → Bool}
    (hexec : ∀ s, exec i s = .next (command h p body s)) (hbody : ∀ c s, pre c s = true → body c s = f c s) :
    Serves i h p pre f := by
  intro s c s' htaken hpre
  rw [hexec, command_of_taken htaken, hbody c s' hpre]

theorem occurs_of_event {i : Instr} {dt : Nat} {body f : State → State} {pre : State → Bool}
    (hexec : ∀ s, exec i s = .next (event dt body s)) (hbody : ∀ s, pre s = true → body s = f s) : Occurs i dt pre f := by
  intro s hpre
  rw [hexec, event, hbody _ hpre]

theorem reaches_of_event {i : Instr} {dt : Nat} {body : State → State} {pre : State → Bool} {post : State → State → Prop}
    (hexec : ∀ s, exec i s = .next (event dt body s)) (hbody : ∀ s, pre s = true → post s (body s)) : Reaches i dt pre post :=
  fun s hpre => ⟨body (advance dt s), hexec s, hbody _ hpre⟩

/-- R63, R735: what the sideband does while the keep-alive supply runs. -/
theorem occurs_of_sideEvent {i : Instr} {dt : Nat} {body f : State → State} {pre : State → Bool}
    (hexec : ∀ s, exec i s = .next (sideEvent dt body s)) (hon : ∀ s, pre s = true → sideOn s = true)
    (hbody : ∀ s, pre s = true → body s = f s) : Occurs i dt pre f :=
  occurs_of_event hexec fun s hpre => by rw [← hbody s hpre]; exact if_pos (hon s hpre)

end Sys2Proof.Machine
end

section
/-! SUPPORT. Staging (R86): which refusal the one staging operation answers. -/
namespace Sys2Proof.Machine

theorem stage_badState {fid : Nat} {s : State} (hstate : (funcOf s fid).state = .running ∨ (funcOf s fid).state = .stopping
    ∨ (funcOf s fid).state = .starting) (x : Staged) (c : Call) : stage fid x c s = no s .badState := by
  refine if_pos ?_
  simpa only [Bool.or_eq_true, decide_eq_true_eq, or_assoc] using hstate

theorem quiesced_eq_false_iff (s : State) (fid : Nat) : quiesced s fid = false ↔
    (funcOf s fid).state = .running ∨ (funcOf s fid).state = .stopping ∨ (funcOf s fid).state = .starting := by
  unfold quiesced
  cases (funcOf s fid).state <;> decide

theorem stage_busy {fid : Nat} {c : Call} {s : State} (hquiesced : quiesced s fid = true) (hholder : (funcOf s fid).holder ≠ some c.mb)
    (x : Staged) : stage fid x c s = no s .busy := by
  have hstate : ¬((funcOf s fid).state = .running ∨ (funcOf s fid).state = .stopping ∨ (funcOf s fid).state = .starting) := by
    rw [← quiesced_eq_false_iff, hquiesced]
    decide
  unfold stage
  rw [if_neg (by simpa only [Bool.or_eq_true, decide_eq_true_eq, or_assoc] using hstate), if_pos hholder]

/-- Settles O55: PWR_SET_DROOP and PACE_GROUP_SET are the staging operation itself, of POWER and of PACE_GROUP. -/
theorem stagingIsRefused : Obligations.StagingIsRefused := by
  unfold Obligations.StagingIsRefused
  refine ⟨fun fid x c s h => stage_badState h x c, fun fid x c s hq hh => stage_busy hq hh x, ?droop, ?pace⟩
  case droop =>
    intro h m
    refine serves_of_command (fun _ => rfl) fun c s hpre => stage_badState ?_ _ c
    exact (quiesced_eq_false_iff s fidPower).1 (by simpa using hpre)
  case pace =>
    intro h cfg
    refine serves_of_command (fun _ => rfl) fun c s hpre => ?_
    simp only [Bool.and_eq_true, decide_eq_true_eq] at hpre
    exact stage_busy hpre.1 hpre.2 _

end Sys2Proof.Machine
end

section
/-! SUPPORT. The mailboxes (chapter 03): the general commands, the registers of a mailbox page, and what stands next with an unknown
opcode. -/
namespace Sys2Proof.Machine

/-! ### General commands -/

/-- R78: a binding that MBX_BIND accepts names another module, and, for a context, one of the sixteen. -/
theorem bindOk_eq (s : State) (m : Nat) (b : Option Binding) : bindOk s m b =
    (17 ≤ m && m ≤ 24 && b.elim true fun x => x.peer ≤ 4094 && x.peer ≠ moduleNo s && (match x.role with
      | .admin => true
      | .context c => c < 16)) := by
  unfold bindOk
  rcases b with _ | ⟨peer, _ | c⟩ <;> simp

/-- Settles O3: each row by its own meaning, with the refusals that the conditions exclude. -/
theorem generalCommandsComplete : Obligations.GeneralCommandsComplete := by
  unfold Obligations.GeneralCommandsComplete
  refine ⟨fun h => ?nop, fun h => ?info, fun h => ?status, fun h => ?state, fun h mask => ?mask, fun h m b => ?bind,
    fun h m => ?unquarantine, fun h n => ?number⟩
  case nop => exact serves_of_command (fun _ => rfl) fun _ _ _ => rfl
  case info => exact serves_of_command (fun _ => rfl) fun _ _ _ => rfl
  case status => exact serves_of_command (fun _ => rfl) fun _ _ _ => rfl
  case state => exact serves_of_command (fun _ => rfl) fun _ _ _ => rfl
  case mask =>
    refine serves_of_command (fun _ => rfl) fun c s hpre => if_neg ?_
    have hmask : mask < 64 := by simpa using hpre
    omega
  case bind =>
    refine serves_of_command (fun _ => rfl) fun c s hpre => if_pos ?_
    rw [bindOk_eq]
    exact hpre
  case unquarantine =>
    refine serves_of_command (fun _ => rfl) fun c s hpre => if_neg ?_
    have hm : m ≤ 31 := by simpa using hpre
    omega
  case number =>
    refine serves_of_command (fun _ => rfl) fun c s hpre => ?_
    rw [Bool.and_eq_true, decide_eq_true_eq] at hpre
    obtain ⟨hn, hports⟩ := hpre
    rw [if_neg (by omega), if_pos hports]

/-! ### Mailbox pages -/

/-- R66: entries that the host writes change a mailbox in its ring alone, which moves no index. -/
theorem mbxOf_putEntries (m : Nat) (w : List Byte) (s : State) : mbxOf (putEntries m w s) m =
    { mbxOf s m with ring := writeRing (mbxOf s m).cmdTail (w.take 0x4000) (mbxOf s m).ring } := by
  unfold putEntries
  rw [mbxOf_modMbx, if_pos rfl]

theorem quarantined_putEntries (m : Nat) (w : List Byte) (s : State) : quarantined (putEntries m w s) m = quarantined s m := by
  unfold quarantined
  rw [mbxOf_putEntries]
  rfl

theorem resetting_putEntries (m : Nat) (w : List Byte) (s : State) : resetting (putEntries m w s) m = resetting s m := by
  unfold resetting
  rw [mbxOf_putEntries]
  rfl

theorem tailBad_putEntries (m tail : Nat) (w : List Byte) (s : State) :
    tailBad (mbxOf (putEntries m w s) m) tail = tailBad (mbxOf s m) tail := by
  rw [mbxOf_putEntries]
  rfl

/-- R65, R72: the doorbell after the entries that it exposes counts from the tail before them. -/
theorem ring_putEntries (m tail : Nat) (w : List Byte) (s : State) : ring m tail (putEntries m w s) =
    skipUnknown m (expose m ((tail + 2 ^ 32 - (mbxOf s m).cmdTail) % 2 ^ 32) (takeInput (.doorbell m tail) (putEntries m w s))) := by
  unfold ring
  rw [mbxOf_putEntries]

/-- R65, R69: on a page that takes it, a doorbell is looked at once the entries stand in the ring. -/
theorem exec_mbxCmdTailWrite {dt m : Nat} {ide : Bool} {s : State} (hm : m ≤ 16) (hreach : reachable (advance dt s) m = true)
    (hreset : resetting (advance dt s) m = false) (hide : ideRefused (advance dt s) m ide = false)
    (hquar : quarantined (advance dt s) m = false) (tail : Nat) (w : List Byte) :
    exec (.mbxCmdTailWrite dt m tail w ide) s = .next (
      if tailBad (mbxOf (advance dt s) m) tail then violation m (putEntries m w (advance dt s))
      else ring m tail (putEntries m w (advance dt s))) := by
  have hexec : exec (.mbxCmdTailWrite dt m tail w ide) s = execMbxCmdTailWrite dt m tail w ide s := rfl
  have hpage : ¬16 < m := by omega
  simp [hexec, execMbxCmdTailWrite, event, hpage, hreach, hide, resetting_putEntries, hreset, quarantined_putEntries, hquar,
    tailBad_putEntries]

/-- R69: the two ways in which a tail is bad. -/
theorem tailBad_eq_false_iff (b : Mailbox) (tail : Nat) : tailBad b tail = false ↔
    (tail + 2 ^ 32 - b.cmdTail) % 2 ^ 32 < 2 ^ 31 ∧ (tail + 2 ^ 32 - b.cmdHead) % 2 ^ 32 ≤ 256 := by
  unfold tailBad
  rw [Bool.or_eq_false_iff, decide_eq_false_iff_not, decide_eq_false_iff_not, Nat.not_le, Nat.not_lt]

/-- Settles O4: each register by its own row, with the pages and values excluded that the row passes over. -/
theorem mailboxPagesAct : Obligations.MailboxPagesAct := by
  unfold Obligations.MailboxPagesAct
  refine ⟨fun dt m tail w t => ?tail, fun dt m head t => ?head, fun dt m dur t => ?reset, fun dt m en v t => ?irq,
    fun dt m => ?expiry⟩
  case tail =>
    intro s hpre
    simp only [Bool.and_eq_true, decide_eq_true_eq, Bool.not_eq_true'] at hpre
    obtain ⟨⟨⟨⟨⟨hm, hreach⟩, hreset⟩, hide⟩, hquar⟩, htail⟩ := hpre
    rw [exec_mbxCmdTailWrite hm hreach hreset hide hquar, htail, if_neg Bool.false_ne_true]
  case head =>
    refine occurs_of_event (fun _ => rfl) fun s hpre => ?_
    simp only [Bool.and_eq_true, decide_eq_true_eq, Bool.not_eq_true'] at hpre
    obtain ⟨⟨⟨⟨hm, hreach⟩, hreset⟩, hide⟩, hhead⟩ := hpre
    have hpage : ¬16 < m := by omega
    have hused : ¬rspUsed (mbxOf s m) < (head + 2 ^ 32 - (mbxOf s m).rspHead) % 2 ^ 32 := by omega
    simp only [hpage, hreach, hreset, hide, hused, decide_false, Bool.not_true, Bool.or_false, Bool.false_eq_true, if_false]
  case reset =>
    refine occurs_of_event (fun _ => rfl) fun s hpre => ?_
    simp only [Bool.and_eq_true, decide_eq_true_eq, Bool.not_eq_true'] at hpre
    obtain ⟨⟨hm, hreach⟩, hide⟩ := hpre
    have hpage : ¬16 < m := by omega
    simp only [hpage, hreach, hide, decide_false, Bool.not_true, Bool.or_false, Bool.false_eq_true, if_false]
  case irq =>
    refine occurs_of_event (fun _ => rfl) fun s hpre => ?_
    simp only [Bool.and_eq_true, decide_eq_true_eq, Bool.not_eq_true'] at hpre
    obtain ⟨⟨⟨hm, hreach⟩, hide⟩, hv⟩ := hpre
    have hpage : ¬16 < m := by omega
    have hvector : ¬msixEntries m ≤ v := Nat.not_le.2 hv
    simp only [hpage, hreach, hide, hvector, decide_false, Bool.not_true, Bool.or_false, Bool.false_eq_true, if_false]
  case expiry =>
    refine occurs_of_event (fun _ => rfl) fun s hpre => if_neg ?_
    simpa using hpre

/-! ### Unknown opcodes -/

/-- R65: the command that stands next is taken under its own opcode. -/
theorem takeExposed_head {m : Nat} {e : Exposed} {r : List Exposed} {s : State} (h : (mbxOf s m).exposed = e :: r) :
    takeExposed m e.head.opcode s =
      some (e, modMbx m (fun b => { b with exposed := r, cmdHead := wrapAdd 32 b.cmdHead e.entries }) s) := by
  simp only [takeExposed, h, if_true]

/-- R80, R96: outside SERVICE state an unknown opcode that stands next, in a mailbox that dispatches, is answered BAD_OPCODE as a violation,
and what stands behind it is looked at. -/
theorem skipUnknown_cons {m : Nat} {s : State} {e : Exposed} {r : List Exposed} (hexposed : (mbxOf s m).exposed = e :: r)
    (hop : opKnown e.head.opcode = false) (hreach : reachable s m = true) (hquar : quarantined s m = false)
    (hreset : resetting s m = false) (hwait : mustWait s m e.head.fence = false) (hboard : boardAlone s = false)
    (hservice : inService s = false) :
    skipUnknown m s = refuseUnknown m r.length (close ⟨m, e.head.tag, e.head.opcode, e.stamp, e.late, true, true⟩
      ⟨modMbx m (fun b => { b with exposed := r, cmdHead := wrapAdd 32 b.cmdHead e.entries }) s, .badOpcode, [], none, true, false⟩) := by
  have hboard' (f : Mailbox → Mailbox) : boardAlone (modMbx m f s) = false := hboard
  have hservice' (f : Mailbox → Mailbox) : inService (modMbx m f s) = false := hservice
  simp [skipUnknown, refuseUnknown, hexposed, hop, hreach, hquar, hreset, hwait, takeExposed_head hexposed, hboard', hservice']

/-- Settles O54: a doorbell that its page takes counts a violation or exposes, as its tail is bad or not; an unknown opcode that stands next
is refused. -/
theorem doorbellTail : Obligations.DoorbellTail := by
  unfold Obligations.DoorbellTail
  refine ⟨?bad, ?good, ?unknown⟩
  case bad =>
    intro dt m tail w ide hm s hpre
    simp only [Bool.and_eq_true, Bool.not_eq_true'] at hpre
    obtain ⟨⟨⟨⟨hreach, hreset⟩, hide⟩, hquar⟩, htail⟩ := hpre
    have hbad : tailBad (mbxOf (advance dt s) m) tail = true := htail
    rw [exec_mbxCmdTailWrite hm hreach hreset hide hquar, if_pos hbad]
  case good =>
    intro dt m tail w ide hm s hpre
    simp only [Bool.and_eq_true, decide_eq_true_eq, Bool.not_eq_true'] at hpre
    obtain ⟨⟨⟨⟨⟨hreach, hreset⟩, hide⟩, hquar⟩, hbehind⟩, hahead⟩ := hpre
    have hgood : tailBad (mbxOf (advance dt s) m) tail = false := (tailBad_eq_false_iff ..).2 ⟨hbehind, hahead⟩
    rw [exec_mbxCmdTailWrite hm hreach hreset hide hquar, hgood, if_neg Bool.false_ne_true, ring_putEntries]
  case unknown =>
    intro m s e r hexposed hop hreach hquar hreset hwait hboard hservice
    exact skipUnknown_cons hexposed hop hreach hquar hreset hwait hboard hservice

end Sys2Proof.Machine
end

section
/-! SUPPORT. The sideband (R77, R741, R742). -/
namespace Sys2Proof.Machine

/-- Settles O6: each row by what it does while the keep-alive supply runs, with the branch that its condition chooses. -/
theorem sidebandAnswers : Obligations.SidebandAnswers := by
  unfold Obligations.SidebandAnswers
  refine ⟨fun dt e m => ?extra, fun dt e => ?refused, fun dt e => ?firstId, fun dt e => ?nextId, fun dt a => ?entdaa, fun dt a => ?setnewda,
    fun dt => ?rstdaa, fun dt => ?enec, fun dt => ?disec, fun dt => ?getpid, fun dt => ?getbcr, fun dt => ?getdcr, fun dt => ?getstatus,
    fun dt => ?getmxds, fun dt a => ?rstact, fun dt q => ?pldm, fun dt q => ?mctp⟩
  case extra =>
    refine occurs_of_event (fun _ => rfl) fun s hpre => ?_
    simp only [sideOn, Bool.and_eq_true, decide_eq_true_eq] at hpre
    obtain ⟨hon, hfor⟩ := hpre
    simp only [hon, hfor, Bool.not_true, Bool.false_eq_true, if_false]
  case refused =>
    refine occurs_of_event (fun _ => rfl) fun s hpre => ?_
    simp only [sideOn, Bool.and_eq_true, decide_eq_true_eq] at hpre
    obtain ⟨⟨hon, hfor⟩, hbusy⟩ := hpre
    simp only [hon, hfor, Nat.not_le.2 hbusy, Bool.not_true, Bool.false_eq_true, if_false]
  case firstId =>
    refine occurs_of_sideEvent (fun _ => rfl) (fun s hpre => (Bool.and_eq_true_iff.1 hpre).1) fun s hpre => ?_
    simp only [Bool.and_eq_true, Option.isNone_iff_eq_none] at hpre
    obtain ⟨-, hnone⟩ := hpre
    simp only [hnone, Option.isSome_none, Bool.false_eq_true, if_false, sideAnswer]
  case nextId =>
    refine occurs_of_sideEvent (fun _ => rfl) (fun s hpre => (Bool.and_eq_true_iff.1 hpre).1) fun s hpre => ?_
    obtain ⟨-, hsome⟩ := Bool.and_eq_true_iff.1 hpre
    simp only [hsome, if_true]
  case setnewda =>
    refine occurs_of_sideEvent (fun _ => rfl) (fun s hpre => (Bool.and_eq_true_iff.1 hpre).1) fun s hpre => ?_
    obtain ⟨-, hsome⟩ := Bool.and_eq_true_iff.1 hpre
    exact if_pos hsome
  all_goals exact occurs_of_sideEvent (fun _ => rfl) (fun _ hon => hon) fun _ _ => rfl

end Sys2Proof.Machine
end

section
/-! SUPPORT. The functions (R83–R92, R760): the refusals that the conditions of a function command exclude. -/
namespace Sys2Proof.Machine

/-- R85, R86: what a mailbox that may stop the function finds. -/
theorem fnFree_iff (s : State) (fid : Nat) : fnFree s fid = true ↔
    fidRefused s fid = none ∧ (funcOf s fid).state = .running ∧ (funcOf s fid).holder = none ∧ stopBarred s fid = false := by
  simp only [fnFree, Bool.and_eq_true, decide_eq_true_eq, Bool.not_eq_true', Option.isNone_iff_eq_none, and_assoc]

theorem fnHeld_iff (c : Call) (s : State) (fid : Nat) : fnHeld c s fid = true ↔
    fidRefused s fid = none ∧ quiesced s fid = true ∧ (funcOf s fid).holder = some c.mb := by
  simp only [fnHeld, Bool.and_eq_true, decide_eq_true_eq, Option.isNone_iff_eq_none, and_assoc]

/-- R760: the holder of a quiesced function may start it, or revert it. -/
theorem startRefused_of_held {s : State} {fid m : Nat} (hquiesced : quiesced s fid = true) (hholder : (funcOf s fid).holder = some m) :
    startRefused (funcOf s fid) m = none := by
  simp only [quiesced, Bool.or_eq_true, decide_eq_true_eq] at hquiesced
  simp [startRefused, hholder, hquiesced]

/-- R624: a FUNC_STOP takes no TDI to ERROR but from the own mailbox of a locked one. -/
theorem ownStop_eq_self {fid m : Nat} {s : State}
    (h : (fidClass fid = 1 && tdiLocked s (fidNo fid) && speaksFor s m (fidNo fid)) = false) : ownStop fid m s = s :=
  if_neg (by rw [h]; decide)

/-- R84: a stop whose bound may exceed 1 ms, and that of a class other than CONTEXT, answers ACCEPTED. -/
theorem stopAnswer_accepted {fid : Nat} {s : State} (h : fidClass fid ≠ 1 ∨ ctxRuns s (fidNo fid) = true) :
    stopAnswer fid s = accepted s .funcStop fid := by
  refine if_neg ?_
  rcases h with h | h <;> simp [h]

/-- R84: with no run, no chain and no step in progress, the stop of a CONTEXT is short, and gives one response when it ends. -/
theorem stopAnswer_withheld {fid : Nat} {s : State} (hclass : fidClass fid = 1) (hruns : ctxRuns s (fidNo fid) = false)
    (hstep : (serveOf s (fidNo fid)).step = none) : stopAnswer fid s = withheld s .funcStop fid := by
  have hshort : stopIsLong s (fidNo fid) = false := by simp only [stopIsLong, hstep]
  refine if_pos ?_
  simp [hclass, hruns, hshort]

/-- R83–R87: FUNC_STOP begins the stop of a free function, from a mailbox that does not break its own TDI by it. -/
theorem exec_funcStop {h : Hdr} {fid hold : Nat} {s s' : State} {c : Call} (htaken : Taken h (funcSpec 0x0100 fid true) s c s')
    (hhold : hold ≤ 3600000) (hown : (fidClass fid = 1 && tdiLocked s' (fidNo fid) && speaksFor s' c.mb (fidNo fid)) = false)
    (hfree : fnFree s' fid = true) :
    exec (.funcStop h fid hold) s = .next (answered c (
      if stopsNow s' fid then ok (beginStop fid hold c.mb s') else stopAnswer fid (beginStop fid hold c.mb s'))) := by
  obtain ⟨hrefused, hrunning, hholder, hbarred⟩ := (fnFree_iff s' fid).1 hfree
  have hexec : exec (.funcStop h fid hold) s = execFuncStop h fid hold s := rfl
  rw [hexec, execFuncStop, command_of_taken htaken, if_neg (by omega), hrefused]
  simp [ownStop_eq_self hown, hholder, hrunning, hbarred]

/-- R88, R760: FUNC_START from the holder starts the quiesced function. -/
theorem exec_funcStart {h : Hdr} {fid d : Nat} {a : Bool} {s s' : State} {c : Call} (htaken : Taken h (funcSpec 0x0101 fid true) s c s')
    (hheld : fnHeld c s' fid = true) :
    exec (.funcStart h fid d a) s = .next (settleStart fid ⟨d, a⟩ (answered c (startFunc fid ⟨d, a⟩ s'))) := by
  obtain ⟨hrefused, hquiesced, hholder⟩ := (fnHeld_iff c s' fid).1 hheld
  have hexec : exec (.funcStart h fid d a) s = execFuncStart h fid d a s := rfl
  rw [hexec, execFuncStart, command_of_taken htaken, hrefused]
  simp only [startRefused_of_held hquiesced hholder]

/-- R88: a start of a class that starts at once applies a staged set that validates. -/
theorem startFunc_ok {fid : Nat} {peer : PeerSays} {s : State} (hcheck : checkStart s fid (some peer) = none)
    (hslow : slowStart fid = false) : startFunc fid peer s = ok (completeStart fid s) := by
  simp only [startFunc, hcheck, hslow, Bool.false_eq_true, if_false]

/-- R90: a revert of a class that starts at once is answered at once. -/
theorem revertAnswer_ok {fid : Nat} (hslow : slowStart fid = false) (s : State) : revertAnswer fid s = ok s :=
  if_neg (by rw [hslow]; decide)

/-- R91: nothing follows where no revert waits. -/
theorem pendingRevert_none {fid : Nat} {s : State} (h : (funcOf s fid).revert = none) : pendingRevert fid s = s := by
  simp only [pendingRevert, h]

theorem fidClass_fidContext {k : Nat} (hk : k < 16) : fidClass (fidContext k) = 1 := by
  unfold fidClass fidContext
  omega

theorem fidNo_fidContext {k : Nat} (hk : k < 16) : fidNo (fidContext k) = k := by
  unfold fidNo fidContext
  omega

/-- Settles O7: a stop is answered by whether it completes at once and, of a CONTEXT, whether it is short; the other rows take the branch
that their conditions name. -/
theorem functionCommandsComplete : Obligations.FunctionCommandsComplete := by
  unfold Obligations.FunctionCommandsComplete
  refine ⟨fun h fid hold => ?stopNow, fun h fid hold => ?stopLater, fun h k hold => ?stopShort, fun h fid d a s c s' => ?start,
    fun h fid => ?revert, fun h fid => ?status, fun dt fid => ?quiesced, fun dt fid => ?startDone, fun dt fid e => ?holdExpiry⟩
  case stopNow =>
    intro s c s' htaken hpre
    simp only [Bool.and_eq_true, decide_eq_true_eq, Bool.not_eq_true'] at hpre
    obtain ⟨⟨⟨hhold, hown⟩, hfree⟩, hnow⟩ := hpre
    rw [exec_funcStop htaken hhold hown hfree, if_pos hnow]
  case stopLater =>
    intro s c s' htaken hpre
    simp only [Bool.and_eq_true, Bool.or_eq_true, decide_eq_true_eq, Bool.not_eq_true'] at hpre
    obtain ⟨⟨⟨⟨hhold, hown⟩, hfree⟩, hnow⟩, hlong⟩ := hpre
    rw [exec_funcStop htaken hhold hown hfree, hnow, if_neg Bool.false_ne_true, stopAnswer_accepted hlong]
  case stopShort =>
    intro s c s' htaken hpre
    simp only [Bool.and_eq_true, decide_eq_true_eq, Bool.not_eq_true', Option.isNone_iff_eq_none] at hpre
    obtain ⟨⟨⟨⟨⟨⟨hk, hhold⟩, hown⟩, hfree⟩, hnow⟩, hruns⟩, hstep⟩ := hpre
    have hclass := fidClass_fidContext hk
    have hno := fidNo_fidContext hk
    rw [exec_funcStop htaken hhold (by simpa [hclass, hno] using hown) hfree, hnow, if_neg Bool.false_ne_true,
      stopAnswer_withheld hclass (by rwa [hno]) (by rwa [hno])]
  case start =>
    intro htaken hheld hcheck hslow
    rw [exec_funcStart htaken hheld, startFunc_ok hcheck hslow]
  case revert =>
    refine serves_of_command (fun _ => rfl) fun c s hpre => ?_
    simp only [Bool.and_eq_true, Bool.not_eq_true'] at hpre
    obtain ⟨hheld, hslow⟩ := hpre
    obtain ⟨hrefused, hquiesced, hholder⟩ := (fnHeld_iff c s fid).1 hheld
    simp only [Bool.false_and, Bool.false_eq_true, if_false, hrefused, startRefused_of_held hquiesced hholder, revertAnswer_ok hslow]
  case status =>
    refine serves_of_command (fun _ => rfl) fun c s hpre => ?_
    simp only [Bool.and_eq_true, Bool.not_eq_true'] at hpre
    obtain ⟨hexists, hfunc⟩ := hpre
    simp only [hexists, hfunc, Bool.not_true, Bool.false_eq_true, if_false]
  case quiesced =>
    refine occurs_of_event (fun _ => rfl) fun s hpre => ?_
    simp only [Bool.and_eq_true, decide_eq_true_eq, Option.isNone_iff_eq_none] at hpre
    obtain ⟨⟨hstopping, hmay⟩, hrevert⟩ := hpre
    rw [if_neg (by simp [hstopping, hmay]), pendingRevert_none hrevert]
  case startDone =>
    refine occurs_of_event (fun _ => rfl) fun s hpre => ?_
    simp only [Bool.and_eq_true, decide_eq_true_eq, Bool.not_eq_true'] at hpre
    obtain ⟨⟨⟨hstarting, hreverting⟩, hwaits⟩, hcheck⟩ := hpre
    simp [hstarting, hreverting, hwaits, hcheck]
  case holdExpiry =>
    refine occurs_of_event (fun _ => rfl) fun s hpre => ?_
    simp only [Bool.and_eq_true, decide_eq_true_eq] at hpre
    obtain ⟨hdeadline, hover⟩ := hpre
    simp only [hdeadline, Nat.not_lt.2 hover, if_false]

end Sys2Proof.Machine
end

section
/-! SUPPORT. The output port of the Square: messages to other modules and recorder entries leave the Square as it was, and responses,
notifications and events withhold no word and move the end of no restart. -/
namespace Sys2Proof.Machine

/-! ### What leaves the Square as it was -/

@[simp] theorem transmit_sq (x : Sent) (s : State) : (transmit x s).sq = s.sq := by
  unfold transmit
  split <;> rfl

@[simp] theorem notePage_sq (x : Sent) (s : State) : (notePage x s).sq = s.sq := rfl

@[simp] theorem drainLane_sq (n fuel : Nat) (s : State) : (drainLane n fuel s).sq = s.sq := by
  induction fuel generalizing s with
  | zero => rfl
  | succ fuel ih =>
    unfold drainLane
    dsimp only
    split
    · rfl
    · split
      · rfl
      · rw [ih, notePage_sq, transmit_sq, (modLane_rest ..).2.1]

@[simp] theorem openLane_sq (c peer pc port : Nat) (modlane : Bool) (s : State) : (openLane c peer pc port modlane s).2.sq = s.sq := by
  unfold openLane
  split
  · rfl
  · exact transmit_sq ..

@[simp] theorem laneFor_sq (c peer pc port : Nat) (modlane : Bool) (s : State) : (laneFor c peer pc port modlane s).2.sq = s.sq := by
  unfold laneFor
  split
  · rfl
  · exact openLane_sq ..

@[simp] theorem sendOp_sq (n : Nat) (p : OpFor) (x : Sent) (s : State) : (sendOp n p x s).sq = s.sq := by
  unfold sendOp
  split
  · rfl
  · exact drainLane_sq ..

@[simp] theorem sendControl_sq (m : Nat) (d : List Byte) (s : State) : (sendControl m d s).sq = s.sq := by
  unfold sendControl
  split
  · rfl
  · next b _ =>
    have hlane := laneFor_sq 0 b.peer 0 ((portTo s b.peer).getD 0) true s
    split
    · next hfor => rw [sendOp_sq, ← hlane, hfor]
    · next hfor => rw [← hlane, hfor]

@[simp] theorem addRec_sq (c v x : Nat) (k : Option Nat) (r : Bool) (p : List Fld) (s : State) : (addRec c v x k r p s).sq = s.sq := by
  unfold addRec
  dsimp only
  split
  · rfl
  · split <;> rfl

@[simp] theorem startFlush_sq (s : State) : (startFlush s).sq = s.sq := by
  unfold startFlush
  dsimp only
  split
  · rfl
  · exact addRec_sq ..

@[simp] theorem endFreezeEarly_sq (s : State) : (endFreezeEarly s).sq = s.sq := by
  unfold endFreezeEarly
  split
  · exact addRec_sq ..
  · rfl

@[simp] theorem journal_sq (k result attempt rung cls item code dur detail : Nat) (s : State) :
    (journal k result attempt rung cls item code dur detail s).sq = s.sq := by
  unfold journal
  dsimp only
  split <;> split <;> rfl

@[simp] theorem raiseAlert_sq (a : Alert) (s : State) : (raiseAlert a s).sq = s.sq := by
  unfold raiseAlert
  split <;> rfl

@[simp] theorem enterService_sq (cause failed : Nat) (s : State) : (enterService cause failed s).sq = s.sq := raiseAlert_sq ..

@[simp] theorem releaseJournal_sq (auth : Bool) (s : State) : (releaseJournal auth s).sq = s.sq := by
  rw [releaseJournal]

@[simp] theorem ite_sq {c : Prop} [Decidable c] (s t : State) : (if c then s else t).sq = if c then s.sq else t.sq := apply_ite ..

/-! ### What the port keeps -/

/-- R57, R60: the port withholds the same word, and the restart in progress ends when it did. -/
def PortKept (s t : State) : Prop :=
  t.sq.vote.withheld = s.sq.vote.withheld ∧ t.sq.vote.restartEnd = s.sq.vote.restartEnd

theorem PortKept.refl (s : State) : PortKept s s := ⟨rfl, rfl⟩

theorem PortKept.trans {s t u : State} (hst : PortKept s t) (htu : PortKept t u) : PortKept s u :=
  ⟨htu.1.trans hst.1, htu.2.trans hst.2⟩

theorem PortKept.of_sq {s t : State} (h : t.sq = s.sq) : PortKept s t := by
  unfold PortKept
  rw [h]
  exact ⟨rfl, rfl⟩

theorem modMbx_portKept (m : Nat) (f : Mailbox → Mailbox) (s : State) : PortKept s (modMbx m f s) := ⟨rfl, rfl⟩

theorem takeInput_portKept (i : SqInput) (s : State) : PortKept s (takeInput i s) := ⟨rfl, rfl⟩

theorem releaseWord_portKept (s : State) : PortKept s (releaseWord s) := ⟨rfl, rfl⟩

theorem takeResponses_portKept (m : Nat) (s : State) : PortKept s (takeResponses m s) := by
  unfold takeResponses
  split
  · exact modMbx_portKept ..
  · exact .refl s

theorem putRsp_portKept (m : Nat) (r : Response) (s : State) : PortKept s (putRsp m r s) := by
  unfold putRsp
  dsimp only
  have htaken : PortKept s (takeResponses m (releaseWord (modMbx m (fun b => { b with
      rsps := { r with rspStamp := (issueStamp s).1 } :: b.rsps, rspTail := wrapAdd 32 b.rspTail (rspEntries r) }) (issueStamp s).2))) :=
    PortKept.trans (.of_sq rfl) ((modMbx_portKept m _ (issueStamp s).2).trans ((releaseWord_portKept _).trans (takeResponses_portKept ..)))
  split
  · exact htaken.trans (.of_sq (sendControl_sq ..))
  · split
    · exact htaken
    · split <;> exact htaken

theorem notifyOne_portKept (m : Nat) (n : Notif) (s : State) : PortKept s (notifyOne m n s) := by
  unfold notifyOne
  dsimp only
  split
  · exact (modMbx_portKept ..).trans (putRsp_portKept ..)
  · split <;> exact modMbx_portKept ..

theorem notify_portKept (cls code source : Nat) (s : State) : PortKept s (notify cls code source s) := by
  unfold notify
  refine List.foldlRecOn _ _ (.refl s) fun t ht m _ => ?_
  split
  · exact ht.trans (notifyOne_portKept ..)
  · exact ht

theorem record_portKept (c v x : Nat) (k : Option Nat) (r : Bool) (p : List Fld) (s : State) : PortKept s (record c v x k r p s) := by
  unfold record
  dsimp only
  split
  · exact PortKept.trans (takeInput_portKept (.event c) s) (.of_sq rfl)
  · generalize hnoted : (if 2 ≤ v then _ else _) = u
    have hu : PortKept s u := by
      rw [← hnoted]
      have hadded : PortKept s (addRec c v x k r p (takeInput (.event c) s)) :=
        (takeInput_portKept (.event c) s).trans (.of_sq (addRec_sq ..))
      split
      · exact hadded.trans (notify_portKept ..)
      · exact hadded
    split
    · exact hu.trans (.of_sq (by simp))
    · split
      · exact hu.trans (.of_sq (startFlush_sq u))
      · exact hu

end Sys2Proof.Machine
end

section
/-! SUPPORT. The voting cores (R52–R60): checkpoints, fencing and resynchronisation, restarts of the pair, and the fatal condition. -/
namespace Sys2Proof.Machine

/-! ### Checkpoints and resynchronisation -/

theorem takeCheckpoint_cores (s : State) : (takeCheckpoint s).sq.cores = s.sq.cores := rfl

/-- What every turn of a fold keeps holds after it. -/
theorem foldN_induction {β : Type} {P : β → Prop} {f : Nat → β → β} (hf : ∀ i b, P b → P (f i b)) (n : Nat) {b : β} (hb : P b) :
    P (foldN n f b) := List.foldlRecOn _ _ hb fun _ h i _ => hf i _ h

/-- R54: a core that is already in RESYNC stays there when the resynchronisation of another starts. -/
theorem startResync_resync {i : Nat} {s : State} (h : tget s.sq.cores i .voting = .resync) :
    tget (startResync s).sq.cores i .voting = .resync := by
  unfold startResync
  dsimp only
  refine foldN_induction (P := fun t => tget t i CoreState.voting = CoreState.resync) (fun j t ht => ?_) 3 h
  split
  · rw [tget_tset, ht, ite_self]
  · exact ht

/-- R56: what a checkpoint takes and which journals it empties. -/
theorem startResync_takeCheckpoint (s : State) :
    (startResync (takeCheckpoint s)).sq.checkpoints = wrapAdd 64 s.sq.checkpoints 1
      ∧ (startResync (takeCheckpoint s)).sq.vote.checkpoint.at_ = s.time.t
      ∧ (startResync (takeCheckpoint s)).sq.vote.checkpoint.mbx = s.sq.mbx
      ∧ (startResync (takeCheckpoint s)).sq.vote.checkpoint.funcs = s.sq.funcs
      ∧ (startResync (takeCheckpoint s)).sq.vote.inputs = [] ∧ (startResync (takeCheckpoint s)).sq.vote.outputs = [] :=
  ⟨rfl, rfl, rfl, rfl, rfl, rfl⟩

/-- R54: a core whose resynchronisation passes votes again. -/
theorem resyncEnd_good {i : Nat} {s : State} (h : tget s.sq.cores i .voting = .resync) :
    tget (resyncEnd i true s).sq.cores i .voting = .voting := by
  simp [resyncEnd, h]

/-- R56: a checkpoint that is due, of which every resynchronisation in progress goes on. -/
theorem exec_checkpoint {dt : Nat} {s : State} (hdue : checkpointDue (advance dt s) = true) (ends : List (Nat × Bool)) :
    exec (.checkpoint dt ends) s = .next (ends.foldl (fun s e => if e.1 < 3 then resyncEnd e.1 e.2 s else s)
      (startResync (takeCheckpoint (skipAll (advance dt s))))) := by
  have hexec : exec (.checkpoint dt ends) s = execCheckpoint dt ends s := rfl
  simp only [hexec, execCheckpoint, event, hdue, Bool.not_true, Bool.false_eq_true, if_false]

/-! ### A restart of the pair -/

/-- R57, R59: a replay releases words and changes nothing else of the Square but what the port withholds. -/
theorem replayOutputs_talks (s : State) : Talks s (replayOutputs s) :=
  Talks.trans (t := { s with sq := { s.sq with vote := { s.sq.vote with withheld := none } } })
    ⟨rfl, rfl, fun _ => rfl, rfl, rfl, rfl⟩ (foldl_talks _ (fun t _ => releaseWord_talks t) _ _)

/-- R57–R60: a restart leaves the mode and the counts of restarts, and ends within 5 ms. -/
theorem restart_sq (s : State) : (restart s).sq.restarts = s.sq.restarts ∧ (restart s).sq.mode = s.sq.mode
    ∧ (restart s).sq.lastRestart = s.sq.lastRestart ∧ (restart s).sq.vote.restartEnd ≤ now s + 5000000 := by
  unfold restart
  dsimp only
  have hreplay := replayOutputs_talks (takeFree s).2
  generalize replayOutputs (takeFree s).2 = u at hreplay ⊢
  have hnow : now u = now s := by
    unfold now
    rw [hreplay.time]
    rfl
  refine ⟨?restarts, ?mode, ?last, ?ends⟩
  case ends =>
    rw [((record_portKept ..).trans (notify_portKept ..)).2, hnow]
    have hfree := Nat.mod_lt (takeFree s).1 (show 0 < 5000001 by decide)
    dsimp only
    omega
  all_goals
    rw [(notify_talks ..).sq, (record_records ..).sq, hreplay.sq]
    rfl

theorem raiseAlert_contains (a : Alert) (s : State) : (raiseAlert a s).tray.alerts.contains a = true := by
  unfold raiseAlert
  split
  · assumption
  · simp

@[simp] theorem enterService_phase (cause failed : Nat) (s : State) : (enterService cause failed s).boot.phase = .service := by
  simp [enterService]

/-- R60: the Square has halted, and the recorder and the mailboxes have been told so. -/
def fatalNoted (s : State) : State :=
  notify 0 0x1106 0 (record 0x1106 3 0 none false [] { s with sq := { s.sq with mode := .halted } })

theorem fatalNoted_mode (s : State) : (fatalNoted s).sq.mode = .halted := by
  simp [fatalNoted]

theorem fatalNoted_boot (s : State) : (fatalNoted s).boot = s.boot := by
  simp [fatalNoted]

theorem fatalNoted_withheld (s : State) : (fatalNoted s).sq.vote.withheld = s.sq.vote.withheld :=
  ((record_portKept ..).trans (notify_portKept ..)).1

/-- R60, R117: outside a trial, the journal takes the summary of a fatal condition and the module enters SERVICE. -/
def fatalService (s : State) : State :=
  let t := journal 0xFF 2 1 0 0 0 0x1106 0 (capDetail s) s
  raiseAlert .squareFatal (enterService 3 0 (if t.boot.ended.contains 18 then t else releaseJournal false t))

theorem squareFatal_eq {s : State} (htrial : inTrial s = false) : squareFatal s = fatalService (fatalNoted s) := by
  have hnoted : inTrial (fatalNoted s) = false := by rw [inTrial, fatalNoted_boot, ← inTrial, htrial]
  exact if_neg (by rw [← fatalNoted, hnoted]; decide)

theorem fatalService_sq (s : State) : (fatalService s).sq = s.sq := by
  simp [fatalService]

theorem fatalService_phase (s : State) : (fatalService s).boot.phase = .service := by
  simp [fatalService]

theorem fatalService_alerts (s : State) : (fatalService s).tray.alerts.contains .squareFatal = true := by
  rw [fatalService]
  exact raiseAlert_contains ..

/-- R60: outside a trial, a fatal condition halts the Square, leaves the module in SERVICE with ALERT_N asserted, and releases no word that
the port withholds. -/
theorem squareFatal_halts {s : State} (htrial : inTrial s = false) :
    (squareFatal s).sq.mode = .halted ∧ (squareFatal s).boot.phase = .service ∧ (squareFatal s).tray.alerts.contains .squareFatal = true
      ∧ (squareFatal s).sq.vote.withheld = s.sq.vote.withheld := by
  rw [squareFatal_eq htrial, fatalService_sq]
  exact ⟨fatalNoted_mode s, fatalService_phase _, fatalService_alerts _, fatalNoted_withheld s⟩

/-- R57: the state in which the disagreement of the pair is noted. -/
def pairNoted (s : State) : State :=
  { s with
    time := { s.time with last := some (nextStamp s) }
    sq := { s.sq with
      restarts := satAdd 8 s.sq.restarts 1
      restartTimes := (s.sq.restartTimes.filter fun t => now s < t + 10000000000) ++ [now s]
      lastRestart := (nextStamp s).ns
      vote := { s.sq.vote with withheld := some s.sq.vote.released } } }

theorem pairNoted_restartTimes_length (s : State) : (pairNoted s).sq.restartTimes.length ≤ s.sq.restartTimes.length + 1 := by
  simpa [pairNoted] using List.length_filter_le (fun t => decide (now s < t + 10000000000)) s.sq.restartTimes

/-- R57, R58: the restart that a disagreement of the pair brings is counted and its time noted; the pair goes on, within 5 ms. -/
theorem restart_pairNoted (s : State) : (restart (pairNoted s)).sq.restarts = satAdd 8 s.sq.restarts 1
    ∧ (restart (pairNoted s)).sq.mode = s.sq.mode ∧ (restart (pairNoted s)).sq.lastRestart = (nextStamp s).ns
    ∧ (restart (pairNoted s)).sq.vote.restartEnd ≤ now s + 5000000 := restart_sq (pairNoted s)

/-- R57, R60: a disagreement that is fatal outside a trial keeps back the word that the port withholds. -/
theorem squareFatal_pairNoted {s : State} (htrial : inTrial s = false) :
    (squareFatal (pairNoted s)).sq.mode = .halted ∧ (squareFatal (pairNoted s)).boot.phase = .service
      ∧ (squareFatal (pairNoted s)).tray.alerts.contains .squareFatal = true
      ∧ (squareFatal (pairNoted s)).sq.vote.withheld = some s.sq.vote.released := squareFatal_halts (s := pairNoted s) htrial

/-- R57, R60: the two cores of pair mode disagree: a ninth time in 10 s, or a word that the replay does not reproduce, is fatal. -/
theorem exec_pairDisagreement {dt : Nat} {s : State} (hboard : boardAlone (advance dt s) = false)
    (hmode : (advance dt s).sq.mode = .pair) (mismatch : Bool) :
    exec (.pairDisagreement dt mismatch) s = .next (
      if mismatch || 8 < (pairNoted (advance dt s)).sq.restartTimes.length then squareFatal (pairNoted (advance dt s))
      else restart (pairNoted (advance dt s))) := by
  have hexec : exec (.pairDisagreement dt mismatch) s = execPairDisagreement dt mismatch s := rfl
  rw [hexec, execPairDisagreement, event, if_neg (by simp [hboard, hmode])]
  rfl

/-- Settles O5: a checkpoint by its resynchronisations, a core that differs by its row, and a disagreement of the pair by whether it restarts
the pair or halts the Square. -/
theorem votingCoresAct : Obligations.VotingCoresAct := by
  unfold Obligations.VotingCoresAct
  refine ⟨fun dt => ?checkpoint, fun dt => ?taken, fun dt i hi => ?rejoins, fun dt core hcore => ?fenced, fun dt => ?restarts,
    fun dt => ?fatal⟩
  case checkpoint =>
    intro s hdue
    exact exec_checkpoint hdue []
  case taken =>
    intro s hdue
    exact ⟨_, exec_checkpoint hdue [], startResync_takeCheckpoint (skipAll (advance dt s))⟩
  case rejoins =>
    intro s hpre
    simp only [Bool.and_eq_true, decide_eq_true_eq] at hpre
    obtain ⟨hdue, hresync⟩ := hpre
    refine ⟨_, exec_checkpoint hdue [(i, true)], ?_⟩
    simp only [List.foldl_cons, List.foldl_nil, if_pos hi]
    rw [← takeCheckpoint_cores] at hresync
    exact resyncEnd_good (startResync_resync hresync)
  case fenced =>
    refine reaches_of_event (fun _ => rfl) fun s hpre => ?_
    simp only [Bool.and_eq_true, Bool.not_eq_true', decide_eq_true_eq] at hpre
    obtain ⟨hboard, hmode⟩ := hpre
    rw [if_neg (by simp [hboard, hmode, hcore])]
    simp
  case restarts =>
    intro s hpre
    simp only [Bool.and_eq_true, Bool.not_eq_true', decide_eq_true_eq] at hpre
    obtain ⟨⟨hboard, hmode⟩, htimes⟩ := hpre
    have hfew : ¬8 < (pairNoted (advance dt s)).sq.restartTimes.length := by
      have hlength := pairNoted_restartTimes_length (advance dt s)
      omega
    obtain ⟨hrestarts, hkept, hlast, hends⟩ := restart_pairNoted (advance dt s)
    refine ⟨restart (pairNoted (advance dt s)), ?_, hrestarts, hkept.trans hmode, hlast, hends⟩
    rw [exec_pairDisagreement hboard hmode, Bool.false_or, decide_eq_false hfew, if_neg Bool.false_ne_true]
  case fatal =>
    intro s hpre
    simp only [Bool.and_eq_true, Bool.not_eq_true', decide_eq_true_eq] at hpre
    obtain ⟨⟨hboard, hmode⟩, htrial⟩ := hpre
    refine ⟨squareFatal (pairNoted (advance dt s)), ?_, squareFatal_pairNoted htrial⟩
    rw [exec_pairDisagreement hboard hmode, Bool.true_or, if_pos rfl]

end Sys2Proof.Machine
end

section
/-! SUPPORT. Start-up (chapter 04, R594, R739, R747): what the end of an attempt leaves, when the module boots, and what a configuration request
is answered with. -/
namespace Sys2Proof.Machine

/-! ### The end of an attempt -/

/-- R101–R121: what an attempt in progress leaves when it ends: a mandatory step, READY, or an item of another step. -/
def attemptEnd (e : BootEnd) (s : State) : State :=
  if mandatory e.step then mandatoryEnd e s else if e.step = 20 then becomeReady s else itemEnd e s

/-- R113: the boot moves on, unless the module has entered SERVICE state. -/
def bootMovesOn (s : State) : State := if s.boot.phase = .service then s else dropLostLink (bootProgress 64 s)

theorem exec_bootStepEnd_open {dt : Nat} {e : BootEnd} {s : State} (hopen : attemptOpen e (advance dt s) = true)
    (hmonitor : monitorTrains e (advance dt s) = false) (hheld : linkHeld e (advance dt s) = false) :
    exec (.bootStepEnd dt e) s = .next (bootMovesOn (attemptEnd e (advance dt s))) := by
  have hexec : exec (.bootStepEnd dt e) s = execBootStepEnd dt e s := rfl
  simp only [hexec, execBootStepEnd, event, hopen, hmonitor, hheld, Bool.false_and, Bool.not_true, Bool.or_false, Bool.false_eq_true, if_false]
  rfl

/-- R762: the service monitor trains nothing but PCIE_LINK. -/
theorem monitorTrains_of_step {e : BootEnd} (h : e.step ≠ 14) (s : State) : monitorTrains e s = false := by
  simp [monitorTrains, h]

/-- R762: the service monitor trains nothing outside SERVICE state. -/
theorem monitorTrains_of_phase {s : State} (h : s.boot.phase ≠ .service) (e : BootEnd) : monitorTrains e s = false := by
  simp [monitorTrains, h]

theorem linkHeld_of_step {e : BootEnd} (h : e.step ≠ 14) (s : State) : linkHeld e s = false := by simp [linkHeld, h]

theorem ne_14_of_mandatory {k : Nat} (h : mandatory k = true) : k ≠ 14 := by
  rintro rfl
  exact absurd h (by decide)

/-- R121: the module is READY. -/
@[simp] theorem becomeReady_phase (s : State) : (becomeReady s).boot.phase = .ready := by simp [becomeReady]

/-- R100, R115: a mandatory step that passes has its attempt counted and journalled, and leaves what its row says. -/
theorem mandatoryEnd_passes {e : BootEnd} {s : State} (hok : e.ok = true) (hcores : (e.step = 2 && popCount e.cores 3 < 2) = false)
    (hidentity : (e.step ≠ 3 || identityChecks s) = true) :
    mandatoryEnd e s =
      let u := { s with boot := { s.boot with attempts := s.boot.attempts + 1 } }
      endStep e.step (mandatoryPassed e (journal e.step 0 u.boot.attempts 0 0 0 0 e.durationUs
        (if e.step = 5 then stepDetail 5 0 (selectSlot u).boot.runSlot 0 u else e.detail) u)) := by
  unfold mandatoryEnd
  rw [hok, hcores, hidentity]
  rfl

/-- R103, R116: an item that passes is settled at its rung. -/
theorem itemEnd_passes {e : BootEnd} {s : State} (hok : attemptOk e s = true) (hstep : e.step ≠ 19) :
    itemEnd e s = itemPassed e (itemOf s e.step e.item).rung
      (settle e (itemOf s e.step e.item).rung (if (itemOf s e.step e.item).rung = 0 then 0 else 1) false s) := by
  unfold itemEnd
  rw [if_pos hok, if_neg hstep]

/-! ### What starts the module and what stops it -/

/-- R99: a boot starts when its conditions hold and the die has no power yet. -/
theorem tryBoot_starts {s : State} (hconditions : bootConditions s = true) (hrunning : s.boot.running = false)
    (hphase : s.boot.phase = .booting) (hstarted : s.boot.started.isEmpty = true) : tryBoot s = startBoot s := by
  simp [tryBoot, hconditions, hrunning, hphase, hstarted]

/-- R99: without the conditions of a boot nothing starts. -/
theorem tryBoot_of_not {s : State} (h : bootConditions s = false) : tryBoot s = s := by
  simp [tryBoot, h]

/-- R593, R594: the ordered shutdown of a module that runs. -/
theorem orderedShutdown_running {s : State} (h : s.boot.running = true) :
    orderedShutdown s = powerOff (finalFlush (addRec 0x8503 3 0x8000 none false [] s)) := by
  unfold orderedShutdown
  rw [h]
  exact if_neg (by decide)

/-- R102: PF0 answers with the link up, once FW_LOAD has passed. -/
theorem configAnswer_pf0 {s : State} (hloaded : s.boot.ended.contains 7 = true) (hlink : s.tray.linkUp = true) :
    configAnswer s 0 = .success := by
  unfold configAnswer
  rw [hloaded, hlink]
  rfl

/-- R102: a VF is told to retry while the module boots. -/
theorem configAnswer_vf {s : State} {fn : Nat} (hloaded : s.boot.ended.contains 7 = true) (hphase : s.boot.phase = .booting)
    (hfn : fn ≠ 0) : configAnswer s fn = .retry := by
  unfold configAnswer
  rw [hloaded, hphase, if_neg (by decide), if_neg hfn]
  rfl

/-- Settles O8: an attempt by the kind of its step, the straps by what RAILS read last, and each pin by whether a boot starts or ends. -/
theorem bootEventsAct : Obligations.BootEventsAct := by
  unfold Obligations.BootEventsAct
  refine ⟨fun dt e => ?ready, fun dt e => ?mandatory, fun dt e => ?item, fun dt slot cab => ?firstStraps, fun dt slot cab v hv => ?moved,
    fun dt => ?pwrEn, fun dt => ?pwrEnLow, fun dt => ?latch, fun dt => ?pwrLost, fun dt b => ?pf0, fun dt fn b hfn => ?vf⟩
  case ready =>
    intro s hpre
    simp only [Bool.and_eq_true, decide_eq_true_eq] at hpre
    obtain ⟨hopen, hstep⟩ := hpre
    have hlink : e.step ≠ 14 := by omega
    have hend : attemptEnd e (advance dt s) = becomeReady (advance dt s) := by
      unfold attemptEnd
      rw [hstep]
      rfl
    rw [exec_bootStepEnd_open hopen (monitorTrains_of_step hlink _) (linkHeld_of_step hlink _), hend, bootMovesOn,
      if_neg (by rw [becomeReady_phase]; decide)]
  case mandatory =>
    intro s hpre
    simp only [Bool.and_eq_true, Bool.not_eq_true'] at hpre
    obtain ⟨⟨⟨⟨⟨hopen, hmandatory⟩, hcores⟩, hidentity⟩, hok⟩, -⟩ := hpre
    have hlink := ne_14_of_mandatory hmandatory
    have hend : attemptEnd e (advance dt s) = mandatoryEnd e (advance dt s) := if_pos hmandatory
    rw [exec_bootStepEnd_open hopen (monitorTrains_of_step hlink _) (linkHeld_of_step hlink _), hend,
      mandatoryEnd_passes hok hcores hidentity]
    rfl
  case item =>
    intro s hpre
    simp only [Bool.and_eq_true, Bool.not_eq_true', decide_eq_true_eq] at hpre
    obtain ⟨⟨⟨⟨⟨hopen, hmandatory⟩, hstep⟩, hperst⟩, hok⟩, hphase⟩ := hpre
    have hend : attemptEnd e (advance dt s) = itemEnd e (advance dt s) := by
      unfold attemptEnd
      rw [hmandatory, if_neg Bool.false_ne_true, if_neg (by omega)]
    rw [exec_bootStepEnd_open hopen (monitorTrains_of_phase (by rw [hphase]; decide) e) hperst, hend, itemEnd_passes hok (by omega)]
    rfl
  case firstStraps =>
    refine occurs_of_event (fun _ => rfl) fun s hpre => ?_
    rw [Option.isNone_iff_eq_none] at hpre
    simp only [hpre]
  case moved =>
    refine occurs_of_event (fun _ => rfl) fun s hpre => ?_
    simp only [of_decide_eq_true hpre, if_neg hv]
  case pwrEn =>
    refine occurs_of_event (fun _ => rfl) fun s hpre => ?_
    simp only [Bool.and_eq_true, Bool.not_eq_true', decide_eq_true_eq] at hpre
    obtain ⟨⟨⟨hlatch, hrunning⟩, hphase⟩, hstarted⟩ := hpre
    exact tryBoot_starts hlatch hrunning hphase hstarted
  case pwrEnLow => exact occurs_of_event (fun _ => rfl) fun s _ => tryBoot_of_not rfl
  case latch =>
    refine occurs_of_event (fun _ => rfl) fun s hpre => ?_
    simp only [Bool.and_eq_true, Bool.not_eq_true', decide_eq_true_eq] at hpre
    obtain ⟨⟨⟨hpwrEn, hrunning⟩, hphase⟩, hstarted⟩ := hpre
    exact tryBoot_starts (by simp [bootConditions, hpwrEn]) hrunning hphase hstarted
  case pwrLost =>
    refine occurs_of_event (fun _ => rfl) fun s hrunning => ?_
    rw [if_pos (by simp [hrunning])]
    exact orderedShutdown_running rfl
  case pf0 =>
    refine occurs_of_event (fun _ => rfl) fun s hpre => ?_
    obtain ⟨hloaded, hlink⟩ := Bool.and_eq_true_iff.1 hpre
    simp only [configAnswer_pf0 hloaded hlink]
  case vf =>
    refine occurs_of_event (fun _ => rfl) fun s hpre => ?_
    simp only [Bool.and_eq_true, decide_eq_true_eq] at hpre
    obtain ⟨hloaded, hphase⟩ := hpre
    simp only [configAnswer_vf hloaded hphase hfn]

end Sys2Proof.Machine
end

section
/-! SUPPORT. The boot commands (R100, R106, R123, R136): the commands that module flash serves, and what a cleared history leaves of the
rungs and of the training parameters. -/
namespace Sys2Proof.Machine

/-! ### Flash -/

/-- R136: while module flash works, a command that needs it has its own meaning. -/
theorem needFlash_of_usable {s : State} (h : flashUsable s = true) (f : Call → State → Ans) (c : Call) : needFlash f c s = f c s := by
  have hflash : (s.boot.phase = .service && s.boot.failedStep = 4) = false := by simpa only [flashUsable, Bool.not_eq_true'] using h
  exact if_neg (by rw [hflash]; decide)

/-! ### A cleared history -/

/-- R106: the boot in which a history is cleared reads the same records of every item. -/
theorem itemRecords_clearHistory (key : Option Nat) (s : State) (k i : Nat) :
    itemRecords (clearHistory key s) k i = itemRecords s k i := by
  simp [itemRecords, clearHistory]

theorem keptRung_clearHistory (key : Option Nat) (s : State) (k i : Nat) : keptRung (clearHistory key s) k i = keptRung s k i := by
  simp only [keptRung, itemRecords_clearHistory]

/-- R106: in every later boot, no record written up to the clearing counts for an item that it names. -/
theorem itemRecords_later {key : Option Nat} {s : State} {k i n : Nat} (hnames : Cleared.names ⟨key, s.nv.powerCycle⟩ (itemKey k i) = true)
    (hlater : s.nv.powerCycle < n) (hjournal : ∀ r ∈ s.nv.journal, r.powerCycle ≤ s.nv.powerCycle) :
    itemRecords { clearHistory key s with nv := { (clearHistory key s).nv with powerCycle := n } } k i = [] := by
  refine List.filter_eq_nil_iff.2 fun r hr => ?_
  have hpast : r.powerCycle ≤ s.nv.powerCycle := hjournal r hr
  simp [clearHistory, hnames, hlater, hpast]

/-- R104, R106: such an item starts at rung 0. -/
theorem keptRung_later {key : Option Nat} {s : State} {k i n : Nat} (hnames : Cleared.names ⟨key, s.nv.powerCycle⟩ (itemKey k i) = true)
    (hlater : s.nv.powerCycle < n) (hjournal : ∀ r ∈ s.nv.journal, r.powerCycle ≤ s.nv.powerCycle) :
    keptRung { clearHistory key s with nv := { (clearHistory key s).nv with powerCycle := n } } k i = (0, 0) := by
  simp only [keptRung, itemRecords_later hnames hlater hjournal]
  rfl

theorem names_item (key cycle : Nat) : Cleared.names ⟨some key, cycle⟩ key = true := decide_eq_true rfl

theorem names_all (key cycle : Nat) : Cleared.names ⟨none, cycle⟩ key = true := rfl

/-- A key that a filter keeps in no entry reads as the default. -/
theorem tget_filter_of_not {α : Type} {keep : Nat × α → Bool} {k : Nat} (h : ∀ v, keep (k, v) = false) (t : Tab α) (d : α) :
    tget (t.filter keep) k d = d := by
  induction t with
  | nil => rfl
  | cons x r ih =>
    obtain ⟨j, v⟩ := x
    rw [List.filter_cons]
    split
    · next hkept =>
      have hne : j ≠ k := by
        rintro rfl
        exact absurd hkept (by rw [h v]; decide)
      rw [tget, if_neg hne, ih]
    · exact ih

/-- R106, R120: the boot after the clearing has no training parameters of a group that it names. -/
theorem dropCleared_params {s : State} {c : Cleared} {i : Nat} (hc : c ∈ s.nv.cleared) (hcycle : c.cycle + 1 = s.nv.powerCycle)
    (hnames : c.names (itemKey 9 i) = true) : tget (dropCleared s).nv.params i none = none := by
  refine tget_filter_of_not (fun v => ?_) s.nv.params none
  rw [Bool.not_eq_false', List.any_eq_true]
  exact ⟨c, List.mem_filter.2 ⟨hc, decide_eq_true hcycle⟩, hnames⟩

/-- Settles O9: each command by its own meaning, with the refusals that its conditions exclude; a clearing by the records that it leaves to
this boot and to later ones. -/
theorem bootCommandsComplete : Obligations.BootCommandsComplete := by
  unfold Obligations.BootCommandsComplete
  refine ⟨fun h => ?state, fun h => ?capacity, fun h seq n a => ?toHost, fun h seq n => ?inline, fun h => ?clearAll,
    fun h k i => ?clearItem, fun k i s n hlater hjournal => ?rungs, fun i s => ?params, fun h s c s' htaken => ?restart⟩
  case state => exact serves_of_command (fun _ => rfl) fun _ _ _ => rfl
  case capacity => exact serves_of_command (fun _ => rfl) fun _ _ _ => rfl
  case toHost =>
    refine serves_of_command (fun _ => rfl) fun c s hpre => ?_
    simp only [Bool.and_eq_true, decide_eq_true_eq] at hpre
    obtain ⟨⟨hflash, hmb⟩, hn⟩ := hpre
    rw [needFlash_of_usable hflash]
    exact if_neg (by simp only [Bool.or_eq_true, decide_eq_true_eq]; omega)
  case inline =>
    refine serves_of_command (fun _ => rfl) fun c s hpre => ?_
    simp only [Bool.and_eq_true, decide_eq_true_eq] at hpre
    obtain ⟨⟨hflash, hmb⟩, hn⟩ := hpre
    rw [needFlash_of_usable hflash]
    exact if_neg (by simp only [Bool.or_eq_true, decide_eq_true_eq]; omega)
  case clearAll => exact serves_of_command (fun _ => rfl) fun c s hflash => needFlash_of_usable hflash _ c
  case clearItem =>
    refine serves_of_command (fun _ => rfl) fun c s hpre => ?_
    simp only [Bool.and_eq_true, decide_eq_true_eq, Bool.not_eq_true'] at hpre
    obtain ⟨⟨⟨⟨hflash, hmandatory⟩, hfirst⟩, hlast⟩, hitem⟩ := hpre
    rw [needFlash_of_usable hflash]
    have hnamed : ¬([(k, i)].any fun x => mandatory x.1 || x.1 = 0 || 19 ≤ x.1 || stepItems x.1 ≤ x.2) = true := by
      simp only [List.any_cons, List.any_nil, hmandatory, Bool.or_eq_true, decide_eq_true_eq, Bool.false_eq_true, false_or, or_false]
      omega
    exact if_neg hnamed
  case rungs =>
    exact ⟨keptRung_clearHistory .., keptRung_later (names_item ..) hlater hjournal, keptRung_clearHistory ..,
      keptRung_later (names_all ..) hlater hjournal⟩
  case params => exact dropCleared_params List.mem_cons_self rfl (names_item ..)
  case restart =>
    have hexec : exec (.bootRestart h) s = execBootRestart h s := rfl
    rw [hexec, execBootRestart, command_of_taken htaken]
    rfl

end Sys2Proof.Machine
end

section
/-! SUPPORT. The firmware slots (R124–R137, R761): the commands that are served outside an activation, the walk of an activation, and the ends of
checks and trials. -/
namespace Sys2Proof.Machine

/-! ### Firmware commands -/

/-- R136, R137: while module flash works and no activation is in progress, a firmware command has its own meaning. -/
theorem fwCommand_of_usable {s : State} (h : fwUsable s = true) (f : Call → State → Ans) (c : Call) : fwCommand f c s = f c s := by
  obtain ⟨hflash, hwalk⟩ := Bool.and_eq_true_iff.1 h
  rw [fwCommand, needFlash_of_usable hflash]
  exact if_neg (by simpa using hwalk)

/-- Settles O10: each command by its own meaning outside an activation, with the refusals that its conditions exclude. -/
theorem firmwareCommandsComplete : Obligations.FirmwareCommandsComplete := by
  unfold Obligations.FirmwareCommandsComplete
  refine ⟨fun h => ?slots, fun h slot => ?writeBegin, fun h slot offset data => ?write, fun h slot => ?verify, fun h => ?activate,
    fun h => ?confirm, fun h slot => ?select, fun slot s => ?settings⟩
  case slots => exact serves_of_command (fun _ => rfl) fun c s husable => fwCommand_of_usable husable _ c
  case writeBegin =>
    refine serves_of_command (fun _ => rfl) fun c s hpre => ?_
    simp only [Bool.and_eq_true, decide_eq_true_eq, Bool.not_eq_true'] at hpre
    obtain ⟨⟨⟨⟨⟨husable, hslot⟩, hother⟩, htrial⟩, herase⟩, hverify⟩ := hpre
    rw [fwCommand_of_usable husable, if_neg (by omega)]
    simp [hother, htrial, herase, hverify]
  case write =>
    refine serves_of_command (fun _ => rfl) fun c s hpre => ?_
    simp only [Bool.and_eq_true, decide_eq_true_eq, Bool.not_eq_true'] at hpre
    obtain ⟨⟨⟨⟨⟨⟨husable, hslot⟩, hlength⟩, hother⟩, htrial⟩, hwriting⟩, herase⟩ := hpre
    rw [fwCommand_of_usable husable]
    simp [Nat.not_lt.2 hslot, Nat.not_lt.2 hlength, hother, htrial, hwriting, herase]
  case verify =>
    refine serves_of_command (fun _ => rfl) fun c s hpre => ?_
    simp only [Bool.and_eq_true, decide_eq_true_eq, Bool.not_eq_true'] at hpre
    obtain ⟨⟨⟨⟨husable, hslot⟩, hfilled⟩, herase⟩, hverify⟩ := hpre
    rw [fwCommand_of_usable husable, if_neg (by omega), if_neg hfilled]
    simp [herase, hverify]
  case activate =>
    refine serves_of_command (fun _ => rfl) fun c s hpre => ?_
    simp only [Bool.and_eq_true, Bool.not_eq_true'] at hpre
    obtain ⟨⟨⟨⟨husable, hstate⟩, hmirror⟩, htodo⟩, hchecks⟩ := hpre
    rw [fwCommand_of_usable husable]
    simp only [hstate, hmirror, hchecks, Bool.not_true, Bool.false_eq_true, if_false]
    obtain ⟨x, rest, hwalk⟩ := List.exists_cons_of_ne_nil (List.isEmpty_eq_false_iff.1 htodo)
    simp only [hwalk, List.headD_cons]
  case confirm =>
    refine serves_of_command (fun _ => rfl) fun c s hpre => ?_
    obtain ⟨husable, htrial⟩ := Bool.and_eq_true_iff.1 hpre
    rw [fwCommand_of_usable husable, if_pos htrial]
  case select =>
    refine serves_of_command (fun _ => rfl) fun c s hpre => ?_
    simp only [Bool.and_eq_true, decide_eq_true_eq] at hpre
    obtain ⟨⟨husable, hslot⟩, hstate⟩ := hpre
    rw [fwCommand_of_usable husable, if_neg (by omega), if_pos hstate]
  case settings => exact ⟨rfl, rfl, rfl⟩

/-! ### The end of a check -/

/-- R125, R136: a check ends with the state that the slot's bytes and the floor give it; the running slot keeps its own (R137). -/
theorem exec_slotVerifyDone {dt slot : Nat} {m : Manifest} {s : State} (hwork : working .slotVerify slot (advance dt s) = true)
    {st : SlotState} (hst : st = if (advance dt s).nv.secFloor ≤ m.secVersion then .valid else .failed) :
    exec (.slotVerifyDone dt slot true m) s = .next (finish .slotVerify slot .ok [⟨1, slotCode st⟩]
      (if slot = (advance dt s).boot.runSlot then advance dt s
        else markSlot slot st (fun x => { x with manifest := m }) (advance dt s))) := by
  have hexec : exec (.slotVerifyDone dt slot true m) s = execSlotVerifyDone dt slot true m s := rfl
  simp only [hexec, execSlotVerifyDone, event, hwork, hst, Bool.true_and, decide_eq_true_eq, Bool.not_true, Bool.false_eq_true, if_false]

/-! ### The walk of an activation -/

/-- R128: a component has taken effect on the first of its units: the next unit's turn begins, or the component is done. -/
def unitDone (x : Nat) (rest : List Nat) (w : Walk) (s : State) : State :=
  match w.units with
  | _ :: u :: us => { s with boot := { s.boot with walk := some { w with units := u :: us } } }
  | _ => componentDone x rest w s

theorem unitDone_of_length_le {w : Walk} (h : w.units.length ≤ 1) (x : Nat) (rest : List Nat) (s : State) :
    unitDone x rest w s = componentDone x rest w s := by
  unfold unitDone
  split
  · next hunits => simp [hunits] at h
  · rfl

/-- R128, R130: the turn of a ready component ends, well or not. -/
theorem exec_componentActivated {dt x slot : Nat} {rest done us : List Nat} {s : State}
    (hwalk : (advance dt s).boot.walk = some ⟨x :: rest, done, slot, us⟩) (hready : unitReady x us (advance dt s) = true) (good : Bool) :
    exec (.componentActivated dt good) s = .next (
      if !good then walkFails x ⟨x :: rest, done, slot, us⟩ (advance dt s)
      else unitDone x rest ⟨x :: rest, done, slot, us⟩ (advance dt s)) := by
  have hexec : exec (.componentActivated dt good) s = execComponentActivated dt good s := rfl
  simp only [hexec, execComponentActivated, event, hwalk, hready, Bool.not_true, Bool.false_eq_true, if_false]
  rfl

/-- Settles O11: a check by the floor, a component by whether units, components or nothing is left of the walk, and the ends of a trial. -/
theorem firmwareEventsAct : Obligations.FirmwareEventsAct := by
  unfold Obligations.FirmwareEventsAct
  refine ⟨fun dt slot => ?erased, fun dt slot m => ?valid, fun dt slot m => ?failed, fun dt x rest slot done u v us => ?unit,
    fun dt x y rest slot done us hunits => ?component, fun dt x slot done us hunits => ?last, fun dt x rest slot us => ?fails,
    fun dt e => ?expiry, fun dt => ?rollsBack, fun dt => ?restarts⟩
  case erased => exact occurs_of_event (fun _ => rfl) fun _ _ => rfl
  case valid =>
    intro s hpre
    simp only [Bool.and_eq_true, decide_eq_true_eq] at hpre
    obtain ⟨hwork, hfloor⟩ := hpre
    exact exec_slotVerifyDone hwork (if_pos hfloor).symm
  case failed =>
    intro s hpre
    simp only [Bool.and_eq_true, decide_eq_true_eq] at hpre
    obtain ⟨hwork, hfloor⟩ := hpre
    exact exec_slotVerifyDone hwork (if_neg (Nat.not_le.2 hfloor)).symm
  case unit =>
    intro s hpre
    simp only [Bool.and_eq_true, decide_eq_true_eq] at hpre
    obtain ⟨hwalk, hready⟩ := hpre
    exact exec_componentActivated hwalk hready true
  case component =>
    intro s hpre
    simp only [Bool.and_eq_true, decide_eq_true_eq] at hpre
    obtain ⟨hwalk, hready⟩ := hpre
    rw [exec_componentActivated hwalk hready, unitDone_of_length_le hunits]
    rfl
  case last =>
    intro s hpre
    simp only [Bool.and_eq_true, decide_eq_true_eq] at hpre
    obtain ⟨hwalk, hready⟩ := hpre
    rw [exec_componentActivated hwalk hready, unitDone_of_length_le hunits]
    rfl
  case fails =>
    intro s hpre
    simp only [Bool.and_eq_true, decide_eq_true_eq] at hpre
    obtain ⟨hwalk, hready⟩ := hpre
    exact exec_componentActivated hwalk hready false
  case expiry =>
    refine occurs_of_event (fun _ => rfl) fun s hpre => ?_
    simp only [Bool.and_eq_true, decide_eq_true_eq] at hpre
    obtain ⟨htrial, hover⟩ := hpre
    simp only [htrial, if_pos hover]
  case rollsBack =>
    refine occurs_of_event (fun _ => rfl) fun s hpre => ?_
    simp only [Bool.and_eq_true, Bool.not_eq_true'] at hpre
    obtain ⟨hboard, htrial⟩ := hpre
    simp only [hboard, htrial, Bool.false_eq_true, if_false, if_true]
  case restarts =>
    refine occurs_of_event (fun _ => rfl) fun s hpre => ?_
    simp only [Bool.and_eq_true, Bool.not_eq_true'] at hpre
    obtain ⟨hboard, htrial⟩ := hpre
    simp only [hboard, htrial, Bool.false_eq_true, if_false]

end Sys2Proof.Machine
end

section
/-! SUPPORT. Redundancy and tray service (R656, R677–R679, R687–R693): staging for a context whose TDI is not locked, and the tray's latch. -/
namespace Sys2Proof.Machine

/-- R693: a context whose TDI is not locked has the command's own meaning. -/
theorem unlocked_of_not {c : Nat} {s : State} (h : tdiLocked s c = false) (body : Call → State → Ans) (call : Call) :
    unlocked c body call s = body call s := if_neg (by rw [h]; decide)

/-- R86: the holder of a quiesced function stages a setting. -/
theorem stage_ok {fid : Nat} {c : Call} {s : State} (h : stageable fid c s = true) (x : Staged) :
    stage fid x c s = ok (stagedIn fid x s) := by
  simp only [stageable, Bool.and_eq_true, decide_eq_true_eq] at h
  obtain ⟨hquiesced, hholder⟩ := h
  have hstate : ¬((funcOf s fid).state = .running ∨ (funcOf s fid).state = .stopping ∨ (funcOf s fid).state = .starting) := by
    rw [← quiesced_eq_false_iff, hquiesced]
    decide
  unfold stage
  rw [if_neg (by simpa only [Bool.or_eq_true, decide_eq_true_eq, or_assoc] using hstate), if_neg (not_not_intro hholder)]
  rfl

theorem ctxStageable_iff (k : Nat) (c : Call) (s : State) : ctxStageable k c s = true ↔
    ctxDefined s k = true ∧ tdiLocked s k = false ∧ stageable (fidContext k) c s = true := by
  simp only [ctxStageable, Bool.and_eq_true, Bool.not_eq_true', and_assoc]

/-- R86, R624: the same for the CONTEXT function of a context whose TDI is not locked. -/
theorem stageCtx_ok {k : Nat} {c : Call} {s : State} (h : ctxStageable k c s = true) (x : Staged) :
    stageCtx k x c s = ok (stagedIn (fidContext k) x s) := by
  obtain ⟨hdefined, hlocked, hstage⟩ := (ctxStageable_iff k c s).1 h
  unfold stageCtx
  rw [hdefined, hlocked]
  exact stage_ok hstage x

/-- Settles O38: each command by its own meaning, with the refusals that its conditions exclude; TRAY_DRAIN by the state of the drain, and the
latch by whether a boot is in progress. -/
theorem redundancyCommandsComplete : Obligations.RedundancyCommandsComplete := by
  unfold Obligations.RedundancyCommandsComplete
  refine ⟨fun h c => ?get, fun h c p hc => ?protect, fun h c => ?swap, fun h c => ?release, fun h c i prod r => ?adopt, fun h => ?drain,
    fun h => ?tray, fun dt => ?bootEnds, fun dt => ?removed⟩
  case get =>
    refine serves_of_command (fun _ => rfl) fun k s hdefined => ?_
    simp only [hdefined, Bool.not_true, Bool.false_eq_true, if_false]
  case protect =>
    refine serves_of_command (fun _ => rfl) fun k s hpre => ?_
    obtain ⟨hstage, hprotect⟩ := Bool.and_eq_true_iff.1 hpre
    obtain ⟨-, hlocked, -⟩ := (ctxStageable_iff c k s).1 hstage
    rw [unlocked_of_not hlocked, if_neg (by omega), hprotect, Bool.not_true, Bool.and_false, if_neg Bool.false_ne_true, stageCtx_ok hstage]
  case swap =>
    refine serves_of_command (fun _ => rfl) fun k s hpre => ?_
    simp only [Bool.and_eq_true, Bool.not_eq_true', Option.isNone_iff_eq_none] at hpre
    obtain ⟨⟨⟨⟨hdefined, hlocked⟩, hacting⟩, hdeferred⟩, hgiving⟩ := hpre
    rw [unlocked_of_not hlocked]
    simp [hdefined, hacting, hdeferred, hgiving]
  case release =>
    refine serves_of_command (fun _ => rfl) fun k s hpre => ?_
    simp only [Bool.and_eq_true, Bool.not_eq_true', decide_eq_true_eq] at hpre
    obtain ⟨⟨⟨hdefined, hlocked⟩, hacting⟩, hgiving⟩ := hpre
    rw [unlocked_of_not hlocked]
    simp [hdefined, hacting, hgiving]
  case adopt =>
    refine serves_of_command (fun _ => rfl) fun k s hpre => ?_
    simp only [Bool.and_eq_true, decide_eq_true_eq] at hpre
    obtain ⟨⟨⟨hring, hdefined⟩, hkind⟩, hidle⟩ := hpre
    have hfree : ¬((liveReqs s c).any fun q => q.2.ring = some i) = true := by
      simpa using hidle
    simp only [hdefined, hring, hkind, hfree, Bool.not_true, Bool.false_eq_true, if_false]
  case drain =>
    refine serves_of_command (fun _ => rfl) fun k s _ => ?_
    cases hdrain : s.red.drain <;> rfl
  case tray => exact serves_of_command (fun _ => rfl) fun _ _ _ => rfl
  case bootEnds => exact occurs_of_event (fun _ => rfl) fun s hbooting => if_pos hbooting
  case removed =>
    refine occurs_of_event (fun _ => rfl) fun s hpre => ?_
    simp only [Bool.and_eq_true, Bool.not_eq_true', decide_eq_true_eq] at hpre
    obtain ⟨⟨hbooting, hdrain⟩, hpower⟩ := hpre
    simp only [hbooting, hdrain, hpower, decide_false, Bool.not_true, Bool.or_false, Bool.false_eq_true, if_false]

end Sys2Proof.Machine
end


section
/-! SUPPORT. The mesh's balance (R181): what leaves the links and their packets as they were, and what a row keeps by the way its meaning is
given. -/
namespace Sys2Proof.Machine

/-- Neither a link's slots nor the packets on links differ. -/
def MeshKept (s t : State) : Prop := t.benches.links = s.benches.links ∧ t.benches.packets = s.benches.packets

theorem MeshKept.refl (s : State) : MeshKept s s := ⟨rfl, rfl⟩

theorem MeshKept.trans {s t u : State} (hst : MeshKept s t) (htu : MeshKept t u) : MeshKept s u :=
  ⟨htu.1.trans hst.1, htu.2.trans hst.2⟩

theorem MeshKept.of_benches {s t : State} (h : t.benches = s.benches) : MeshKept s t := by
  unfold MeshKept
  rw [h]
  exact ⟨rfl, rfl⟩

theorem MeshKept.balanced {s t : State} (h : MeshKept s t) (hs : MeshBalanced s) : MeshBalanced t :=
  meshBalanced_of_parts h.1 h.2 hs

theorem advance_meshKept (dt : Nat) (s : State) : MeshKept s (advance dt s) := .of_benches (advance_parts dt s).2.2.2.2.1

@[simp] theorem foldN_benches_links {f : Nat → State → State} (hf : ∀ i s, (f i s).benches.links = s.benches.links) (n : Nat) (s : State) :
    (foldN n f s).benches.links = s.benches.links := foldl_part (·.benches.links) (fun s i => hf i s) _ _

@[simp] theorem foldN_benches_packets {f : Nat → State → State} (hf : ∀ i s, (f i s).benches.packets = s.benches.packets) (n : Nat)
    (s : State) : (foldN n f s).benches.packets = s.benches.packets := foldl_part (·.benches.packets) (fun s i => hf i s) _ _

@[simp] theorem reporting_benches_links {f : State → State} (hf : ∀ s, (f s).benches.links = s.benches.links) (s : State) :
    (reporting f s).benches.links = s.benches.links := reporting_gen (·.benches.links) (by simp) f s hf

@[simp] theorem reporting_benches_packets {f : State → State} (hf : ∀ s, (f s).benches.packets = s.benches.packets) (s : State) :
    (reporting f s).benches.packets = s.benches.packets := reporting_gen (·.benches.packets) (by simp) f s hf

theorem foldN_meshKept {f : Nat → State → State} (hf : ∀ i s, MeshKept s (f i s)) (n : Nat) (s : State) : MeshKept s (foldN n f s) :=
  ⟨foldN_benches_links (fun i s => (hf i s).1) n s, foldN_benches_packets (fun i s => (hf i s).2) n s⟩

/-- The row keeps the balance of every mesh. -/
def KeepsBalance (i : Instr) : Prop := ∀ s, ∃ t, exec i s = .next t ∧ (MeshBalanced s → MeshBalanced t)

section
variable {body : Call → State → Ans} (hbody : ∀ k s, MeshKept s (body k s).s)
include hbody

theorem command_meshKept (h : Hdr) (p : Spec) (s : State) : MeshKept s (command h p body s) :=
  ⟨command_gen (·.benches.links) (by simp) (by simp) (by simp) h p body s fun k s => (hbody k s).1,
    command_gen (·.benches.packets) (by simp) (by simp) (by simp) h p body s fun k s => (hbody k s).2⟩

theorem needFlash_meshKept (k : Call) (s : State) : MeshKept s (needFlash body k s).s := by
  unfold needFlash
  split
  · exact .refl s
  · exact hbody k s

theorem fwCommand_meshKept (k : Call) (s : State) : MeshKept s (fwCommand body k s).s := by
  refine needFlash_meshKept (fun k s => ?_) k s
  split
  · exact .refl s
  · exact hbody k s

theorem ifActive_meshKept (c : Nat) (k : Call) (s : State) : MeshKept s (ifActive c body k s).s := by
  unfold ifActive
  split
  · exact .refl s
  · split
    · exact .refl s
    · exact hbody k s

theorem unlocked_meshKept (c : Nat) (k : Call) (s : State) : MeshKept s (unlocked c body k s).s := by
  unfold unlocked
  split
  · exact .refl s
  · exact hbody k s

theorem keepsBalance_of_command {i : Instr} {h : Hdr} {p : State → Spec} (hexec : ∀ s, exec i s = .next (command h (p s) body s)) :
    KeepsBalance i :=
  fun s => ⟨_, hexec s, (command_meshKept hbody h (p s) s).balanced⟩

end

/-- The same where another operation, which leaves the mesh as it is, acts once the command has been answered. -/
theorem keepsBalance_of_command_then {i : Instr} {h : Hdr} {p : State → Spec} {body : Call → State → Ans} {after : State → State}
    (hexec : ∀ s, exec i s = .next (after (command h (p s) body s))) (hafter : ∀ s, MeshKept s (after s))
    (hbody : ∀ k s, MeshKept s (body k s).s) : KeepsBalance i :=
  fun s => ⟨_, hexec s, ((command_meshKept hbody h (p s) s).trans (hafter _)).balanced⟩

/-- An event, which may look at the state before its time has passed, keeps the balance where what it does keeps it. -/
theorem keepsBalance_of_balanced {i : Instr} {dt : Nat} {body : State → State → State}
    (hexec : ∀ s, exec i s = .next (event dt (body s) s)) (hbody : ∀ u s, MeshBalanced s → MeshBalanced (body u s)) : KeepsBalance i :=
  fun s => ⟨_, hexec s, fun hs => hbody s _ ((advance_meshKept dt s).balanced hs)⟩

theorem keepsBalance_of_event {i : Instr} {dt : Nat} {body : State → State → State}
    (hexec : ∀ s, exec i s = .next (event dt (body s) s)) (hbody : ∀ u s, MeshKept s (body u s)) : KeepsBalance i :=
  keepsBalance_of_balanced hexec fun u s => (hbody u s).balanced

theorem answerOn_meshKept {body : State → Reply} (hbody : ∀ s, MeshKept s (body s).s) (p : SpdmPath) (s : State) :
    MeshKept s (answerOn p body s) := by
  unfold answerOn
  split
  · exact (hbody s).trans (.of_benches (giveReply_parts ..).2.2.2.2.1)
  · exact .refl s

theorem keepsBalance_of_spdm {i : Instr} {dt : Nat} {p : SpdmPath} {body : State → Reply}
    (hexec : ∀ s, exec i s = .next (spdm dt p body s)) (hbody : ∀ s, MeshKept s (body s).s) : KeepsBalance i :=
  keepsBalance_of_event hexec fun _ => answerOn_meshKept hbody p

theorem keepsBalance_of_inSession {i : Instr} {dt sid : Nat} {finished : Bool} {body : Session → State → Reply}
    (hexec : ∀ s, exec i s = .next (inSession dt sid finished body s)) (hbody : ∀ x s, MeshKept s (body x s).s) : KeepsBalance i := by
  refine keepsBalance_of_event hexec fun _ s => ?_
  split
  · exact .refl s
  · next x _ =>
    refine answerOn_meshKept (fun s => ?_) x.path s
    split
    · exact .refl s
    · exact (MeshKept.of_benches (keepAlive_parts sid s).2.2.2.2.1).trans (hbody x _)

theorem keepsBalance_of_sideEvent {i : Instr} {dt : Nat} {body : State → State} (hexec : ∀ s, exec i s = .next (sideEvent dt body s))
    (hbody : ∀ s, MeshKept s (body s)) : KeepsBalance i := by
  refine keepsBalance_of_event hexec fun _ s => ?_
  split
  · exact hbody s
  · exact .refl s

theorem keepsBalance_of_nodeFrame {i : Instr} {dt port len : Nat} {mine : Port → Bool} {body : State → State}
    (hexec : ∀ s, exec i s = .next (nodeFrame dt port len mine body s)) (hbody : ∀ s, MeshKept s (body s)) : KeepsBalance i := by
  refine keepsBalance_of_event hexec fun _ s => ?_
  split
  · exact .refl s
  · split
    · exact (MeshKept.of_benches (takeFrame__parts port len s).2.2.2.2.1).trans (hbody _)
    · exact .refl s

theorem groupMsg_meshKept {body : GroupPace → State → State} (hbody : ∀ g s, MeshKept s (body g s)) (m : XMsg) (s : State) :
    MeshKept s (groupMsg m body s) := by
  unfold groupMsg
  split
  · simp [MeshKept]
  · (repeat' split)
    case isFalse.isFalse.isFalse.isFalse => exact hbody _ s
    all_goals simp [MeshKept]

theorem receiveModule_meshKept {body : State → State} (hbody : ∀ s, MeshKept s (body s)) (m : XMsg) (s : State) :
    MeshKept s (receiveModule m body s) :=
  ⟨receiveModule_benches_links fun s => (hbody s).1, receiveModule_benches_packets fun s => (hbody s).2⟩

theorem receiveHello_meshKept {body : State → State} (hbody : ∀ s, MeshKept s (body s)) (m : XMsg) (p : HelloPar) (s : State) :
    MeshKept s (receiveHello m p body s) :=
  ⟨receiveHello_benches_links fun s => (hbody s).1, receiveHello_benches_packets fun s => (hbody s).2⟩

theorem dowelMsg_meshKept {body : Nat → State → State} (hbody : ∀ c s, MeshKept s (body c s)) (m : DowelMsg) (taken : Bool) (s : State) :
    MeshKept s (dowelMsg m taken body s) :=
  ⟨dowelMsg_benches_links fun c s => (hbody c s).1, dowelMsg_benches_packets fun c s => (hbody c s).2⟩

end Sys2Proof.Machine
end

section
/-! SUPPORT. The mesh's balance (R181–R183, R593): packets that move, and the mesh of a module that restarts or loses its power. -/
namespace Sys2Proof.Machine

/-! ### Packets that move -/

theorem takeFirst_eq_some {α : Type} {p : α → Bool} {l rest : List α} {x : α} (h : takeFirst p l = some (x, rest)) :
    p x = true ∧ ∃ a b, l = a ++ x :: b ∧ rest = a ++ b := by
  induction l generalizing rest with
  | nil => cases h
  | cons y r ih =>
    simp only [takeFirst] at h
    split at h
    · next hy =>
      cases h
      exact ⟨hy, [], r, rfl, rfl⟩
    · obtain ⟨⟨z, q⟩, hq, heq⟩ := Option.map_eq_some_iff.1 h
      cases heq
      obtain ⟨hx, a, b, rfl, rfl⟩ := ih hq
      exact ⟨hx, y :: a, b, rfl, rfl⟩

/-- R181: on each link, one packet fewer than before, for the one that has left. -/
theorem onLink_of_split {s : State} {p : Packet} {a b : List Packet} (h : s.benches.packets = a ++ p :: b) (link : Nat) (c : MeshClass) :
    onLink s link c = (if p.link = link ∧ p.cls = c then 1 else 0)
      + ((a ++ b).filter fun q => q.link = link && q.cls = c).length := by
  rw [onLink, h]
  by_cases hp : p.link = link ∧ p.cls = c
  · simp [hp.1, hp.2]
    omega
  · have hf : (decide (p.link = link) && decide (p.cls = c)) = false := by simpa using hp
    simp [hp, hf]

theorem removePacket_of_source {link : Nat} (h : isSource link = true) (c : MeshClass) (rest : List Packet) (s : State) :
    MeshKept s (removePacket link c rest s) := by
  rw [removePacket, if_pos h]
  exact ⟨rfl, rfl⟩

/-- R181: a packet that leaves a link leaves a freed slot there. -/
theorem removePacket_balanced {s : State} {p : Packet} {rest : List Packet} (hsource : isSource p.link = false)
    (hsplit : ∃ a b, s.benches.packets = a ++ p :: b ∧ rest = a ++ b) (hs : MeshBalanced s) :
    MeshBalanced (removePacket p.link p.cls rest s) := by
  obtain ⟨a, b, hpackets, rfl⟩ := hsplit
  rw [removePacket, hsource, if_neg Bool.false_ne_true]
  intro link c
  obtain ⟨hsum, hinflight⟩ := hs link c
  have hon := onLink_of_split hpackets
  have hrest : onLink (leaveLink p.link p.cls { s with benches := { s.benches with packets := a ++ b } }) link c
      = ((a ++ b).filter fun q => q.link = link && q.cls = c).length := rfl
  have hheld : 0 < (linkOf s p.link p.cls).inflight := by
    rw [(hs p.link p.cls).2, hon, if_pos ⟨rfl, rfl⟩]
    omega
  refine ⟨(leaveLink_sum hheld link c).trans hsum, ?_⟩
  rw [hrest, leaveLink, linkOf_modLink]
  have hon' := hon link c
  split
  · next h =>
    obtain ⟨rfl, rfl⟩ := h
    rw [if_pos ⟨rfl, rfl⟩] at hon'
    change (linkOf s p.link p.cls).inflight - 1 = _
    omega
  · next h =>
    rw [if_neg h] at hon'
    change (linkOf s link c).inflight = _
    omega

/-- R181: a packet that is sent on a link, whose slot has been taken, comes to stand there. -/
theorem addPacket_balanced {s t : State} {p : Packet} (htaken : MeshKept (takeCredit p.link p.cls s) t)
    (hcredit : 0 < (linkOf s p.link p.cls).credits) (hs : MeshBalanced s) :
    MeshBalanced { t with benches := { t.benches with packets := t.benches.packets ++ [p] } } := by
  obtain ⟨hlinks, hpackets⟩ := htaken
  rw [takeCredit_packets] at hpackets
  intro link c
  obtain ⟨hsum, hinflight⟩ := hs link c
  have hlink : linkOf { t with benches := { t.benches with packets := t.benches.packets ++ [p] } } link c
      = linkOf (takeCredit p.link p.cls s) link c := by simp only [linkOf, hlinks]
  rw [hlink]
  refine ⟨(takeCredit_sum hcredit link c).trans hsum, ?_⟩
  rw [takeCredit, linkOf_modLink, onLink, hpackets, List.filter_append, List.length_append]
  split
  · next h =>
    obtain ⟨rfl, rfl⟩ := h
    simpa [onLink] using hinflight
  · next h =>
    have hother : (decide (p.link = link) && decide (p.cls = c)) = false := by simpa using h
    simpa [onLink, hother] using hinflight

theorem headPacket_eq_some {s : State} {link : Nat} {c : MeshClass} {p : Packet} {rest : List Packet}
    (h : headPacket s link c = some (p, rest)) :
    p.link = link ∧ p.cls = c ∧ ∃ a b, packetsAt s link = a ++ p :: b ∧ rest = a ++ b := by
  obtain ⟨hp, hsplit⟩ := takeFirst_eq_some h
  simp only [Bool.and_eq_true, decide_eq_true_eq] at hp
  exact ⟨hp.1, hp.2, hsplit⟩

/-- R181: the first packet of a class on a link, or at a place where packets wait, leaves it. -/
theorem removeHead_balanced {s : State} {link : Nat} {c : MeshClass} {p : Packet} {rest : List Packet}
    (h : headPacket s link c = some (p, rest)) (hs : MeshBalanced s) : MeshBalanced (removePacket link c rest s) := by
  obtain ⟨rfl, rfl, hsplit⟩ := headPacket_eq_some h
  cases hsource : isSource p.link with
  | true => exact (removePacket_of_source hsource _ _ _).balanced hs
  | false =>
    rw [packetsAt, hsource, if_neg Bool.false_ne_true] at hsplit
    exact removePacket_balanced hsource hsplit hs

theorem removePacket_credits (link k : Nat) (c d : MeshClass) (rest : List Packet) (s : State) :
    (linkOf (removePacket link c rest s) k d).credits = (linkOf s k d).credits := by
  unfold removePacket
  split
  · rfl
  · rw [leaveLink, linkOf_modLink]
    split
    · next h =>
      obtain ⟨rfl, rfl⟩ := h
      rfl
    · rfl

/-- R182: the class that a link serves has a credit there. -/
theorem credits_of_servedClass {s : State} {out : Nat} {c : MeshClass} (h : servedClass s out = some c) : 0 < (linkOf s out c).credits := by
  have hready : readyFor s out c = true := by
    unfold servedClass at h
    split at h
    · next hcontrol =>
      cases h
      exact hcontrol
    · exact List.find?_some h
  simp only [readyFor, Bool.and_eq_true, decide_eq_true_eq] at hready
  exact hready.1

/-- R181–R183: a packet that moves on gives up a slot behind it and takes one before it. -/
theorem moveOn_balanced {s : State} {link : Nat} {c : MeshClass} {p : Packet} {rest : List Packet}
    (hhead : headPacket s link c = some (p, rest)) (hserved : servedClass s (nextLink p) = some c) (hs : MeshBalanced s) :
    MeshBalanced (moveOn link c p rest s) := by
  obtain ⟨-, rfl, -⟩ := headPacket_eq_some hhead
  have hcredit : 0 < (linkOf (removePacket link p.cls rest s) (nextLink p) p.cls).credits := by
    rw [removePacket_credits]
    exact credits_of_servedClass hserved
  have hmoved := addPacket_balanced (p := { p with link := nextLink p }) (t := noteTurn (nextLink p) p.cls
    (takeCredit (nextLink p) p.cls (removePacket link p.cls rest s))) ⟨by simp, by simp⟩ hcredit (removeHead_balanced hhead hs)
  unfold moveOn
  dsimp only at hmoved ⊢
  split
  · split
    · exact MeshKept.balanced ⟨by simp, by simp⟩ hmoved
    · exact hmoved
  · split
    · exact MeshKept.balanced ⟨by simp, by simp⟩ hmoved
    · exact hmoved

theorem settleDrains_balanced {s : State} (hs : MeshBalanced s) : MeshBalanced (settleDrains s) :=
  MeshKept.balanced ⟨by simp, by simp⟩ hs

/-- R181–R184: the first packet of a link stays, or is taken, or moves on. -/
theorem meshPacketArrival_keepsBalance (dt link : Nat) (k : MeshLink) : KeepsBalance (.meshPacketArrival dt link k) := by
  refine keepsBalance_of_balanced (fun _ => rfl) fun _ s hs => settleDrains_balanced ?_
  dsimp only
  split
  · exact hs
  · next p rest hhead =>
    have hremoved := removeHead_balanced hhead hs
    split
    · split
      · split
        · exact hs
        · exact MeshKept.balanced ⟨by simp, by simp⟩ hremoved
      · exact hremoved
    · split
      · split
        · exact hremoved
        · split
          · exact MeshKept.balanced ⟨by simp, by simp⟩ hremoved
          · split
            · exact MeshKept.balanced ⟨by simp, by simp⟩ hremoved
            · exact hs
      · split
        · next hserved => exact moveOn_balanced hhead hserved hs
        · exact hs

/-- R181: a credit returns for a slot that was freed. -/
theorem creditReturn_keepsBalance (dt link : Nat) (k : MeshLink) : KeepsBalance (.creditReturn dt link k) := by
  refine keepsBalance_of_balanced (fun _ => rfl) fun _ s hs => ?_
  dsimp only
  split
  · next hpre =>
    simp only [Bool.and_eq_true, decide_eq_true_eq] at hpre
    obtain ⟨hfreed, -⟩ := hpre
    intro l c
    have hl := hs l c
    rw [linkOf_modLink]
    split
    · next h =>
      obtain ⟨rfl, rfl⟩ := h
      refine ⟨?_, hl.2⟩
      have hsum := hl.1
      simp only [linkSum] at hsum ⊢
      omega
    · exact hl
  · exact hs

theorem inboundHead_eq_some {s : State} {b : Nat} {p : Packet} {rest : List Packet} (h : inboundHead s b = some (p, rest)) :
    p.link = linkNo (benchSite b) 4 ∧ ∃ l r, s.benches.packets = l ++ p :: r ∧ rest = l ++ r := by
  obtain ⟨hp, hsplit⟩ := takeFirst_eq_some h
  simp only [Bool.and_eq_true, decide_eq_true_eq] at hp
  exact ⟨hp.1.1, hsplit⟩

/-- A bench's local port is a link. -/
theorem isSource_localPort (b : Nat) : isSource (linkNo (benchSite b) 4) = false := by
  have hport : linkNo (benchSite b) 4 % 16 = 4 := by
    unfold linkNo
    omega
  simp [isSource, hport]

theorem inboundWrite_keepsBalance (dt b : Nat) : KeepsBalance (.inboundWrite dt b) := by
  refine keepsBalance_of_balanced (fun _ => rfl) fun _ s hs => ?_
  split
  · exact hs
  · next p rest hhead =>
    obtain ⟨hlink, hsplit⟩ := inboundHead_eq_some hhead
    have hremoved := removePacket_balanced (by rw [hlink, isSource_localPort]) hsplit hs
    split
    · exact hs
    · exact settleDrains_balanced (MeshKept.balanced ⟨by simp, by simp⟩ hremoved)

/-! ### Power and restarts -/

/-- R181: without die power nothing is on the mesh, and every credit is with its sender. -/
theorem powerOff_balanced (s : State) : MeshBalanced (powerOff s) := fun _ c => by cases c <;> exact ⟨rfl, rfl⟩

theorem tryBoot_balanced {s : State} (hs : MeshBalanced s) : MeshBalanced (tryBoot s) :=
  (MeshKept.of_benches (tryBoot_parts s).2.2.1).balanced hs

theorem moduleRestart_balanced (s : State) : MeshBalanced (moduleRestart s) := tryBoot_balanced (powerOff_balanced _)

theorem endBoot_balanced {s : State} (hs : MeshBalanced s) : MeshBalanced (endBoot s) := by
  unfold endBoot
  split
  · exact powerOff_balanced _
  · exact hs

theorem orderedShutdown_balanced {s : State} (hs : MeshBalanced s) : MeshBalanced (orderedShutdown s) := by
  unfold orderedShutdown
  split
  · exact hs
  · exact powerOff_balanced _

theorem squareFatal_balanced {s : State} (hs : MeshBalanced s) : MeshBalanced (squareFatal s) := by
  unfold squareFatal
  dsimp only
  split
  · exact moduleRestart_balanced _
  · exact MeshKept.balanced ⟨by simp, by simp⟩ hs

theorem bootRestart_keepsBalance (h : Hdr) : KeepsBalance (.bootRestart h) := by
  intro s
  refine ⟨_, rfl, fun hs => ?_⟩
  split
  · exact moduleRestart_balanced _
  · exact (command_meshKept (fun k s => .refl s) h _ s).balanced hs

theorem squareWatchdog_keepsBalance (dt : Nat) : KeepsBalance (.squareWatchdog dt) := by
  refine keepsBalance_of_balanced (fun _ => rfl) fun _ s hs => ?_
  (repeat' split)
  · exact hs
  · exact moduleRestart_balanced _
  · exact moduleRestart_balanced _

theorem pairDisagreement_keepsBalance (dt : Nat) (mismatch : Bool) : KeepsBalance (.pairDisagreement dt mismatch) := by
  refine keepsBalance_of_balanced (fun _ => rfl) fun _ s hs => ?_
  dsimp only
  (repeat' split)
  · exact hs
  · exact squareFatal_balanced hs
  · exact MeshKept.balanced ⟨by simp, by simp⟩ hs

theorem pwrEnDeassert_keepsBalance (dt : Nat) : KeepsBalance (.pwrEnDeassert dt) := by
  refine keepsBalance_of_balanced (fun _ => rfl) fun _ s hs => ?_
  dsimp only
  split
  · exact orderedShutdown_balanced hs
  · exact hs

theorem trayLatchDeassert_keepsBalance (dt : Nat) : KeepsBalance (.trayLatchDeassert dt) := by
  refine keepsBalance_of_balanced (fun _ => rfl) fun _ s hs => ?_
  dsimp only
  (repeat' split)
  · exact endBoot_balanced hs
  · exact hs
  · exact MeshKept.balanced ⟨by simp, by simp⟩ hs

theorem shutDown_balanced {s : State} (hs : MeshBalanced s) : MeshBalanced (shutDown s) := by
  unfold shutDown
  split
  · exact orderedShutdown_balanced hs
  · exact hs

/-- R587, R593: what the input voltage brings about. -/
theorem inputActs_balanced (x : InputRead) {s : State} (hs : MeshBalanced s) : MeshBalanced (
    if 3 ≤ s.pwr.input.shut then shutDown s
    else if !fabricOn s || !x.reaches then s
    else if s.pwr.input.low = 3 then reporting (supplyHalt 0x8501) s
    else if s.pwr.input.high = 3 then reporting (supplyHalt 0x8504) s
    else s) := by
  (repeat' split)
  · exact shutDown_balanced hs
  · exact hs
  · exact MeshKept.balanced ⟨by simp, by simp⟩ hs
  · exact MeshKept.balanced ⟨by simp, by simp⟩ hs
  · exact hs

theorem inputSample_keepsBalance (dt : Nat) (x : InputRead) : KeepsBalance (.inputSample dt x) := by
  refine keepsBalance_of_balanced (fun _ => rfl) fun _ s hs => tryBoot_balanced (endBoot_balanced ?_)
  have hsampled : MeshBalanced (if x.reaches then endLoss (takeSample x s) else modInput (fun i => { i with shut := shutSamples x i }) s) :=
    (MeshKept.of_benches (by simp)).balanced hs
  generalize (if x.reaches then endLoss (takeSample x s) else modInput (fun i => { i with shut := shutSamples x i }) s) = u at hsampled ⊢
  have hacted := inputActs_balanced x (s := { u with tray := { u.tray with inputGood := decide (44000 ≤ x.mv && x.mv ≤ 60000) } })
    hsampled
  dsimp only at hacted ⊢
  split
  · exact hacted
  · exact hacted

end Sys2Proof.Machine
end

section
/-! SUPPORT. The mesh's balance (R181), row by row. -/
namespace Sys2Proof.Machine

/-! ### Rows that call for more than their shape -/

theorem funcStart_keepsBalance (h : Hdr) (fid d : Nat) (a : Bool) : KeepsBalance (.funcStart h fid d a) := by
  refine keepsBalance_of_command_then (fun _ => rfl) (fun s => .of_benches (settleStart_parts ..).2.2.2.2.1) fun k s => ?_
  dsimp only [MeshKept]
  (repeat' split) <;> simp

theorem ctxDestroy_keepsBalance (h : Hdr) (c : Nat) : KeepsBalance (.ctxDestroy h c) := by
  refine keepsBalance_of_command_then (fun _ => rfl) (fun s => ⟨by simp, by simp⟩) fun k s => ?_
  dsimp only [MeshKept]
  (repeat' split) <;> simp

theorem oprRun_keepsBalance (h : Hdr) (c : Nat) (plans : List Nat) (trigger : Option TriggerPar) : KeepsBalance (.oprRun h c plans trigger) := by
  refine keepsBalance_of_command_then (after := execOprRun.startNew) (fun _ => rfl) (fun s => ⟨by simp, by simp⟩) fun k s => ?_
  dsimp only [MeshKept]
  (repeat' split) <;> simp

theorem vidClose_keepsBalance (h : Hdr) (enc : Bool) (i : Nat) (drain : Bool) : KeepsBalance (.vidClose h enc i drain) := by
  refine keepsBalance_of_command_then (fun _ => rfl) (fun s => ⟨by simp, by simp⟩) fun k s => ?_
  dsimp only [MeshKept]
  (repeat' split) <;> simp

theorem xltMalformed_keepsBalance (dt port srcM : Nat) : KeepsBalance (.xltMalformed dt port srcM) := by
  refine keepsBalance_of_event (fun _ => rfl) fun _ s => ?_
  have hport : MeshKept s (portTakes { blankMsg with port := port, srcM := srcM } s).2 := .of_benches (portTakes_parts ..).2.2.2.2.1
  split
  · next htakes =>
    rw [htakes] at hport
    exact hport
  · next htakes =>
    rw [htakes] at hport
    exact hport.trans ⟨by simp, by simp⟩

theorem helloOpen_keepsBalance (dt : Nat) (m : XMsg) (p : HelloPar) : KeepsBalance (.helloOpen dt m p) := by
  refine keepsBalance_of_event (fun _ => rfl) fun _ s => receiveHello_meshKept (fun s => ?_) m p s
  dsimp only [MeshKept]
  (repeat' split) <;> simp

theorem pageShipAccept_keepsBalance (dt : Nat) (m : XMsg) : KeepsBalance (.pageShipAccept dt m) := by
  refine keepsBalance_of_event (fun _ => rfl) fun _ s => receiveModule_meshKept (fun s => ?_) _ s
  dsimp only [MeshKept]
  split <;> simp

theorem paceBeacon_keepsBalance (dt : Nat) (m : XMsg) : KeepsBalance (.paceBeacon dt m) := by
  refine keepsBalance_of_event (fun _ => rfl) fun _ s => receiveModule_meshKept (groupMsg_meshKept (fun g s => ?_) m) m s
  dsimp only [MeshKept]
  (repeat' split) <;> simp

theorem lagNotice_keepsBalance (dt : Nat) (m : XMsg) : KeepsBalance (.lagNotice dt m) := by
  refine keepsBalance_of_event (fun _ => rfl) fun _ s => receiveModule_meshKept (groupMsg_meshKept (fun g s => ?_) m) m s
  dsimp only [MeshKept]
  (repeat' split) <;> simp

theorem dowelRenew_keepsBalance (dt : Nat) (m : DowelMsg) : KeepsBalance (.dowelRenew dt m) := by
  refine keepsBalance_of_event (fun _ => rfl) fun _ s => dowelMsg_meshKept (fun c s => ?_) m _ s
  dsimp only [MeshKept]
  (repeat' split) <;> simp

theorem supplyRecovered_keepsBalance (dt : Nat) : KeepsBalance (.supplyRecovered dt) := by
  refine keepsBalance_of_event (fun _ => rfl) fun _ s => ?_
  refine ⟨reporting_benches_links (fun s => ?_) s, reporting_benches_packets (fun s => ?_) s⟩ <;>
    (repeat' split) <;> simp

theorem ite_ans_meshKept {c : Prop} [Decidable c] {s : State} {a b : Ans} (ha : MeshKept s a.s) (hb : MeshKept s b.s) :
    MeshKept s (if c then a else b).s := by
  split
  · exact ha
  · exact hb

theorem reqAdmit_keepsBalance (h : Hdr) (c : Nat) (p : AdmitPar) : KeepsBalance (.reqAdmit h c p) := by
  refine keepsBalance_of_command (fun k s => ?_) fun _ => rfl
  refine ite_ans_meshKept (.refl s) (ite_ans_meshKept (.refl s) (ite_ans_meshKept (.refl s) (ite_ans_meshKept (.refl s) ?_)))
  cases modelOf s c p.model with
  | none => exact .refl s
  | some m =>
    refine ite_ans_meshKept (.refl s) ?_
    dsimp only
    generalize hmask : List.filter _ _ = mask
    split
    · exact .refl s
    · refine ite_ans_meshKept ⟨by simp, by simp⟩ (ite_ans_meshKept (.refl s) ?_)
      dsimp only [MeshKept]
      split <;> simp

theorem pageShipAnnounce_keepsBalance (dt : Nat) (m : XMsg) (p : ShipPar) : KeepsBalance (.pageShipAnnounce dt m p) := by
  refine keepsBalance_of_event (fun _ => rfl) fun _ s => receiveModule_meshKept (fun s => ?_) _ s
  split
  · exact ⟨by simp, by simp⟩
  · dsimp only
    split
    · split <;> exact ⟨by simp, by simp⟩
    · exact ⟨by simp, by simp⟩
    · split
      · exact ⟨by simp, by simp⟩
      · split
        · exact ⟨by simp, by simp⟩
        · next hsecured =>
          obtain ⟨-, hlinks, hpackets, -⟩ := securePages_parts hsecured
          exact MeshKept.trans ⟨hlinks, hpackets⟩ ⟨by simp, by simp⟩

theorem sisterLinkReturn_keepsBalance (dt : Nat) (l : List Nat) : KeepsBalance (.sisterLinkReturn dt l) := by
  refine keepsBalance_of_event (fun _ => rfl) fun _ s => ?_
  split
  · exact .refl s
  · refine .trans (t := { s with red := { s.red with linkLost := false, sisterAt := now s } }) ⟨rfl, rfl⟩
      (foldN_meshKept (fun c s => ?_) 16 _)
    dsimp only [MeshKept]
    (repeat' split) <;> simp

theorem scrubWord_meshKept (g w : Nat) (s : State) : MeshKept s (scrubWord g w s) := .of_benches (scrubWord_parts ..).2.2.2.1

/-- The words of one burst, whichever words they are, and what the group and its gauges count of it. -/
theorem burstWords_meshKept (base g a b n : Nat) (f : GroupSt → GroupSt) (s : State) :
    MeshKept s (gauge a b n (modGroup g f (foldN 16 (fun j t => scrubWord g (base + j) t) s))) :=
  (MeshKept.trans (foldN_meshKept (fun j => scrubWord_meshKept g (base + j)) 16 s)
    (.of_benches (modGroup_rest ..).2.2.2.2.2.2.2.2.1)).trans (.of_benches (gauge_parts ..).2.2.2.1)

theorem scrubBurst_keepsBalance (dt g : Nat) : KeepsBalance (.scrubBurst dt g) := by
  refine keepsBalance_of_event (fun _ => rfl) fun _ s => ?_
  split
  · exact .refl s
  · apply burstWords_meshKept

/-! ### Every row by its shape -/

/-- A row whose meaning is given as a command's and needs nothing of those below. -/
def isCommand : Instr → Bool
  | .nop _ | .getInfo _ | .getSqStatus _ | .mbxGetState _ | .mbxNotifyMask _ _ | .mbxBind _ _ _ | .mbxUnquarantine _ _
  | .setModuleNumber _ _ | .funcStop _ _ _ | .funcRevert _ _ _ | .funcStatus _ _ | .timGet _ | .timSetSkewLimit _ _
  | .timPtpConfig _ _ | .timAcceptGm _ | .bootGetState _ | .bootGetCapacity _ | .ctxCreate _ _ _ | .ctxSetBlocks _ _ _ _
  | .ctxSetGroups _ _ _ | .ctxSetSlice _ _ _ _ _ | .ctxSetQuantum _ _ _ | .ctxGet _ _ | .lotSet _ _ _ _ | .lotGet _ _ _ _
  | .memGetState _ _ | .ydSetPartition _ _ _ | .memSetScrub _ _ _ | .memGetErrors _ _ | .memInject _ _ _ _ | .blkGetMap _
  | .jigKeyAdd _ _ _ | .jigKeyRemove _ _ _ | .jigLoad _ _ _ _ _ _ _ | .jigLoadLib _ _ _ _ _ | .jigUnload _ _ _ _
  | .jigRun _ _ _ _ _ | .jigAbort _ _ _ | .jigStatus _ _ _ | .oprPlan _ _ _ _ _ _ _ | .oprUntrigger _ _ _ | .oprStatus _ _
  | .reqGet _ _ _ | .reqModelSet _ _ _ | .reqSetPolicy _ _ _ _ _ | .reqGetStats _ _ | .smpGet _ _ _ | .kvPoolSet _ _ _
  | .kvPoolGet _ _ | .kvSetPolicy _ _ _ | .attSetBuckets _ _ _ | .kvReadList _ _ _ _ | .wgtUnseal _ _ _ _ _ _ | .netGetState _
  | .netPeerPin _ _ _ _ | .netPeerGet _ _ | .netLaneGet _ _ _ | .xltGrantSet _ _ _ | .xltSetLaneDepth _ _ _
  | .xltCollSet _ _ _ _ | .netUnquarantine _ _ | .vidDecOpen _ _ | .vidEncOpen _ _ | .vidEncSetRc _ _ _ | .vidEncForceKey _ _
  | .vidGet _ _ _ | .pwrGetState _ | .pwrCabCap _ _ | .pwrSetDroop _ _ | .pwrSetConfLevels _ _ | .pwrResume _ | .pwrClearLeak _
  | .paceGroupSet _ _ | .paceGroupGet _ | .pwrGetEnergy _ | .secSpdm _ _ | .secRotateKey _ _ _ | .secPkgKeyAdd _ _ _
  | .secPkgKeyRemove _ _ _ | .redGet _ _ | .redRingAdopt _ _ _ _ | .trayDrain _ | .trayGet _ | .gauSelect _ _ _
  | .gauSnapshot _ _ _ _ | .gauRead _ _ _ _ | .gauSampleSet _ _ _ _ _ _ _ _ | .gauSampleStop _ _ | .recThaw _ | .recClear _
  | .recFlush _ | .recGetState _ => true
  | _ => false

/-- R136: a command that needs module flash. -/
def isFlashCommand : Instr → Bool
  | .bootReadJournal _ _ _ _ | .bootClearHistory _ _ | .netSetManager _ _ | .pwrSetLocalCap _ _ | .pwrSetLoneCap _ _
  | .pwrSetCeiling _ _ | .recRead _ _ _ _ _ _ | .recFreeze _ _ => true
  | _ => false

/-- R137: a firmware command. -/
def isFirmwareCommand : Instr → Bool
  | .fwGetSlots _ | .fwWriteBegin _ _ | .fwWrite _ _ _ _ _ | .fwVerifySlot _ _ | .fwActivate _ | .fwConfirm _
  | .fwSelectBoot _ _ => true
  | _ => false

/-- R660: a command that a following side refuses. -/
def isServingCommand : Instr → Bool
  | .reqCancel _ _ _ | .reqUpdate _ _ _ _ _ | .reqStopSet _ _ _ _ _ | .reqRingSet _ _ _ | .smpSet _ _ _ _ | .venLoad _ _ _
  | .venReplace _ _ _ | .venUnload _ _ _ | .venGet _ _ | .venTrainBegin _ _ _ _ _ _ _ | .venTrainStep _ _ _ _
  | .venPublish _ _ _ _ _ => true
  | _ => false

/-- R693: a command that a locked TDI refuses from every mailbox. -/
def isMirrorCommand : Instr → Bool
  | .redSetProtect _ _ _ | .redSwap _ _ | .redRelease _ _ => true
  | _ => false

/-- R86, R478: a staged command of a PORT_GROUP. -/
def isNetSetting : Instr → Bool
  | .netSetMode _ _ _ | .netSetPort _ _ _ _ | .netSetPlan _ _ _ _ | .netSetUdpPort _ _ _ | .netAssign _ _ _ _ _
  | .netSetSister _ _ => true
  | _ => false

/-- An event of the sideband, which acts only while the keep-alive supply runs. -/
def isSideband : Instr → Bool
  | .setEndpointId _ _ | .entdaa _ _ | .setnewda _ _ | .rstdaa _ | .enec _ | .disec _ | .getpid _ | .getbcr _ | .getdcr _
  | .getstatus _ | .getmxds _ | .rstact _ _ | .pldmMonitoring _ _ | .mctpControl _ _ => true
  | _ => false

/-- R436: a frame that a port accepts or drops. -/
def isNodeFrame : Instr → Bool
  | .arpRequest _ _ _ _ _ | .neighborSolicitation _ _ _ _ _ _ | .echoRequest _ _ _ _ _ _ _ => true
  | _ => false

/-- A request on a path that reaches the responder, outside its sessions. -/
def isResponder : Instr → Bool
  | .getVersion _ _ | .getCapabilities _ _ | .negotiateAlgorithms _ _ _ | .getDigests _ _ | .getCertificate _ _ _ _ _
  | .challenge _ _ _ | .getMeasurements _ _ _ _ | .keyExchange _ _ _ | .stopInterface _ _ | .startInterface _ _ => true
  | _ => false

/-- A message of an open session. -/
def isInSession : Instr → Bool
  | .finish _ _ _ | .heartbeat _ _ | .keyUpdate _ _ | .endSession _ _ | .keyDeliver _ _ _ | .keyErase _ _ _
  | .lockInterface _ _ _ _ | .ideKm _ _ _ _ => true
  | _ => false

/-- A row that is given in another way, that moves packets, or that may restart the module. -/
def isOwnRow : Instr → Bool
  | .funcStart _ _ _ _ | .bootRestart _ | .squareWatchdog _ | .ctxDestroy _ _ | .oprRun _ _ _ _ | .reqAdmit _ _ _
  | .vidClose _ _ _ _ | .pairDisagreement _ _ | .xltMalformed _ _ _ | .helloOpen _ _ _ | .pageShipAnnounce _ _ _
  | .pageShipAccept _ _ | .paceBeacon _ _ | .lagNotice _ _ | .dowelRenew _ _ | .pwrEnDeassert _ | .trayLatchDeassert _
  | .inputSample _ _ | .supplyRecovered _ | .scrubBurst _ _ | .meshPacketArrival _ _ _ | .creditReturn _ _ _ | .inboundWrite _ _
  | .sisterLinkReturn _ _ => true
  | _ => false

/-- The other rows are events that say what happens once their time has passed. -/
def isEvent (i : Instr) : Bool :=
  !(isCommand i || isFlashCommand i || isFirmwareCommand i || isServingCommand i || isMirrorCommand i || isNetSetting i
    || isSideband i || isNodeFrame i || isResponder i || isInSession i || isOwnRow i)

theorem commandRows_keepBalance {i : Instr} (h : isCommand i = true) : KeepsBalance i := by
  cases i <;> cases h
  all_goals
    refine keepsBalance_of_command (fun _ _ => ?_) fun _ => rfl
    dsimp only [MeshKept]
    (repeat' split) <;> simp

theorem flashRows_keepBalance {i : Instr} (h : isFlashCommand i = true) : KeepsBalance i := by
  cases i <;> cases h
  all_goals
    refine keepsBalance_of_command (needFlash_meshKept fun _ _ => ?_) fun _ => rfl
    dsimp only [MeshKept]
    (repeat' split) <;> simp

theorem firmwareRows_keepBalance {i : Instr} (h : isFirmwareCommand i = true) : KeepsBalance i := by
  cases i <;> cases h
  all_goals
    refine keepsBalance_of_command (fwCommand_meshKept fun _ _ => ?_) fun _ => rfl
    dsimp only [MeshKept]
    (repeat' split) <;> simp

theorem servingRows_keepBalance {i : Instr} (h : isServingCommand i = true) : KeepsBalance i := by
  cases i <;> cases h
  all_goals
    refine keepsBalance_of_command (ifActive_meshKept (fun _ _ => ?_) _) fun _ => rfl
    dsimp only [MeshKept]
    (repeat' split) <;> simp

theorem mirroredRows_keepBalance {i : Instr} (h : isMirrorCommand i = true) : KeepsBalance i := by
  cases i <;> cases h
  all_goals
    refine keepsBalance_of_command (unlocked_meshKept (fun _ _ => ?_) _) fun _ => rfl
    dsimp only [MeshKept]
    (repeat' split) <;> simp

theorem eventRows_keepBalance {i : Instr} (h : isEvent i = true) : KeepsBalance i := by
  cases i <;> cases h
  all_goals
    refine keepsBalance_of_event (fun _ => rfl) fun _ _ => ?_
    dsimp only [MeshKept]
    (repeat' split) <;> simp

theorem sidebandRows_keepBalance {i : Instr} (h : isSideband i = true) : KeepsBalance i := by
  cases i <;> cases h
  all_goals
    refine keepsBalance_of_sideEvent (fun _ => rfl) fun _ => ?_
    dsimp only [MeshKept]
    (repeat' split) <;> simp

theorem responderRows_keepBalance {i : Instr} (h : isResponder i = true) : KeepsBalance i := by
  cases i <;> cases h
  all_goals
    refine keepsBalance_of_spdm (fun _ => rfl) fun _ => ?_
    dsimp only [MeshKept]
    (repeat' split) <;> simp

theorem sessionRows_keepBalance {i : Instr} (h : isInSession i = true) : KeepsBalance i := by
  cases i <;> cases h
  all_goals
    refine keepsBalance_of_inSession (fun _ => rfl) fun _ _ => ?_
    dsimp only [MeshKept]
    (repeat' split) <;> simp

theorem nodeRows_keepBalance {i : Instr} (h : isNodeFrame i = true) : KeepsBalance i := by
  cases i <;> cases h
  all_goals
    refine keepsBalance_of_nodeFrame (fun _ => rfl) fun _ => ?_
    dsimp only [MeshKept]
    (repeat' split) <;> simp

theorem stagedRows_keepBalance {i : Instr} (h : isNetSetting i = true) : KeepsBalance i := by
  cases i <;> cases h
  all_goals exact fun s => ⟨_, rfl, (MeshKept.of_benches (stageNet_parts ..).2.2.2.2.1).balanced⟩

theorem ownRows_keepBalance {i : Instr} (h : isOwnRow i = true) : KeepsBalance i := by
  cases i <;> cases h
  case funcStart => exact funcStart_keepsBalance _ _ _ _
  case bootRestart => exact bootRestart_keepsBalance _
  case squareWatchdog => exact squareWatchdog_keepsBalance _
  case ctxDestroy => exact ctxDestroy_keepsBalance _ _
  case oprRun => exact oprRun_keepsBalance _ _ _ _
  case reqAdmit => exact reqAdmit_keepsBalance _ _ _
  case vidClose => exact vidClose_keepsBalance _ _ _ _
  case pairDisagreement => exact pairDisagreement_keepsBalance _ _
  case xltMalformed => exact xltMalformed_keepsBalance _ _ _
  case helloOpen => exact helloOpen_keepsBalance _ _ _
  case pageShipAnnounce => exact pageShipAnnounce_keepsBalance _ _ _
  case pageShipAccept => exact pageShipAccept_keepsBalance _ _
  case paceBeacon => exact paceBeacon_keepsBalance _ _
  case lagNotice => exact lagNotice_keepsBalance _ _
  case dowelRenew => exact dowelRenew_keepsBalance _ _
  case pwrEnDeassert => exact pwrEnDeassert_keepsBalance _
  case trayLatchDeassert => exact trayLatchDeassert_keepsBalance _
  case inputSample => exact inputSample_keepsBalance _ _
  case supplyRecovered => exact supplyRecovered_keepsBalance _
  case scrubBurst => exact scrubBurst_keepsBalance _ _
  case meshPacketArrival => exact meshPacketArrival_keepsBalance _ _ _
  case creditReturn => exact creditReturn_keepsBalance _ _ _
  case inboundWrite => exact inboundWrite_keepsBalance _ _
  case sisterLinkReturn => exact sisterLinkReturn_keepsBalance _ _

theorem exec_keepsBalance (i : Instr) : KeepsBalance i := by
  by_cases hcommand : isCommand i = true
  · exact commandRows_keepBalance hcommand
  by_cases hflash : isFlashCommand i = true
  · exact flashRows_keepBalance hflash
  by_cases hfirmware : isFirmwareCommand i = true
  · exact firmwareRows_keepBalance hfirmware
  by_cases hserving : isServingCommand i = true
  · exact servingRows_keepBalance hserving
  by_cases hmirrored : isMirrorCommand i = true
  · exact mirroredRows_keepBalance hmirrored
  by_cases hstaged : isNetSetting i = true
  · exact stagedRows_keepBalance hstaged
  by_cases hsideband : isSideband i = true
  · exact sidebandRows_keepBalance hsideband
  by_cases hnode : isNodeFrame i = true
  · exact nodeRows_keepBalance hnode
  by_cases hresponder : isResponder i = true
  · exact responderRows_keepBalance hresponder
  by_cases hsession : isInSession i = true
  · exact sessionRows_keepBalance hsession
  by_cases hown : isOwnRow i = true
  · exact ownRows_keepBalance hown
  exact eventRows_keepBalance (by
    simp [isEvent, hcommand, hflash, hfirmware, hserving, hmirrored, hstaged, hsideband, hnode, hresponder, hsession, hown])

/-- Settles O48: a step executes a row, of which each keeps the balance. Most rows leave links and packets as they were; a packet that moves gives up
a slot and takes one; and a restart leaves an empty mesh. -/
theorem meshStaysBalanced : Obligations.MeshStaysBalanced := by
  intro s t hs hstep
  unfold step at hstep
  split at hstep
  · cases hstep
    exact hs
  · next i rest _ =>
    obtain ⟨u, hexec, hkeeps⟩ := exec_keepsBalance i { s with pending := rest }
    rw [hexec] at hstep
    cases hstep
    exact hkeeps hs

end Sys2Proof.Machine
end

section
/-! SUPPORT. Blocks, keys, jigs and runs (chapter 05): the commands of a context (R158, R169–R190). -/
namespace Sys2Proof.Machine

/-- A command is answered by what its own meaning says once it is taken; the answer is described by the statement. -/
theorem answers_of_command {i : Instr} {h : Hdr} {p : Spec} {body : Call → State → Ans} {pre : Call → State → Bool}
    {post : Call → State → Ans → Prop} (hexec : ∀ s, exec i s = .next (command h p body s))
    (hbody : ∀ c s, pre c s = true → post c s (body c s)) : Answers i h p pre post := by
  intro s c s' htaken hpre
  exact ⟨body c s', by rw [hexec, command_of_taken htaken], hbody c s' hpre⟩

/-- Two bytes for each entry of a list. -/
theorem fieldLen_bytePairs (l : List Nat) (f g : Nat → Nat) : fieldLen (l.flatMap fun k => [⟨1, f k⟩, ⟨1, g k⟩]) = 2 * l.length := by
  rw [fieldLen, ← List.sum_eq_foldl]
  induction l with
  | nil => rfl
  | cons k r ih =>
    simp only [List.flatMap_cons, List.map_append, List.sum_append, ih, List.length_cons, List.map_cons, List.map_nil, List.sum_cons,
      List.sum_nil]
    omega

/-- Settles O12: each row by its own meaning, with the refusals that the conditions exclude. -/
theorem jigCommandsComplete : Obligations.JigCommandsComplete := by
  unfold Obligations.JigCommandsComplete
  refine ⟨fun h => ?map, fun h c key => ?keyAdd, fun h c key => ?keyRemove, fun h c slot mask addr len => ?load, fun h c slot mask id => ?loadLib,
    fun h c slot mask => ?unload, fun h c slot mask params => ?run, fun h c run r => ?abort, fun h c mask => ?status⟩
  case map => exact answers_of_command (fun _ => rfl) fun c s _ => ⟨rfl, rfl, fieldLen_bytePairs ..⟩
  case keyAdd =>
    refine serves_of_command (fun _ => rfl) fun _ s hpre => ?_
    simp only [Bool.and_eq_true, decide_eq_true_eq, Bool.not_eq_true'] at hpre
    obtain ⟨⟨⟨⟨⟨hc, hkey⟩, hdefined⟩, hnew⟩, hlocked⟩, hroom⟩ := hpre
    simp only [Nat.not_le.2 hc, Nat.not_le.2 hkey, Nat.not_le.2 hroom, hdefined, hnew, hlocked, decide_false, Bool.not_true, Bool.or_false,
      Bool.false_eq_true, if_false]
  case keyRemove =>
    refine serves_of_command (fun _ => rfl) fun _ s hpre => ?_
    simp only [Bool.and_eq_true, decide_eq_true_eq, Bool.not_eq_true'] at hpre
    obtain ⟨⟨⟨⟨hc, hkey⟩, hdefined⟩, hheld⟩, hlocked⟩ := hpre
    simp only [Nat.not_le.2 hc, Nat.not_le.2 hkey, hdefined, hheld, hlocked, decide_false, Bool.not_true, Bool.or_false, Bool.false_eq_true,
      if_false]
  case load =>
    refine serves_of_command (fun _ => rfl) fun k s hpre => ?_
    simp only [Bool.and_eq_true, Bool.not_eq_true', Option.isNone_iff_eq_none] at hpre
    obtain ⟨⟨⟨⟨hconf, hblocks⟩, hstopped⟩, hbusy⟩, hlot⟩ := hpre
    simp only [hconf, hblocks, hstopped, hbusy, hlot, Bool.false_eq_true, if_false, if_true, Bool.true_and]
  case loadLib =>
    refine serves_of_command (fun _ => rfl) fun k s hpre => ?_
    simp only [Bool.and_eq_true, Bool.not_eq_true', Option.isNone_iff_eq_none] at hpre
    obtain ⟨⟨⟨⟨hconf, hblocks⟩, hstopped⟩, hactivating⟩, hbusy⟩ := hpre
    simp only [hconf, hblocks, hstopped, hactivating, hbusy, Bool.or_false, Bool.false_eq_true, if_false]
  case unload =>
    refine serves_of_command (fun _ => rfl) fun k s hpre => ?_
    simp only [Bool.and_eq_true, Bool.not_eq_true', Option.isNone_iff_eq_none] at hpre
    obtain ⟨⟨hconf, hblocks⟩, hbusy⟩ := hpre
    simp only [hconf, hblocks, hbusy, Bool.false_eq_true, if_false]
  case run =>
    refine serves_of_command (fun _ => rfl) fun k s hpre => ?_
    simp only [Bool.and_eq_true, Bool.not_eq_true', Option.isNone_iff_eq_none, decide_eq_true_eq] at hpre
    obtain ⟨⟨⟨⟨⟨⟨hconf, hblocks⟩, hparams⟩, hstopped⟩, hserved⟩, hfull⟩, hvalid⟩ := hpre
    simp only [hconf, hblocks, Nat.not_lt.2 hparams, hstopped, hserved, hfull, hvalid, Bool.not_true, Bool.or_false, Bool.false_eq_true, if_false]
    rfl
  case abort =>
    refine serves_of_command (fun _ => rfl) fun _ s hpre => ?_
    have hfound := of_decide_eq_true hpre
    simp only [hfound]
  case status =>
    refine serves_of_command (fun _ => rfl) fun k s hpre => ?_
    simp only [Bool.and_eq_true, Bool.not_eq_true', Option.isNone_iff_eq_none] at hpre
    obtain ⟨hconf, hblocks⟩ := hpre
    simp only [hconf, hblocks, Bool.false_eq_true, if_false]

end Sys2Proof.Machine
end

section
/-! SUPPORT. Events of the benches (R160–R176, R264): what stalls leave of a bench's run, and the bench of an address. -/
namespace Sys2Proof.Machine

/-- R698: events in which a unit issues leave the bench its run and its jig. -/
theorem stallEvents_none_cur {b : Nat} {r : BenchRun} {s : State} (hcur : (benchOf s b).cur = some r) (u ev : Nat) (j : Jig) (o : Op) :
    ∃ r', (benchOf (stallEvents b u j o none ev s) b).cur = some r' ∧ r'.jig = r.jig := by
  have hcounted : benchOf (if u = j.lead then countSlots b none ev s else s) b = benchOf s b := by
    unfold benchOf
    split
    · rw [(countSlots_parts ..).2.2.2.1]
    · rfl
  unfold stallEvents
  dsimp only
  rw [benchOf_modBench, if_pos rfl, hcounted, hcur]
  exact ⟨_, rfl, rfl⟩

theorem ctxOf_loads (rest : List JigLoad) (s : State) (c : Nat) : ctxOf { s with benches := { s.benches with loads := rest } } c = ctxOf s c := rfl

theorem ctxDefined_loads (rest : List JigLoad) (s : State) (c : Nat) :
    ctxDefined { s with benches := { s.benches with loads := rest } } c = ctxDefined s c := rfl

/-- R43: the bench that an address lies in, from the address. -/
theorem bench_of_windowOf {a b : Nat} (h : windowOf a = .bench b) : (a - 0x90000000000) / 0x200000 = b := by
  unfold windowOf at h
  (repeat' split at h) <;> cases h
  rfl

/-- Settles O13: each event by its own meaning, with the branch that its condition chooses. -/
theorem benchEventsAct : Obligations.BenchEventsAct := by
  unfold Obligations.BenchEventsAct
  refine ⟨fun dt id l rest hrefusal => ?loaded, fun dt id l rest hrefusal => ?full, fun dt b => ?start,
    fun dt b u ev bank withheld r i o hb hu => ?issue, fun dt b u ev bank withheld r i o cause hb hu => ?stall,
    fun dt b u ev r f rest hb hu => ?complete, fun dt b ev r => ?bound, fun dt b slot found hb hslot hfound => ?jigLine,
    fun dt a b hwindow hhole => ?storeLine⟩
  case loaded =>
    refine occurs_of_event (fun _ => rfl) fun s hpre => ?_
    simp only [Bool.and_eq_true, Bool.not_eq_true', decide_eq_true_eq] at hpre
    obtain ⟨⟨⟨⟨⟨htake, hunder⟩, hroom⟩, hdefined⟩, hstate⟩, hfits⟩ := hpre
    simp only [hunder, hroom, htake, hrefusal, ctxOf_loads, ctxDefined_loads, hdefined, hstate, hfits, decide_false, Bool.not_true, Bool.or_false,
      Bool.false_eq_true, if_false]
  case full =>
    refine occurs_of_event (fun _ => rfl) fun s hpre => ?_
    simp only [Bool.and_eq_true, Bool.not_eq_true', decide_eq_true_eq] at hpre
    obtain ⟨⟨⟨⟨⟨htake, hunder⟩, hroom⟩, hdefined⟩, hstate⟩, hfits⟩ := hpre
    simp only [hunder, hroom, htake, hrefusal, ctxOf_loads, ctxDefined_loads, hdefined, hstate, hfits, decide_false, Bool.not_true,
      Bool.not_false, Bool.or_false, Bool.false_eq_true, if_false, if_true]
  case start =>
    refine occurs_of_event (fun _ => rfl) fun s hpre => ?_
    rw [if_pos hpre]
  case issue =>
    refine reaches_of_event (fun _ => rfl) fun s hpre => ?_
    simp only [Bool.and_eq_true, Bool.not_eq_true', decide_eq_true_eq, Option.isNone_iff_eq_none] at hpre
    obtain ⟨⟨⟨hcur, hstopping⟩, hnext⟩, hblocked⟩ := hpre
    obtain ⟨r', hcur', hjig⟩ := stallEvents_none_cur hcur u ev r.jig o
    refine ⟨r', hcur', ?_⟩
    simp only [Nat.not_le.2 hb, Nat.not_le.2 hu, decide_false, Bool.or_false, Bool.false_eq_true, if_false, hcur, hstopping, hnext, hblocked,
      hcur', hjig]
  case stall =>
    refine occurs_of_event (fun _ => rfl) fun s hpre => ?_
    simp only [Bool.and_eq_true, Bool.not_eq_true', decide_eq_true_eq] at hpre
    obtain ⟨⟨⟨hcur, hstopping⟩, hnext⟩, hblocked⟩ := hpre
    simp only [Nat.not_le.2 hb, Nat.not_le.2 hu, decide_false, Bool.or_false, Bool.false_eq_true, if_false, hcur, hstopping, hnext, hblocked]
  case complete =>
    refine occurs_of_event (fun _ => rfl) fun s hpre => ?_
    simp only [Bool.and_eq_true, decide_eq_true_eq] at hpre
    obtain ⟨hcur, htake⟩ := hpre
    simp only [Nat.not_le.2 hb, Nat.not_le.2 hu, decide_false, Bool.or_false, Bool.false_eq_true, if_false, hcur, htake]
  case bound =>
    refine occurs_of_event (fun _ => rfl) fun s hpre => ?_
    simp only [Bool.and_eq_true, decide_eq_true_eq] at hpre
    obtain ⟨⟨hcur, hbound⟩, hpassed⟩ := hpre
    simp only [hcur, hpassed, hbound, ne_eq, not_false_eq_true, decide_true, Bool.and_self, if_true]
  case jigLine =>
    refine occurs_of_event (fun _ => rfl) fun s hpre => ?_
    have hbad : (found ≠ .detected && found ≠ .poison) = false := by rcases hfound with rfl | rfl <;> rfl
    simp only [Nat.not_le.2 hb, Nat.not_le.2 hslot, hbad, decide_false, Bool.or_false, Bool.false_eq_true, if_false, hpre, if_true]
  case storeLine =>
    refine occurs_of_event (fun _ => rfl) fun s hpre => ?_
    simp only [hwindow, hhole, hpre, Bool.not_false, Bool.and_self, if_true, bench_of_windowOf hwindow]

end Sys2Proof.Machine
end

section
/-! SUPPORT. The mesh (R140, R141, R149–R152, R181–R184): what a bank shows once an inbound write has taken it. -/
namespace Sys2Proof.Machine

theorem find?_tset {α : Type} (t : Tab α) (j k : Nat) (v : α) :
    (tset t j v).find? (fun q => q.1 = k) = if j = k then some (j, v) else t.find? (fun q => q.1 = k) := by
  induction t with
  | nil => by_cases h : j = k <;> simp [tset, h]
  | cons p r ih =>
    obtain ⟨i, w⟩ := p
    unfold tset
    split
    · by_cases h : j = k <;> simp [h]
    · split
      · next heq =>
        subst heq
        by_cases h : j = k <;> simp [h]
      · next hne =>
        by_cases hi : i = k
        · have hj : j ≠ k := fun h => hne (h.trans hi.symm)
          simp [hi, hj]
        · simp [hi, ih]

/-- A value written under each of some keys is found under each of them. -/
theorem find?_foldl_tset {α : Type} (ks : List Nat) (t : Tab α) (k : Nat) (v : α) :
    (ks.foldl (fun t j => tset t j v) t).find? (fun q => q.1 = k) = if k ∈ ks then some (k, v) else t.find? (fun q => q.1 = k) := by
  induction ks generalizing t with
  | nil => simp
  | cons j js ih =>
    rw [List.foldl_cons, ih, find?_tset]
    by_cases hmem : k ∈ js
    · simp [hmem]
    · by_cases hj : j = k
      · simp [hj]
      · simp [hmem, hj, Ne.symm hj]

/-- R141: once an inbound write has taken a bank for which a unit waits, the bank is barred to the next. -/
theorem inboundBarred_takeBanks {b k : Nat} {y : Payload} {s : State} (hbank : k ∈ landingBanks y)
    (hwait : (benchOf s b).bankWait.contains k = true) : inboundBarred (benchOf (takeBanks b y s) b) k = true := by
  rw [takeBanks, benchOf_modBench, if_pos rfl]
  simp only [inboundBarred, hwait, find?_foldl_tset, hbank, if_true, Option.elim_some, Bool.true_and, decide_eq_true_eq]
  omega

/-- Settles O14: each event by its own meaning, with the branch that its condition chooses, which for a packet is the direction of its link. -/
theorem meshEventsAct : Obligations.MeshEventsAct := by
  unfold Obligations.MeshEventsAct
  refine ⟨fun dt link k p rest hlink => ?moves, fun dt link k p rest hlink => ?stays, fun dt link k p rest b hlink hbench => ?bench,
    fun dt link k p rest hlink hop => ?carried, fun dt link k p rest hlink hop hmodule => ?yard, fun dt link k p rest m hlink hop hmodule => ?edge,
    fun dt link k => ?credit, fun dt link k hlink => ?withheld, fun dt b p rest => ?lands, fun dt b p rest => ?waits,
    fun b y s k hbank hwait => ?barred⟩
  case moves =>
    refine occurs_of_event (fun _ => rfl) fun s hpre => ?_
    simp only [Bool.and_eq_true, decide_eq_true_eq] at hpre
    obtain ⟨hhead, hserved⟩ := hpre
    have hbench : link % 16 ≠ 4 := by omega
    have hyard : link % 16 ≠ 5 := by omega
    have hyard' : link % 16 ≠ 6 := by omega
    simp only [hhead, hserved, hbench, hyard, hyard', decide_false, Bool.or_self, Bool.false_eq_true, if_false, if_true]
  case stays =>
    refine occurs_of_event (fun _ => rfl) fun s hpre => ?_
    simp only [Bool.and_eq_true, decide_eq_true_eq] at hpre
    obtain ⟨hhead, hserved⟩ := hpre
    have hbench : link % 16 ≠ 4 := by omega
    have hyard : link % 16 ≠ 5 := by omega
    have hyard' : link % 16 ≠ 6 := by omega
    simp only [hhead, hserved, hbench, hyard, hyard', decide_false, Bool.or_self, Bool.false_eq_true, if_false]
  case bench =>
    refine occurs_of_event (fun _ => rfl) fun s hpre => ?_
    have hhead := of_decide_eq_true hpre
    simp only [hhead, hlink, hbench, if_true]
  case carried =>
    refine occurs_of_event (fun _ => rfl) fun s hpre => ?_
    have hhead := of_decide_eq_true hpre
    have hbench : link % 16 ≠ 4 := by omega
    have hyard : (link % 16 = 5 || link % 16 = 6) = true := by simpa using hlink
    simp only [hhead, hbench, hyard, hop, if_true, if_false]
  case yard =>
    refine occurs_of_event (fun _ => rfl) fun s hpre => ?_
    have hhead := of_decide_eq_true hpre
    have hbench : link % 16 ≠ 4 := by omega
    have hyard : (link % 16 = 5 || link % 16 = 6) = true := by simpa using hlink
    simp only [hhead, hbench, hyard, hop, hmodule, if_true, if_false]
  case edge =>
    refine occurs_of_event (fun _ => rfl) fun s hpre => ?_
    have hhead := of_decide_eq_true hpre
    have hbench : link % 16 ≠ 4 := by omega
    have hyard : (link % 16 = 5 || link % 16 = 6) = true := by simpa using hlink
    simp only [hhead, hbench, hyard, hop, hmodule, if_true, if_false]
  case credit => exact occurs_of_event (fun _ => rfl) fun s hpre => if_pos hpre
  case withheld =>
    refine occurs_of_event (fun _ => rfl) fun s hpre => if_neg ?_
    simp only [Bool.and_eq_true, Bool.not_eq_true'] at hpre
    obtain ⟨hclass, htag⟩ := hpre
    have hyard : (link % 16 = 5 || link % 16 = 6) = true := by simpa using hlink
    have hwithheld : withholdsCredit s link (execMeshPacketArrival.meshClass k) = true := by
      simp only [withholdsCredit, hyard, hclass, htag, Bool.not_false, Bool.and_self]
    simp [hwithheld]
  case lands =>
    refine occurs_of_event (fun _ => rfl) fun s hpre => ?_
    simp only [Bool.and_eq_true, Bool.not_eq_true', decide_eq_true_eq] at hpre
    obtain ⟨hhead, hfree⟩ := hpre
    simp only [hhead, hfree, Bool.false_eq_true, if_false]
  case waits =>
    refine occurs_of_event (fun _ => rfl) fun s hpre => ?_
    simp only [Bool.and_eq_true, decide_eq_true_eq] at hpre
    obtain ⟨hhead, hbarred⟩ := hpre
    simp only [hhead, hbarred, if_true]
  case barred => exact inboundBarred_takeBanks hbank hwait

end Sys2Proof.Machine
end

section
/-! SUPPORT. Contexts and the PCIe side (R188, R615–R645, R748): the end of a turn. -/
namespace Sys2Proof.Machine

theorem ctxOf_record (c v x : Nat) (k : Option Nat) (r : Bool) (p : List Fld) (s : State) (j : Nat) :
    ctxOf (record c v x k r p s) j = ctxOf s j := by
  unfold ctxOf
  rw [record_sec]

/-- The record of a turn that took too long says nothing of the contexts. -/
theorem ctxOf_recordIf {b : Bool} (c v x : Nat) (k : Option Nat) (r : Bool) (p : List Fld) (s : State) (j : Nat) :
    ctxOf (if b then record c v x k r p s else s) j = ctxOf s j := by
  split
  · exact ctxOf_record ..
  · rfl

/-- R612, R618: a context that takes its turn is resident. -/
theorem ctxOf_takeTurn_state (c : Nat) (s : State) : (ctxOf (takeTurn c s) c).state = .resident := by
  rw [takeTurn, ctxOf_modCtx, if_pos rfl]

/-- R619: the context that has left is defined, and the other as its turn has made it. -/
theorem handOver_states {c d : Nat} (hne : c ≠ d) (s : State) (f : CtxSt → CtxSt) (hf : ∀ x, (f x).state = .defined) :
    (ctxOf (modCtx c f (takeTurn d s)) c).state = .defined ∧ (ctxOf (modCtx c f (takeTurn d s)) d).state = .resident := by
  rw [ctxOf_modCtx, if_pos rfl, ctxOf_modCtx, if_neg hne]
  exact ⟨hf _, ctxOf_takeTurn_state d s⟩

/-- Settles O36: each event by its own meaning, with the branch that its condition chooses. -/
theorem contextEventsAct : Obligations.ContextEventsAct := by
  unfold Obligations.ContextEventsAct
  refine ⟨fun dt k => ?scrubbed, fun dt g p => ?released, fun dt c => ?quantum, fun dt c past => ?freeTurn, fun dt c d past => ?switch,
    fun dt c p => ?sweep, fun dt id bad u rest => ?unsealed, fun dt sid x => ?session, fun dt n => ?integrity, fun dt dur => ?reset0,
    fun dt f dur hlow hhigh => ?reset, fun dt => ?assert, fun dt => ?deassert⟩
  case scrubbed => exact occurs_of_event (fun _ => rfl) fun s hpre => if_pos hpre
  case released =>
    refine occurs_of_event (fun _ => rfl) fun s hpre => ?_
    have hfound := of_decide_eq_true hpre
    simp only [hfound]
  case quantum => exact occurs_of_event (fun _ => rfl) fun s hpre => if_pos hpre
  case freeTurn => exact occurs_of_event (fun _ => rfl) fun s hpre => if_pos hpre
  case switch =>
    refine reaches_of_event (fun _ => rfl) fun s hpre => ?_
    simp only [Bool.and_eq_true, Bool.not_eq_true', decide_eq_true_eq] at hpre
    obtain ⟨⟨⟨⟨⟨hfree, hnext⟩, hstate⟩, hdue⟩, hleave⟩, hne⟩ := hpre
    simp only [hfree, hnext, hstate, hdue, hleave, ne_eq, not_true_eq_false, decide_false, Bool.not_true, Bool.or_false, Bool.false_eq_true,
      if_false, ctxOf_recordIf]
    exact handOver_states hne _ _ fun _ => rfl
  case sweep =>
    refine occurs_of_event (fun _ => rfl) fun s hpre => ?_
    have hpage := of_decide_eq_true hpre
    simp only [hpage]
  case unsealed =>
    refine occurs_of_event (fun _ => rfl) fun s hpre => ?_
    have htake := of_decide_eq_true hpre
    -- the statement's `match` may be another matcher than the event's
    simp only [htake] <;> rfl
  case session =>
    refine occurs_of_event (fun _ => rfl) fun s hpre => ?_
    simp only [Bool.and_eq_true, decide_eq_true_eq] at hpre
    obtain ⟨hsession, hquiet⟩ := hpre
    simp only [hsession, hquiet, if_true]
  case integrity => exact occurs_of_event (fun _ => rfl) fun _ _ => rfl
  case reset0 =>
    refine occurs_of_event (fun _ => rfl) fun s hreach => ?_
    rw [if_neg (by simp [hreach]), if_pos rfl]
  case reset =>
    refine occurs_of_event (fun _ => rfl) fun s hreach => ?_
    have hpage : ¬16 < f := by omega
    have hvf : f ≠ 0 := by omega
    simp only [hreach, hpage, hvf, decide_false, Bool.not_true, Bool.or_self, Bool.false_eq_true, if_false]
  case assert =>
    refine occurs_of_event (fun _ => rfl) fun s hpre => if_neg ?_
    simp only [Bool.and_eq_true, Bool.not_eq_true'] at hpre
    obtain ⟨hperst, htrained⟩ := hpre
    simp [hperst, htrained]
  case deassert => exact occurs_of_event (fun _ => rfl) fun _ _ => rfl

end Sys2Proof.Machine
end

section
/-! SUPPORT. The floating layouts (R199): a pattern as its sign, exponent field and mantissa, and the encoding of what it denotes. -/
namespace Sys2Proof.Machine

/-- A sign at its place above the exponent field. -/
def signBits (f : FloatFmt) (n : Bool) : Nat := if n then 2 ^ (f.ebits + f.mbits) else 0

/-- R199: the sign of a pattern. -/
def signField (f : FloatFmt) (b : Nat) : Bool := bitOf b (f.ebits + f.mbits)

/-- R199: the exponent field of a pattern. -/
def expField (f : FloatFmt) (b : Nat) : Nat := b / 2 ^ f.mbits % 2 ^ f.ebits

/-- R199: the mantissa of a pattern. -/
def mantField (f : FloatFmt) (b : Nat) : Nat := b % 2 ^ f.mbits

theorem mantField_lt (f : FloatFmt) (b : Nat) : mantField f b < 2 ^ f.mbits := Nat.mod_lt _ (Nat.two_pow_pos _)

theorem expField_lt (f : FloatFmt) (b : Nat) : expField f b < 2 ^ f.ebits := Nat.mod_lt _ (Nat.two_pow_pos _)

/-- R199: the fields of a pattern of the layout's width are all of it. -/
theorem fields_eq (f : FloatFmt) {b : Nat} (hb : b < 2 ^ (1 + f.ebits + f.mbits)) :
    signBits f (signField f b) + (expField f b * 2 ^ f.mbits + mantField f b) = b := by
  have hlow : expField f b * 2 ^ f.mbits + mantField f b = b % 2 ^ (f.ebits + f.mbits) := by
    rw [expField, mantField, Nat.add_comm f.ebits, Nat.pow_add, Nat.mod_mul, Nat.mul_comm, Nat.add_comm]
  have hsign : signBits f (signField f b) = 2 ^ (f.ebits + f.mbits) * (b / 2 ^ (f.ebits + f.mbits)) := by
    have htop : b / 2 ^ (f.ebits + f.mbits) < 2 :=
      Nat.div_lt_of_lt_mul (by rwa [← Nat.pow_succ, Nat.succ_eq_one_add, ← Nat.add_assoc])
    rw [signBits, signField, bitOf, Nat.mod_eq_of_lt htop]
    obtain h | h := Nat.le_one_iff_eq_zero_or_eq_one.1 (Nat.le_of_lt_succ htop)
    · simp [h]
    · simp [h]
  rw [hlow, hsign, Nat.div_add_mod]

/-- R199: what a pattern denotes, by its fields. -/
theorem decodeFloat_eq (f : FloatFmt) (b : Nat) : decodeFloat f b =
    if f.top = 0 ∧ expField f b = 2 ^ f.ebits - 1 then if mantField f b = 0 then .inf (signField f b) else .nan
    else if f.top = 1 ∧ expField f b = 2 ^ f.ebits - 1 ∧ mantField f b = 2 ^ f.mbits - 1 then .nan
    else if expField f b = 0 then .fin (signField f b) (mantField f b) (1 - f.bias - f.mbits)
    else .fin (signField f b) (2 ^ f.mbits + mantField f b) (expField f b - f.bias - f.mbits) := by
  simp only [decodeFloat, expField, mantField, signField, decide_eq_true_eq, Bool.and_eq_true, and_assoc]
  -- the two sides decide their conditions in two ways
  congr

/-- An exponent field below a bound, with its mantissa, is below that bound with the mantissa 0. -/
theorem fields_lt_of_lt {e k m w : Nat} (he : e < k) (hm : m < 2 ^ w) : e * 2 ^ w + m < k * 2 ^ w :=
  calc e * 2 ^ w + m < (e + 1) * 2 ^ w := by rw [Nat.succ_mul]; exact Nat.add_lt_add_left hm _
    _ ≤ k * 2 ^ w := Nat.mul_le_mul_right _ he

/-- R199, R216: no finite pattern is above the largest one, which stands below the infinities, below FP8_E4M3's one NaN, or at the end. -/
theorem finite_fields_le_maxBits {f : FloatFmt} {e m : Nat} (he : e < 2 ^ f.ebits) (hm : m < 2 ^ f.mbits)
    (hinf : f.top = 0 → e ≠ 2 ^ f.ebits - 1) (hnan : f.top = 1 → e = 2 ^ f.ebits - 1 → m ≠ 2 ^ f.mbits - 1) :
    e * 2 ^ f.mbits + m ≤ maxBits f := by
  have hwidth := fields_lt_of_lt he hm
  rw [maxBits, Nat.pow_add]
  split
  case h_1 htop =>
    have hbelow : e < 2 ^ f.ebits - 1 := by have := hinf htop; omega
    exact Nat.le_sub_one_of_lt (fields_lt_of_lt hbelow hm)
  case h_2 htop =>
    by_cases hones : e = 2 ^ f.ebits - 1
    · have hbelow : m + 1 < 2 ^ f.mbits := by have := hnan htop hones; omega
      have := fields_lt_of_lt he hbelow
      omega
    · have hbelow : e < 2 ^ f.ebits - 1 := by omega
      have hlast := fields_lt_of_lt hbelow hm
      rw [Nat.sub_mul] at hlast
      have := Nat.two_pow_pos f.mbits
      omega
  case h_3 => exact Nat.le_sub_one_of_lt hwidth

/-- R199: what a pattern that is not NaN denotes: an infinity, a subnormal value or zero, or a normal value; a finite value's exponent and
mantissa are not above those of the largest one. -/
theorem decodeFloat_cases {f : FloatFmt} {b : Nat} (hnan : decodeFloat f b ≠ .nan) :
    (f.top = 0 ∧ expField f b = 2 ^ f.ebits - 1 ∧ mantField f b = 0 ∧ decodeFloat f b = .inf (signField f b)) ∨
    expField f b * 2 ^ f.mbits + mantField f b ≤ maxBits f ∧
      ((expField f b = 0 ∧ decodeFloat f b = .fin (signField f b) (mantField f b) (1 - f.bias - f.mbits)) ∨
       (0 < expField f b ∧ decodeFloat f b =
         .fin (signField f b) (2 ^ f.mbits + mantField f b) (expField f b - f.bias - f.mbits))) := by
  rw [decodeFloat_eq] at hnan ⊢
  split at hnan
  case isTrue htop =>
    obtain ⟨htop, he⟩ := htop
    have hm : mantField f b = 0 := Decidable.by_contra fun hm => hnan (if_neg hm)
    exact .inl ⟨htop, he, hm, by rw [if_pos ⟨htop, he⟩, if_pos hm]⟩
  case isFalse hinf =>
    split at hnan
    case isTrue => exact absurd rfl hnan
    case isFalse hlast =>
      refine .inr ⟨finite_fields_le_maxBits (expField_lt f b) (mantField_lt f b) (fun htop he => hinf ⟨htop, he⟩)
        fun htop he hm => hlast ⟨htop, he, hm⟩, ?_⟩
      simp only [hinf, hlast, if_false]
      obtain he | he := Nat.eq_zero_or_pos (expField f b)
      · exact .inl ⟨he, if_pos he⟩
      · exact .inr ⟨he, if_neg (Nat.ne_of_gt he)⟩

/-- R214: a value that is a multiple of the unit is not rounded. -/
theorem roundTo_self (rnd : Rounding) (m : Nat) (e : Int) : roundTo rnd m e e = m := by
  simp [roundTo]

/-- R200: a subnormal value, or zero, is encoded as its mantissa. -/
theorem encodeFloat_subnormal (f : FloatFmt) (sat : Bool) (rnd : Rounding) (n : Bool) {m : Nat} (hm : m < 2 ^ f.mbits) (hmax : m ≤ maxBits f) :
    encodeFloat f sat rnd (.fin n m (1 - f.bias - f.mbits)) = { bits := signBits f n + m } := by
  by_cases hzero : m = 0
  · simp [encodeFloat, hzero, signBits]
  · have hlog : Nat.log2 m < f.mbits := (Nat.log2_lt hzero).2 hm
    have hunit : max (Nat.log2 m + (1 - f.bias - f.mbits) - f.mbits) (1 - f.bias - f.mbits) = 1 - f.bias - f.mbits := by omega
    simp only [encodeFloat, hzero, hunit, roundTo_self, hm, hmax, signBits, if_true, if_false]

/-- R214: a normal value is encoded as its exponent field and mantissa. -/
theorem encodeFloat_normal (f : FloatFmt) (sat : Bool) (rnd : Rounding) (n : Bool) {e m : Nat} (he : 0 < e) (hm : m < 2 ^ f.mbits)
    (hmax : e * 2 ^ f.mbits + m ≤ maxBits f) :
    encodeFloat f sat rnd (.fin n (2 ^ f.mbits + m) (e - f.bias - f.mbits)) = { bits := signBits f n + (e * 2 ^ f.mbits + m) } := by
  have hpos : 2 ^ f.mbits + m ≠ 0 := by have := Nat.two_pow_pos f.mbits; omega
  have hlog : Nat.log2 (2 ^ f.mbits + m) = f.mbits := (Nat.log2_eq_iff hpos).2 ⟨by omega, by omega⟩
  have hunit : max ((f.mbits : Int) + (e - f.bias - f.mbits) - f.mbits) (1 - f.bias - f.mbits) = e - f.bias - f.mbits := by omega
  have hlead : ¬ 2 ^ f.mbits + m < 2 ^ f.mbits := by omega
  have hfield : ((e : Int) - f.bias - f.mbits + f.mbits + f.bias).toNat = e := by omega
  have hbits : (e - 1) * 2 ^ f.mbits + (2 ^ f.mbits + m) = e * 2 ^ f.mbits + m := by
    obtain ⟨d, rfl⟩ := Nat.exists_eq_add_of_lt he
    simp only [Nat.zero_add, Nat.add_sub_cancel, Nat.succ_mul, Nat.add_assoc]
  simp only [encodeFloat, hpos, hlog, hunit, roundTo_self, hlead, hfield, hbits, hmax, signBits, if_true, if_false]

/-- R216: an infinity of a layout that has one is encoded as the exponent field of all ones, saturation or not. -/
theorem encodeFloat_inf {f : FloatFmt} (htop : f.top = 0) (sat : Bool) (rnd : Rounding) (n : Bool) :
    encodeFloat f sat rnd (.inf n) = { bits := signBits f n + (2 ^ f.ebits - 1) * 2 ^ f.mbits } := by
  simp only [encodeFloat, htop, signBits, if_true]

/-- R214, R216: what a pattern denotes, NaN apart, is encoded as the pattern, in any layout and however values are rounded and saturated. -/
theorem encodeFloat_decodeFloat {f : FloatFmt} {b : Nat} (sat : Bool) (rnd : Rounding) (hb : b < 2 ^ (1 + f.ebits + f.mbits))
    (hnan : decodeFloat f b ≠ .nan) : encodeFloat f sat rnd (decodeFloat f b) = { bits := b } := by
  have hfields := fields_eq f hb
  obtain ⟨htop, he, hm, hval⟩ | ⟨hmax, ⟨he, hval⟩ | ⟨he, hval⟩⟩ := decodeFloat_cases hnan
  · rw [hval, encodeFloat_inf htop, ← he]
    simpa [hm] using hfields
  · rw [he, Nat.zero_mul, Nat.zero_add] at hfields hmax
    rw [hval, encodeFloat_subnormal f sat rnd _ (mantField_lt f b) hmax, hfields]
  · rw [hval, encodeFloat_normal f sat rnd _ he (mantField_lt f b) hmax, hfields]

/-- Settles O59: a floating code decodes and converts by its layout, where what a pattern denotes is encoded as the pattern. -/
theorem elementsSurviveEncoding : Obligations.ElementsSurviveEncoding := by
  intro code f b hcode hb hnan
  have hdecode : decodeElem code b = decodeFloat f b := by simp only [decodeElem, hcode]
  have hconvert (x : Num) : convert code false .nearest x = encodeFloat f false .nearest x := by
    simp only [convert, hcode, ite_self]
  rw [hdecode] at hnan ⊢
  rw [hconvert, encodeFloat_decodeFloat false .nearest hb hnan]

end Sys2Proof.Machine
end

section
/-! SUPPORT. The memory commands (R255–R257, R262, R275–R277, R281): the refusals that their conditions exclude. -/
namespace Sys2Proof.Machine

/-- R276: every aligned address of LPDDR5X can be injected into. -/
theorem injectable_of_lpddr {s : State} {a g : Nat} (hwindow : windowOf a = .lpddr g) (haligned : a % 16 = 0) : injectable s a = true := by
  simp only [injectable, hwindow, haligned, decide_true, Bool.and_self]

/-- R256: no quarter that leaves slab mode is in use, as the check of `YD_SET_PARTITION` reads it. -/
theorem quartersFree_iff (s : State) (g mask : Nat) :
    ((List.range 4).any fun q => bitOf (yardOf s g).slab q && !bitOf mask q && quarterInUse s g q) = false ↔
      ((List.range 4).all fun q => !bitOf (yardOf s g).slab q || bitOf mask q || !quarterInUse s g q) = true := by
  rw [← Bool.not_eq_true', List.not_any_eq_all_not]
  simp only [Bool.not_and, Bool.not_not]

/-- Settles O15: each row by its own meaning, with the refusals that the conditions exclude. -/
theorem memoryCommandsComplete : Obligations.MemoryCommandsComplete := by
  unfold Obligations.MemoryCommandsComplete
  refine ⟨fun h g => ?state, fun h g mask s c s' htaken hg hmask hyard hfree => ?partition, fun h g n => ?scrubOne, fun h n => ?scrubAll,
    fun h g s c s' htaken hg => ?errors, fun h a d x g hwindow haligned hd hx => ?inject⟩
  case state =>
    refine serves_of_command (fun _ => rfl) fun _ s hpre => if_neg ?_
    exact Nat.not_le.2 (of_decide_eq_true hpre)
  case partition =>
    refine congrArg Host.Outcome.next ((command_of_taken htaken).trans (congrArg (answered c) ?_))
    simp only [Nat.not_le.2 hg, Nat.not_le.2 hmask, hyard, (quartersFree_iff s' g mask).2 hfree, ne_eq, not_true_eq_false, decide_false,
      Bool.or_self, Bool.false_eq_true, if_false]
  case scrubOne =>
    refine serves_of_command (fun _ => rfl) fun _ s hpre => if_neg ?_
    simp only [Bool.and_eq_true, decide_eq_true_eq] at hpre
    obtain ⟨⟨hlow, hhigh⟩, hg⟩ := hpre
    simp only [Option.getD_some, Nat.not_lt.2 hlow, Nat.not_lt.2 hhigh, Nat.not_le.2 hg, decide_false, Bool.or_self, Bool.false_eq_true,
      not_false_eq_true]
  case scrubAll =>
    refine serves_of_command (fun _ => rfl) fun _ s hpre => if_neg ?_
    simp only [Bool.and_eq_true, decide_eq_true_eq] at hpre
    obtain ⟨hlow, hhigh⟩ := hpre
    simp [Nat.not_lt.2 hlow, Nat.not_lt.2 hhigh]
  case errors =>
    refine congrArg Host.Outcome.next ((command_of_taken htaken).trans (congrArg (answered c) ?_))
    exact if_neg (Nat.not_le.2 hg)
  case inject =>
    refine serves_of_command (fun _ => rfl) fun _ s hpre => ?_
    simp only [Bool.and_eq_true, Bool.not_eq_true'] at hpre
    obtain ⟨howner, hincluded⟩ := hpre
    simp only [injectable_of_lpddr hwindow haligned, Nat.not_le.2 hd, Nat.not_le.2 hx, hwindow, hincluded, decide_false, Bool.not_true,
      Bool.or_self, Bool.false_eq_true, if_false]
    -- a context that owns the memory is not confidential
    cases hctx : addrOwner s a with
    | none => rfl
    | some k =>
      have hopen : isConf s k = false := by simpa only [hctx, Option.elim_some, Bool.not_eq_true'] using howner
      simp only [hopen, Bool.false_eq_true, if_false]

end Sys2Proof.Machine
end

section
/-! SUPPORT. The memory events (R258–R264, R282, R592): refresh reports, the scrubber, prefetches and their pins, and high-water
fields. -/
namespace Sys2Proof.Machine

/-- Settles O17: each event by its own meaning, with the branch that its condition chooses. -/
theorem memoryEventsAct : Obligations.MemoryEventsAct := by
  unfold Obligations.MemoryEventsAct
  refine ⟨fun dt p hp => ?hot, fun dt p r hp hr => ?kept, fun dt g => ?scrub, fun dt g p => ?waits, fun dt g p => ?fills,
    fun dt g l d => ?unpins, fun dt g => ?tags, fun dt g => ?pinned⟩
  case hot =>
    refine occurs_of_event (fun _ => rfl) fun s hpre => ?_
    have hold := of_decide_eq_true hpre
    rw [if_neg (by simpa using hp), if_pos (by simpa using hold)]
  case kept =>
    refine occurs_of_event (fun _ => rfl) fun s hpre => ?_
    have hlower : ¬tget s.mem.mr4 p 0 < r := Nat.not_lt.2 (of_decide_eq_true hpre)
    have hpackage : ¬36 ≤ p := Nat.not_le.2 hp
    have hrate : ¬4 ≤ r := by omega
    have hcool : r ≠ 3 := by omega
    simp only [hpackage, hrate, hcool, hlower, decide_false, Bool.or_self, Bool.false_and, Bool.false_eq_true, if_false]
  case scrub =>
    refine occurs_of_event (fun _ => rfl) fun s hpre => if_neg ?_
    simp only [Bool.and_eq_true, decide_eq_true_eq] at hpre
    obtain ⟨hg, hready⟩ := hpre
    simp only [Nat.not_le.2 hg, hready, ne_eq, not_true_eq_false, decide_false, Bool.or_self, Bool.false_eq_true, not_false_eq_true]
  case waits =>
    refine occurs_of_event (fun _ => rfl) fun s hpre => ?_
    simp only [Bool.and_eq_true, Bool.not_eq_true', decide_eq_true_eq] at hpre
    obtain ⟨hfirst, hearly⟩ := hpre
    simp only [hfirst, hearly, Bool.false_eq_true, if_false]
  case fills =>
    refine occurs_of_event (fun _ => rfl) fun s hpre => ?_
    simp only [Bool.and_eq_true, decide_eq_true_eq] at hpre
    obtain ⟨hfirst, hdue⟩ := hpre
    simp only [hfirst, hdue, if_true]
  case unpins =>
    refine reaches_of_event (fun _ => rfl) fun s hpre => ?_
    simp only [Bool.and_eq_true, decide_eq_true_eq] at hpre
    obtain ⟨⟨hmem, hdue⟩, hpast⟩ := hpre
    refine ⟨rfl, ?_⟩
    rw [yardOf_modYard, if_pos rfl]
    exact List.mem_map.2 ⟨l, hmem, by rw [hdue]; exact if_pos hpast⟩
  case tags => exact occurs_of_event (fun _ => rfl) fun _ _ => rfl
  case pinned => exact occurs_of_event (fun _ => rfl) fun _ _ => rfl

end Sys2Proof.Machine
end

section
/-! SUPPORT. Operators, chains and triggers (R289–R297, R299): what the state of the operators leaves as it was. -/
namespace Sys2Proof.Machine

/-! The contexts and the jigs do not lie in the state of the operators. -/

@[simp] theorem ctxDefined_with_opr (s : State) (o : OprSt) (c : Nat) : ctxDefined { s with opr := o } c = ctxDefined s c := rfl

@[simp] theorem ctxOf_with_opr (s : State) (o : OprSt) (c : Nat) : ctxOf { s with opr := o } c = ctxOf s c := rfl

@[simp] theorem libraryJig_with_opr (s : State) (o : OprSt) (path : Nat) : libraryJig { s with opr := o } path = libraryJig s path := rfl

@[simp] theorem jigFits_with_opr (s : State) (o : OprSt) (c : Nat) (ks : List Nat) (slot : Nat) (j : Jig) :
    jigFits { s with opr := o } c ks slot j = jigFits s c ks slot j := rfl

/-- Settles O18: each row by its own meaning, with the refusals that the conditions exclude. -/
theorem operatorsComplete : Obligations.OperatorsComplete := by
  unfold Obligations.OperatorsComplete
  refine ⟨fun h c slot mask ra pa x => ?plan, fun h c plans s k s' htaken hc hsome hmany hdefined hstand hrefused => ?run,
    fun h c id => ?untrigger, fun h c => ?status, fun dt id y rest st reason hbad => ?planRefused, fun dt id y rest p hplan hmade => ?planMade,
    fun dt id x p => ?stage⟩
  case plan =>
    refine answers_of_command (fun _ => rfl) fun k s hpre => ?_
    simp only [Bool.and_eq_true, decide_eq_true_eq, Bool.not_eq_true'] at hpre
    obtain ⟨⟨⟨⟨⟨hc, hslot⟩, hmask⟩, hwidth⟩, hconf⟩, hdefined⟩ := hpre
    simp only [Nat.not_le.2 hc, Nat.not_le.2 hslot, hmask, Nat.not_le.2 hwidth, hconf, hdefined, decide_false, Bool.or_self, Bool.not_true,
      Bool.false_eq_true, if_false]
    -- the memory that a planning reads is not a part of the operators' state
    exact ⟨rfl, rfl, _, congrArg OprSt.planning (planTouch_parts ..).2.2.2.2.1, rfl, rfl, rfl⟩
  case run =>
    refine congrArg Host.Outcome.next (congrArg execOprRun.startNew ((command_of_taken htaken).trans (congrArg (answered k) ?_)))
    simp only [Nat.not_le.2 hc, List.isEmpty_eq_false_iff.2 hsome, Nat.not_lt.2 hmany, hdefined, hstand, hrefused, decide_false, Bool.or_self,
      Bool.not_true, ne_eq, not_true_eq_false, Bool.false_eq_true, if_false]
    rfl
  case untrigger =>
    refine serves_of_command (fun _ => rfl) fun _ s hpre => ?_
    simp only [Bool.and_eq_true, decide_eq_true_eq] at hpre
    obtain ⟨⟨hc, hdefined⟩, harmed⟩ := hpre
    simp only [Nat.not_le.2 hc, hdefined, Bool.not_true, Bool.false_eq_true, if_false]
    exact if_pos harmed
  case status =>
    refine serves_of_command (fun _ => rfl) fun _ s hpre => ?_
    simp only [Bool.and_eq_true, decide_eq_true_eq] at hpre
    obtain ⟨hc, hdefined⟩ := hpre
    simp only [Nat.not_le.2 hc, hdefined, Bool.not_true, Bool.false_eq_true, if_false]
  case planRefused =>
    refine occurs_of_event (fun _ => rfl) fun s hpre => ?_
    have hfound := of_decide_eq_true hpre
    simp only [hfound, hbad]
  case planMade =>
    refine reaches_of_event (fun _ => rfl) fun s hpre => ?_
    simp only [Bool.and_eq_true, decide_eq_true_eq] at hpre
    obtain ⟨⟨hfound, hdefined⟩, hstays⟩ := hpre
    simp only [hfound, hplan, hmade, ctxDefined_with_opr, ctxOf_with_opr, libraryJig_with_opr, jigFits_with_opr, hdefined, hstays, decide_false,
      Bool.not_true, Bool.or_self, Bool.false_eq_true, if_false]
    cases libraryJig s p.path with
    | none => simp only [finish_parts, Option.elim_none, Bool.false_eq_true, if_false, and_self]
    | some j =>
      by_cases hfits : jigFits s p.ctx p.blocks p.slot j = true
      · -- the writes to memory and the loads of the jig leave the other plans
        simp [hfits, foldl_opr, modBenchFor_parts, writeBytes_parts, touchYard_parts]
      · simp [hfits]
  case stage =>
    refine occurs_of_event (fun _ => rfl) fun s hpre => ?_
    simp only [Bool.and_eq_true, decide_eq_true_eq, Bool.not_eq_true'] at hpre
    obtain ⟨⟨⟨⟨hfound, hstage⟩, hresident⟩, hstarted⟩, hpending⟩ := hpre
    simp only [hfound, hstage, hresident, hstarted, hpending, decide_false, Bool.or_self, Bool.false_eq_true, if_false]

end Sys2Proof.Machine
end

section
/-! SUPPORT. What a context serves with (R366, R370, R395, R396, R403, R423): the commands of a side that does not follow, and what a
SMP_SET whose bias list can be read does. -/
namespace Sys2Proof.Machine

theorem servesNow_iff (s : State) (c : Nat) : servesNow s c = true ↔ ctxDefined s c = true ∧ notActive s c = false := by
  simp only [servesNow, Bool.and_eq_true, Bool.not_eq_true']

/-- R660: on a side that does not follow, the command has its own meaning. -/
theorem ifActive_of_servesNow {c : Nat} {s : State} (h : servesNow s c = true) (body : Call → State → Ans) (call : Call) :
    ifActive c body call s = body call s := by
  obtain ⟨hdefined, hactive⟩ := (servesNow_iff s c).1 h
  simp only [ifActive, hdefined, hactive, Bool.not_true, Bool.false_eq_true, if_false]

/-! ### Rings -/

/-- R403: a ring of a kind other than 0 is defined anew, and the records that wait for the old one are dropped. -/
theorem define_of_kind_ne_zero {p : RingPar} (hkind : p.kind ≠ 0) (c : Nat) (s : State) :
    execReqRingSet.define c p s = ok (modServe c (fun y => { y with
      rings := tset y.rings p.ring (some { par := p }), pend := y.pend.filter fun q => q.ring ≠ p.ring }) s) := by
  simp only [execReqRingSet.define, if_neg hkind]

/-! ### Samplers -/

/-- Whether a context has requests is read from the serving part alone, which no read of memory changes. -/
theorem hasLive_of_serve {s t : State} (h : t.serve = s.serve) (c : Nat) : hasLive t c = hasLive s c := by
  simp only [hasLive, liveReqs, h]

/-- R395: the state in which the Square has read the bias list of a parameter set. -/
def biasRead (p : SamplerPar) (s : State) : State :=
  if p.biasCount = 0 then s else squareReads [(p.biasAddr, 8 * p.biasCount)] s

theorem biasRead_serve (p : SamplerPar) (s : State) : (biasRead p s).serve = s.serve := by
  unfold biasRead
  split
  · rfl
  · simp only [squareReads_parts]

/-- R395: the bias list, if there is one, lies in a readable lot and holds no bad word. -/
def BiasReadable (s : State) (c : Nat) (p : SamplerPar) : Prop :=
  p.biasCount = 0 ∨ lotHas s c p.biasAddr (8 * p.biasCount) lotRead = true ∧ rangeBad s p.biasAddr (8 * p.biasCount) = false

/-- R395: with requests in the table a set waits for the next boundary; with none it stands at once, in place of a set that waits. -/
theorem exec_smpSet {h : Hdr} {c n : Nat} {p : SamplerPar} {s s' : State} {k : Call}
    (htaken : Taken h (serveSpec 0x0520 c false false) s k s') (hserves : servesNow s' c = true) (hn : n < 4096)
    (hok : samplerOk p = true) (hbias : BiasReadable s' c p) :
    exec (.smpSet h c n p) s = .next (answered k (
      if hasLive s' c then
        ok (noteChange c (modServe c (fun y => { y with newSamplers := tset y.newSamplers n (some ⟨p, biasList s' p⟩) }) (biasRead p s')))
      else ok (modServe c (fun y => { y with
        samplers := tset y.samplers n (some ⟨p, biasList s' p⟩), newSamplers := tdel y.newSamplers n }) (biasRead p s')))) := by
  have hbadArg : (decide (4096 ≤ n) || !samplerOk p
      || (decide (p.biasCount ≠ 0) && !lotHas s' c p.biasAddr (8 * p.biasCount) lotRead)) = false := by
    rcases hbias with hnone | ⟨hlot, -⟩
    · simp [hn, hok, hnone]
    · simp [hn, hok, hlot]
  have hclean : (decide (p.biasCount ≠ 0) && rangeBad s' p.biasAddr (8 * p.biasCount)) = false := by
    rcases hbias with hnone | ⟨-, hclean⟩
    · simp [hnone]
    · simp [hclean]
  refine congrArg Host.Outcome.next ((command_of_taken htaken).trans (congrArg (answered k) ?_))
  rw [ifActive_of_servesNow hserves, hbadArg, if_neg Bool.false_ne_true, ← hasLive_of_serve (biasRead_serve p s') c]
  exact if_neg (ne_true_of_eq_false hclean)

/-- Settles O20: each row by its own meaning, with the refusals that the conditions exclude. -/
theorem servingSettingsComplete : Obligations.ServingSettingsComplete := by
  unfold Obligations.ServingSettingsComplete
  refine ⟨fun h c r => ?model, fun h c d k g => ?policy, fun h c n tokens seqs => ?stops, fun h c p hkind => ?ring, fun h c p x r q g => ?ringDead,
    fun h c n p => ?samplerNow, fun h c n p => ?samplerLater, fun h c n v => ?sampler, fun h c p => ?pool, fun h c => ?poolGet,
    fun h c b => ?evict, fun h c cuts => ?buckets, fun h c x dest => ?list⟩
  case model =>
    refine serves_of_command (fun _ => rfl) fun k s hpre => ?_
    obtain ⟨hweights, hstage⟩ := Bool.and_eq_true_iff.1 hpre
    have hallowed : (isConf s c && decide (r.role ≠ 0) && !(ctxOf s c).unsealed.contains r.weights) = false := by
      simp only [Bool.or_eq_true, Bool.not_eq_true', decide_eq_true_eq] at hweights
      rcases hweights with (hopen | hnone) | hunsealed
      · rw [hopen, Bool.false_and, Bool.false_and]
      · rw [decide_eq_false (not_not_intro hnone), Bool.and_false, Bool.false_and]
      · rw [hunsealed, Bool.not_true, Bool.and_false]
    rw [hallowed, if_neg Bool.false_ne_true, stageCtx_ok hstage]
  case policy =>
    refine serves_of_command (fun _ => rfl) fun _ s hpre => ?_
    simp only [Bool.and_eq_true, decide_eq_true_eq] at hpre
    obtain ⟨⟨⟨⟨hdefined, hd⟩, hk⟩, hlow⟩, hhigh⟩ := hpre
    simp only [hdefined, Nat.not_le.2 hd, Nat.not_le.2 (Nat.lt_succ_of_le hk), Nat.ne_of_gt hlow, Nat.not_le.2 (Nat.lt_succ_of_le hhigh),
      decide_false, Bool.or_self, Bool.not_true, Bool.false_eq_true, if_false]
  case stops =>
    refine serves_of_command (fun _ => rfl) fun _ s hpre => ?_
    simp only [Bool.and_eq_true, decide_eq_true_eq, Bool.not_eq_true'] at hpre
    obtain ⟨⟨⟨⟨⟨hserves, hn⟩, htokens⟩, hmany⟩, hlengths⟩, hfree⟩ := hpre
    have hfits : (seqs.any fun q => decide (q.length < 2) || decide (8 < q.length)) = false := by
      refine List.any_eq_false.2 fun q hq => ?_
      have hlength := List.all_eq_true.1 hlengths q hq
      simp only [Bool.and_eq_true, decide_eq_true_eq] at hlength
      simp only [Bool.or_eq_true, decide_eq_true_eq]
      omega
    rw [ifActive_of_servesNow hserves]
    simp only [Nat.not_le.2 hn, Nat.not_lt.2 htokens, Nat.not_lt.2 hmany, hfits, hfree, decide_false, Bool.or_self, Bool.false_eq_true, if_false]
  case ring =>
    refine serves_of_command (fun _ => rfl) fun _ s hpre => ?_
    simp only [Bool.and_eq_true, Option.isNone_iff_eq_none] at hpre
    obtain ⟨⟨hserves, hpar⟩, hunbound⟩ := hpre
    rw [ifActive_of_servesNow hserves]
    simp only [hpar, hunbound, Bool.not_true, Bool.false_eq_true, if_false, define_of_kind_ne_zero hkind]
  case ringDead =>
    refine serves_of_command (fun _ => rfl) fun _ s hpre => ?_
    simp only [Bool.and_eq_true, decide_eq_true_eq] at hpre
    obtain ⟨⟨⟨⟨⟨⟨hserves, hpar⟩, hbound⟩, hended⟩, hheld⟩, hring⟩, hdead⟩ := hpre
    rw [ifActive_of_servesNow hserves]
    simp only [hpar, hbound, hended, hheld, hring, hdead, Option.elim_some, Bool.not_true, Bool.and_self, Bool.false_eq_true, if_false, if_true]
  case samplerNow =>
    intro s k s' htaken hpre
    simp only [Bool.and_eq_true, Bool.or_eq_true, decide_eq_true_eq, Bool.not_eq_true'] at hpre
    obtain ⟨⟨⟨⟨hserves, hn⟩, hok⟩, hidle⟩, hbias⟩ := hpre
    rw [exec_smpSet htaken hserves hn hok hbias, hidle, if_neg Bool.false_ne_true, biasRead]
  case samplerLater =>
    intro s k s' htaken hpre
    simp only [Bool.and_eq_true, Bool.or_eq_true, decide_eq_true_eq, Bool.not_eq_true'] at hpre
    obtain ⟨⟨⟨⟨hserves, hn⟩, hok⟩, hlive⟩, hbias⟩ := hpre
    rw [exec_smpSet htaken hserves hn hok hbias, if_pos hlive, biasRead]
  case sampler =>
    refine serves_of_command (fun _ => rfl) fun _ s hpre => ?_
    simp only [Bool.and_eq_true, decide_eq_true_eq] at hpre
    obtain ⟨hdefined, hset⟩ := hpre
    simp only [hdefined, hset, Bool.not_true, Bool.false_eq_true, if_false]
  case pool =>
    refine serves_of_command (fun _ => rfl) fun k s hpre => ?_
    simp only [Bool.and_eq_true, decide_eq_true_eq, Bool.not_eq_true'] at hpre
    obtain ⟨⟨⟨⟨hlots, hmany⟩, hlow⟩, hhigh⟩, hstage⟩ := hpre
    simp only [hlots, Nat.not_lt.2 hmany, Nat.not_lt.2 hlow, Nat.not_lt.2 hhigh, decide_false, Bool.or_self, Bool.false_eq_true, if_false,
      stageCtx_ok hstage]
  case poolGet =>
    refine answers_of_command (fun _ => rfl) fun _ s hdefined => ?_
    simp only [hdefined, Bool.not_true, Bool.false_eq_true, if_false]
    exact ⟨rfl, rfl, rfl⟩
  case evict =>
    refine serves_of_command (fun _ => rfl) fun k s hpre => ?_
    simp only [Bool.and_eq_true, Bool.not_eq_true'] at hpre
    obtain ⟨hdefined, hown⟩ := hpre
    simp only [hdefined, hown, Bool.not_true, Bool.false_eq_true, if_false]
  case buckets =>
    refine serves_of_command (fun _ => rfl) fun k s hpre => ?_
    simp only [Bool.and_eq_true, decide_eq_true_eq] at hpre
    obtain ⟨hcuts, hstage⟩ := hpre
    rw [if_neg (not_not_intro hcuts), stageCtx_ok hstage]
  case list =>
    refine serves_of_command (fun _ => rfl) fun _ s hpre => ?_
    simp only [Bool.and_eq_true, decide_eq_true_eq, Bool.not_eq_true'] at hpre
    obtain ⟨⟨⟨⟨hdefined, hslice⟩, hlive⟩, hlot⟩, hclean⟩ := hpre
    simp only [hdefined, hslice, hlive, hlot, hclean, Bool.not_true, Bool.false_eq_true, if_false]

end Sys2Proof.Machine
end

section
/-! SUPPORT. The request commands (R383–R385, R389, R423): which entry an admission takes, and what an admission leaves as it was. -/
namespace Sys2Proof.Machine

/-- A number reduced by a list's length picks one of its members. -/
theorem getD_mod_mem {l : List Nat} (hl : l ≠ []) (n d : Nat) : l.getD (n % l.length) d ∈ l := by
  have hlt : n % l.length < l.length := Nat.mod_lt _ (List.length_pos_iff.2 hl)
  rw [List.getD_eq_getElem?_getD, List.getElem?_eq_getElem hlt, Option.getD_some]
  exact List.getElem_mem hlt

/-- R385: the entry that an admission takes; the free value chooses among the FREE ones. -/
def admitEntry (s : State) (c : Nat) : Nat :=
  (freeEntries s c).getD ((takeFree s).1 % max 1 (freeEntries s c).length) (ctxOf s c).sliceBase

theorem admitEntry_mem {s : State} {c : Nat} (hfree : (freeEntries s c).isEmpty = false) : admitEntry s c ∈ freeEntries s c := by
  have hne : freeEntries s c ≠ [] := List.isEmpty_eq_false_iff.1 hfree
  rw [admitEntry, Nat.max_eq_right (List.length_pos_iff.2 hne)]
  exact getD_mod_mem hne _ _

/-- R351, R384: what an admission reads of the mask lot, under the mask that has its lengths there. -/
def maskReads (s : State) (c x : Nat) (m : Model) : List (Nat × Nat) :=
  [((serveOf s c).pool.maskLot + 64 * x, if m.att.mask = 3 && (serveOf s c).pool.maskLot ≠ 0 then 4 else 0)].filter (·.2 ≠ 0)

theorem maskReads_clean {s : State} {c x : Nat} {m : Model}
    (hclean : (m.att.mask = 3 && (serveOf s c).pool.maskLot ≠ 0 && rangeBad s ((serveOf s c).pool.maskLot + 64 * x) 4) = false) :
    (maskReads s c x m).any (fun a => rangeBad s a.1 a.2) = false := by
  unfold maskReads
  by_cases hmask : m.att.mask = 3 ∧ (serveOf s c).pool.maskLot ≠ 0
  · simpa [hmask] using hclean
  · simp [hmask]

theorem reqOf_noteChange (c x : Nat) (s : State) : reqOf (noteChange c s) x = reqOf s x := rfl

/-- R383, R385: the state in which the request stands in the table. -/
def admitState (c : Nat) (p : AdmitPar) (m : Model) (cmd : Stamp) (s : State) : State :=
  noteChange c (modReq (admitEntry s c) (fun _ => admitted s c p cmd) (squareReads (maskReads s c (admitEntry s c) m) (takeFree s).2))

theorem reqOf_admitState (c : Nat) (p : AdmitPar) (m : Model) (cmd : Stamp) (s : State) :
    reqOf (admitState c p m cmd s) (admitEntry s c) = admitted s c p cmd := by
  rw [admitState, reqOf_noteChange, reqOf_modReq, if_pos rfl]

theorem restartable_admitState (c : Nat) (p : AdmitPar) (m : Model) (cmd : Stamp) (s : State) :
    restartable (admitState c p m cmd s) c = restartable s c := by
  have hred : redOf (admitState c p m cmd s) c = redOf s c := by
    simp only [redOf, admitState, noteChange_parts, modReq_parts, squareReads_parts, takeFree_parts]
  exact congrArg (fun r : RedCtx => decide (r.par.mode = 2)) hred

/-- R383–R385: an admission that no check refuses, of a context whose requests are not restartable. -/
theorem exec_reqAdmit {h : Hdr} {c : Nat} {p : AdmitPar} {m : Model} {s₀ s : State} {call : Call}
    (htaken : Taken h (serveSpec 0x0500 c false false) s₀ call s) (hpriority : p.priority < 8) (hdrain : s.red.drain = .none)
    (hserves : servesNow s c = true) (hrunning : (funcOf s (fidContext c)).state = .running) (hmodel : modelOf s c p.model = some m)
    (hrole : m.rec_.role = 1) (hplain : restartable s c = false) (hfree : (freeEntries s c).isEmpty = false)
    (hadmit : admitRefused s c (admitEntry s c) p call.stamp m = none)
    (hclean : (maskReads s c (admitEntry s c) m).any (fun a => rangeBad s a.1 a.2) = false) :
    exec (.reqAdmit h c p) s₀ = .next (answered call (okData (admitState c p m call.stamp s) [⟨2, admitEntry s c⟩])) := by
  obtain ⟨hdefined, hactive⟩ := (servesNow_iff s c).1 hserves
  have hjournal : ¬ restartable (admitState c p m call.stamp s) c = true := by
    rw [restartable_admitState, hplain]
    exact Bool.false_ne_true
  unfold admitState maskReads admitEntry at *
  refine congrArg Host.Outcome.next ((command_of_taken htaken).trans (congrArg (answered call) ?_))
  simp only [Nat.not_le.2 hpriority, hdrain, hactive, hrunning, hdefined, hmodel, hrole, hadmit, hclean, hfree, ne_eq, not_true_eq_false,
    decide_false, Bool.not_true, Bool.or_self, Bool.false_eq_true, if_false]
  exact congrArg (okData · _) (if_neg hjournal)

/-- Settles O19: each row by its own meaning, with the refusals that the conditions exclude; an admission takes the FREE entry that the free
value chooses, which the conditions on every FREE entry let through. -/
theorem requestCommandsComplete : Obligations.RequestCommandsComplete := by
  unfold Obligations.RequestCommandsComplete
  refine ⟨fun h c p m s k s' htaken hpre => ?admission, fun h c x => ?cancel, fun h c x n => ?update, fun h c x => ?get, fun h c => ?stats⟩
  case admission =>
    simp only [Bool.and_eq_true, decide_eq_true_eq, Bool.not_eq_true', List.all_eq_true, Option.isNone_iff_eq_none] at hpre
    obtain ⟨⟨⟨⟨⟨⟨⟨⟨hdrain, hserves⟩, hplain⟩, hrunning⟩, hpriority⟩, hmodel⟩, hrole⟩, hfree⟩, hall⟩ := hpre
    have hentry := admitEntry_mem hfree
    obtain ⟨hadmit, hclean⟩ := hall _ hentry
    exact ⟨_, exec_reqAdmit htaken hpriority hdrain hserves hrunning hmodel hrole hplain hfree hadmit (maskReads_clean hclean),
      admitEntry s' c, hentry, rfl, rfl, reqOf_admitState ..⟩
  case cancel =>
    refine serves_of_command (fun _ => rfl) fun k s hpre => ?_
    simp only [Bool.and_eq_true, decide_eq_true_eq] at hpre
    obtain ⟨⟨⟨⟨hserves, hslice⟩, hlive⟩, hdone⟩, hcancelled⟩ := hpre
    rw [ifActive_of_servesNow hserves, hslice]
    cases hstate : (reqOf s x).state with
    | free => exact absurd hstate hlive
    | done => exact absurd hstate hdone
    | cancelled => exact absurd hstate hcancelled
    | _ => rfl
  case update =>
    refine serves_of_command (fun _ => rfl) fun k s hpre => ?_
    simp only [Bool.and_eq_true, decide_eq_true_eq] at hpre
    obtain ⟨⟨⟨hserves, hslice⟩, hlive⟩, hn⟩ := hpre
    rw [ifActive_of_servesNow hserves]
    simp only [hslice, hlive, Option.getD_some, Nat.not_le.2 hn, decide_false, Bool.not_true, Bool.or_self, Bool.false_eq_true, if_false,
      Option.map_none, Option.orElse_some, Option.orElse_none]
  case get =>
    refine serves_of_command (fun _ => rfl) fun _ s hpre => ?_
    obtain ⟨hdefined, hslice⟩ := Bool.and_eq_true_iff.1 hpre
    simp only [hdefined, hslice, Bool.not_true, Bool.false_eq_true, if_false]
  case stats =>
    refine answers_of_command (fun _ => rfl) fun _ s hdefined => ?_
    simp only [hdefined, Bool.not_true, Bool.false_eq_true, if_false]
    exact ⟨rfl, rfl, rfl⟩

end Sys2Proof.Machine
end

section
/-! SUPPORT. The quota of a context (R412, R614) through an access to a yard: of what the contexts hold, an access changes the pages and the key
of an old epoch alone (callees stand before their callers). -/
namespace Sys2Proof.Machine

/-! ### Operations that leave what the contexts hold -/

@[simp] theorem ceThreshold_sec (g n : Nat) (s : State) : (ceThreshold g n s).sec = s.sec := by
  unfold ceThreshold
  split <;> simp

@[simp] theorem dueThreshold_sec (g n : Nat) (s : State) : (dueThreshold g n s).sec = s.sec := by
  unfold dueThreshold
  split <;> simp

@[simp] theorem countGroup_sec (g a : Nat) (o : WordOutcome) (x : Nat) (s : State) : (countGroup g a o x s).sec = s.sec := by
  cases o <;> simp [countGroup, issueStamp]

@[simp] theorem countErr_sec (a x : Nat) (s : State) : (countErr a x s).sec = s.sec := by
  simp only [countErr]
  (repeat' split) <;> simp

theorem consumeCount_sec (a n : Nat) (s : State) : (consumeCount a n s).sec = s.sec :=
  foldl_part (·.sec) (fun s w => by dsimp only; split <;> simp) _ s

@[simp] theorem putBytes_sec (a : Nat) (l : List Byte) (s : State) : (putBytes a l s).sec = s.sec := by
  induction l generalizing a s with
  | nil => rfl
  | cons v r ih => exact ih _ _

@[simp] theorem engineWord_sec (w : Nat) (s : State) : (engineWord w s).sec = s.sec := by
  simp only [engineWord]
  split <;> simp

@[simp] theorem passEngine_sec (a : Nat) (s : State) : (passEngine a s).sec = s.sec := by
  unfold passEngine
  split
  · rfl
  · exact foldl_part (·.sec) (fun s w => engineWord_sec w s) _ s

@[simp] theorem engineRead_sec (a : Nat) (s : State) : (engineRead a s).sec = s.sec := by
  unfold engineRead
  split
  · rfl
  · exact foldl_part (·.sec) (fun s w => by split <;> simp) _ s

theorem engineBeneath_sec (w : Nat) (s : State) : (engineBeneath w s).sec = s.sec := by
  simp only [engineBeneath]
  split <;> simp [setBeneath]

theorem rekeyBurst_sec (a : Nat) (s : State) : (rekeyBurst a s).sec = s.sec := by
  unfold rekeyBurst
  split <;> simp

theorem fillLine_sec (g a : Nat) (s : State) : (fillLine g a s).sec = s.sec := by
  simp only [fillLine, rekeyBurst_sec]
  split
  · rfl
  · exact foldl_part (·.sec) (fun s w => by split <;> simp [changeCopy, setBeneath]) _ _

theorem uncover_sec (g : Nat) (l : Line) (s : State) : (uncover g l s).sec = s.sec := by
  simp only [uncover]
  split
  · rfl
  · exact foldl_part (·.sec) (fun s h => by simp) _ _

theorem meshTraffic_sec (src : MeshSource) (a n : Nat) (cls : TrafficClass) (use : YardUse) (s : State) :
    (meshTraffic src a n cls use s).sec = s.sec :=
  foldl_part (·.sec) (fun s l => by split <;> rfl) _ s

theorem edgeTag_sec (a : Nat) (s : State) : (edgeTag a s).sec = s.sec := by
  simp only [edgeTag]
  split <;> simp

/-! ### The quota -/

/-- R412: how many veneer slots a context may hold. -/
def quotaOf (s : State) (c : Nat) : Nat := (ctxOf s c).quota

theorem quotaOf_of_sec {s t : State} (hsec : t.sec = s.sec) (c : Nat) : quotaOf t c = quotaOf s c := by
  simp only [quotaOf, ctxOf, hsec]

theorem quotaOf_modCtx (d c : Nat) {f : CtxSt → CtxSt} (s : State) (hf : ∀ x, (f x).quota = x.quota) :
    quotaOf (modCtx d f s) c = quotaOf s c := by
  rw [quotaOf, ctxOf_modCtx]
  split
  · next hd => rw [hf, hd, quotaOf]
  · rfl

@[simp] theorem quotaOf_ite (p : Prop) [Decidable p] (a b : State) (c : Nat) :
    quotaOf (if p then a else b) c = if p then quotaOf a c else quotaOf b c := apply_ite (quotaOf · c) p a b

@[simp] theorem quotaOf_gauge (u i n : Nat) (s : State) (c : Nat) : quotaOf (gauge u i n s) c = quotaOf s c := rfl

@[simp] theorem quotaOf_modYard (g : Nat) (f : YardSt → YardSt) (s : State) (c : Nat) : quotaOf (modYard g f s) c = quotaOf s c := rfl

@[simp] theorem quotaOf_takeFree (s : State) (c : Nat) : quotaOf (takeFree s).2 c = quotaOf s c := rfl

@[simp] theorem quotaOf_passEngine (a : Nat) (s : State) (c : Nat) : quotaOf (passEngine a s) c = quotaOf s c :=
  quotaOf_of_sec (passEngine_sec ..) c

@[simp] theorem quotaOf_sweepEnded (d : Nat) (had : Bool) (s : State) (c : Nat) : quotaOf (sweepEnded d had s) c = quotaOf s c := by
  unfold sweepEnded
  split
  · exact (quotaOf_of_sec (record_sec ..) c).trans (quotaOf_modCtx _ _ _ fun _ => rfl)
  · rfl

@[simp] theorem quotaOf_sweepOne (d p : Nat) (s : State) (c : Nat) : quotaOf (sweepOne d p s) c = quotaOf s c := by
  have hpage (l : List (Nat × List Byte)) (k : Nat) (t : State) :
      quotaOf (l.foldl (fun s b => tagBurst b.1 k (putBytes (256 * b.1) b.2 s)) t) c = quotaOf t c :=
    foldl_part (quotaOf · c) (fun s b => quotaOf_of_sec (by simp) c) l t
  have hwords (l : List Nat) :
      quotaOf (l.foldl (fun s w => if lineHeld s (16 * w) then engineBeneath w s else engineWord w s) s) c = quotaOf s c :=
    foldl_part (quotaOf · c) (fun s w => quotaOf_of_sec (by split <;> simp [engineBeneath_sec]) c) l s
  rw [sweepOne, quotaOf_gauge, quotaOf_gauge, hpage, quotaOf_modCtx, hwords]
  exact fun _ => rfl

@[simp] theorem quotaOf_sweepFirst (a : Nat) (s : State) (c : Nat) : quotaOf (sweepFirst a s) c = quotaOf s c := by
  unfold sweepFirst
  cases addrOwner s a with
  | none => rfl
  | some d => simp

@[simp] theorem quotaOf_writeBack (a : Nat) (s : State) (c : Nat) : quotaOf (writeBack a s) c = quotaOf s c :=
  (quotaOf_passEngine ..).trans (quotaOf_sweepFirst ..)

@[simp] theorem quotaOf_dropLine (g : Nat) (l : Line) (s : State) (c : Nat) : quotaOf (dropLine g l s) c = quotaOf s c := by
  simp [dropLine, quotaOf_of_sec (uncover_sec ..)]

@[simp] theorem quotaOf_allocLine (g a : Nat) (dirty fill : Bool) (due : Option Nat) (s : State) (c : Nat) :
    quotaOf (allocLine g a dirty fill due s) c = quotaOf s c := by
  unfold allocLine
  dsimp only
  (repeat' split) <;> simp [quotaOf_of_sec (fillLine_sec ..)]

@[simp] theorem quotaOf_touchLine (g a : Nat) (cls : TrafficClass) (use : YardUse) (whole : Bool) (s : State) (c : Nat) :
    quotaOf (touchLine g a cls use whole s) c = quotaOf s c := by
  simp [touchLine, quotaOf_of_sec (engineRead_sec ..)]

@[simp] theorem quotaOf_yardAccess (a n : Nat) (cls : TrafficClass) (use : YardUse) (s : State) (c : Nat) :
    quotaOf (yardAccess a n cls use s) c = quotaOf s c := by
  unfold yardAccess
  cases windowOf a with
  | lpddr g => exact foldl_part (quotaOf · c) (fun s l => by split <;> simp) _ s
  | _ => rfl

@[simp] theorem quotaOf_touchYard (src : MeshSource) (a n : Nat) (cls : TrafficClass) (use : YardUse) (s : State) (c : Nat) :
    quotaOf (touchYard src a n cls use s) c = quotaOf s c := by
  cases src with
  | edge e =>
    exact (quotaOf_yardAccess ..).trans ((quotaOf_of_sec (meshTraffic_sec ..) c).trans (quotaOf_of_sec (edgeTag_sec ..) c))
  | _ => exact (quotaOf_yardAccess ..).trans (quotaOf_of_sec (meshTraffic_sec ..) c)

/-- R242: what the Square reads leaves the quotas. -/
theorem quotaOf_squareReads (l : List (Nat × Nat)) (s : State) (c : Nat) : quotaOf (squareReads l s) c = quotaOf s c :=
  foldl_part (quotaOf · c) (fun _ _ => (quotaOf_touchYard ..).trans (quotaOf_of_sec (consumeCount_sec ..) c)) l s

end Sys2Proof.Machine
end

section
/-! SUPPORT. The veneer commands (R412–R417, R424): a slot that starts to fill, what a package asks for, and the end of a filling. -/
namespace Sys2Proof.Machine

/-! ### A slot starts to fill -/

/-- A slot that starts to fill, as it stands then: it trains, or it loads. -/
def startedVen (c : Nat) (v : Veneer) : Veneer := { v with state := if v.trains then .training else .loading, owner := c }

/-- R412, R424: with a FREE slot within the quota the command is accepted into one of the FREE slots. -/
theorem startVen_accepts {s : State} {c : Nat} (hfree : (freeSlots s).isEmpty = false) (hquota : slotsHeld s c < (ctxOf s c).quota) (v : Veneer) :
    (startVen c v s).status = .accepted ∧ ∃ i ∈ freeSlots s, (startVen c v s).work = some (.venLoad, i) ∧
      venOf (startVen c v s).s i = startedVen c v := by
  have hroom : ((freeSlots s).isEmpty || decide ((ctxOf s c).quota ≤ slotsHeld s c)) = false := by
    rw [hfree, Bool.false_or, decide_eq_false (Nat.not_le.2 hquota)]
  simp only [startVen, hroom, Bool.false_eq_true, if_false]
  exact ⟨rfl, _, getD_mod_mem (List.isEmpty_eq_false_iff.1 hfree) _ _, rfl, (venOf_modVen ..).trans (if_pos rfl)⟩

/-! ### Packages -/

/-! The slots do not lie in the memory that the Square reads. -/

theorem freeSlots_squareReads (l : List (Nat × Nat)) (s : State) : freeSlots (squareReads l s) = freeSlots s := by
  have hven (i : Nat) : venOf (squareReads l s) i = venOf s i := by simp only [venOf, squareReads_parts]
  exact List.filter_congr fun i _ => by rw [hven]

theorem slotsHeld_squareReads (l : List (Nat × Nat)) (s : State) (c : Nat) : slotsHeld (squareReads l s) c = slotsHeld s c := by
  simp only [slotsHeld, squareReads_parts]

theorem liveSlot_squareReads (l : List (Nat × Nat)) (s : State) (c name : Nat) : liveSlot (squareReads l s) c name = liveSlot s c name := by
  simp only [liveSlot, squareReads_parts]

/-- R631: the veneer that a package describes. -/
def packVeneer (s : State) (p : VenPar) (replace : Bool) : Veneer :=
  { name := (packHeader s p.addr).2.1, version := (packHeader s p.addr).2.2.1, model := p.model, rank := (packHeader s p.addr).2.2.2
    addr := p.addr, len := p.len, replaces := replace }

/-- R424, R631, R638: a package whose header reads well and describes a veneer. -/
def PackFits (s : State) (c : Nat) (p : VenPar) : Prop :=
  packageOk s c p = true ∧ (modelOf s c p.model).isSome = true ∧ rangeBad s p.addr 128 = false ∧ (packHeader s p.addr).1 = 1 ∧
    (packHeader s p.addr).2.1 ≠ 0 ∧ 1 ≤ (packHeader s p.addr).2.2.2 ∧ (packHeader s p.addr).2.2.2 ≤ 256

/-- R414: the LIVE slot of a name lets a version start: VEN_LOAD (`replace` not set) finds none, VEN_REPLACE one of a lower version. -/
def VersionStarts (s : State) (c name version : Nat) (replace : Bool) : Prop :=
  (liveSlot s c name).elim (replace = false) fun o => replace = true ∧ o.2.version < version

/-- R414, R424: a package that fits starts in a slot, once its header has been read. -/
theorem loadVen_eq_startVen {s : State} {c : Nat} {p : VenPar} {replace : Bool} (hfits : PackFits s c p)
    (hstarts : VersionStarts s c (packHeader s p.addr).2.1 (packHeader s p.addr).2.2.1 replace) :
    loadVen c p replace s = startVen c (packVeneer s p replace) (squareReads [(p.addr, 128)] s) := by
  obtain ⟨hallowed, hmodel, hclean, hkind, hname, hlow, hhigh⟩ := hfits
  simp only [loadVen, hallowed, Option.isNone_eq_false_iff.2 hmodel, hclean, hkind, hname, Nat.ne_of_gt hlow, Nat.not_lt.2 hhigh,
    liveSlot_squareReads, ne_eq, not_true_eq_false, decide_false, Bool.not_true, Bool.or_self, Bool.false_eq_true, if_false]
  unfold VersionStarts at hstarts
  cases hlive : liveSlot s c (packHeader s p.addr).2.1 with
  | none =>
    rw [hlive] at hstarts
    obtain rfl : replace = false := hstarts
    rfl
  | some o =>
    rw [hlive] at hstarts
    obtain ⟨rfl, hnewer⟩ := hstarts
    exact if_neg (Nat.not_le.2 hnewer)

/-- R412, R424: such a package is accepted into a slot that was FREE before its header was read. -/
theorem loadVen_accepts {s : State} {c : Nat} {p : VenPar} {replace : Bool} (hfits : PackFits s c p)
    (hstarts : VersionStarts s c (packHeader s p.addr).2.1 (packHeader s p.addr).2.2.1 replace)
    (hfree : (freeSlots s).isEmpty = false) (hquota : slotsHeld s c < (ctxOf s c).quota) :
    (loadVen c p replace s).status = .accepted ∧ ∃ i ∈ freeSlots s, (loadVen c p replace s).work = some (.venLoad, i) ∧
      venOf (loadVen c p replace s).s i = startedVen c (packVeneer s p replace) := by
  rw [loadVen_eq_startVen hfits hstarts, ← freeSlots_squareReads [(p.addr, 128)] s]
  refine startVen_accepts ?_ ?_ _
  · rwa [freeSlots_squareReads]
  · rw [slotsHeld_squareReads]
    exact lt_of_lt_of_eq hquota (quotaOf_squareReads _ s c).symm

/-- Settles O21: each row by its own meaning, with the refusals that the conditions exclude; a slot is found for a package as it would be
before its header was read. -/
theorem veneersComplete : Obligations.VeneersComplete := by
  unfold Obligations.VeneersComplete
  refine ⟨fun h c p => ?load, fun h c p o => ?replace, fun h c slot => ?unload, fun h c => ?get, fun h c model rank desc lot => ?trainBegin,
    fun h c slot batch => ?trainStep, fun h c slot name version => ?publish, fun dt slot => ?filledTrains, fun dt slot => ?filledLive,
    fun dt slot => ?waits, fun dt slot => ?unreadable⟩
  case load =>
    refine answers_of_command (fun _ => rfl) fun _ s hpre => ?_
    simp only [Bool.and_eq_true, decide_eq_true_eq, Bool.not_eq_true', Option.isNone_iff_eq_none] at hpre
    obtain ⟨⟨⟨⟨⟨⟨⟨⟨⟨⟨hserves, hallowed⟩, hmodel⟩, hclean⟩, hkind⟩, hname⟩, hlow⟩, hhigh⟩, hlive⟩, hfree⟩, hquota⟩ := hpre
    have hstarts : VersionStarts s c (packHeader s p.addr).2.1 (packHeader s p.addr).2.2.1 false := by rw [VersionStarts, hlive]; rfl
    rw [ifActive_of_servesNow hserves]
    obtain ⟨hstatus, i, hi, hwork, hven⟩ :=
      loadVen_accepts ⟨hallowed, hmodel, hclean, hkind, hname, hlow, hhigh⟩ hstarts hfree hquota
    exact ⟨hstatus, i, hi, hwork, by rw [hven]; exact ⟨rfl, rfl, rfl⟩⟩
  case replace =>
    refine answers_of_command (fun _ => rfl) fun _ s hpre => ?_
    simp only [Bool.and_eq_true, decide_eq_true_eq, Bool.not_eq_true'] at hpre
    obtain ⟨⟨⟨⟨⟨⟨⟨⟨⟨⟨⟨hserves, hallowed⟩, hmodel⟩, hclean⟩, hkind⟩, hname⟩, hlow⟩, hhigh⟩, hlive⟩, hnewer⟩, hfree⟩, hquota⟩ := hpre
    have hstarts : VersionStarts s c (packHeader s p.addr).2.1 (packHeader s p.addr).2.2.1 true := by
      rw [VersionStarts, hlive]
      exact ⟨rfl, hnewer⟩
    rw [ifActive_of_servesNow hserves]
    obtain ⟨hstatus, i, hi, hwork, hven⟩ :=
      loadVen_accepts ⟨hallowed, hmodel, hclean, hkind, hname, hlow, hhigh⟩ hstarts hfree hquota
    exact ⟨hstatus, i, hi, hwork, by rw [hven]; rfl⟩
  case unload =>
    refine serves_of_command (fun _ => rfl) fun _ s hpre => ?_
    simp only [Bool.and_eq_true, decide_eq_true_eq] at hpre
    obtain ⟨⟨⟨⟨hserves, hslot⟩, howner⟩, hlive⟩, hunused⟩ := hpre
    rw [ifActive_of_servesNow hserves]
    simp only [Nat.not_le.2 hslot, howner, hlive, hunused, ne_eq, not_true_eq_false, decide_false, Bool.and_false, Bool.or_self,
      Bool.false_eq_true, if_false]
  case get => exact serves_of_command (fun _ => rfl) fun k s hserves => ifActive_of_servesNow hserves _ k
  case trainBegin =>
    refine answers_of_command (fun _ => rfl) fun _ s hpre => ?_
    simp only [Bool.and_eq_true, decide_eq_true_eq, Bool.not_eq_true'] at hpre
    obtain ⟨⟨⟨⟨⟨⟨⟨hserves, hlots⟩, hdesc⟩, hmodel⟩, hlow⟩, hhigh⟩, hfree⟩, hquota⟩ := hpre
    rw [ifActive_of_servesNow hserves]
    simp only [hlots, hdesc, Option.isNone_eq_false_iff.2 hmodel, Nat.ne_of_gt hlow, Nat.not_lt.2 hhigh, decide_false, Bool.not_true,
      Bool.or_self, Bool.false_eq_true, if_false]
    obtain ⟨hstatus, i, hi, hwork, hven⟩ := startVen_accepts hfree hquota
      { model := model, rank := rank, trains := true, descAddr := desc, stateLot := lot }
    exact ⟨hstatus, i, hi, hwork, by rw [hven]; exact ⟨rfl, rfl, rfl⟩⟩
  case trainStep =>
    refine serves_of_command (fun _ => rfl) fun _ s hpre => ?_
    simp only [Bool.and_eq_true, decide_eq_true_eq, Bool.not_eq_true'] at hpre
    obtain ⟨⟨⟨⟨⟨hserves, hslot⟩, howner⟩, htraining⟩, hfilled⟩, hbatch⟩ := hpre
    rw [ifActive_of_servesNow hserves]
    simp only [Nat.not_le.2 hslot, howner, htraining, hfilled, hbatch, ne_eq, not_true_eq_false, decide_false, Bool.not_true, Bool.or_self,
      Bool.false_eq_true, if_false]
    rfl
  case publish =>
    refine serves_of_command (fun _ => rfl) fun _ s hpre => ?_
    simp only [Bool.and_eq_true, decide_eq_true_eq, Bool.not_eq_true'] at hpre
    obtain ⟨⟨⟨⟨⟨⟨⟨hserves, hslot⟩, howner⟩, hname⟩, htraining⟩, hfilled⟩, hidle⟩, hnewer⟩ := hpre
    have hold : ((liveSlot s c name).elim false fun o => decide (version ≤ o.2.version)) = false := by
      cases hlive : liveSlot s c name with
      | none => rfl
      | some o =>
        rw [hlive] at hnewer
        exact decide_eq_false (Nat.not_le.2 (of_decide_eq_true hnewer))
    rw [ifActive_of_servesNow hserves]
    simp only [Nat.not_le.2 hslot, howner, hname, htraining, hfilled, hidle, hold, ne_eq, not_true_eq_false, decide_false, Bool.or_self,
      Bool.false_eq_true, if_false]
  case filledTrains =>
    refine occurs_of_event (fun _ => rfl) fun s hpre => ?_
    simp only [Bool.and_eq_true, Bool.or_eq_true, decide_eq_true_eq, Bool.not_eq_true'] at hpre
    obtain ⟨⟨htrains, hroom⟩, hclean⟩ := hpre
    have hreads : (decide ((venOf s slot).len ≠ 0) && rangeBad s (venOf s slot).addr (venOf s slot).len) = false := by
      rcases hclean with hempty | hclean
      · rw [hempty]; rfl
      · rw [hclean, Bool.and_false]
    simp only [htrains, hroom, hreads, Bool.not_true, Bool.and_false, Bool.or_self, Bool.false_eq_true, if_false, if_true]
  case filledLive =>
    refine occurs_of_event (fun _ => rfl) fun s hpre => ?_
    simp only [Bool.and_eq_true, decide_eq_true_eq, Bool.not_eq_true'] at hpre
    obtain ⟨⟨⟨⟨hloading, hplain⟩, hroom⟩, hlen⟩, hclean⟩ := hpre
    simp only [hloading, hplain, hroom, hlen, hclean, ne_eq, not_true_eq_false, decide_false, Bool.not_true, Bool.false_and, Bool.and_false,
      Bool.or_self, Bool.false_eq_true, if_false]
  case waits =>
    refine occurs_of_event (fun _ => rfl) fun s hpre => if_pos ?_
    rw [hpre, Bool.or_true]
  case unreadable =>
    refine occurs_of_event (fun _ => rfl) fun s hpre => ?_
    simp only [Bool.and_eq_true, Bool.or_eq_true, decide_eq_true_eq] at hpre
    obtain ⟨⟨⟨hfilling, hroom⟩, hlen⟩, hbad⟩ := hpre
    have hfills : (decide ((venOf s slot).state ≠ .loading) && !(venOf s slot).trains) = false := by
      rcases hfilling with hloading | htrains
      · rw [hloading]; rfl
      · rw [htrains, Bool.not_true, Bool.and_false]
    simp only [hfills, hroom, hlen, hbad, ne_eq, not_false_eq_true, decide_true, Bool.not_true, Bool.or_self, Bool.and_self,
      Bool.false_eq_true, if_false, if_true]

end Sys2Proof.Machine
end

section
/-! SUPPORT. Shipments (R418, R419, R469): messages that carry no acknowledgement of a lane, and the shipment that an announcement starts. -/
namespace Sys2Proof.Machine

/-- A message that says nothing of a lane's acknowledgement, once it is taken, goes on to what it does. -/
theorem receiveModule_noAck_taken {m : XMsg} {body : State → State} {s : State} (h : msgTaken (noAck m) s = true) :
    receiveModule (noAck m) body s = body (moduleState (noAck m) s) := receiveModule_taken h

theorem transmit_ships (x : Sent) (s : State) : (transmit x s).net.ships = s.net.ships := by
  unfold transmit
  split <;> rfl

/-- R418: the shipment that the receiver of an announcement starts, for a request whose pages are secured. -/
def announcedShip (m : XMsg) (p : ShipPar) (x : Nat) (s : State) : Shipment :=
  { req := x, sender := false, peer := m.srcM, peerCtx := m.srcC, shipId := m.operand, pages := p.pages, accepted := true
    announcedAt := now s, lastPage := now s, moved := (reqOf s x).list.length, token := p.token, tokenStamp := p.tokenStamp }

/-- R418: an announcement that fits its waiting request, of no shipment yet, secures the pages, and its shipment is accepted. -/
theorem exec_pageShipAnnounce_secured {dt x : Nat} {m : XMsg} {p : ShipPar} {q : Model} {s v u : State}
    (htaken : msgTaken (noAck m) (advance dt s) = true) (hv : moduleState (noAck m) (advance dt s) = v)
    (hwaits : waitingFor v m = some x) (hnew : shipOf v x = none) (hmodel : modelOf v (reqOf v x).ctx (reqOf v x).model = some q)
    (hd : p.d = q.att.d) (hhb : p.hb = q.att.hb) (hfmt : p.fmt = q.att.fmt) (hlayers : p.layers = q.att.layers)
    (hpages : securePages (reqOf v x).ctx x ((reqOf v x).promptLen + 1) .inTransit 2048 v = some u) :
    exec (.pageShipAnnounce dt m p) s = .next (sendAccept m (reqOf v x).ctx
      { modReq x (fun r => { r with expected := p.pages, arrived := 0 }) u with
        net := { u.net with ships := u.net.ships ++ [announcedShip m p x u] } }) := by
  refine congrArg Host.Outcome.next ((receiveModule_noAck_taken htaken).trans ?_)
  simp only [hv, hwaits, hnew, hmodel, hd, hhb, hfmt, hlayers, hpages, ne_eq, not_true_eq_false, decide_false, Bool.or_self,
    Bool.false_eq_true, if_false]
  rfl

/-- Settles O27: each message by its own meaning once it is taken, and each limit by the shipment whose time has passed. -/
theorem shipmentsAct : Obligations.ShipmentsAct := by
  unfold Obligations.ShipmentsAct
  refine ⟨fun dt m p x h => ?announcedAgain, fun dt m p x q u s hpre => ?announced, fun dt m h => ?accepted, fun dt m => ?page,
    fun dt m => ?scales, fun dt m => ?doneAck, fun dt x h => ?resend, fun dt x h => ?noPage, fun dt x h e => ?unacknowledged⟩
  case announcedAgain =>
    refine occurs_of_event (fun _ => rfl) fun s hpre => ?_
    simp only [Bool.and_eq_true, decide_eq_true_eq] at hpre
    obtain ⟨⟨⟨htaken, hwaits⟩, hship⟩, haccepted⟩ := hpre
    refine (receiveModule_noAck_taken htaken).trans ?_
    simp only [hwaits, hship, haccepted, if_true]
  case announced =>
    simp only [Bool.and_eq_true, decide_eq_true_eq, Option.isNone_iff_eq_none] at hpre
    obtain ⟨⟨⟨⟨⟨⟨⟨⟨htaken, hwaits⟩, hnew⟩, hmodel⟩, hd⟩, hhb⟩, hfmt⟩, hlayers⟩, hpages⟩ := hpre
    refine ⟨_, exec_pageShipAnnounce_secured htaken rfl hwaits hnew hmodel hd hhb hfmt hlayers hpages, announcedShip m p x u, ?_,
      rfl, rfl, rfl, rfl, rfl⟩
    rw [sendAccept, transmit_ships]
    exact List.mem_append_right _ (List.mem_singleton_self _)
  case accepted =>
    refine occurs_of_event (fun _ => rfl) fun s hpre => ?_
    simp only [Bool.and_eq_true, decide_eq_true_eq] at hpre
    obtain ⟨htaken, hship⟩ := hpre
    refine (receiveModule_noAck_taken htaken).trans ?_
    simp only [hship]
  case page => exact occurs_of_event (fun _ => rfl) fun _ => receiveLane_taken
  case scales => exact occurs_of_event (fun _ => rfl) fun _ => receiveLane_taken
  case doneAck => exact occurs_of_event (fun _ => rfl) fun _ => receiveLane_taken
  case resend =>
    refine occurs_of_event (fun _ => rfl) fun s hpre => ?_
    simp only [Bool.and_eq_true, decide_eq_true_eq, Bool.not_eq_true'] at hpre
    obtain ⟨⟨⟨⟨hship, hsender⟩, hopen⟩, hdue⟩, hearly⟩ := hpre
    simp only [hship, hsender, hopen, Nat.not_lt.2 hdue, Nat.not_le.2 hearly, decide_false, Bool.not_true, Bool.or_self, Bool.false_eq_true,
      if_false]
  case noPage =>
    refine occurs_of_event (fun _ => rfl) fun s hpre => ?_
    simp only [Bool.and_eq_true, decide_eq_true_eq, Bool.not_eq_true'] at hpre
    obtain ⟨⟨⟨hship, hreceiver⟩, hmissing⟩, hdue⟩ := hpre
    simp only [hship, hreceiver, Nat.not_le.2 hmissing, Nat.not_lt.2 hdue, decide_false, Bool.or_self, Bool.false_eq_true, if_false]
  case unacknowledged =>
    refine occurs_of_event (fun _ => rfl) fun s hpre => ?_
    simp only [Bool.and_eq_true, decide_eq_true_eq, Bool.not_eq_true'] at hpre
    obtain ⟨⟨⟨⟨hship, hsender⟩, hsent⟩, hall⟩, hdue⟩ := hpre
    simp only [hship, hsender, hsent, hall, hdue, Bool.not_false, decide_true, Bool.and_self, if_true]

end Sys2Proof.Machine
end
